-- ==== Sys2Proof/Word.lean ====
section
/-! DEFINITION. The word types of the ZL-8 and the unit numbers of its blocks (R22, R25, R75). -/
namespace Sys2Proof

/-- One byte of device memory. -/
abbrev Byte := BitVec 8
/-- The data half of a CSR word (R496). -/
abbrev Half := BitVec 16
/-- A 32-bit word: a core instruction (R400), an immediate (R258). -/
abbrev Word32 := BitVec 32
/-- A 64-bit word: an instruction word (R208), a table word (R504), a core lane (R394). -/
abbrev Word64 := BitVec 64
/-- A 48-bit ticket or device physical address (R38, R490). -/
abbrev Word48 := BitVec 48

/-- TRUSS[d], CD[d], RIDGE[d], LATH[d]. -/
abbrev TrussId := Fin 4
/-- GA[i] and FD[i]. -/
abbrev ArrayId := Fin 8
/-- The local array or feeder of a compute die, named by MOD[0]. -/
abbrev LocalId := Fin 2
/-- HS[s], HBMC[s], LOFT[s]. -/
abbrev StackId := Fin 8
/-- GUTTER[g]. -/
abbrev SliceId := Fin 4
/-- A core within a slice (R392). -/
abbrev CoreId := Fin 16
/-- Ports as R508 numbers them: 0 to 19 are PORT[k], 20 and 21 are TWIN[0] and TWIN[1]. -/
abbrev PortId := Fin 22
/-- A clock domain, D00 to D59 (R25). -/
abbrev DomainId := Fin 60

end Sys2Proof
end

