-- ==== Sys2Proof/Syntax.lean ====
section
/-! DEFINITION. The commands of the ZL-8: one constructor of `Instr` per row of spec/opcode_table.json, and the types of
what a command carries (packets R332, frames R420, flits R446, messages R450). -/
namespace Sys2Proof

/-- Who makes a CSR access (R499, R501): the host over MCL, or the Keeper on the MC's behalf. -/
inductive Requester where
  | host | keeper
deriving DecidableEq, Repr

/-- The packet kinds of R333. -/
inductive Kind where
  | join | joinAck | bucketRs | bucketAg | agree | reduce | dispatch | dispatchEnd
  | combine | combineEnd | vote | drain | abandon | commit
deriving DecidableEq, Repr

/-- The code of a kind (R333). -/
def Kind.code : Kind → BitVec 8
  | .join => 1 | .joinAck => 2 | .bucketRs => 3 | .bucketAg => 4 | .agree => 5 | .reduce => 6 | .dispatch => 7
  | .dispatchEnd => 8 | .combine => 9 | .combineEnd => 10 | .vote => 11 | .drain => 12 | .abandon => 13 | .commit => 14

/-- The kind of a code; none where the code is reserved (R333). -/
def Kind.ofCode (c : BitVec 8) : Option Kind :=
  [Kind.join, .joinAck, .bucketRs, .bucketAg, .agree, .reduce, .dispatch, .dispatchEnd, .combine, .combineEnd, .vote,
   .drain, .abandon, .commit].find? (·.code == c)

/-- A Gutter packet (R332) with its route word (R422). `kind` is the KIND byte, reserved codes included. -/
structure Packet where
  dest    : BitVec 16
  plevel  : BitVec 4
  hops    : BitVec 3
  job     : BitVec 12
  gen     : BitVec 4
  kind    : BitVec 8
  flags   : BitVec 8
  ticket  : BitVec 48
  src     : BitVec 16
  seq     : BitVec 16
  eb      : BitVec 16
  bucket  : BitVec 32
  first   : BitVec 32
  nblk    : BitVec 16
  maxq    : BitVec 16
  drops   : BitVec 32
  payload : List Byte
deriving DecidableEq, Repr

/-- A cell (R421): its header fields and its 252 payload bytes. -/
structure Cell where
  used   : Bool
  first  : Bool
  last   : Bool
  stream : Bool
  len    : BitVec 8
  crc    : BitVec 16
  bytes  : List Byte
deriving DecidableEq, Repr

/-- A frame (R420): its control fields and its five cells. -/
structure Frame where
  fseq  : BitVec 12
  aseq  : BitVec 12
  bcred : BitVec 8
  ccred : BitVec 4
  nak   : Bool
  cells : List Cell
deriving DecidableEq, Repr

/-- What the receiver's decoder says of a frame's two codewords (R424): how many were corrected, and whether one was
uncorrectable. -/
structure Fec where
  corrected : Nat
  uncorr    : Bool
deriving DecidableEq, Repr

/-- The message types of R450. -/
inductive MsgType where
  | rd | wr | cpl | rdShared | rdOwn | wb | recall | recallAck | db | csrRd | csrWr
deriving DecidableEq, Repr

/-- An MCL message (R450). `len` is the LEN field; `data` the bytes that follow the header. -/
structure Msg where
  type   : MsgType
  ch     : BitVec 2
  poison : Bool
  status : BitVec 3
  tag    : BitVec 16
  len    : BitVec 16
  addr   : BitVec 52
  data   : List Byte
  /-- Of a device request of the bulk channel: its requester (R451), 0 to 3 the tier engines, 4 to 7 the fetch units, 8 the Keeper; 9
  any other message. It is not sent. -/
  who    : Nat := 9
  /-- A CPL is to come as a command of its own. It is not sent. -/
  await  : Bool := true
deriving DecidableEq, Repr

/-- A flit (R446): the CTRL fields, the 240 message bytes and the CRC. -/
structure Flit where
  fseq : BitVec 12
  aseq : BitVec 12
  nak  : Bool
  cohCred  : BitVec 8
  bulkCred : BitVec 8
  dbCred   : BitVec 8
  msg  : List Byte
  crc  : BitVec 64
deriving DecidableEq, Repr

/-- How a requested stream-ring line returns (R176, R178): from device memory (bytes and marker are State's; `corr` is the DPA of a
unit read with an error that its check bits correct, R290, R306), or from the
Underlay with the bytes of the CPLs, whether all were good, and whether one carried POISON. -/
inductive LineData where
  | memory (corr : Option Nat := none)
  | underlay (good : Bool) (bytes : List Byte) (poison : Bool := false)
deriving DecidableEq, Repr

/-- The physical faults that may meet one MM.RUN, or one fill visit (whose faults are free values): the first vector that passes a cell whose live bank has a parity
error (R71), whether that error falls in the same cycle as the last one of another course of the array (R72), the DPA of an operand
word that port 0 of its bank accesses in the same cycle (R305), and the DPA of an operand unit read with a single-bit error
(R306). -/
structure RunFaults where
  parity  : Option Nat
  same    : Bool := false
  collide : Option Nat
  corr    : Option Nat := none
deriving DecidableEq, Repr

/-- Why a port lost its lane lock or frames, or what its training found (R429): the level and coordinate the peer
advertises, whether the peer is a twin port, and the lanes that failed to lock. -/
structure TrainInfo where
  peerCoord : BitVec 16
  peerTwin  : Bool
  peerLevel : BitVec 4
  laneBad   : BitVec 8
  credBulk  : Nat
  credCtrl  : Nat
deriving DecidableEq, Repr

/-- The commands, one per row of spec/opcode_table.json. -/
inductive Instr where
  -- the stream of a Truss (06, 07, 08)
  | fetchLine (d : TrussId) (data : LineData)
  | instructionDecode (d : TrussId)
  | instructionComplete (d : TrussId) (q : Fin 8)
  | sparSignalArrive (src dst : TrussId)
  | nop (d : TrussId)
  | syDload (d : TrussId) (data : LineData)
  | syAlat (d : TrussId)
  | syFence (d : TrussId)
  | sySpadd (d : TrussId)
  | sySpclr (d : TrussId)
  | mmLoadw (d : TrussId) (a : LocalId)
  | mmSwap (d : TrussId) (a : LocalId)
  | mmRun (d : TrussId) (a : LocalId) (f : RunFaults)
  | mmDefer (d : TrussId)
  | mmVqdrain (d : TrussId)
  | txCopy (d : TrussId) (f : LocalId)
  | txTrans (d : TrussId) (f : LocalId)
  | txQuant (d : TrussId) (f : LocalId)
  | txStash (d : TrussId)
  | txFetch (d : TrussId)
  | txGather (d : TrussId) (data : LineData)
  | rdNormf (d : TrussId)
  | rdNormb (d : TrussId)
  | rdSmaxf (d : TrussId)
  | rdSmaxb (d : TrussId)
  | coJoin (d : TrussId)
  | coBucket (d : TrussId)
  | coReduce (d : TrussId)
  | coDispatch (d : TrussId)
  | coCombine (d : TrussId)
  | coVote (d : TrussId)
  | coDrain (d : TrussId)
  | upImm (d : TrussId)
  | upPassa (d : TrussId)
  | upPassb (d : TrussId)
  | upCommit (d : TrussId)
  | obPin (d : TrussId)
  | obPromote (d : TrussId)
  | obEvict (d : TrussId)
  | obPrefetch (d : TrussId)
  | obWait (d : TrussId)
  | pcSnap (d : TrussId)
  | pcFreeze (d : TrussId)
  | pcMark (d : TrussId)
  | setp (d : TrussId)
  | trap (d : TrussId)
  | sysStop (d : TrussId)
  | runStart (d : TrussId) (r : Requester)
  | runStop (d : TrussId) (r : Requester)
  | abort (d : TrussId) (r : Requester)
  | abortComplete (d : TrussId)
  | spush (d : TrussId) (r : Requester) (n : Half) (mask : Half)
  | stashReset (d : TrussId) (r : Requester)
  | watchdogTick (d : TrussId)
  -- arrays and tiers (02, 05, 09)
  | shadowLoadEnd (i : ArrayId) (c : Fin 36)
  | drainBoundary (i : ArrayId)
  | recutDone (i : ArrayId)
  | autoswap (i : ArrayId) (c : Fin 36)
  | fillVisit (d : TrussId) (a : LocalId)
  | stashFullTimeout (d : TrussId)
  | loftReconf (s : StackId) (r : Requester) (expert : Bool) (data mask : Half)
  | loftReconfDone (s : StackId)
  | objectRegister (n : Fin 16384) (w : Word64)
  | objectDeregister (n : Fin 16384) (w : Word64)
  | promoteCopyEnd (n : Fin 16384)
  | evictCopyEnd (n : Fin 16384)
  -- Gutter packets (10, 11)
  | join (p : Packet)
  | joinAck (p : Packet)
  | bucketRs (p : Packet)
  | bucketAg (p : Packet)
  | agree (p : Packet)
  | reduce (p : Packet)
  | dispatch (p : Packet)
  | dispatchEnd (p : Packet)
  | combine (p : Packet)
  | combineEnd (p : Packet)
  | vote (p : Packet)
  | drain (p : Packet)
  | abandon (p : Packet)
  | commitVote (p : Packet)
  | outcome (p : Packet)
  | mirrored (p : Packet)
  | confirm (p : Packet)
  | packetRelay (port : PortId) (stream : Bool) (p : Packet)
  -- Gutter and commit events (10, 11)
  | bucketLanded (j : Fin 64) (b : Nat)
  | peerTimeout (j : Fin 64)
  | drainForced (j : Fin 64)
  | voteDeadline
  | covoteDeadline (j : Fin 64) (seq : BitVec 16)
  | outcomeTimeout
  | mirrorComplete
  | mirrorAck
  | groupRegister (n : Fin 4096) (w : Word64)
  | groupDeregister (n : Fin 4096) (w : Word64)
  | rowStepRegister (n : Fin 256) (w : Word64)
  | rowStepDeregister (n : Fin 256) (w : Word64)
  | rollback (r : Requester)
  | repub (r : Requester)
  -- Gutter cores (12)
  | instanceStart
  | gvpNop (g : SliceId) (c : CoreId)
  | end_ (g : SliceId) (c : CoreId)
  | puta (g : SliceId) (c : CoreId)
  | bnz (g : SliceId) (c : CoreId)
  | bz (g : SliceId) (c : CoreId)
  | fault (g : SliceId) (c : CoreId)
  | plog (g : SliceId) (c : CoreId)
  | saddi (g : SliceId) (c : CoreId)
  | sshli (g : SliceId) (c : CoreId)
  | salu (g : SliceId) (c : CoreId)
  | scmp (g : SliceId) (c : CoreId)
  | simm (g : SliceId) (c : CoreId)
  | rs (g : SliceId) (c : CoreId)
  | lane (g : SliceId) (c : CoreId)
  | ptail (g : SliceId) (c : CoreId)
  | add (g : SliceId) (c : CoreId)
  | sub (g : SliceId) (c : CoreId)
  | mul (g : SliceId) (c : CoreId)
  | fma (g : SliceId) (c : CoreId)
  | min (g : SliceId) (c : CoreId)
  | max (g : SliceId) (c : CoreId)
  | abs (g : SliceId) (c : CoreId)
  | neg (g : SliceId) (c : CoreId)
  | sel (g : SliceId) (c : CoreId)
  | cmp (g : SliceId) (c : CoreId)
  | cvt (g : SliceId) (c : CoreId)
  | div (g : SliceId) (c : CoreId)
  | sqrt (g : SliceId) (c : CoreId)
  | rsqrt (g : SliceId) (c : CoreId)
  | rcp (g : SliceId) (c : CoreId)
  | exp2 (g : SliceId) (c : CoreId)
  | log2 (g : SliceId) (c : CoreId)
  | exp (g : SliceId) (c : CoreId)
  | ln (g : SliceId) (c : CoreId)
  | rsum (g : SliceId) (c : CoreId)
  | rssq (g : SliceId) (c : CoreId)
  | rmax (g : SliceId) (c : CoreId)
  | rmin (g : SliceId) (c : CoreId)
  | ramax (g : SliceId) (c : CoreId)
  | rnf (g : SliceId) (c : CoreId)
  | srnd (g : SliceId) (c : CoreId)
  | vld (g : SliceId) (c : CoreId)
  | vst (g : SliceId) (c : CoreId)
  | sld (g : SliceId) (c : CoreId)
  | sst (g : SliceId) (c : CoreId)
  -- ports (13)
  | frame (port : PortId) (fec : Fec) (f : Frame)
  | trainingDone (port : PortId) (t : TrainInfo)
  | trainingTimeout (port : PortId)
  | frameSilence (port : PortId)
  | laneLockLoss (port : PortId)
  | downRetrain (port : PortId)
  | pctlDisable (port : PortId) (r : Requester)
  | pctlEnable (port : PortId) (r : Requester)
  | pctlRetrain (port : PortId) (r : Requester)
  | twinPresentChange (present : Bool)
  | coordApply
  -- MCL and CSR access (14, 16)
  | flit (f : Flit)
  | mclTrainingEnd (laneBad : BitVec 32)
  | mclRetrain
  | mclSilence
  | mclLockLoss
  | rd (tag : BitVec 16) (dpa : Word48) (len : Nat)
  | wr (tag : BitVec 16) (dpa : Word48) (poison : Bool) (data : List Byte)
  | rdshared (tag : BitVec 16) (dpa : Word48)
  | rdown (tag : BitVec 16) (dpa : Word48)
  | wb (tag : BitVec 16) (dpa : Word48) (poison : Bool) (data : List Byte)
  | recallAck (dpa : Word48) (dirty : Bool) (poison : Bool) (data : List Byte)
  | cpl (tag : BitVec 16) (status : BitVec 3) (poison : Bool) (data : List Byte)
  | csrWr (tag : BitVec 16) (dpa : Word48) (data : List Byte)
  | ticketWrite (r : Requester) (w : Word64)
  | eventWrite
  | doorbellTimer
  | evcfgEnable (r : Requester) (data mask : Half)
  | evconsWrite (r : Requester) (data mask : Half)
  | mailboxGo (r : Requester)
  | info (tag : Word32)
  | cert (tag : Word32)
  | mbAttest (tag : Word32) (nonce : List Byte)
  | mbBist (tag : Word32) (mask : Word64)
  | flerase (tag : Word32) (off : Word32)
  | flwrite (tag : Word32) (off : Word32) (data : List Byte)
  | seccommit (tag : Word32)
  -- power (15)
  | controlPeriod
  | estimate (watts : Nat)
  | measurementWindow (watts : Nat)
  | droopDetect (n : DomainId)
  | stretchEnd (n : DomainId)
  | islandTempRead (n : DomainId) (temp : BitVec 8)
  | stackTempRead (s : StackId) (temp : BitVec 8)
  | holdAbandon
  | dieTempCheck
  | grantApply
  | grantSwitch
  | grantRampEnd
  -- reset, pins, boot (18, 19)
  | pwrokRise
  | pwrokFall
  | resetNAssert
  | resetNRelease
  | p3v3aLow
  | p12vLoss
  | refclk0Loss
  | refclk1Loss
  | refclk2Loss
  | bootHeaderCheck
  | bootBodyCheck
  | islandPowerUp
  | bootBist
  | hbmTraining
  | memoryClear
  | identityCheck
  | linkStart
  | readyAssert
  | bistGo (r : Requester)
  | islandTestDone (sig : Word64)
  | attestSigned
  -- counters (17)
  | snap (r : Requester)
  | deferredSnapshot
  | freeze (r : Requester) (on : Bool)
  | clr (n : DomainId) (r : Requester)
  | bandwidthWindowEnd (port : PortId)
  -- MC commands (18)
  | status
  | evread
  | setcoord (c : BitVec 16)
  | setgrant (step : BitVec 7) (now : Bool)
  | setcap (watts : Half)
  | release
  | telem
  | mcCsrrd (dpa : Word48)
  | mcCsrwr (dpa : Word48) (data : List Byte)
  | mcBist (mask : Word64)
  | mcAttest (nonce : List Byte)
  | report (chunk : BitVec 8)
  | mcReset
  | spiRelease
  -- I3C CCCs (19)
  | entdaa (addr : BitVec 7)
  | setdasa (static addr : BitVec 7)
  | rstdaa
  | getpid
  | getbcr
  | getdcr
  | getstatus
  | getmrl
  | getmwl
  -- TAP (18, 19)
  | bypass
  | idcode
  | samplePreload
  | extest
  -- rows added by the table's second reading
  | shadowLoadBegin (i : ArrayId) (c : Fin 36)
  | gaCfgWrite (i : ArrayId) (r : Requester) (expert : Bool) (data mask : Half)
  | sharedWindowChange (r : Requester) (off : Half) (data mask : Half)
  | csrRd (tag : BitVec 16) (dpa : Word48) (len : Nat)
  | snapshotEnd
  | freezeApplied
  | trstNAssert
deriving DecidableEq, Repr

end Sys2Proof
end

