-- ==== Sys2Proof/WellFormed.lean ====
section
/-! DEFINITION. Well-formed commands: those whose lists have the lengths that their interface carries. -/
namespace Sys2Proof

/-- A cell carries 252 payload bytes (R421). -/
def Cell.wf (c : Cell) : Bool := c.bytes.length = 252

/-- A frame carries five cells (R420). -/
def Frame.wf (f : Frame) : Bool := f.cells.length = 5 && f.cells.all Cell.wf

/-- A packet carries at most 4,096 payload bytes (R332). -/
def Packet.wf (p : Packet) : Bool := p.payload.length ≤ 4096

/-- A flit carries 240 message bytes (R446). -/
def Flit.wf (f : Flit) : Bool := f.msg.length = 240

/-- The data that the host returns are at most the bytes asked for: 256 of a ring line (R172), 64 of each of up to 4,096
descriptors (R228). -/
def LineData.wf (most : Nat) : LineData → Bool
  | .memory _ => true
  | .underlay _ bytes _ => bytes.length ≤ most

/-- A message carries at most 256 data bytes (R450). -/
def dataWf (l : List Byte) : Bool := l.length ≤ 256

/-- Is a command well-formed? -/
def Instr.wf : Instr → Bool
  | .fetchLine _ data => data.wf 256
  | .syDload _ data => data.wf 262144
  | .join p | .joinAck p | .bucketRs p | .bucketAg p | .agree p | .reduce p | .dispatch p | .dispatchEnd p | .combine p
  | .combineEnd p | .vote p | .drain p | .abandon p | .commitVote p | .outcome p | .mirrored p | .confirm p
  | .packetRelay _ _ p => p.wf
  | .frame _ _ f => f.wf
  | .flit f => f.wf
  | .rd _ _ len | .csrRd _ _ len => len ≤ 256
  | .wr _ _ _ data | .wb _ _ _ data | .recallAck _ _ _ data | .cpl _ _ _ data | .csrWr _ _ data => dataWf data
  | .mcCsrwr _ data => data.length ≤ 8
  | .mbAttest _ nonce | .mcAttest nonce => nonce.length = 32
  | .flwrite _ _ data => data.length ≤ 4096
  | _ => true

end Sys2Proof
end

