-- ==== Sys2Proof/Config.lean ====
section
/-! DEFINITION. What an implementation fixes and what the spec leaves open: constants without a body.
No statement can rest on a value of theirs (log entries 4, 6, 7, 8). -/
namespace Sys2Proof.Config

/-- A free value: the n-th value the machine draws where the spec leaves a value undefined (R223, R305). -/
opaque freeValue : Nat → Nat

/-- How many messages of a lath carry a transfer (R33), by class (1 collective, 2 memory) and bytes: no rule gives the size of a
message, and the counts of LATH[d] show the number. -/
opaque lathMessages : Nat → Nat → Nat

/-- The bits of the published reference vectors for the special functions of a core (R411) and of a Ridge (R163),
by function number (0 RSQRT, 1 EXP2, 2 LOG2, 3 EXP, 4 LN, 5 Ridge exp, 6 Ridge ln, 7 Ridge inverse square root), by
arithmetic (0 Z40, 1 binary32) and by operand encoding. The manual does not print them; `Machine.vectorCode` keeps them within the bound it
states. -/
opaque refVector : Nat → Nat → Nat → Nat

/-- The check symbols of a codeword of RS(544,514) by its 514 data symbols and their number (R420): the manual names the published code
and prints no generator. -/
opaque rsCheck : List Nat → Nat → Nat

/-- The Falcon-1024 verification of a signature under the firmware key of stepping B0 (R536, R539):
message, signature. -/
opaque falconVerify : List Byte → List Byte → Bool

/-- The identity seed fused at manufacture (R538), its byte 0 lowest. -/
opaque identitySeed : BitVec 256

/-- The public key of the Falcon-1024 key pair that key-generation randomness gives (R538): 1,793 bytes. -/
opaque falconPublic : List Byte → List Byte

/-- The Falcon-1024 signature with the private key of that pair (R540): its length in bytes by the randomness and the message, and byte
`k` of a signature. -/
opaque falconLength : List Byte → List Byte → Nat
opaque falconByte : List Byte → List Byte → Nat → Byte

/-- The signature the running image carries for domain n and kind k of test (R543). -/
opaque bistPublished : Nat → Nat → Nat

/-- The fused minimum security version at manufacture (R536, register KEEPER.SECVER): 0 to 63. -/
opaque fusedMinimum : Fin 64

/-- The boot flash as the board mounts it (R536, R539): the byte at a flash offset. -/
opaque flashByte : Nat → Byte

/-- The SLOT_ID straps of the board as sampled at the first rising edge of PWROK (R554). -/
opaque slotId : BitVec 4

/-- The level of TWIN_PRESENT_N at power-on: true while the partner grounds it (R551). -/
opaque twinPresent : Bool

/-- The leakage term of the estimate in watts, by the island temperatures and the clock step, which sets the voltage (R478): the manual gives no
coefficient. -/
opaque leakage : List (BitVec 8) → Nat → Nat

/-- The provisional ID, the bus and the device characteristics that the I3C target reports (R561 names the CCCs,
and gives no value). -/
opaque i3cPid : BitVec 48
opaque i3cBcr : BitVec 8
opaque i3cDcr : BitVec 8
/-- The target status bits of GETSTATUS (R561 gives no layout). -/
opaque i3cStatus : Nat → BitVec 16

end Sys2Proof.Config
end

