-- ==== Sys2Proof/Machine/Numbers.lean ====
section
/-! DEFINITION. Number formats (03): layouts, decoding into exact values, rounding (RNE and SR), conversion modes, and the
exact arithmetic that the arrays, feeders, Ridges and Gutter cores round once (R75 to R106, R107, R410). -/
namespace Sys2Proof.Machine

/-- An exact value: NaN, an infinity, or (-1)^neg * m * 2^e. Zero keeps its sign (R81). -/
inductive Num where
  | nan
  | inf (neg : Bool)
  | fin (neg : Bool) (m : Nat) (e : Int)
deriving DecidableEq, Repr

/-- Plus zero. -/
abbrev Num.zero : Num := .fin false 0 0
/-- One. -/
abbrev Num.one : Num := .fin false 1 0

/-- Is the value finite and not zero? -/
def Num.nonzeroFinite : Num → Bool
  | .fin _ m _ => m ≠ 0
  | _ => false

/-- Is the value NaN or an infinity? -/
def Num.nonFinite : Num → Bool
  | .fin .. => false
  | _ => true

/-- Is the value NaN? -/
def Num.isNan : Num → Bool
  | .nan => true
  | _ => false

/-- The sign of a value (NaN reads as positive). -/
def Num.sign : Num → Bool
  | .nan => false
  | .inf s => s
  | .fin s _ _ => s

/-- Exact negation. -/
def Num.neg : Num → Num
  | .nan => .nan
  | .inf s => .inf (!s)
  | .fin s m e => .fin (!s) m e

/-- Exact magnitude. -/
def Num.abs : Num → Num
  | .nan => .nan
  | .inf _ => .inf false
  | .fin _ m e => .fin false m e

/-- The signed integer mantissa of a value brought to exponent `e0` (which must not exceed its own). -/
def Num.mantAt (s : Bool) (m : Nat) (e e0 : Int) : Int :=
  let k : Int := (m : Int) * ((2 ^ (e - e0).toNat : Nat) : Int)
  if s then -k else k

/-- The value of the integer `k` times 2^e; `z` is the sign of an exact zero. -/
def Num.ofInt (k : Int) (e : Int) (z : Bool) : Num :=
  if k = 0 then .fin z 0 0 else .fin (decide (k < 0)) k.natAbs e

/-- Exact sum (R108, R110): NaN with NaN or both infinities; an exact zero is plus zero unless both addends are minus zero. -/
def Num.add : Num → Num → Num
  | .nan, _ => .nan
  | _, .nan => .nan
  | .inf a, .inf b => if a = b then .inf a else .nan
  | .inf a, .fin .. => .inf a
  | .fin .., .inf b => .inf b
  | .fin a m e, .fin b n f =>
    if m = 0 ∧ n = 0 then .fin (a && b) 0 0
    else
      let e0 := if e ≤ f then e else f
      Num.ofInt (Num.mantAt a m e e0 + Num.mantAt b n f e0) e0 false

/-- Exact product (R108): zero times infinity is NaN. -/
def Num.mul : Num → Num → Num
  | .nan, _ => .nan
  | _, .nan => .nan
  | .inf a, .inf b => .inf (a != b)
  | .inf a, .fin b n _ => if n = 0 then .nan else .inf (a != b)
  | .fin a m _, .inf b => if m = 0 then .nan else .inf (a != b)
  | .fin a m e, .fin b n f => if m = 0 ∨ n = 0 then .fin (a != b) 0 0 else .fin (a != b) (m * n) (e + f)

/-- Exact multiplication by 2^k. -/
def Num.scale (x : Num) (k : Int) : Num :=
  match x with
  | .fin s m e => if m = 0 then .fin s 0 0 else .fin s m (e + k)
  | y => y

/-- The exact sum of a list; the sum of an empty list is plus zero, and an exact zero is minus zero only when every addend
is minus zero (R108). -/
def Num.sum : List Num → Num
  | [] => Num.zero
  | x :: xs => xs.foldl Num.add x

/-- Strict order on non-NaN values as exact numbers; the two zeros compare equal here. -/
def Num.lt : Num → Num → Bool
  | .nan, _ => false
  | _, .nan => false
  | .inf a, .inf b => a && !b
  | .inf a, .fin .. => a
  | .fin .., .inf b => !b
  | .fin a m e, .fin b n f =>
    let e0 := if e ≤ f then e else f
    decide (Num.mantAt a m e e0 < Num.mantAt b n f e0)

/-- Numeric equality (NaN equals nothing, the zeros are equal). -/
def Num.eqv (x y : Num) : Bool := !x.isNan && !y.isNan && !Num.lt x y && !Num.lt y x

/-- MAX as R266 and R410 give it: NaN if either is NaN, and minus zero below plus zero. -/
def Num.max (x y : Num) : Num :=
  if x.isNan || y.isNan then .nan
  else if Num.lt x y then y else if Num.lt y x then x else if x.sign then y else x

/-- MIN, likewise. -/
def Num.min (x y : Num) : Num :=
  if x.isNan || y.isNan then .nan
  else if Num.lt x y then x else if Num.lt y x then y else if x.sign then x else y

/-! ### Layouts (R78) -/

/-- The layouts of R78. -/
inductive Layout where
  | e4m3 | e5m2 | e2m1 | bf16 | binary16 | binary32 | z40
deriving DecidableEq, Repr

/-- Exponent bits. -/
def Layout.ebits : Layout → Nat
  | .e4m3 => 4 | .e5m2 => 5 | .e2m1 => 2 | .bf16 => 8 | .binary16 => 5 | .binary32 => 8 | .z40 => 8
/-- Fraction bits. -/
def Layout.mbits : Layout → Nat
  | .e4m3 => 3 | .e5m2 => 2 | .e2m1 => 1 | .bf16 => 7 | .binary16 => 10 | .binary32 => 23 | .z40 => 31
/-- Exponent bias. -/
def Layout.bias : Layout → Int
  | .e4m3 => 7 | .e5m2 => 15 | .e2m1 => 1 | .bf16 => 127 | .binary16 => 15 | .binary32 => 127 | .z40 => 127
/-- Width of an element in bits. -/
def Layout.width (l : Layout) : Nat := 1 + l.ebits + l.mbits

/-- The encoding of the largest finite magnitude (R78). -/
def Layout.maxCode : Layout → Nat
  | .e4m3 => 0x7E | .e5m2 => 0x7B | .e2m1 => 0x7 | .bf16 => 0x7F7F | .binary16 => 0x7BFF
  | .binary32 => 0x7F7F_FFFF | .z40 => 0x7F_7FFF_FFFF

/-- The canonical NaN (R78, R80); E2M1 has none. -/
def Layout.nanCode : Layout → Nat
  | .e4m3 => 0x7F | .e5m2 => 0x7E | .e2m1 => 0 | .bf16 => 0x7FC0 | .binary16 => 0x7E00
  | .binary32 => 0x7FC0_0000 | .z40 => 0x7F_C000_0000

/-- The sign bit's weight. -/
def Layout.signBit (l : Layout) : Nat := 2 ^ (l.ebits + l.mbits)

/-- Does the layout hold infinities (R78)? -/
def Layout.hasInf : Layout → Bool
  | .e4m3 => false | .e2m1 => false | _ => true

/-- The infinity of positive sign, where there is one. -/
def Layout.infCode (l : Layout) : Nat := (2 ^ l.ebits - 1) * 2 ^ l.mbits

/-- The value of an encoding (R78, R79, R80). -/
def Layout.decode (l : Layout) (c : Nat) : Num :=
  let c := c % 2 ^ l.width
  let s := decide (l.signBit ≤ c)
  let b := c % l.signBit
  let e := b / 2 ^ l.mbits
  let f := b % 2 ^ l.mbits
  if l = .e4m3 ∧ b = 0x7F then .nan
  else if l.hasInf ∧ e = 2 ^ l.ebits - 1 then (if f = 0 then .inf s else .nan)
  else if e = 0 then .fin s f (if f = 0 then 0 else 1 - l.bias - l.mbits)
  else .fin s (2 ^ l.mbits + f) ((e : Int) - l.bias - l.mbits)

/-- Number of binary digits of a natural number. -/
def bitLen (n : Nat) : Nat := if n = 0 then 0 else Nat.log2 n + 1

/-- `⌊log2⌋` of m * 2^e for m not 0. -/
def floorLog2 (m : Nat) (e : Int) : Int := (Nat.log2 m : Int) + e

/-- `⌈log2⌉` of m * 2^e for m not 0. -/
def ceilLog2 (m : Nat) (e : Int) : Int :=
  if m = 2 ^ Nat.log2 m then (Nat.log2 m : Int) + e else (Nat.log2 m : Int) + 1 + e

/-- How a conversion rounds (R83, R84): to nearest even, stochastically with the 16 bits U, toward zero, toward plus
infinity for a magnitude (R129, R136). -/
inductive Round where
  | rne
  | sr (u : Nat)
  | zero
  | up
deriving DecidableEq, Repr

/-- Round the magnitude m * 2^e to a whole number of units of 2^q (R83, R84). -/
def roundUnits (r : Round) (m : Nat) (e q : Int) : Nat :=
  if q ≤ e then m * 2 ^ (e - q).toNat
  else
    let k := (q - e).toNat
    let t := m / 2 ^ k
    let rem := m % 2 ^ k
    match r with
    | .rne =>
      if 2 * rem < 2 ^ k then t
      else if 2 * rem = 2 ^ k then (if t % 2 = 0 then t else t + 1)
      else t + 1
    | .sr u => if rem * 65536 / 2 ^ k + u ≥ 65536 then t + 1 else t
    | .zero => t
    | .up => if rem = 0 then t else t + 1

/-- The exponent of one unit in the last place of the layout at the magnitude m * 2^e, subnormals included. -/
def Layout.ulp (l : Layout) (m : Nat) (e : Int) : Int :=
  let a := floorLog2 m e - l.mbits
  let b := 1 - l.bias - l.mbits
  if a ≤ b then b else a

/-- The encoding of a magnitude of `t` units of 2^q that lies on the layout's grid, or `none` above the largest finite
value (R86 judges overflow after rounding). -/
def Layout.encodeMag (l : Layout) (t : Nat) (q : Int) : Option Nat :=
  if t = 0 then some 0
  else
    let e := floorLog2 t q
    let c :=
      if e < 1 - l.bias then (t * 2 ^ (q - (1 - l.bias - l.mbits)).toNat)
      else
        let sig := if (l.mbits : Int) ≤ e - q then t / 2 ^ (e - q - l.mbits).toNat else t * 2 ^ (l.mbits - (e - q)).toNat
        ((e + l.bias).toNat) * 2 ^ l.mbits + (sig - 2 ^ l.mbits)
    if c ≤ l.maxCode then some c else none

/-- What a conversion gives: the encoding, and whether a finite input overflowed after rounding. -/
structure Conv where
  code : Nat
  ovf : Bool
deriving DecidableEq, Repr

/-- Convert a value into a layout (R83 to R87, R105): `sat` is the conversion mode SAT; Z40 never saturates. -/
def Layout.convert (l : Layout) (sat : Bool) (r : Round) (x : Num) : Conv :=
  match x with
  | .nan => ⟨l.nanCode, false⟩
  | .inf s => ⟨if l.hasInf then (if s then l.signBit + l.infCode else l.infCode) else l.nanCode, false⟩
  | .fin s m e =>
    let sb := if s then l.signBit else 0
    if m = 0 then ⟨sb, false⟩
    else
      let q := l.ulp m e
      match l.encodeMag (roundUnits r m e q) q with
      | some c => ⟨sb + c, false⟩
      | none =>
        if l = .e2m1 then ⟨sb + l.maxCode, true⟩
        else if sat ∧ l ≠ .z40 then ⟨sb + l.maxCode, true⟩
        else if l.hasInf then ⟨sb + l.infCode, true⟩
        else ⟨l.nanCode, true⟩

/-- Round to nearest even in Z40 and give the value back (R110). -/
def rneZ40 (x : Num) : Num := Layout.z40.decode (Layout.z40.convert false .rne x).code

/-- Round to nearest even in binary32 and give the value back (R410). -/
def rneB32 (x : Num) : Num := Layout.binary32.decode (Layout.binary32.convert false .rne x).code

/-- Stochastic rounding in Z40 (R113). -/
def srZ40 (u : Nat) (x : Num) : Num := Layout.z40.decode (Layout.z40.convert false (.sr u) x).code

/-- The Z40 encoding of a value (40 bits), rounded to nearest even. -/
def toZ40 (x : Num) : Nat := (Layout.z40.convert false .rne x).code

/-- The container form of a value (R96): bits [63:24] hold the Z40 encoding. -/
def toContainer (x : Num) : Word64 := BitVec.ofNat 64 (toZ40 x * 2 ^ 24)

/-- The value of a container word (R96): bits [23:0] are ignored. -/
def ofContainer (w : Word64) : Num := Layout.z40.decode (w.toNat / 2 ^ 24)

/-- The value of a binary32 word. -/
def ofB32 (w : Nat) : Num := Layout.binary32.decode w

/-- The binary32 encoding of a value, rounded to nearest even, overflow to infinity. -/
def toB32 (x : Num) : Nat := (Layout.binary32.convert false .rne x).code

/-! ### Correctly rounded division, square root and the bound of the special functions (R411) -/

/-- Round a magnitude given as a truncated integer `t` of units 2^q with a sticky remainder. The two low bits give the
rounding the exactness it needs. -/
def sticky (neg : Bool) (t : Nat) (q : Int) (rem : Bool) : Num :=
  .fin neg (2 * t + (if rem then 1 else 0)) (q - 1)

/-- The quotient to more than 80 binary digits with a sticky bit: rounding it once to Z40 or binary32 is the correctly
rounded quotient (R411). -/
def Num.divSticky : Num → Num → Num
  | .nan, _ => .nan
  | _, .nan => .nan
  | .inf _, .inf _ => .nan
  | .inf a, .fin b _ _ => .inf (a != b)
  | .fin a _ _, .inf b => .fin (a != b) 0 0
  | .fin a m e, .fin b n f =>
    if n = 0 then (if m = 0 then .nan else .inf (a != b))
    else if m = 0 then .fin (a != b) 0 0
    else
      let k := bitLen n + 80
      sticky (a != b) (m * 2 ^ k / n) (e - f - k) (m * 2 ^ k % n ≠ 0)

/-- The square root to more than 40 binary digits with a sticky bit (R411): of minus zero it is minus zero, of a negative
value NaN. -/
def Num.sqrtSticky : Num → Num
  | .nan => .nan
  | .inf true => .nan
  | .inf false => .inf false
  | .fin s m e =>
    if m = 0 then .fin s 0 0
    else if s then .nan
    else
      let m' := m * 2 ^ (if e % 2 = 0 then 160 else 161)
      let e' := e - (if e % 2 = 0 then 160 else 161)
      let t := Nat.sqrt m'
      sticky false t (e' / 2) (t * t ≠ m')

/-- A conversion that counts: was the input finite and not zero, and was the result zero (R85)? -/
def flushed (x : Num) (code : Nat) (l : Layout) : Bool :=
  x.nonzeroFinite && (code % l.signBit == 0)

/-! ### The rounding generator (R119 to R121) -/

/-- R120, arithmetic modulo 2^64. -/
def genMix (z : Word64) : Word64 :=
  let z := (z ^^^ (z >>> 30)) * 0x8F1BE37C52A9D6B5#64
  let z := (z ^^^ (z >>> 27)) * 0xA7D41C6F93E25B27#64
  z ^^^ (z >>> 31)

/-- The 16 random bits of keys S, T, I and C (R119, R120). -/
def genU (seed : Word64) (tid : BitVec 24) (idx : BitVec 40) (chunk : BitVec 16) : Nat :=
  let w0 : Word64 := idx.setWidth 64 ||| (chunk.setWidth 64 <<< 40)
  let z := genMix (seed ^^^ (tid.setWidth 64 * 0xC3A59D176B2EF04D#64))
  (genMix (z ^^^ w0) >>> 48).toNat

end Sys2Proof.Machine
end

