-- ==== Sys2Proof/Machine/Sparse.lean ====
section
/-! DEFINITION. A sparse store: a list of (key, value) pairs in one canonical form, keys strictly rising and no pair whose value
is what an unlisted key reads as. Device memory, table words, registers, descriptors and markers all use it. -/
namespace Sys2Proof.Machine

variable {α : Type}

/-- What the store holds at `k`; `z` is what an unlisted key reads as. -/
def Sparse.get (z : α) : List (Nat × α) → Nat → α
  | [], _ => z
  | (a, v) :: m, k => if a = k then v else Sparse.get z m k

/-- The store with `k` removed (keys above `k` are kept as they stand). -/
def Sparse.del : List (Nat × α) → Nat → List (Nat × α)
  | [], _ => []
  | (a, v) :: m, k => if a < k then (a, v) :: Sparse.del m k else if a = k then m else (a, v) :: m

/-- The store with `k` bound to `v`, keys kept rising. -/
def Sparse.ins : List (Nat × α) → Nat → α → List (Nat × α)
  | [], k, v => [(k, v)]
  | (a, w) :: m, k, v =>
    if a < k then (a, w) :: Sparse.ins m k v else if a = k then (k, v) :: m else (k, v) :: (a, w) :: m

/-- Write `v` at `k`; writing what an unlisted key reads as removes the entry. -/
def Sparse.put [DecidableEq α] (z : α) (m : List (Nat × α)) (k : Nat) (v : α) : List (Nat × α) :=
  if v = z then Sparse.del m k else Sparse.ins m k v

/-- The canonical form, as a Bool: keys strictly rising from `lo`, no value equal to `z`. -/
def Sparse.wfFrom [DecidableEq α] (z : α) : Nat → List (Nat × α) → Bool
  | _, [] => true
  | lo, (a, v) :: m => decide (lo ≤ a) && decide (v ≠ z) && Sparse.wfFrom z (a + 1) m

/-- The canonical form. -/
def Sparse.wf [DecidableEq α] (z : α) (m : List (Nat × α)) : Bool := Sparse.wfFrom z 0 m

/-- Write a list of values at consecutive keys from `k`. -/
def Sparse.putList [DecidableEq α] (z : α) (m : List (Nat × α)) (k : Nat) : List α → List (Nat × α)
  | [] => m
  | v :: vs => Sparse.putList z (Sparse.put z m k v) (k + 1) vs

/-- The values at `n` consecutive keys from `k`. -/
def Sparse.getList (z : α) (m : List (Nat × α)) (k : Nat) : Nat → List α
  | 0 => []
  | n + 1 => Sparse.get z m k :: Sparse.getList z m (k + 1) n

/-- The store less every key of `[lo, hi)`. -/
def Sparse.clear (m : List (Nat × α)) (lo hi : Nat) : List (Nat × α) :=
  m.filter fun p => p.1 < lo || hi ≤ p.1

end Sys2Proof.Machine
end

