-- ==== Sys2Proof/Machine/State.lean ====
section
/-! DEFINITION. The state of the ZL-8, as plain data. Each field names the rule of spec/ that gives it; its default is its
value after a cold reset (R529). Registers of the register tables live in `State.regs`, read through Machine/Regs.lean. -/
namespace Sys2Proof.Machine

/-- Why the machine stops with a fault. -/
inductive Fault where
  /-- A command carries lists that the interface of its row cannot carry (a frame without five cells of 252 bytes, a packet
  above 4,096 payload bytes, a message above 256 data bytes). Raised by the commands that carry such lists; safe: no such
  command reaches the hardware. -/
  | malformed
deriving DecidableEq, Repr

/-- Why a command has no meaning. -/
inductive Refusal where
  /-- A command whose arm of `exec` is not written yet, by its mnemonic; raised by Dispatch only; safe. -/
  | notModelled (mnemonic : String)
deriving DecidableEq, Repr

/-! ### The Truss (06, 07) -/

/-- The trap causes of R197 and R284. -/
inductive TrapCause where
  | opcode | field | descInvalid | descFormat | descAlign | pairing | mxAxis | kLimit | edge | bankInvalid | ridgeScale
  | address | dataError | parityHalt | sparOvf | waitTimeout | fetchFault | software
  | jobState | jobFull | joinRefused | groupInvalid | bucketRange | reduceSize | commitTwice | objInvalid
deriving DecidableEq, Repr

/-- An instruction of a stream: its words (in the 64-bit form and at the basic level the second holds its defaults, R196), the ring
position of its first word and its place in decode order. -/
structure QEntry where
  w0   : Word64
  w1   : Word64 := 0
  line : Nat := 0
  word : Nat := 0
  seq  : Nat := 0
deriving DecidableEq, Repr

/-- An issued instruction that has not completed (R183): its queue, the trap its completion takes (R253), and whether its
completion point is reached. -/
structure Issued where
  q    : Nat
  e    : QEntry
  trap : Option TrapCause := none
  done : Bool := false
deriving DecidableEq, Repr

/-- A line of the fetch buffer (R176); `bad` is a line whose fetch took FETCH_FAULT (R172, R178). -/
structure FLine where
  line  : Nat
  words : List Word64
  bad   : Bool := false
deriving DecidableEq, Repr

/-- The trap registers TRAP0 to TRAP2 (R198, R201). -/
structure TrapRec where
  cause   : BitVec 8 := 0
  queue   : BitVec 3 := 0
  line    : BitVec 16 := 0
  word    : BitVec 5 := 0
  spar    : BitVec 6 := 0
  skipped : Bool := false
deriving DecidableEq, Repr

/-- A valley-queue entry (R151): the MM.DEFER itself, its three copied descriptors, and how far its visits have come: the array
it is bound to, the next tile (kt ascending within nt) and its next row, the course whose shadow bank a started visit has loaded
(R153) and the vectors of that visit (R170), whether it is urgent (R156) and whether a visit has begun. -/
structure VEntry where
  e     : QEntry
  stat  : List Word64
  mov   : List Word64
  dst   : List Word64
  bound : Option Bool := none
  kt    : Nat := 0
  nt    : Nat := 0
  row   : Nat := 0
  visiting : Option Nat := none
  len    : Nat := 0
  urgent : Bool := false
  opened : Bool := false
deriving DecidableEq, Repr

/-- A page of the stash range (R317). -/
inductive Page where
  | empty | pool (n : Nat) | spill (n : Nat)
deriving DecidableEq, Repr

/-- Which instruction of which Truss something belongs to. -/
structure InsRef where
  d   : TrussId
  seq : Nat
deriving DecidableEq, Repr

/-- A TX.STASH stalled for want of a page (R321), with the words of its descriptors, and whether EV_STASH_FULL has been raised for
the stall. -/
structure StashStall where
  ins    : InsRef
  src    : List Word64
  dst    : List Word64
  raised : Bool := false
deriving DecidableEq, Repr

/-- The stash of a Truss: the settings in force since the last stash reset (R322), the page map, the stalled TX.STASH
instructions, and the pages that a TX.FETCH under way will free (R320). -/
structure Stash where
  range   : Nat := 0
  rpages  : Nat := 0
  pool    : Nat := 0
  ppages  : Nat := 0
  spill   : Nat := 0
  quota   : Nat := 0
  nospill : Bool := false
  map     : List (Nat × Page) := []
  stalled : List StashStall := []
  freeing : List (InsRef × List Nat) := []
deriving DecidableEq, Repr

/-- A Truss, TRUSS[d]. -/
structure Truss where
  /-- The ring in force (R172, R175) and whether SBASE or SSIZE was written since. -/
  ringBase : Nat := 0
  ringSize : Nat := 1
  ringNew  : Bool := false
  /-- SHEAD, SAVAIL and the word within the head line at which decode stands (R173, R178). -/
  head     : Nat := 0
  avail    : Nat := 0
  word     : Nat := 0
  fbuf     : List FLine := []
  run      : Bool := false
  /-- The level, the SKIP field and the watchdog limit in force since the last control boundary (R195). -/
  expert   : Bool := false
  skip     : BitVec 6 := 0
  wdog     : Nat := 7630
  trapped  : Bool := false
  aborting : Bool := false
  multi    : Bool := false
  trap     : TrapRec := {}
  /-- The issue queues 1 to 7 of R179 (index 0 stays empty). -/
  queues   : Vector (List QEntry) 8 := Vector.replicate 8 []
  issued   : List Issued := []
  nextSeq  : Nat := 0
  /-- A skipped trap at decode has been taken against the word at decode, whose waits are not yet satisfied (R199). -/
  decTrap  : Bool := false
  /-- The in-line instruction that has taken its waits and holds decode (R193, R229, R240, R241). -/
  decTaken : Option QEntry := none
  /-- The queue that issued last in the Truss cycle under way (R189). -/
  turn     : Option Nat := none
  /-- Instructions decoded (0) and issued from each queue in cycles not yet charged, and the cause of decode in the last completed
  cycle (R205). -/
  acts     : Vector Nat 8 := Vector.replicate 8 0
  lastDec  : Nat := 1
  /-- Spar counts (R186); entry 0 is never used (R185). -/
  spcnt    : Vector (BitVec 16) 64 := Vector.replicate 64 0
  /-- The descriptor table, eight words an entry (R192). -/
  desc     : List (Nat × Word64) := []
  alat     : Word48 := 0
  imm      : Vector Word32 32 := Vector.replicate 32 0
  /-- The watchdog: consecutive idle ticks, and whether anything decoded, issued or changed a spar since the last tick (R204). -/
  idle     : Nat := 0
  progress : Bool := false
  valley   : List VEntry := []
  /-- MM.DEFER stalled on a full queue (R156). -/
  vqFull   : Bool := false
  /-- MM.VQDRAIN in progress (R241). -/
  vqDrain  : Bool := false
  stash    : Stash := {}
  /-- The row buffer of RIDGE[d] holds the current row of its RD instruction (R166). -/
  rowBuf   : Bool := false
deriving DecidableEq, Repr

/-- A shared-spar signal in flight (R188, R191): the spar and the weight it carries. -/
structure SparSig where
  src    : Nat
  dst    : Nat
  spar   : Nat
  weight : Nat
deriving DecidableEq, Repr

/-! ### Great arrays (02, 07) -/

/-- A bank of a course (R44) with what R232 records beside its contents: `data` holds the real columns of the tile, each a list
of the decoded stationary values down K; `orient` is true for a view read transposed; `fill` names the MM.DEFER whose tile it is
(R153). -/
structure Bank where
  valid : Bool := false
  kt    : Nat := 0
  nt    : Nat := 0
  kw    : Nat := 0
  nw    : Nat := 0
  fmt   : Nat := 0
  orient : Bool := false
  data  : List (List Num) := []
  fill  : Option InsRef := none
deriving DecidableEq, Repr

/-- An MM.LOADW accepted by a course (R234): not yet begun (held or waiting), or in progress with the bank it is writing and
the trap it will end in (R51). -/
structure Load where
  ins   : InsRef
  e     : QEntry
  stat  : List Word64
  edge  : Nat
  began : Bool := false
  bank  : Bank := {}
  trap  : Option TrapCause := none
deriving DecidableEq, Repr

/-- A course (R53). -/
structure Course where
  live   : Bank := {}
  shadow : Bank := {}
  load   : Option Load := none
  /-- A live-bank parity error since the last swap: results are replaced by NaN (R71). -/
  parity : Bool := false
  /-- The course is halted under PARPOL = 1 (R71). -/
  halted : Bool := false
  /-- A load failed while a swap waited for it: that swap takes BANK_INVALID and clears the live valid bit (R51). -/
  failed : Bool := false
deriving DecidableEq, Repr

/-- An accepted MM.RUN that waits for a swap (R51, R65), with the words of its descriptors as read at issue (R182) and the seed
in force then. `toShadow`: it is bound to the shadow bank and waits for a swap (R65). -/
structure RunReq where
  ins    : InsRef
  e      : QEntry
  mov    : List Word64
  dst    : List Word64
  part   : List Word64
  total  : List Word64
  seed   : Word64
  faults : RunFaults
  toShadow : Bool := false
deriving DecidableEq, Repr

/-- An accepted MM instruction that waits at an array, in issue order: a swap of one course or of all (R235), or a run. -/
inductive ArrOp where
  | swap (ins : InsRef) (course : Nat)
  | swapAll (ins : InsRef)
  | run (course : Nat) (r : RunReq)
deriving DecidableEq, Repr

/-- A great array, GA[i]: the settings in force (R54), the change pending, and its courses. -/
structure Ga where
  expert   : Bool := false
  rollout  : Bool := false
  cut      : Nat := 0
  autoswap : Bool := false
  arb      : Bool := false
  parpol   : Bool := false
  /-- A change waits for the drain boundary because of a CSR write (R54). -/
  pendCsr  : Bool := false
  /-- The edge an MM.LOADW requested (R56). -/
  pendEdge : Option Nat := none
  /-- The edge an urgent valley entry asks for (R156). -/
  pendFill : Option Nat := none
  /-- Between the drain boundary and the installed cut (R55). -/
  recut    : Bool := false
  courses  : Vector Course 36 := Vector.replicate 36 {}
  ops      : List ArrOp := []
  /-- The cause of the last completed cycle (R69, GA.STATUS.CAUSE), and the course of the last live-bank parity error (R72). -/
  last     : Nat := 9
  /-- The place j of the next cycle in its run of 256 (R473). -/
  place    : BitVec 8 := 0
  parLast  : Option Nat := none
deriving DecidableEq, Repr

/-! ### Loft, HBM, objects (09) -/

/-- A Loft slice: the mode and the expert fields in force, whether a change is in progress, and the lines of its cache part (line
number, dirty), most recently used first (R294, R295, R297). -/
structure Loft where
  mode     : Nat := 0
  expert   : Bool := false
  streamna : Bool := false
  prefways : Nat := 8
  reconf   : Bool := false
  clearing : Bool := false
  lines    : List (Nat × Bool) := []
deriving DecidableEq, Repr

/-- A request that the object directory has not completed (R310, R311): the object, the requester's queue entry and what it
asks: 1 promote, 2 evict, 3 prefetch, 4 wait, 0 pin; the tier named, and its priority (R259). -/
structure ObReq where
  ins  : InsRef
  obj  : Nat
  kind : Nat
  tier : Nat
  prio : Nat := 1
  queued : Bool := false
deriving DecidableEq, Repr

/-- What an Underlay request of a tier engine is for. -/
inductive UwKind where
  /-- A write: its CPL carries nothing further. -/
  | write
  /-- A read whose bytes go to a DPA. `half`: the last byte brings only its low nibble (MXFP4), the other nibble being kept
  (false) or 0 (true). -/
  | read (dst : Nat) (half : Option Bool)
deriving DecidableEq, Repr

/-- An Underlay request of a tier engine outstanding at the host (R457): its tag, the instruction, what it is for, the message
length. -/
structure UwReq where
  tag  : Nat
  ins  : InsRef
  kind : UwKind
  len  : Nat
deriving DecidableEq, Repr

/-! ### The Gutter (10, 11) -/

/-- A ZB8 block (R99, R100) as an adder holds it, with the block maximum and the block drops that travel with it (R344). -/
structure Block where
  poison : Bool := false
  esc    : Bool := false
  lanes  : List Int := List.replicate 32 0
  maxq   : Nat := 0
  drops  : Nat := 0
deriving DecidableEq, Repr

/-- A bucket of a job in the current attempt (R336 to R345). Blocks are numbered j over the whole bucket. -/
structure Bucket where
  /-- The intake: contributed elements in Z40 by bucket-local number (R338), how many, and the largest finite magnitude a. -/
  intake : List (Nat × Option Nat) := []
  count  : Nat := 0
  amax   : Num := Num.zero
  /-- The agreed E_b (R136). -/
  eb     : Option Int := none
  /-- The running AGREE value that came, and whether this device has folded its own into it and sent it on (R352). -/
  chain  : Option Num := none
  folded : Bool := false
  /-- This device's blocks that are encoded, once E_b is agreed (R340), as far as the Wire part had room for them (R325). -/
  own    : List (Nat × Block) := []
  /-- Encoded blocks that have left the Wire part: sent on or landed (R325). -/
  gone   : List Nat := []
  /-- Partials of the first level that came before this device's own block was encoded. -/
  arr    : List (Nat × Block) := []
  /-- Level-1 totals that phase 2 of TREE2 continues from, and sums that wait for one (R342). -/
  mid    : List (Nat × Block) := []
  wait   : List (Nat × Block) := []
  /-- Blocks that came, by phase (0 and 1 reduce-scatter at the first and second level, 2 and 3 all-gather likewise). -/
  got    : List (Nat × Nat) := []
  /-- Totals written to their landing slots, by block. -/
  landed : List (Nat × Block) := []
  /-- It was encoded before the device entered hold (R486 order 3). -/
  pre      : Bool := false
  /-- Every slot of every quarter is written (BUCKET_LANDED). -/
  isLanded : Bool := false
  /-- The bucket's DROPS: the sum of the segment DROPS, formed when it has landed (R345). -/
  drops    : Nat := 0
deriving DecidableEq, Repr

/-- A CO.BUCKET that waits for intake space with the buckets it has not contributed to (R337). -/
structure BktWait where
  ins    : InsRef
  ctx    : Nat
  off    : Nat
  view   : List Word64
  todo   : List Nat
deriving DecidableEq, Repr

/-- The fields of a job record after the level rule (R326, R327). -/
structure JobRec where
  compat   : Nat := 1
  scaletab : Nat := 0
  landing  : Nat := 0
  spaceLen : Nat := 0
  experts  : Nat := 0
  capacity : Nat := 0
  mib      : Nat := 8
  headroom : Nat := 2
  dropPol  : Bool := false
  escThr   : Nat := 6
  tree     : Bool := false
  group    : Nat := 1
  peerto   : Nat := 200
  vdead    : Nat := 1000
  check    : Nat := 0
deriving DecidableEq, Repr

/-- A CO.REDUCE or CO.VOTE in flight (R266, R269, R352): who issued it, its operation (0 SUM, 1 MAX, 2 MIN, 3 AND, 4 OR),
its SEQ word, and where the result goes. The view is cut into pieces of up to 512 elements by first element: values of this
device by phase and piece, values that came likewise, pieces sent on, and results that have come. -/
structure Red where
  ins    : InsRef
  op     : Nat
  seq    : Nat
  view   : List Word64
  immIdx : Nat := 0
  own    : List (Nat × Nat × List Num)
  parts  : List (Nat × Nat × List Num) := []
  sent   : List (Nat × Nat) := []
  result : List (Nat × List Num) := []
deriving DecidableEq, Repr

/-- A kept slot assignment of a dispatch (R356): row, route, member index, expert, slot. -/
structure Route where
  row    : Nat
  k      : Nat
  member : Nat
  expert : Nat
  slot   : Nat
deriving DecidableEq, Repr

/-- A CO.DISPATCH in flight or kept for its CO.COMBINE (R353 to R357). -/
structure Disp where
  ins      : InsRef
  seq      : Nat
  cap      : Nat
  kr       : Nat
  rows     : List Word64
  run      : List Word64
  recv     : List Word64
  /-- Its expert state is allocated and its rows are sent (R356). -/
  started  : Bool := false
  routes   : List Route := []
  /-- Valid routes, those beyond the capacity included: 4 B of expert state each (R356). -/
  kept     : Nat := 0
  /-- Rows announced by each member that sent DISPATCH_END, by expert, and the pieces of rows that landed: member, expert, slot,
  piece. -/
  ends     : List (Nat × List Nat) := []
  got      : List (Nat × Nat × Nat × Nat) := []
  complete : Bool := false
deriving DecidableEq, Repr

/-- A CO.COMBINE in flight (R357): the dispatch it is paired with, the pieces of rows that came back (row, route, piece, bytes),
and the rows announced by each member whose COMBINE_END came. -/
structure Comb where
  ins   : InsRef
  seq   : Nat
  acc   : Bool
  pair  : Nat
  out   : List Word64
  dst   : List Word64
  gate  : List Word64
  back  : List (Nat × Nat × Nat × List Byte) := []
  ends  : List (Nat × Nat) := []
deriving DecidableEq, Repr

/-- A job context (R329). `state`: 0 CLOSED, 1 OPEN, 2 DRAINING. -/
structure JobCtx where
  state   : Nat := 0
  job     : Nat := 0
  gen     : Nat := 0
  home    : Nat := 0
  attempt : Nat := 0
  failed  : Bool := false
  jr      : JobRec := {}
  members : List Nat := []
  self    : Nat := 0
  acks    : List Nat := []
  joiners : List InsRef := []
  drainer : Option InsRef := none
  /-- DRAIN copies that came: member index, copies announced, copies come (R331, R437). -/
  drains  : List (Nat × Nat × Nat) := []
  /-- PEERTO has passed since CO.DRAIN issued (R331). -/
  drainLate : Bool := false
  /-- The kinds that each Truss issued in this attempt, in order: the ordinal of R261 is the place in this list. -/
  ords    : List (Nat × List (BitVec 8)) := []
  buckets : List (Nat × Option Bucket) := []
  reds    : List Red := []
  disps   : List Disp := []
  combs   : List Comb := []
  /-- Packets of this attempt that wait for the instruction of their ordinal to issue here (R261, R334). -/
  early   : List Packet := []
deriving DecidableEq, Repr

/-- A device-wide cause of a forced no vote in the current attempt, by its code of R383. -/
abbrev NoCause := Nat

/-- A value that travels the vote path (R378, R388): the AND of the folded votes, how many members are folded, and whether one of
them is unprotected. -/
structure FoldVal where
  val    : Bool
  cnt    : Nat
  unprot : Bool
deriving DecidableEq, Repr

/-- A fold along the vote path: this device's values and those that came, by phase, and the phases sent on. -/
structure Fold where
  own : List (Nat × FoldVal) := []
  inc : List (Nat × FoldVal) := []
  out : List Nat := []
deriving DecidableEq, Repr

/-- A mirror being received (R385, R386): its slot, ticket, number, size in bytes, and the offsets of the pieces written. -/
structure MirrorIn where
  slot   : Nat
  ticket : Nat
  no     : Nat
  size   : Nat
  got    : List Nat := []
deriving DecidableEq, Repr

/-- The commit and mirror state (R376 to R390, R568). -/
structure Commit where
  /-- The context of the commit job, where one is set (R376). -/
  cjob     : Option Nat := none
  /-- The commit job's identity as CMJOB shows it. -/
  cmjob    : Half := 0
  /-- The UP.COMMIT that waits for the fence or for the outcome. -/
  ins      : Option InsRef := none
  yesBit   : Bool := false
  /-- The level of the commit function and CMXCFG.SKIPCONF in force since the last UP.COMMIT (chapter 11, Registers). -/
  expert   : Bool := false
  skipConf : Bool := false
  /-- The vote cast in the current attempt, and the codes of R383 that made it a no. -/
  cast     : Option Bool := none
  castWhy  : List Nat := []
  /-- The vote as it travels (R378). -/
  vote     : Fold := {}
  lastYes  : Bool := false
  rollReady : Bool := false
  mstate   : Nat := 0
  conf     : Bool := false
  unprot   : Bool := false
  owed     : Bool := false
  cmno     : Nat := 0
  /-- Causes that force a no (R383) in the current attempt, and whether a trap fails the next one (R276). -/
  causes   : List NoCause := []
  trapNext : Bool := false
  /-- The current attempt is abandoned (R348). -/
  abandoned : Bool := false
  /-- MIRRORED as it travels (R388), and whether this device has sent its own. -/
  mir      : Fold := {}
  mirSent  : Bool := false
  /-- Groups whose pass B reported a non-finite value, with their NFOK (R369). -/
  nonfin   : List (Nat × Bool) := []
  /-- Groups whose NFOK was set when their last pass A issued (R364, R369). -/
  nfok     : List Nat := []
  /-- Trusses aborted and not set running since (R203). -/
  aborted  : List Nat := []
  /-- The ticket whose mirror is being sent (R384, R386). -/
  sending  : Option Nat := none
  receiving : Option MirrorIn := none
  /-- Mirrors started by this device, and the ticket and number of the partner's mirror last answered (log entry 44). -/
  mirrorNo : Nat := 0
  mirrorDone : Option (Nat × Nat) := none
deriving DecidableEq, Repr

/-- One range of a group that a pass works on (R365), or one embedding row (R375). -/
structure Work where
  group  : Nat
  k      : Nat
  bucket : Nat
  first  : Nat
  len    : Nat
  row    : Option Nat := none
  started : Bool := false
  finished : Bool := false
deriving DecidableEq, Repr

/-- A pass instruction in progress (R272, R273, R365): its copy of the immediates (R258), its groups and its work. -/
structure Pass where
  ins    : InsRef
  b      : Bool
  slices : Nat
  imm    : List Word32
  groups : List Nat
  /-- Groups without a program that pass B arms once the fence holds (R370), groups whose NFOK was set at issue (R364). -/
  noprog : List Nat := []
  nfok   : List Nat := []
  work   : List Work
  /-- The seed, TICKMIX and LIMIT of each slice at issue (chapter 12, Registers). -/
  seeds  : List (Word64 × Bool × Nat)
  stopped : Bool := false
  trap   : Option TrapCause := none
deriving DecidableEq, Repr

/-- A program run on a core (R392, R395). -/
structure Inst where
  ins    : InsRef
  b      : Bool
  w      : Work
  code   : List Word32
  planes : List (Nat × Nat × Int)
  datab  : Nat
  missed : Nat
  count  : Nat
deriving DecidableEq, Repr

/-- A program image as a slice's code cache holds it (R399): the pass that read it, its address, and what its header and its words spell. -/
structure Image where
  ins    : InsRef
  addr   : Nat
  code   : List Word32
  planes : List (Nat × Nat × Int)
  datab  : Nat
deriving DecidableEq, Repr

/-- A Gutter core (R393). -/
structure GCore where
  inst    : Option Inst := none
  v       : Vector (Vector Word64 16) 32 := Vector.replicate 32 (Vector.replicate 16 0)
  s       : Vector Word64 32 := Vector.replicate 32 0
  p       : Vector Half 8 := Vector.replicate 8 0
  pc      : Nat := 0
  steps   : Nat := 0
  scratch : List (Nat × Byte) := []
  sum0    : Word64 := 0
  sum1    : Word64 := 0
  nf      : Nat := 0
  nonfin  : Bool := false
deriving DecidableEq, Repr

/-! ### Ports (13) -/

/-- The state of a port (R428). -/
inductive PState where
  | disabled | training | up | down
deriving DecidableEq, Repr

/-- What a sending port remembers of a cell in a frame: its packet and stream, and whether this device sent it (R440: a relay
marks nothing). -/
structure PktTag where
  pkt     : Packet
  stream  : Bool
  own     : Bool
deriving DecidableEq, Repr

/-- A packet that a port sends: its stream, the packet, the cells not yet in a frame, whether a cell of it has gone into the
replay buffer (R438), and whether this device sent it. -/
structure OutPkt where
  stream  : Bool
  pkt     : Packet
  cells   : List Cell
  started : Bool := false
  own     : Bool := true
deriving DecidableEq, Repr

/-- A port. -/
structure Port where
  state    : PState := .training
  nlevel   : Nat := 0
  half     : Bool := false
  laneBad  : BitVec 8 := 0
  peer     : BitVec 16 := 0
  peerSeen : Bool := false
  /-- PCTL.DISABLE (R428). -/
  disable  : Bool := false
  /-- Automatic retrains since the last UP (R428), and the settings in force since the last entry into TRAINING (R444). -/
  retrains : Nat := 0
  replayMax : Nat := 8
  maxRetrains : Nat := 3
  degrade  : Bool := false
  advert   : Nat := 0
  /-- Sending: next FSEQ, frames sent and not acknowledged, cells that wait, credits (R425, R426). -/
  fseq     : BitVec 12 := 0
  replay   : List (Frame × List PktTag) := []
  waiting  : List OutPkt := []
  credBulk : Nat := 0
  credCtrl : Nat := 0
  replays  : Nat := 0
  /-- Receiving: expected FSEQ, discarding until the replay, cells to return, partial packets (R424, R426). -/
  rxSeq    : BitVec 12 := 0
  discard  : Bool := false
  nakDue   : Bool := false
  retBulk  : Nat := 0
  retCtrl  : Nat := 0
  partBulk : List Byte := []
  partCtrl : List Byte := []
  /-- Cells that the sender may still send, by what training granted and what was returned since (R426). -/
  grantBulk : Nat := 0
  grantCtrl : Nat := 0
  /-- Line bits since the last frame of the keep-alive (R428). -/
  line     : Nat := 0
  /-- Packets handed on and not yet handled: stream and packet. -/
  inbox    : List (Bool × Packet) := []
  /-- Used-cell bytes in the current window (R527). -/
  tx       : Nat := 0
  rx       : Nat := 0
deriving DecidableEq, Repr

/-- The coordinate (R433, R434). -/
structure Coord where
  valid   : Bool := false
  inForce : BitVec 16 := 0
  pending : Option (BitVec 16) := none
  /-- PORTQ[q] lost its copy of the coordinate to an island reset since it was written (R529, R541). -/
  gone    : Vector Bool 5 := Vector.replicate 5 false
deriving DecidableEq, Repr

/-! ### MCL (14) and events (16, 18) -/

/-- An event record (R507) before it has a ring place. -/
structure Event where
  code   : BitVec 12
  domain : BitVec 6
  ticket : Word48
  stamp  : Word48
  data0  : Word64 := 0
  data1  : Word64 := 0
  data2  : Word64 := 0
  seq    : Word32 := 0
deriving DecidableEq, Repr

/-- A host-held line of the snoop filter (R456), and whether the host may hold it modified. -/
structure Snoop where
  line : Nat
  own  : Bool
  recalling : Bool := false
deriving DecidableEq, Repr

/-- What a write or message that MCL itself sends to host memory is for: the entry of the event ring at an index (R459), or a
piece of a mailbox response (R462). -/
inductive OwnReq where
  | event (index : Nat)
  | mailbox
deriving DecidableEq, Repr

/-- The Maelzar Coherent Link. `link`: 0 DOWN, 1 TRAINING, 2 UP. -/
structure Mcl where
  link     : Nat := 0
  half     : Bool := false
  wasUp    : Bool := false
  replayMax : Nat := 8
  degrade  : Bool := false
  fseq     : BitVec 12 := 0
  replay   : List Flit := []
  replays  : Nat := 0
  rxSeq    : BitVec 12 := 0
  discard  : Bool := false
  nakDue   : Bool := false
  credCoh  : Nat := 0
  credBulk : Nat := 0
  credDb   : Nat := 0
  rxBytes  : List Byte := []
  /-- Messages received and not yet served, and messages to the host, oldest first. -/
  inbox    : List Msg := []
  out      : List Msg := []
  nextTag  : Nat := 0
  /-- Bytes of messages begun and not yet in a flit, whose turn it is among coherent and bulk (R451), and the credits to return. -/
  txRest   : List Byte := []
  turn     : Bool := false
  retCoh   : Nat := 0
  retBulk  : Nat := 0
  retDb    : Nat := 0
  /-- Writes of the event ring and of the mailbox outstanding at the host, by tag, oldest first. -/
  own      : List (Nat × OwnReq) := []
  /-- Tags of the doorbells that the host has not answered (R450), and the requester of the bulk channel served last (R451). -/
  dbs      : List Nat := []
  lastReq  : Nat := 0
  /-- Event-ring control in force (R460): base and size as the last write of 1 to EVCFG.EN installed them. -/
  evBase   : Nat := 0
  evSize   : Nat := 64
  prod     : Nat := 0
  phase    : Bool := true
  seq      : Nat := 0
  lost     : Nat := 0
  /-- Events in the queue that came before the first of those lost: EV_RING_OVERFLOW follows them (R460). -/
  lostAfter : Nat := 0
  /-- A doorbell has gone out within the interval; a doorbell is owed when it ends (R459). -/
  dbWait   : Bool := false
  dbOwed   : Bool := false
  /-- PROFILE and shared windows in force (R456), and whether a recall for a change is in progress. -/
  shared   : Bool := false
  windows  : List (Nat × Nat) := List.replicate 8 (0, 0)
  recalling : Bool := false
  snoop    : List Snoop := []
  uw       : List UwReq := []
  /-- Lines that a device agent needs and the host holds: its command waits for their recall (R456). -/
  wanted   : List Nat := []
  /-- The mailbox request in progress (R462): host address; the tag of a response that is being written. -/
  mbox     : Option Nat := none
  mbAns    : Option Word32 := none
deriving DecidableEq, Repr

/-! ### PWRC (15) -/

/-- The power controller. Watts and the ratio rho are exact naturals: rho is `rhoNum / rhoDen`. -/
structure Pwrc where
  /-- Caps and expert fields in force since the start of the control period (R472). -/
  hostCap  : Nat := 2800
  mcCap    : Nat := 2800
  gainUp   : Nat := 8
  gainDn   : Nat := 2
  measOnly : Bool := false
  bmax     : Nat := 240
  badv     : Nat := 32
  tlim     : Nat := 105
  tred     : Nat := 0
  n        : Nat := 0
  /-- The bubble count as it has reached the arrays, which falls by 16 in a microsecond, and the fraction of the next step (R474). -/
  arr      : Nat := 0
  fall     : Nat := 0
  est      : Nat := 0
  meas     : Nat := 0
  estSum   : Nat := 0
  estCnt   : Nat := 0
  rhoNum   : Nat := 1
  rhoDen   : Nat := 1
  measMode : Bool := false
  divRun   : Nat := 0
  okRun    : Nat := 0
  satRun   : Nat := 0
  clrRun   : Nat := 0
  capUnr   : Bool := false
  /-- n over the last 1,000 periods, newest first (R477). -/
  hist     : List Nat := []
  bratio   : Nat := 0
  bhigh    : Bool := false
  grec     : Nat := 0
  /-- The grant: step last written, pending, in force, and the ramp (R468, R469). -/
  grant    : Nat := 0
  gpend    : Option Nat := none
  /-- The pending grant may be adopted whatever the job state: it was written with NOW, or an epoch flip has come (R468). -/
  gNow     : Bool := false
  gnow     : Nat := 0
  /-- The step at which the clock generators of D00 to D23 run (R26, R469 order 3). -/
  freq     : Nat := 0
  ramp     : Option Nat := none
  switched : Bool := false
  /-- Temperatures of the islands and of the stacks, thermal states (R483, R485). -/
  tisland  : Vector (BitVec 8) 60 := Vector.replicate 60 0
  tstack   : Vector (BitVec 8) 8 := Vector.replicate 8 0
  thermal  : Vector Nat 8 := Vector.replicate 8 0
  /-- HBMC.TSTAT of each stack: the last reading and the thermal state, as the stack's controller shows them. -/
  shown    : Vector (BitVec 8 × Nat) 8 := Vector.replicate 8 (0, 0)
  hold     : Bool := false
  /-- The held attempt has been abandoned (R486 order 5). -/
  holdDone : Bool := false
  trip     : Bool := false
  stretch  : Vector Bool 60 := Vector.replicate 60 false
deriving DecidableEq, Repr

/-! ### Keeper, BISTC, DBG, pins (18, 19) -/

/-- A change of the boot flash since power-on, newest first (R546). -/
inductive FlashOp where
  | erase (off : Nat)
  | write (off : Nat) (bytes : List Byte)
deriving DecidableEq, Repr

/-- Where the boot sequence of R533 stands: the order last completed. `warm` runs orders 2, 3, 6, 8, 9 and 10 (R534). -/
structure Boot where
  order    : Nat := 1
  warm     : Bool := false
  hdrA     : Bool := false
  hdrB     : Bool := false
deriving DecidableEq, Repr

/-- The answer an MC read returns (R544). -/
structure McAnswer where
  status  : Nat
  payload : List Byte
deriving DecidableEq, Repr

/-- The Keeper. `bstate`: 0 BOOTING, 1 READY, 2 FAILED, 3 TRIPPED, 4 RESET held. -/
structure Keeper where
  bstate   : Nat := 0
  slot     : Bool := false
  fallback : Bool := false
  iderr    : Bool := false
  bootbist : Bool := false
  spirel   : Bool := false
  running  : Nat := 0
  rcause   : Nat := 0
  /-- The header of the running image (R536). -/
  header   : List Byte := []
  toplevel : Nat := 0
  /-- Records held for the MC, oldest first, and those lost (R545). -/
  held     : List Event := []
  lost     : Nat := 0
  answer   : Option McAnswer := none
  /-- Reports asked for and not yet signed, oldest first: the nonce, and the tag of the mailbox request that asked, none where the
  MC did; the last signed report (R540). -/
  signing  : List (List Byte × Option Word32) := []
  report   : List Byte := []
  fuseMin  : Nat := Config.fusedMinimum.val
  flash    : List FlashOp := []
  i3cAddr  : Option (BitVec 7) := none
  /-- EV_BOOT_FALLBACK waits for the event ring (R537). -/
  fbOwed   : Bool := false
  /-- What the last CCC that reads returned (R561). -/
  ccc      : List Byte := []
deriving DecidableEq, Repr

/-- Self-test (R541 to R543). `boot` marks a run of boot BIST; `mb` is the mailbox tag that waits for the run. -/
structure Bist where
  busy    : Bool := false
  boot    : Bool := false
  todo    : List Nat := []
  kind    : Nat := 3
  cur     : Nat := 0
  sigs    : Vector Word64 60 := Vector.replicate 60 0
  agg     : Word64 := 0
  failed  : List Nat := []
  pass    : Bool := false
  done    : Bool := false
  mb      : Option Word32 := none
deriving DecidableEq, Repr

/-- The TAP of DBG (R547, R563): the instruction loaded (0 none, Test-Logic-Reset; 1 BYPASS; 2 IDCODE; 3 SAMPLE/PRELOAD;
4 EXTEST), what BYPASS or IDCODE has captured, the boundary-scan chain, and whether EXTEST drives the pins. -/
structure Tap where
  ir     : BitVec 4 := 0
  dr     : BitVec 32 := 0
  /-- What SAMPLE/PRELOAD has shifted into the boundary-scan chain, one cell a pad (R563, log entry 85). -/
  cells  : BitVec 23 := 0
  extest : Bool := false
deriving DecidableEq, Repr

/-- Pins and supplies (R551, R552, R557, R558). Outputs are what the ZL-8 drives. -/
structure Pins where
  pwrok    : Bool := true
  resetN   : Bool := true
  twin     : Bool := Config.twinPresent
  slotId   : BitVec 4 := Config.slotId
  ready    : Bool := false
  trip     : Bool := false
  /-- The outputs READY, ALERT_N and THERMTRIP_N are released (R552). -/
  released : Bool := false
  /-- Not lost since the last cold reset (R558). -/
  p12v     : Bool := true
  ref0     : Bool := true
  ref1     : Bool := true
  ref2     : Bool := true
deriving DecidableEq, Repr

/-! ### Counters (17) -/

/-- Counters of the device. Keys: 16 n for CYC of domain n, 16 n + 1 + k for its PMC[k], 0x1000 + 4 i + j for the slot
counters of GA[i]; the same keys in `snap` hold the snapshot copies; `sat` holds the SAT bits. -/
structure Counters where
  val     : List (Nat × Nat) := []
  snap    : List (Nat × Nat) := []
  sat     : List (Nat × Bool) := []
  /-- Fractions of a cycle of each domain, in half megahertz over 1,000 (the idle step is one D51 cycle). -/
  phase   : Vector Nat 60 := Vector.replicate 60 0
  frozen  : Bool := false
  frzBusy : Bool := false
  snapBusy : Bool := false
  snapNext : List (Word48 × Word48) := []
  snapTicket : Word48 := 0
  snapStamp  : Word48 := 0
  snapCount  : Nat := 0
  denied  : Nat := 0
  /-- Per-port windows (R527): TXBYTES, RXBYTES and WSEQ. -/
  ports   : Vector (Nat × Nat × Nat) 22 := Vector.replicate 22 (0, 0, 0)
deriving DecidableEq, Repr

/-! ### The device -/

/-- The machine's state. -/
structure State where
  /-- The waiting commands, first in first out (the model's own; log entry 1). -/
  pending : List Instr := []
  /-- Free values drawn so far (the model's own; log entry 4). -/
  free    : Nat := 0
  /-- TICKET and the Keeper stamp (R38, R39, R41). -/
  ticket  : Word48 := 0
  stamp   : Word48 := 0
  /-- Device memory: unlisted bytes read 0x00 (R298, R300, R533). -/
  mem     : List Host.Cell := []
  /-- The stores are being cleared (R300). -/
  clearing : Bool := false
  /-- Poison markers of checked units, by unit address (R290). -/
  poison  : List (Nat × Bool) := []
  /-- Table space, 64-bit words by offset over 8 (R504). -/
  table   : List (Nat × Word64) := []
  /-- Rotation of path-table entries: the port last taken (R437). -/
  rot     : List (Nat × Option Nat) := []
  /-- CSR words by 0x10000 * domain + decoded offset; unlisted ones read their reset value. -/
  regs    : List (Nat × Option Half) := []
  /-- HUBNOC.LIVE: powered islands (R503). -/
  live    : Vector Bool 60 := Vector.replicate 60 false
  truss   : Vector Truss 4 := Vector.replicate 4 {}
  spars   : List SparSig := []
  ga      : Vector Ga 8 := Vector.replicate 8 {}
  loft    : Vector Loft 8 := Vector.replicate 8 {}
  obreqs  : List ObReq := []
  jobs    : Vector JobCtx 64 := Vector.replicate 64 {}
  /-- The generation of the last opening of a job since wake from off (R263), and JOINs kept pending (R330). -/
  lastGen : List (Nat × Option Nat) := []
  joins   : List Packet := []
  /-- Packets in the hold parts, oldest first, each with the port and stream it came on (R335). -/
  held    : List (Packet × Option (Nat × Bool)) := []
  commit  : Commit := {}
  /-- CO.BUCKET instructions that wait for intake space (R337). -/
  bktWait : List BktWait := []
  passes  : List Pass := []
  cores   : Vector GCore 64 := Vector.replicate 64 {}
  /-- The code cache of each slice (R399). -/
  codes   : Vector (List Image) 4 := Vector.replicate 4 []
  /-- Runs of bytes written since the oldest pass in progress issued: first address, length, and 0, or 1 + k where the program run
  that core k still holds wrote them (R409). -/
  written : List (Nat × Nat × Nat) := []
  /-- GUTTER.STATUS.CAUSE of each slice: the cause of its last cycle (R358). -/
  gcause  : Vector Nat 4 := Vector.replicate 4 0xE
  ports   : Vector Port 22 := Vector.replicate 22 {}
  coord   : Coord := {}
  mcl     : Mcl := {}
  /-- The event queue of HUBNOC (R506), oldest first. -/
  evq     : List Event := []
  /-- Events raised once per ticket: code, unit, ticket. -/
  once    : List (Nat × Nat × Word48) := []
  pwrc    : Pwrc := {}
  keeper  : Keeper := {}
  boot    : Boot := {}
  bist    : Bist := {}
  tap     : Tap := {}
  pins    : Pins := {}
  ctr     : Counters := {}
deriving DecidableEq, Repr

/-- The machine right after a cold reset (R529): the Keeper is at order 1 of R533, every island but D51 and
D52 is dark, nothing is in memory, every register at its reset value. -/
def State.reset : State := {}

end Sys2Proof.Machine
end

