-- ==== Sys2Proof/Machine/Regs.lean ====
section
/-! DEFINITION. The CSR windows (R492 to R494), the register tables of every chapter as data, and the stored registers:
masked writes, clamping and level switches (R15 to R20, R496 to R500). -/
namespace Sys2Proof.Machine

/-- The blocks of R494. -/
inductive Blk where
  | ga | fd | truss | ridge | hbmc | loft | portq | twin | gutter | mcl | keeper | pwrc | lath | bistc | dbg | hubnoc
deriving DecidableEq, Repr

/-- The block of a domain (R25). -/
def blockOf (dom : Nat) : Blk :=
  if dom < 8 then .ga else if dom < 16 then .fd else if dom < 20 then .truss else if dom < 24 then .ridge
  else if dom < 32 then .hbmc else if dom < 40 then .loft else if dom < 45 then .portq else if dom = 45 then .twin
  else if dom < 50 then .gutter else if dom = 50 then .mcl else if dom = 51 then .keeper else if dom = 52 then .pwrc
  else if dom < 57 then .lath else if dom = 57 then .bistc else if dom = 58 then .dbg else .hubnoc

/-- The first domain of a block. -/
def Blk.base : Blk → Nat
  | .ga => 0 | .fd => 8 | .truss => 16 | .ridge => 20 | .hbmc => 24 | .loft => 32 | .portq => 40 | .twin => 45
  | .gutter => 46 | .mcl => 50 | .keeper => 51 | .pwrc => 52 | .lath => 53 | .bistc => 57 | .dbg => 58 | .hubnoc => 59

/-- The decode size D_b (R494). -/
def Blk.decodeSize : Blk → Nat
  | .truss => 0x400 | .portq => 0x200 | .twin => 0x800 | .gutter => 0x1000 | .keeper => 0x1000 | .bistc => 0x400
  | .dbg => 0x1000 | _ => 0x100

/-- The type codes of R497. -/
inductive FTy where
  | rw | ro | w1p | stk
deriving DecidableEq, Repr

/-- A field of a register table: position, width, type, reset value, legal range, whether it is an expert field, and whether
only the MC writes it (R500). -/
structure Field where
  lo     : Nat
  w      : Nat
  ty     : FTy
  reset  : Nat := 0
  min    : Nat := 0
  max    : Nat := 0xFFFF
  expert : Bool := false
  mc     : Bool := false
deriving DecidableEq, Repr

/-- A register, or `n` of them `stride` apart; `lvl` is the offset of the register whose bit 0 is the level of its expert
fields. -/
structure RegDef where
  off    : Nat
  fields : List Field
  n      : Nat := 1
  stride : Nat := 4
  lvl    : Nat := 0
deriving DecidableEq, Repr

/-- A read-write field. -/
def frw (lo w : Nat) (reset : Nat := 0) (min : Nat := 0) (max : Nat := 0xFFFF) : Field :=
  { lo, w, ty := .rw, reset, min, max }
/-- An expert field. -/
def fx (lo w : Nat) (reset : Nat := 0) (min : Nat := 0) (max : Nat := 0xFFFF) : Field :=
  { lo, w, ty := .rw, reset, min, max, expert := true }
/-- A field that only hardware writes. -/
def fro (lo w : Nat) (reset : Nat := 0) : Field := { lo, w, ty := .ro, reset }
/-- A sticky bit or group of bits. -/
def fstk (lo : Nat) (w : Nat := 1) : Field := { lo, w, ty := .stk }
/-- A pulse. -/
def fp (lo : Nat) : Field := { lo, w := 1, ty := .w1p }
/-- A field that the MC writes through the Keeper. -/
def fmc (lo w : Nat) (reset : Nat := 0) (min : Nat := 0) (max : Nat := 0xFFFF) : Field :=
  { lo, w, ty := .rw, reset, min, max, mc := true }
/-- A level register. -/
def lvlReg (off : Nat) : RegDef := { off, fields := [frw 0 1] }
/-- `n` whole-word registers. -/
def words (off n : Nat) (reset : Nat := 0) : RegDef := { off, n, fields := [frw 0 16 reset] }
/-- `n` whole-word registers that only hardware writes. -/
def roWords (off n : Nat) (stride : Nat := 4) : RegDef := { off, n, stride, fields := [fro 0 16] }
/-- The store error register STERR (chapter 9, Registers). -/
def sterr (off : Nat) : RegDef := { off, fields := [fstk 0, fstk 1, fstk 2] }

/-- The registers of the link function, shared by PORTQ and TWIN (chapter 13, Registers). -/
def linkRegs (ports : Nat) : List RegDef := [
  lvlReg 0x0000,
  { off := 0x0004, fields := [fx 0 4 8 1, fx 4 2 3, fx 6 1, fx 7 4 2 1] },
  { off := 0x0100, n := ports, stride := 0x40, fields := [fro 0 2 1, fro 2 4, fro 6 1, fro 8 8] },
  roWords 0x0104 ports 0x40,
  { off := 0x0108, n := ports, stride := 0x40, fields := [fstk 0, fstk 1, fstk 2, fstk 3, fstk 4, fstk 5, fstk 6] },
  { off := 0x010C, n := ports, stride := 0x40, fields := [frw 0 1, fp 1] }]

/-- The registers of the block region (the register tables of chapters 2 to 18). -/
def Blk.regs : Blk → List RegDef
  | .ga => [
      { off := 0x0000, fields := [frw 0 1, frw 1 2 0 0 1] },
      { off := 0x0004, fields := [fx 0 2, fx 2 1, fx 3 1, fx 4 1] },
      { off := 0x0008, fields := [fro 0 2, fro 2 1, fro 3 1, fro 4 1, fro 5 1, fro 8 4 9] },
      { off := 0x000C, fields := [fstk 0, fro 1 6] },
      sterr 0x0010]
  | .fd => [
      { off := 0x0040, lvl := 0x40, fields := [frw 0 1, fx 1 1 1, fx 2 1 1, fx 3 1 1] },
      words 0x0044 4,
      { off := 0x0054, fields := [fstk 0, fstk 1, fstk 2, fstk 3] },
      { off := 0x0058, lvl := 0x40, fields := [fx 0 16 0x3E8 1] }]
  | .truss => [
      { off := 0x0000, fields := [frw 0 1, fp 1] },
      lvlReg 0x0004,
      { off := 0x0008, lvl := 4, fields := [fx 0 6] },
      { off := 0x000C, lvl := 4, fields := [fx 0 16 0x1DCE] },
      { off := 0x0010, fields := [fro 0 1, fro 1 1, fro 2 1, fro 3 1, fro 4 4 1] },
      words 0x0014 2, { off := 0x001C, fields := [frw 0 8] },
      { off := 0x0020, fields := [frw 0 16 1 1] },
      roWords 0x0024 2, words 0x002C 2,
      { off := 0x0040, fields := [fro 0 8, fro 8 3] }, roWords 0x0044 1,
      { off := 0x0048, fields := [fro 0 5, fro 5 6, fro 11 1] },
      words 0x0060 2 0xFFFF,
      { off := 0x0080, fields := [frw 0 4 1 1 1, frw 4 4 1 1, frw 8 4 1 1, frw 12 4 1 1] },
      { off := 0x0084, n := 15, fields := [frw 0 4 1 1, frw 4 4 1 1, frw 8 4 1 1, frw 12 4 1 1] },
      roWords 0x0100 64,
      { off := 0x0200, fields := [frw 0 1, frw 1 1] },
      { off := 0x0204, lvl := 0x200, fields := [fx 0 8 0x20 1 128, fx 8 1 1] },
      { off := 0x0208, fields := [fro 0 7, fro 7 1, fro 8 1, fro 9 1] },
      { off := 0x0300, fields := [frw 0 1, fp 1] },
      { off := 0x0304, lvl := 0x300, fields := [fx 0 1] },
      words 0x0308 1, { off := 0x030C, fields := [frw 0 11] }, words 0x0310 2,
      { off := 0x0318, fields := [frw 0 11] }, words 0x031C 2, { off := 0x0324, fields := [frw 0 11] },
      words 0x0328 1, roWords 0x032C 2,
      { off := 0x0334, fields := [fro 0 1, fstk 1] }]
  | .ridge => [
      lvlReg 0x0000,
      { off := 0x0004, fields := [fx 0 2 0 0 2, fx 2 1 1] },
      { off := 0x0008, fields := [fro 0 1, fro 1 1] },
      { off := 0x000C, fields := [fstk 0] },
      sterr 0x0010]
  | .hbmc => [
      lvlReg 0x0000,
      { off := 0x0004, fields := [fx 0 4 12 1 12] },
      { off := 0x0008, fields := [fstk 0, fstk 1] },
      roWords 0x000C 2, { off := 0x0014, fields := [fro 0 11] },
      { off := 0x0018, fields := [fro 0 8, fro 8 2] }]
  | .loft => [
      { off := 0x0000, fields := [frw 0 1, frw 1 2 0 0 2] },
      { off := 0x0004, fields := [fx 0 1, fx 1 5 8 1 16] },
      { off := 0x0008, fields := [fro 0 2, fro 2 1, fro 3 1] }]
  | .portq => linkRegs 4 ++ [
      roWords 0x0010 1,
      { off := 0x0014, fields := [fro 0 1, fro 1 1, fro 2 4, fro 6 4, fro 10 1] }]
  | .twin => linkRegs 2 ++ [
      { off := 0x0010, fields := [fro 0 1, fstk 1] }, roWords 0x0014 1,
      { off := 0x0400, fields := [frw 0 1, frw 1 1] },
      { off := 0x0404, lvl := 0x400, fields := [fx 0 5 16 1 16] },
      words 0x0408 1, { off := 0x040C, fields := [frw 0 11] }, words 0x0410 1,
      { off := 0x0414, fields := [fro 0 1, fro 1 1, fstk 2] }]
  | .gutter => [
      lvlReg 0x0000,
      { off := 0x0004, fields := [fx 0 1, fx 1 1] },
      { off := 0x0008, fields := [fro 0 7, fro 7 1, fro 8 4 14] },
      { off := 0x000C, fields := [fstk 0, fstk 1, fstk 2, fstk 3, fstk 4, fstk 5, fstk 6, fstk 7] },
      { off := 0x0100, n := 64, stride := 8, fields := [fro 0 12, fro 12 4] },
      { off := 0x0104, n := 64, stride := 8, fields := [fro 0 2, fro 2 1, fro 3 4, fro 7 2] },
      lvlReg 0x0400,
      { off := 0x0404, lvl := 0x400, fields := [fx 0 1] },
      { off := 0x0408, fields := [fro 0 1, fro 1 1, fro 2 1, fro 3 1, fro 4 2, fro 6 1, fro 7 1, fro 8 1] },
      { off := 0x040C, fields := [fstk 0, fstk 1, fstk 2, fstk 3] },
      { off := 0x0410, fields := [fro 0 12, fro 12 4] },
      { off := 0x0414, fields := [fro 0 4] },
      { off := 0x0418, fields := [fp 0, fp 1] },
      lvlReg 0x0500,
      { off := 0x0504, lvl := 0x500, fields := [fx 0 1 1, fx 1 4 12] },
      words 0x0508 4,
      { off := 0x0520, fields := [fro 0 4, fro 4 12] }, { off := 0x0524, fields := [fro 0 12, fro 12 4] },
      roWords 0x0528 1, { off := 0x052C, fields := [fro 0 5, fstk 5] },
      sterr 0x0F00]
  | .mcl => [
      { off := 0x0000, fields := [frw 0 1, frw 1 1] },
      { off := 0x0004, fields := [fx 0 4 8 1, fx 4 1, fx 5 8 4] },
      { off := 0x0008, fields := [fro 0 2, fro 2 1, fro 3 1] },
      { off := 0x000C, fields := [fstk 0, fstk 1, fstk 2, fstk 3] },
      words 0x0010 2, { off := 0x0018, fields := [frw 0 8] }, words 0x0020 2, { off := 0x0028, fields := [frw 0 8] },
      words 0x0030 2, { off := 0x0038, fields := [frw 0 8] },
      words 0x0040 3, { off := 0x004C, fields := [frw 0 2] }, words 0x0050 3, { off := 0x005C, fields := [frw 0 2] },
      words 0x0060 1,
      { off := 0x0064, fields := [frw 0 1, frw 1 5 6 6 16] },
      roWords 0x0068 1, words 0x006C 1,
      { off := 0x0070, fields := [fp 0] }, { off := 0x0074, fields := [fro 0 1] },
      { off := 0x0080, n := 8, stride := 16, fields := [frw 0 16] },
      { off := 0x0084, n := 8, stride := 16, fields := [frw 0 11] },
      { off := 0x0088, n := 8, stride := 16, fields := [frw 0 16] }]
  | .keeper => [
      { off := 0x0000, fields := [fro 0 3, fro 3 1, fro 4 1, fro 5 1, fro 6 1, fro 7 1] },
      { off := 0x0004, fields := [fro 0 6, fro 6 6] },
      { off := 0x0008, fields := [fro 0 2] }, { off := 0x000C, fields := [fro 0 9] },
      { off := 0x0100, fields := [frw 0 1, frw 1 1, fp 2] },
      { off := 0x0104, fields := [fro 0 1, fro 1 1] }]
  | .pwrc => [
      lvlReg 0x0000,
      { off := 0x0004, fields := [fx 0 4 8 1, fx 4 4 2 1, fx 8 1, fx 9 4 2 0 8] },
      { off := 0x0008, fields := [fx 0 8 240 16 240, fx 8 8 32 1] },
      { off := 0x000C, fields := [fx 0 8 105 85 110] },
      { off := 0x0010, fields := [frw 0 16 2800 700 2800] },
      { off := 0x0014, fields := [fmc 0 16 2800 700 2800] },
      roWords 0x0018 1,
      { off := 0x001C, fields := [fmc 0 6 0 0 46, fmc 6 1] },
      { off := 0x0020, fields := [fro 0 6] },
      { off := 0x0024, fields := [fro 0 1, fro 1 1, fro 2 1, fro 3 1, fro 4 1, fro 5 1, fro 6 1] },
      { off := 0x0028, fields := [fstk 0, fstk 1, fstk 2, fstk 3, fstk 4, fro 5 1] },
      { off := 0x002C, n := 2, fields := [fro 0 8] },
      { off := 0x0034, fields := [fro 0 6] },
      roWords 0x0038 2,
      { off := 0x0040, fields := [fro 0 8, fro 8 6] }, { off := 0x0044, fields := [fro 0 8, fro 8 3] },
      { off := 0x0048, fields := [fp 0] }]
  | .lath => []
  | .bistc => [
      { off := 0x0000, fields := [frw 0 1, frw 1 1] },
      { off := 0x0004, fields := [fx 0 2 3 3] },
      { off := 0x0008, n := 4, fields := [fx 0 16 0xFFFF] },
      { off := 0x0018, fields := [fp 0] },
      { off := 0x001C, fields := [fro 0 1, fro 1 1, fstk 2, fstk 3, fro 4 6] },
      roWords 0x0020 8,
      roWords 0x0040 240]
  | .dbg => [{ off := 0x0000, fields := [fro 0 1, fro 1 1] }]
  | .hubnoc => [
      { off := 0x0000, fields := [fstk 0, fro 1 1, fstk 2, fstk 3] },
      { off := 0x0004, fields := [fro 0 12] }, roWords 0x0008 1,
      roWords 0x0010 4, { off := 0x0020, fields := [fro 0 11] }]

/-- The island region (chapter 17, Registers). -/
def islandRegs (dom : Nat) : List RegDef := [
  { off := 0x8000, lvl := 0x8000, fields := [frw 0 1, frw 1 2 0 0 2, fp 3, frw 4 1] },
  { off := 0x8004, fields := if dom < 8 then [fstk 0, fstk 1 8, fstk 9 4] else [fstk 0, fstk 1 8] }] ++
  ((List.range 8).map fun k =>
    { off := 0x8010 + 4 * k, lvl := 0x8000, fields := [fx 0 2 0 0 2, fx 2 8 (k + 1), fx 10 1 1] }) ++
  (if 40 ≤ dom && dom ≤ 45 then [{ off := 0x8040, fields := [frw 0 5 20 10 30] }] else [])

/-- Every register of a domain. -/
def regsOf (dom : Nat) : List RegDef := (blockOf dom).regs ++ islandRegs dom

/-- Where a window offset lands after decoding (R493). -/
def decodeOff (dom off : Nat) : Nat :=
  if off < 0x8000 then off % (blockOf dom).decodeSize else 0x8000 + off % 0x100

/-- Does the definition hold the decoded offset? -/
def RegDef.holds (r : RegDef) (off : Nat) : Bool :=
  r.off ≤ off && (off - r.off) % r.stride = 0 && (off - r.off) / r.stride < r.n

/-- The register at a decoded offset. -/
def findReg (dom off : Nat) : Option RegDef := (regsOf dom).find? (·.holds off)

/-- The value of bits [lo + w - 1 : lo] of `x`. -/
def bits (x lo w : Nat) : Nat := x / 2 ^ lo % 2 ^ w

/-- The value of a field of a 16-bit word. -/
def Field.get (f : Field) (x : Half) : Nat := bits x.toNat f.lo f.w

/-- The word with a field set. -/
def Field.set (f : Field) (x : Half) (v : Nat) : Half :=
  let m : Half := BitVec.ofNat 16 ((2 ^ f.w - 1) * 2 ^ f.lo)
  (x &&& ~~~m) ||| (BitVec.ofNat 16 (v * 2 ^ f.lo) &&& m)

/-- The reset value of a register. -/
def RegDef.resetVal (r : RegDef) : Half := r.fields.foldl (fun x f => f.set x f.reset) 0

/-- The window whose copy of the register holds the value: the commit registers of a slice appear identically in every slice's
window (chapter 11, Registers). -/
def homeDom (dom off : Nat) : Nat := if 46 ≤ dom && dom ≤ 49 && 0x400 ≤ off && off < 0x500 then 46 else dom

/-- The stored value of a register. -/
def State.regRaw (s : State) (dom off : Nat) : Half :=
  let h := homeDom dom off
  match Sparse.get none s.regs (h * 0x10000 + off) with
  | some v => v
  | none => ((findReg h off).map RegDef.resetVal).getD 0

/-- Store a register; the reset value is stored as no entry. -/
def State.setRegRaw (s : State) (dom off : Nat) (v : Half) : State :=
  let h := homeDom dom off
  let z := ((findReg h off).map RegDef.resetVal).getD 0
  { s with regs := Sparse.put none s.regs (h * 0x10000 + off) (if v = z then none else some v) }

/-- Set sticky bits or hardware fields of a stored register. -/
def State.orReg (s : State) (dom off : Nat) (m : Half) : State := s.setRegRaw dom off (s.regRaw dom off ||| m)

/-- Replace a field of a stored register. -/
def State.setField (s : State) (dom off lo w v : Nat) : State :=
  s.setRegRaw dom off (Field.set { lo, w, ty := .rw } (s.regRaw dom off) v)

/-- The level of the function whose level register stands at `lvl` (R14). -/
def State.level (s : State) (dom lvl : Nat) : Bool := (s.regRaw dom lvl).getLsbD 0

/-- The selections of R519 for PMC[k], as a PMCSEL word, which is what PMCSEL reads at the basic level under every profile. DESIGN CHOICE
(log entry 61): the register table's INDEX 'reads the STALL selection', while R15 and R519 derive from the profile in force; and a
PMC that CLOCK disables reads GROUP 2 and INDEX k, for which no rule gives a value. -/
def profileSel (profile k : Nat) : Half :=
  if profile = 0 then BitVec.ofNat 16 (4 * (k + 1) + 0x400)
  else if profile = 1 then BitVec.ofNat 16 (1 + 4 * k + 0x400)
  else if k < 2 then BitVec.ofNat 16 (2 + 4 * k + 0x400) else 2 + BitVec.ofNat 16 (4 * k)

/-- What the expert fields of a register read at the basic level: the value derived from the profile (R15). GA.XCFG.AUTOSWAP reads by the
PROFILE written, also while a change of it waits for the drain boundary (R73; DESIGN CHOICE, log entry 71). -/
def State.derived (s : State) (dom off : Nat) (r : RegDef) : Half :=
  let z := r.resetVal
  match blockOf dom with
  | .ga =>
    if off = 4 then
      let g := s.ga.toArray.getD dom {}
      BitVec.ofNat 16 (g.cut + (if bits (s.regRaw dom 0).toNat 1 2 = 1 then 4 else 0))
    else if off < 0x8000 then z else profileSel (bits (s.regRaw dom 0x8000).toNat 1 2) ((off - 0x8010) / 4)
  | .portq | .twin =>
    if off = 4 then (Field.set { lo := 7, w := 4, ty := .rw } z s.keeper.toplevel)
    else if off < 0x8000 then z else profileSel (bits (s.regRaw dom 0x8000).toNat 1 2) ((off - 0x8010) / 4)
  | .bistc =>
    if off = 4 then (if (s.regRaw dom 0).getLsbD 1 then 2 else 3)
    else if off < 0x14 then 0xFFFF
    else if off = 0x14 then 3
    else if off < 0x8000 then z else profileSel (bits (s.regRaw dom 0x8000).toNat 1 2) ((off - 0x8010) / 4)
  | _ => if off < 0x8000 then z else profileSel (bits (s.regRaw dom 0x8000).toNat 1 2) ((off - 0x8010) / 4)

/-- The value of a register as stored, with its expert fields as derived while the function is at its basic level. -/
def State.cfg (s : State) (dom off : Nat) : Half :=
  match findReg dom off with
  | none => 0
  | some r =>
    let x := s.regRaw dom off
    if s.level dom r.lvl then x
    else
      let z := s.derived dom off r
      r.fields.foldl (fun x f => if f.expert then f.set x (f.get z) else x) x

/-- Bits of a register. -/
def State.cfgBits (s : State) (dom off lo w : Nat) : Nat := bits (s.cfg dom off).toNat lo w

/-- The highest legal value of a field whose range depends on the state: SRESTART (chapter 6), LEVELMAX (R430), EVCONS
(R458). -/
def State.fieldMax (s : State) (dom off : Nat) (f : Field) : Nat :=
  let m := min f.max (2 ^ f.w - 1)
  match blockOf dom with
  | .truss => if off = 0x30 then (s.truss.toArray.getD (dom - 16) {}).ringSize - 1 else m
  | .portq | .twin => if off = 4 && f.lo = 7 then s.keeper.toplevel else m
  | .mcl => if off = 0x6C then s.mcl.evSize - 1 else m
  | _ => m

/-- The registers of a level group other than the level register: those with expert fields under `lvl`. -/
def expertRegs (dom lvl : Nat) : List (Nat × RegDef) :=
  (regsOf dom).flatMap fun r =>
    if r.lvl = lvl && r.fields.any (·.expert) then (List.range r.n).map fun k => (r.off + r.stride * k, r) else []

/-- The value last derived from the profile (R16): of GA.XCFG.CUT the 128 cut where ROLLOUT has been written, be it in force yet or
not (R19, R56). -/
def State.lastDerived (s : State) (dom off : Nat) : Half :=
  let x := s.cfg dom off
  if dom < 8 && off = 4 && bits (s.regRaw dom 0).toNat 1 2 = 1 then Field.set { lo := 0, w := 2, ty := .rw } x 3 else x

/-- Store the values last derived from the profile in the expert fields of a level group (R16). -/
def State.keepDerived (s : State) (dom lvl : Nat) : State :=
  (expertRegs dom lvl).foldl (fun s p => s.setRegRaw dom p.1 (s.lastDerived dom p.1)) s

/-- Is the register the level register of its function? -/
def isLevelReg (dom off : Nat) : Bool := (regsOf dom).any fun r => r.lvl = off && r.fields.any (·.expert)

/-- What a masked write leaves in one field (R497, R498, R20). -/
def State.mergeField (s : State) (dom off : Nat) (r : Requester) (expert : Bool) (old data mask x : Half) (f : Field) : Half :=
  let w := f.get ((old &&& ~~~mask) ||| (data &&& mask))
  let touched := f.get mask ≠ 0
  match f.ty with
  | .rw =>
    if !touched || (f.expert && !expert) || (f.mc && r = .host) then x
    else if f.w = 2 && f.min = 3 then f.set x (if w = 0 then 3 else w)
    else f.set x (max f.min (min w (s.fieldMax dom off f)))
  | .stk => f.set x (f.get (x &&& ~~~(data &&& mask)))
  | .ro | .w1p => x

/-- A masked write of a stored register (R496 to R500), a level switch in the same word applying first (R19). -/
def State.regWrite (s : State) (r : Requester) (dom off : Nat) (data mask : Half) : State :=
  match findReg dom off with
  | none => s
  | some d =>
    let was := s.level dom d.lvl
    let switch := isLevelReg dom off && mask.getLsbD 0
    let now := if switch then data.getLsbD 0 else was
    let s := if switch && now && !was then s.keepDerived dom off else s
    let old := s.cfg dom off
    s.setRegRaw dom off (d.fields.foldl (s.mergeField dom off r now old data mask) (s.regRaw dom off))

end Sys2Proof.Machine
end

