-- ==== Sys2Proof/Machine/Ops.lean ====
section
/-! DEFINITION. The named operations over the state that every family shares: single components, counters and occurrences
(R513 to R520), events (R506, R507, R545), free values, the address map (R490), memory with its alternate views and markers (R290,
R301 to R303), and the memory class of errors. -/
namespace Sys2Proof.Machine

/-! ### Components -/

/-- Apply a function to one entry of a vector; an index beyond the end changes nothing. -/
def vmod {α : Type} {n : Nat} (v : Vector α n) (i : Nat) (f : α → α) : Vector α n :=
  if h : i < n then v.set i (f v[i]) else v

/-- The entry at an index, `d` beyond the end. -/
def vget {α : Type} {n : Nat} (v : Vector α n) (i : Nat) (d : α) : α := if h : i < n then v[i] else d

def State.tr (s : State) (d : Nat) : Truss := vget s.truss d {}
def State.modTr (s : State) (d : Nat) (f : Truss → Truss) : State := { s with truss := vmod s.truss d f }
def State.gaAt (s : State) (i : Nat) : Ga := vget s.ga i {}
def State.modGa (s : State) (i : Nat) (f : Ga → Ga) : State := { s with ga := vmod s.ga i f }
def State.loftAt (s : State) (i : Nat) : Loft := vget s.loft i {}
def State.modLoft (s : State) (i : Nat) (f : Loft → Loft) : State := { s with loft := vmod s.loft i f }
def State.job (s : State) (j : Nat) : JobCtx := vget s.jobs j {}
def State.modJob (s : State) (j : Nat) (f : JobCtx → JobCtx) : State := { s with jobs := vmod s.jobs j f }
def State.core (s : State) (k : Nat) : GCore := vget s.cores k {}
def State.modCore (s : State) (k : Nat) (f : GCore → GCore) : State := { s with cores := vmod s.cores k f }
def State.port (s : State) (k : Nat) : Port := vget s.ports k {}
def State.modPort (s : State) (k : Nat) (f : Port → Port) : State := { s with ports := vmod s.ports k f }
def State.modCommit (s : State) (f : Commit → Commit) : State := { s with commit := f s.commit }
def State.modMcl (s : State) (f : Mcl → Mcl) : State := { s with mcl := f s.mcl }
def State.modPwrc (s : State) (f : Pwrc → Pwrc) : State := { s with pwrc := f s.pwrc }
def State.modKeeper (s : State) (f : Keeper → Keeper) : State := { s with keeper := f s.keeper }
def State.modBist (s : State) (f : Bist → Bist) : State := { s with bist := f s.bist }
def State.modPins (s : State) (f : Pins → Pins) : State := { s with pins := f s.pins }
def State.modCtr (s : State) (f : Counters → Counters) : State := { s with ctr := f s.ctr }

/-- Does an access reach the island of a domain: powered (R503), not held by RESET_N, which the Keeper runs through (R530), and not under
test (R542)? KEEPER and PWRC run from the auxiliary input while PWROK is high (R488, R557, R558), whatever LIVE shows. -/
def State.isLive (s : State) (dom : Nat) : Bool :=
  s.pins.pwrok && (s.pins.resetN || dom = 51) && (vget s.live dom false || dom = 51 || dom = 52) && !(s.bist.busy && s.bist.cur = dom)

/-- Draw the next free value (log entry 4): the machine goes on with a value that nothing constrains. -/
def State.drawFree (s : State) : Nat × State := (Config.freeValue s.free, { s with free := s.free + 1 })

/-- A chain of state changes over a list. -/
def State.each {α : Type} (s : State) (l : List α) (f : State → α → State) : State := l.foldl f s

/-! ### Counters and occurrences -/

/-- The highest count of a 48-bit saturating counter (R515). -/
def satMax : Nat := 2 ^ 48 - 1

/-- A saturating addition. -/
def satAdd (x n : Nat) : Nat := min satMax (x + n)

/-- The key of PMC[k] of a domain, and of CYC; the keys of the slot counters (State, `Counters`). -/
def keyCyc (dom : Nat) : Nat := 16 * dom
def keyPmc (dom k : Nat) : Nat := 16 * dom + 1 + k
def keySlot (i j : Nat) : Nat := 0x1000 + 4 * i + j

/-- The count of a counter. -/
def State.count (s : State) (key : Nat) : Nat := Sparse.get 0 s.ctr.val key

/-- The domain of a counter key and its number in EV_PC_SAT (R528), which is also its bit in PCSAT. -/
def keyDom (key : Nat) : Nat := if key < 0x1000 then key / 16 else (key - 0x1000) / 4
def keyNum (key : Nat) : Nat := if key < 0x1000 then key % 16 else 9 + (key - 0x1000) % 4

/-- Is the event code one that asserts ALERT_N (R510, R545)? -/
def alerting (code : BitVec 12) : Bool :=
  code == 0x440 || code == 0x446 || code == 0x447 || code == 0x400 || code == 0x482 || code == 0x483 || code == 0x484

/-- A record enters the Keeper's buffer for the MC (R545): a full buffer loses its oldest non-alerting record to the new one,
which is lost itself, and counted, where all are alerting. -/
def Keeper.hold (k : Keeper) (e : Event) : Keeper :=
  if k.held.length < 256 then { k with held := k.held ++ [e] }
  else if k.held.any (fun e => !alerting e.code) then
    { k with held := k.held.eraseP (fun e => !alerting e.code) ++ [e] }
  else { k with lost := satAdd k.lost 1 }

/-- An event is lost, `n` events being queued (R460). -/
def Mcl.lose (m : Mcl) (n : Nat) : Mcl :=
  { m with lost := satAdd m.lost 1, lostAfter := if m.lost = 0 then n else m.lostAfter }

/-- EVCFG.EN (R460). -/
def State.evEnabled (s : State) : Bool := (s.regRaw 50 0x64).getLsbD 0

/-- Ring entries that can still be written (R458). -/
def State.ringFree (s : State) : Nat :=
  (s.regRaw 50 0x6C).toNat % s.mcl.evSize + s.mcl.evSize - 1 - s.mcl.prod % s.mcl.evSize

/-- Free entries modulo the ring size. -/
def State.ringRoom (s : State) : Nat := s.ringFree % s.mcl.evSize

/-- A record enters the MC buffer and takes the next SEQ (R507, R545). -/
def State.numbered (s : State) (e : Event) : State :=
  ({ s with keeper := s.keeper.hold { e with seq := BitVec.ofNat 32 s.mcl.seq } } : State).modMcl fun m =>
    { m with seq := (m.seq + 1) % 2 ^ 32 }

/-- The ring entry that lost events will need first (R460). -/
def Mcl.owedEntry (m : Mcl) : Nat := if m.lost > 0 then 1 else 0

/-- A record goes to the event queue where it can be written (R459, R460, R506); the flag says that the queue was full. -/
def State.toQueue (s : State) (e : Event) : State × Bool :=
  if !s.evEnabled || s.mcl.link ≠ 2 || s.ringRoom ≤ s.evq.length + s.mcl.owedEntry then
    (s.modMcl fun m => m.lose s.evq.length, false)
  else if s.evq.length ≥ 1024 then
    ((s.modMcl fun m => m.lose s.evq.length).orReg 59 0 8, true)
  else ({ s with evq := s.evq ++ [e] }, false)

/-- A raised event reaches the MC buffer, and the event queue where it can be written; nothing is counted. -/
def State.post (s : State) (e : Event) : State × Bool := (s.numbered e).toQueue { e with seq := BitVec.ofNat 32 s.mcl.seq }

/-- A record made now (R41, R507). -/
def State.mkEvent (s : State) (code dom d0 d1 d2 : Nat) : Event :=
  { code := BitVec.ofNat 12 code, domain := BitVec.ofNat 6 dom, ticket := s.ticket, stamp := s.stamp,
    data0 := BitVec.ofNat 64 d0, data1 := BitVec.ofNat 64 d1, data2 := BitVec.ofNat 64 d2 }

/-- Add to one counter: it saturates, sets its SAT bit and its bit in PCSAT; the flag says that EV_PC_SAT is due (R515). -/
def State.addCount (s : State) (key n : Nat) : State × Bool :=
  let v := s.count key
  let v' := satAdd v n
  let s := s.modCtr fun c => { c with val := Sparse.put 0 c.val key v' }
  if v' = satMax && !(Sparse.get false s.ctr.sat key) then
    let s := s.modCtr fun c => { c with sat := Sparse.put false c.sat key true }
    (s.orReg (keyDom key) 0x8004 (BitVec.ofNat 16 (2 ^ keyNum key)), (s.regRaw (keyDom key) 0x8000).getLsbD 4)
  else (s, false)

/-- The keys of the PMCs of a domain that select (group, index) and are enabled (R516 to R520). -/
def State.selecting (s : State) (dom group index : Nat) : List Nat :=
  if s.ctr.frozen || !s.isLive dom then [] else
  ((List.range 8).filter fun k =>
    (s.cfg dom (0x8010 + 4 * k)).toNat = group + 4 * (index % 256) + 0x400 && index < 256).map (keyPmc dom)

/-- Add `n` to every PMC of a domain that selects (group, index), without an event. -/
def State.bump (s : State) (dom group index n : Nat) : State × List Nat :=
  (s.selecting dom group index).foldl (fun (p : State × List Nat) key =>
    let (s, due) := p.1.addCount key n
    (s, if due then p.2 ++ [key] else p.2)) (s, [])

/-- The compute die that carries a domain's traffic to HD: its own, or the one its base die connects to (R22 to R24); none on HD. -/
def dieOf (dom : Nat) : Option Nat :=
  if dom < 8 then some (dom / 2) else if dom < 16 then some ((dom - 8) / 2) else if dom < 20 then some (dom - 16)
  else if dom < 24 then some (dom - 20) else if dom < 32 then some ((dom - 24) / 2) else if dom < 40 then some ((dom - 32) / 2) else none

/-- What the posting of an event of a domain counts (R518): events raised, events lost from the queue, lost events, MC records lost, and
the control message that brings a compute or base die's record to HD (R33). -/
def State.postItems (before after : State) (dom : Nat) (full : Bool) : List (Nat × Nat) :=
  [(59, 2)] ++ (match dieOf dom with | some d => [(53 + d, 0)] | none => []) ++ (if full then [(59, 3)] else []) ++ (if before.mcl.lost < after.mcl.lost then [(50, 4)] else []) ++
    (if before.keeper.lost < after.keeper.lost then [(51, 4)] else [])

/-- Raise an event (R506): it is posted and counted. A counter that saturates by that count has its EV_PC_SAT posted too. -/
def State.raiseEv (s : State) (e : Event) : State :=
  let p := s.post e
  let q := (s.postItems p.1 e.domain.toNat p.2).foldl (fun (q : State × List Nat) x =>
    let (s, k) := q.1.bump x.1 1 x.2 1
    (s, q.2 ++ k)) (p.1, [])
  q.2.foldl (fun s key => (s.post (s.mkEvent 0x4C0 (keyDom key) (keyDom key + 256 * keyNum key) 0 0)).1) q.1

/-- Raise an event with its payload (R508). -/
def State.raise (s : State) (code dom : Nat) (d0 : Nat := 0) (d1 : Nat := 0) (d2 : Nat := 0) : State :=
  s.raiseEv (s.mkEvent code dom d0 d1 d2)

/-- EV_PC_SAT for each counter that saturated (R528). -/
def State.raiseSat (s : State) (keys : List Nat) : State :=
  s.each keys fun s key => s.raise 0x4C0 (keyDom key) (keyDom key + 256 * keyNum key)

/-- Add `n` to a counter and raise what that gives. -/
def State.tally (s : State) (key n : Nat) : State :=
  let (s, due) := s.addCount key n
  if due then s.raiseSat [key] else s

/-- `n` occurrences of item `i` of the island's occurrence list (R518). -/
def State.occ (s : State) (dom i : Nat) (n : Nat := 1) : State :=
  if n = 0 then s else
  let (s, keys) := s.bump dom 1 i n
  s.raiseSat keys

/-- `n` messages of a class cross LATH[d] (R24, R33): 0 control, 1 collective, 2 memory. -/
def State.lath (s : State) (d cls n : Nat) : State :=
  let (s, keys) := s.bump (53 + d) 1 cls n
  s.raiseSat keys

/-- Control messages between HD and an island, where a lath lies between (R33). -/
def State.lathControl (s : State) (dom n : Nat) : State :=
  match dieOf dom with
  | some d => s.lath d 0 n
  | none => s

/-- Cycles of unit `u` charged to cause `c` (R517). -/
def State.charge (s : State) (dom u c n : Nat) : State :=
  if n = 0 then s else
  let (s, keys) := s.bump dom 0 (16 * u + c) n
  s.raiseSat keys

/-- Cycle events that every island has (R516, group COMMON). -/
def State.common (s : State) (dom i : Nat) (n : Nat := 1) : State :=
  let (s, keys) := s.bump dom 2 i n
  s.raiseSat keys

/-- TICKET_END (R40): TICKET is at its last value. -/
def State.ticketEnd (s : State) : Bool := s.ticket == 0xFFFFFFFFFFFF

/-- Set TICKET; reaching its last value raises EV_TICKET_END (R512). -/
def State.setTicket (s : State) (t : Word48) : State :=
  let was := s.ticketEnd
  let s := { s with ticket := t }
  if s.ticketEnd && !was then s.raise 0x201 59 t.toNat else s

/-- Is any gutter job OPEN or DRAINING? -/
def State.jobActive (s : State) : Bool := s.jobs.toList.any (·.state ≠ 0)

/-- Raise an event the first time its condition holds in a ticket, for one unit. -/
def State.raiseOnce (s : State) (unit code dom : Nat) (d0 : Nat := 0) (d1 : Nat := 0) (d2 : Nat := 0) : State :=
  if s.once.contains (code, unit, s.ticket) then s
  else ({ s with once := (code, unit, s.ticket) :: s.once }).raise code dom d0 d1 d2

/-- ALERT_N is asserted (R545): an unread alerting record is held, or the boot state is FAILED or TRIPPED. -/
def State.alertN (s : State) : Bool :=
  s.keeper.held.any (fun e => alerting e.code) || s.keeper.bstate = 2 || s.keeper.bstate = 3

/-! ### The address map -/

/-- What a device physical address reaches (R490). -/
inductive Region where
  | hbm (s : Nat) | loft (s : Nat) | array (i : Nat) | ridge (d : Nat) | gutter (g : Nat)
  | csr | counter | table | underlay | unmapped
deriving DecidableEq, Repr

/-- The region, the alternate view (0 plain, 1 set, 2 clear, 3 rotate; R301) and the plain address. -/
structure Place where
  region : Region
  twist  : Nat := 0
  plain  : Nat
deriving DecidableEq, Repr

/-- Where an address leads (R490, R301). -/
def placeOf (a : Nat) : Place :=
  let hi := a / 0x100000000
  let lo := a % 0x100000000
  if a < 0x8000000000 then ⟨.hbm (a / 0x1000000000), 0, a⟩
  else if hi = 0x80 && lo < 0x40000000 then ⟨.loft (lo / 0x8000000), 0, a⟩
  else if 0x90 ≤ hi && hi ≤ 0x93 && lo < 0x20000000 then ⟨.array (lo / 0x4000000), hi - 0x90, 0x9000000000 + lo⟩
  else if 0xA0 ≤ hi && hi ≤ 0xA3 && lo < 0x2000000 then ⟨.ridge (lo / 0x800000), hi - 0xA0, 0xA000000000 + lo⟩
  else if 0xA0 ≤ hi && hi ≤ 0xA3 && lo < 0xA000000 then
    ⟨.gutter ((lo - 0x2000000) / 0x2000000), hi - 0xA0, 0xA000000000 + lo⟩
  else if hi = 0xF0 && lo < 0x10000000 then ⟨.csr, 0, a⟩
  else if hi = 0xF1 && lo < 0x10000000 then ⟨.counter, 0, a⟩
  else if hi = 0xF2 && lo < 0x10000000 then ⟨.table, 0, a⟩
  else if 0x100000000000 ≤ a && a < 0x500000000000 then ⟨.underlay, 0, a⟩
  else ⟨.unmapped, 0, a⟩

/-- Is the address bytes of device memory (HBM, the Loft window, a store or an alternate view)? -/
def Region.isMem : Region → Bool
  | .hbm _ | .loft _ | .array _ | .ridge _ | .gutter _ => true
  | _ => false

/-- The domain that holds the bytes (R299, R25). -/
def Region.dom : Region → Nat
  | .hbm s => 24 + s | .loft s => 32 + s | .array i => i | .ridge d => 20 + d | .gutter g => 46 + g
  | .csr | .counter | .table | .underlay | .unmapped => 59

/-- The compute die through which a region is reached (R22 to R24); none for what HD reaches without a lath. -/
def Region.die (r : Region) : Option Nat := dieOf r.dom

/-- The places that an operand must lie wholly in, numbered (R221, R260): HBM, the Loft window, each store, the Underlay window. -/
def Region.place : Region → Nat
  | .hbm _ => 0 | .loft _ => 1 | .underlay => 2 | .array i => 10 + i | .ridge d => 20 + d | .gutter g => 30 + g
  | .csr | .counter | .table | .unmapped => 3

/-- The size of a checked unit (R290). -/
def Region.unit : Region → Nat
  | .hbm _ | .loft _ => 32
  | _ => 8

/-- Bytes of the scratchpad part of a slice (R294). -/
def Loft.scratch (l : Loft) : Nat := if l.mode = 0 then 0 else if l.mode = 1 then 0x8000000 else 0x4000000

/-- Does the address hold bytes that an access reaches: not unmapped, not outside a scratchpad part (R296), not in a dark
island (R503)? An access to a stack passes its Loft slice (R293). -/
def State.memOk (s : State) (a : Nat) : Bool :=
  match (placeOf a).region with
  | .hbm k => s.isLive (24 + k) && s.isLive (32 + k)
  | .loft k => s.isLive (32 + k) && a % 0x8000000 < (s.loftAt k).scratch
  | .array i => s.isLive i
  | .ridge d => s.isLive (20 + d)
  | .gutter g => s.isLive (46 + g)
  | _ => false

/-- Every byte of a range is reachable; ranges that cross places are checked byte by byte at their unit borders. -/
def State.rangeOk (s : State) (a n : Nat) : Bool :=
  n = 0 || ((List.range ((a + n - 1) / 32 - a / 32 + 1)).all fun k => s.memOk (if k = 0 then a else (a / 32 + k) * 32)) &&
    s.memOk (a + n - 1)

/-! ### Bytes -/

/-- The checked unit of a plain address, as its first byte's address (R290). -/
def unitOf (a : Nat) : Nat :=
  let u := (placeOf a).region.unit
  a / u * u

/-- What an unlisted byte reads as (R298, R300, R533). -/
def emptyByte : Byte := 0

/-- The byte stored at a plain address. -/
def State.byte (s : State) (a : Nat) : Byte := Sparse.get emptyByte s.mem a

/-- `n` bytes from a plain address. -/
def State.bytes (s : State) (a n : Nat) : List Byte := Sparse.getList emptyByte s.mem a n

/-- Is the unit that holds the byte poisoned? -/
def State.poisonAt (s : State) (a : Nat) : Bool := Sparse.get false s.poison (unitOf a)

/-- Store one byte; a byte of a unit that stays poisoned is lost with it (R290). -/
def State.putByte (s : State) (a : Nat) (v : Byte) : State :=
  if s.poisonAt a then s else { s with mem := Sparse.put emptyByte s.mem a v }

/-- The units that a range covers wholly. -/
def wholeUnits (a n : Nat) : List Nat :=
  let u := (placeOf a).region.unit
  let first := (a + u - 1) / u
  (List.range ((a + n) / u - first)).map fun k => (first + k) * u

/-- The units that a range touches. -/
def touchedUnits (a n : Nat) : List Nat :=
  if n = 0 then [] else
  let u := (placeOf a).region.unit
  (List.range ((a + n - 1) / u - a / u + 1)).map fun k => (a / u + k) * u

/-- Set or clear the marker of a unit. -/
def State.mark (s : State) (u : Nat) (p : Bool) : State := { s with poison := Sparse.put false s.poison u p }

/-- Store bytes from an address on, one after another. -/
def State.putBytes (s : State) (a : Nat) : List Byte → State
  | [] => s
  | v :: vs => (s.putByte a v).putBytes (a + 1) vs

/-- A plain write (R290): units wholly covered lose their marker first; a unit covered in part and poisoned stays as it is. -/
def State.writeRaw (s : State) (a : Nat) (bs : List Byte) : State :=
  (s.each (wholeUnits a bs.length) fun s u => s.mark u false).putBytes a bs

/-- While a pass is in progress, the bytes written are noted with their writer (R409). -/
def State.noteWrite (s : State) (a n writer : Nat) : State :=
  if n = 0 || s.passes.isEmpty then s else { s with written := s.written ++ [(a, n, writer)] }

/-- A plain write by any agent but a program run of a Gutter core. -/
def State.write (s : State) (a : Nat) (bs : List Byte) : State := (s.writeRaw a bs).noteWrite a bs.length 0

/-- A write of poisoned data: every unit touched becomes uncorrectable. -/
def State.writePoison (s : State) (a : Nat) (bs : List Byte) : State :=
  (s.write a bs).each (touchedUnits a bs.length) fun s u => s.mark u true

/-- The number that bytes spell, least significant first. -/
def leNat : List Byte → Nat
  | [] => 0
  | b :: bs => b.toNat + 256 * leNat bs

/-- The `n` bytes of a number, least significant first. -/
def leBytes (x : Nat) : Nat → List Byte
  | 0 => []
  | n + 1 => BitVec.ofNat 8 x :: leBytes (x / 256) n

/-- The little-endian number at an address. -/
def State.readNat (s : State) (a n : Nat) : Nat := leNat (s.bytes a n)

/-- Store a little-endian number. -/
def State.writeNat (s : State) (a x n : Nat) : State := s.write a (leBytes x n)

/-! ### Aliases (R301 to R303) -/

/-- Rotate the lanes of a word left by `k` lanes. -/
def rotLanes (w : List Byte) (k : Nat) : List Byte := w.drop (w.length - k) ++ w.take (w.length - k)

/-- A write through the rotate alternate view: lanes that hold data after the rotation are written. -/
def State.writeRotate (s : State) (a : Nat) (bs : List Byte) : State :=
  let k := a % 8
  let base := a / 8 * 8
  let d := bs.take 8
  s.each (List.range d.length) fun s j => s.putByte (base + (j + k) % 8) (d.getD j 0)

/-- A write by an agent that reaches stores by address, alternate views included. Writes through an alternate view read the word first, so a
poisoned word stays poisoned (R290). -/
def State.writeVia (s : State) (a : Nat) (bs : List Byte) : State :=
  let p := placeOf a
  match p.twist with
  | 0 => s.write a bs
  | 1 => s.putBytes p.plain (List.zipWith (· ||| ·) (s.bytes p.plain bs.length) bs)
  | 2 => s.putBytes p.plain (List.zipWith (fun x y => x &&& ~~~y) (s.bytes p.plain bs.length) bs)
  | _ => s.writeRotate p.plain bs

/-- A read by an agent that reaches stores by address. -/
def State.readVia (s : State) (a n : Nat) : List Byte :=
  let p := placeOf a
  match p.twist with
  | 0 | 1 | 2 => s.bytes p.plain n
  | _ =>
    let k := p.plain % 8
    let w := s.bytes (p.plain / 8 * 8) 8
    ((w.drop k ++ w.take k).take n) ++ List.replicate (n - 8) 0

/-! ### Errors met by a read -/

/-- An uncorrectable error is read at a unit (R290): the block's register, its count and EV_MEM_UNCORR. -/
def State.memUncorr (s : State) (u : Nat) : State :=
  let r := (placeOf u).region
  let dom := r.dom
  let s := match r with
    | .hbm _ =>
      (((s.orReg dom 8 2).setRegRaw dom 0xC (BitVec.ofNat 16 (bits u 5 16))).setRegRaw dom 0x10
        (BitVec.ofNat 16 (bits u 21 16))).setRegRaw dom 0x14 (BitVec.ofNat 16 (bits u 37 11)) |>.occ dom 1
    | .array _ => (s.orReg dom 0x10 2).occ dom 4
    | .ridge _ => (s.orReg dom 0x10 2).occ dom 4
    | .gutter _ => (s.orReg dom 0xF00 2).occ dom 29
    | _ => s
  s.raise 0x2C1 dom u dom

/-- A run of bytes of an operand (R290); where the first and the last byte of that operand stand: a view with its scale lines is one
operand (R142, R145, R221); and the run of bytes that is read whole with it: a slate block or a scale line (R146, R290). -/
structure Span where
  a : Nat
  n : Nat
  home : Nat := a
  last : Nat := a + n - 1
  run  : Nat × Nat := (a, n)
deriving DecidableEq, Repr

/-- The poisoned units among consumed bytes, each once. -/
def State.badUnits (s : State) (l : List Span) : List Nat :=
  ((l.flatMap fun x => touchedUnits x.a x.n).filter s.poisonAt).eraseDups

/-- The poisoned units among the bytes read, consumed or not, each once. -/
def State.badRead (s : State) (l : List Span) : List Nat := s.badUnits (l.map fun x => { a := x.run.1, n := x.run.2 })

/-- The lines of the spans that the host holds and a device agent must wait for (R456): modified ones for a read, any for a
write. -/
def State.hostHeld (s : State) (l : List Span) (write : Bool) : List Nat :=
  s.mcl.snoop.filterMap fun x =>
    if (write || x.own) && l.any (fun p => p.a < 64 * x.line + 64 && 64 * x.line < p.a + p.n) then some x.line else none

/-- Is a change of the slice of an address in progress (R297)? -/
def State.reconfAt (s : State) (a : Nat) : Bool :=
  match (placeOf a).region with
  | .hbm k | .loft k => (s.loftAt k).reconf
  | _ => false

/-- The lines of spans whose slice changes its mode: their accesses wait until it has (R297). -/
def State.reconfHeld (s : State) (l : List Span) : List Nat :=
  (l.filter fun p => p.n ≠ 0 && (s.reconfAt p.a || s.reconfAt (p.a + p.n - 1))).map (·.a / 64)

/-- Is the byte in a store, or behind a Loft slice, that is being cleared (R298, R300)? -/
def State.clearingAt (s : State) (a : Nat) : Bool :=
  match (placeOf a).region with
  | .hbm k | .loft k => (s.loftAt k).clearing
  | .array _ | .ridge _ | .gutter _ => s.clearing
  | _ => false

/-- The lines that keep an agent waiting whoever it is, hold aside: those of a slice that changes its mode (R297), and of memory that is
being cleared (R300). -/
def State.busyHeld (s : State) (l : List Span) : List Nat :=
  s.reconfHeld l ++ (l.filter fun p => p.n ≠ 0 && s.clearingAt p.a).map (·.a / 64)

/-- The lines that keep an agent waiting whoever it is: while the device is in hold every line of HBM too (R486 order 3). -/
def State.shut (s : State) (l : List Span) : List Nat :=
  (if s.pwrc.hold then (l.filter fun p => p.a < 0x8000000000 && p.n ≠ 0).map (·.a / 64) else []) ++ s.busyHeld l

/-- The lines that keep a device agent waiting: those that the host holds (R456), and those that are shut to everyone. -/
def State.snooped (s : State) (l : List Span) (write : Bool) : List Nat := s.hostHeld l write ++ s.shut l

/-- The command needs lines that the host holds. -/
def State.want (s : State) (lines : List Nat) : State :=
  if lines.isEmpty then s else s.modMcl fun m => { m with wanted := m.wanted ++ lines }

/-- What consuming bytes reports at completion (R197, R290, R491): ADDRESS where some byte is not reachable, else DATA_ERROR
where some unit is uncorrectable. Every uncorrectable unit read raises its event, also one that holds only bytes ignored (R290). -/
def State.consume (s : State) (l : List Span) : State × Option TrapCause :=
  if !(l.all fun x => s.rangeOk x.a x.n) then (s, some .address)
  else
    let s := s.want (s.snooped l false)
    (s.each (s.badRead l) State.memUncorr, if (s.badUnits l).isEmpty then none else some .dataError)

/-- Sets of the cache part of a slice (R294). -/
def Loft.sets (l : Loft) : Nat := match l.mode with | 0 => 32768 | 1 => 0 | _ => 16384

/-- One access to a line of a stack passes its Loft slice (R293, R295); the cache part shows only in counters. -/
def State.touchLine (s : State) (line : Nat) (dirty alloc : Bool) : State :=
  match (placeOf (256 * line)).region with
  | .hbm k =>
    let l := s.loftAt k
    if l.sets = 0 then s else
    let n := line % 0x10000000
    match l.lines.find? (·.1 = n) with
    | some (_, d) => (s.modLoft k fun l => { l with lines := (n, d || dirty) :: l.lines.filter (·.1 ≠ n) }).occ (32 + k) 0
    | none =>
      let s := s.occ (32 + k) 1
      if !alloc then s else
      let inSet := l.lines.filter fun p => p.1 % l.sets = n % l.sets
      match if inSet.length < 16 then none else inSet.getLast? with
      | none => s.modLoft k fun l => { l with lines := (n, dirty) :: l.lines }
      | some (v, d) =>
        let s := s.modLoft k fun l => { l with lines := (n, dirty) :: l.lines.filter (·.1 ≠ v) }
        if d then s.occ (32 + k) 2 else s
  | _ => s

/-- Who moves bytes: the compute die it stands on, none on HD, and the class of its lath traffic (R33). -/
structure Mover where
  die : Option Nat
  cls : Nat := 2
deriving DecidableEq, Repr

/-- An agent of compute die `d`, one of HD, and the collectives (R33). -/
def Mover.cd (d : Nat) : Mover := { die := some d }
def Mover.hub : Mover := { die := none }
def Mover.collective : Mover := { die := none, cls := 1 }

/-- The laths that a transfer between an agent and a span crosses carry its messages (R24, R33). -/
def State.cross (s : State) (m : Mover) (x : Span) : State :=
  let die := (placeOf x.a).region.die
  if x.n = 0 || die = m.die then s
  else s.each (m.die.toList ++ die.toList) fun s d => s.lath d m.cls (Config.lathMessages m.cls x.n)

/-- An agent's accesses to the lines of spans. -/
def State.touch (s : State) (m : Mover) (l : List Span) (dirty alloc : Bool) : State :=
  s.each l fun s x =>
    if x.n = 0 then s
    else (s.cross m x).each (List.range ((x.a + x.n - 1) / 256 - x.a / 256 + 1)) fun s k => s.touchLine (x.a / 256 + k) dirty alloc

/-- A sequential read of a tier engine: a stack whose slice has STREAMNA set does not allocate its lines (R294, R295). -/
def State.stream (s : State) (m : Mover) (l : List Span) : State :=
  s.each l fun s x =>
    if x.n = 0 then s
    else (s.cross m x).each (List.range ((x.a + x.n - 1) / 256 - x.a / 256 + 1)) fun s k =>
      s.touchLine (x.a / 256 + k) false (match (placeOf (256 * (x.a / 256 + k))).region with | .hbm h => !(s.loftAt h).streamna | _ => true)

/-- An agent of HD reads, or writes, the bytes of spans: it waits for lines that keep it waiting (R456), and its accesses pass the Loft
slices (R293). -/
def State.forRead (s : State) (l : List Span) (m : Mover := .hub) : State := (s.want (s.snooped l false)).touch m l false true
def State.forWrite (s : State) (l : List Span) (m : Mover := .hub) : State := (s.want (s.snooped l true)).touch m l true true

/-- An agent of HD writes bytes of a bucket: in hold too where the Gutter had encoded it before (`pre`, R486 order 3). -/
def State.storeBucket (s : State) (pre : Bool) (a : Nat) (bs : List Byte) : State :=
  let l : List Span := [{ a, n := bs.length }]
  (((s.want (s.hostHeld l true ++ (if pre then s.busyHeld l else s.shut l))).write a bs).touch .collective l true true)

/-- An agent of HD writes bytes. -/
def State.store (s : State) (a : Nat) (bs : List Byte) : State := (s.forWrite [{ a, n := bs.length }]).write a bs

/-- A single-symbol or single-bit error of a unit read: corrected, counted and written back (R290, R306). -/
def State.memCorr (s : State) (a : Nat) : State :=
  let r := (placeOf a).region
  match r with
  | .hbm _ => (s.orReg r.dom 8 1).occ r.dom 0
  | .array _ => (s.orReg r.dom 0x10 1).occ r.dom 3
  | .ridge _ => (s.orReg r.dom 0x10 1).occ r.dom 3
  | .gutter _ => (s.orReg r.dom 0xF00 1).occ r.dom 28
  | _ => s

/-- The error that a command carries is corrected, where it is in a unit among the bytes read. -/
def State.corrected (s : State) (data : LineData) (l : List Span) : State :=
  match data with
  | .memory (some a) => if l.any fun x => (touchedUnits x.a x.n).contains (unitOf a) then s.memCorr a else s
  | _ => s

/-- Is the span free of alternate view addresses (R301)? -/
def Span.plain (x : Span) : Bool := (placeOf x.a).twist = 0 && (placeOf (x.a + x.n - 1)).twist = 0

end Sys2Proof.Machine
end

