-- ==== Sys2Proof/Machine/Send.lean ====
section
/-! DEFINITION. Sending on the fabric: packet bytes (R332, R422), cells (R421), the path table (R435 to R437), and the sending
side of a port with its credits and replay buffer (R425, R426). -/
namespace Sys2Proof.Machine

/-! ### CRCs -/

/-- One step of a most-significant-bit-first CRC of width `w`. -/
def crcStep (w poly c : Nat) : Nat := if c < 2 ^ (w - 1) then 2 * c else (2 * c - 2 ^ w) ^^^ poly

/-- One byte of such a CRC. -/
def crcByte (w poly : Nat) (c : Nat) (b : Byte) : Nat :=
  (List.range 8).foldl (fun c _ => crcStep w poly c) (c ^^^ (b.toNat * 2 ^ (w - 8)))

/-- CRC-16 of a cell (R421): polynomial 0x1021, initial value 0xFFFF. -/
def crc16 (l : List Byte) : Nat := l.foldl (crcByte 16 0x1021) 0xFFFF

/-- One step of CRC-32 of IEEE 802.3, reflected. -/
def crc32Step (c : Nat) : Nat := if c % 2 = 1 then (c / 2) ^^^ 0xEDB88320 else c / 2

/-- CRC-32 of IEEE 802.3 (R326). -/
def crc32 (l : List Byte) : Nat :=
  (l.foldl (fun c b => (List.range 8).foldl (fun c _ => crc32Step c) (c ^^^ b.toNat)) 0xFFFFFFFF) ^^^ 0xFFFFFFFF

end Sys2Proof.Machine

namespace Sys2Proof
open Sys2Proof.Machine

/-! ### Packets as bytes -/

/-- The 4-B route word (R422). -/
def Packet.route (p : Packet) : Nat := p.dest.toNat + 0x10000 * p.plevel.toNat + 0x100000 * p.hops.toNat

/-- The 16-bit ID. -/
def Packet.id (p : Packet) : Nat := p.job.toNat + 0x1000 * p.gen.toNat

/-- ATTEMPT of the FLAGS byte (R332). -/
def Packet.attempt (p : Packet) : Nat := p.flags.toNat / 16

/-- Route word, header and payload, in the order of the wire. -/
def Packet.wire (p : Packet) : List Byte :=
  leBytes p.route 4 ++ leBytes p.id 2 ++ [p.kind, p.flags] ++ leBytes p.ticket.toNat 6 ++ leBytes p.src.toNat 2 ++
  leBytes p.seq.toNat 2 ++ leBytes p.eb.toNat 2 ++ leBytes p.bucket.toNat 4 ++ leBytes p.first.toNat 4 ++
  leBytes p.nblk.toNat 2 ++ leBytes p.maxq.toNat 2 ++ leBytes p.drops.toNat 4 ++ p.payload

/-- A packet from its bytes; a run shorter than its header is no packet. -/
def Packet.ofWire (l : List Byte) : Option Packet :=
  if l.length < 36 then none else
  let f (a n : Nat) : Nat := leNat ((l.drop a).take n)
  some { dest := BitVec.ofNat 16 (f 0 2), plevel := BitVec.ofNat 4 (f 2 1), hops := BitVec.ofNat 3 (f 2 1 / 16),
         job := BitVec.ofNat 12 (f 4 2), gen := BitVec.ofNat 4 (f 4 2 / 4096), kind := BitVec.ofNat 8 (f 6 1),
         flags := BitVec.ofNat 8 (f 7 1), ticket := BitVec.ofNat 48 (f 8 6), src := BitVec.ofNat 16 (f 14 2),
         seq := BitVec.ofNat 16 (f 16 2), eb := BitVec.ofNat 16 (f 18 2), bucket := BitVec.ofNat 32 (f 20 4),
         first := BitVec.ofNat 32 (f 24 4), nblk := BitVec.ofNat 16 (f 28 2), maxq := BitVec.ofNat 16 (f 30 2),
         drops := BitVec.ofNat 32 (f 32 4), payload := l.drop 36 }

/-- Header bits [15:0] of a cell (R421). -/
def Cell.head (c : Cell) : Nat :=
  (if c.used then 1 else 0) + (if c.first then 2 else 0) + (if c.last then 4 else 0) + (if c.stream then 8 else 0) +
  16 * c.len.toNat

/-- The CRC a cell must carry. -/
def Cell.crcOf (c : Cell) : Nat := crc16 (leBytes c.head 2 ++ c.bytes)

/-- The 256 bytes of a cell on the wire (R421). -/
def Cell.wire (c : Cell) : List Byte := leBytes c.head 2 ++ leBytes c.crc.toNat 2 ++ c.bytes

/-- Frame control, bytes 0 to 4 (R420); bits [39:37] are written 0. -/
def Frame.control (f : Frame) : Nat :=
  f.fseq.toNat + 2 ^ 12 * f.aseq.toNat + 2 ^ 24 * f.bcred.toNat + 2 ^ 32 * f.ccred.toNat + (if f.nak then 2 ^ 36 else 0)

/-- The 1,285 bytes of a frame (R420). -/
def Frame.wire (f : Frame) : List Byte := leBytes f.control 5 ++ f.cells.flatMap Cell.wire

/-- The 1,028 data symbols of a frame, ten bits each, from bit 0 of byte 0 on (DESIGN CHOICE, log entry 81). -/
def Frame.symbols (f : Frame) : List Nat := (List.range 1028).map fun k => leNat f.wire / 2 ^ (10 * k) % 1024

/-- The symbols of a frame on the line (R420): two codewords of RS(544,514), interleaved symbol by symbol, the check symbols after the
data symbols. -/
def Frame.line (f : Frame) : List Nat :=
  let half (b : Nat) : List Nat := (List.range 514).map fun k => f.symbols.getD (2 * k + b) 0
  let word (b : Nat) : List Nat := half b ++ (List.range 30).map fun k => Config.rsCheck (half b) k % 1024
  (List.range 1088).map fun k => (word (k % 2)).getD (k / 2) 0

/-- What lane `l` carries of a frame (R420): symbols are dealt to lanes 0 to 7 in rotation. -/
def Frame.lane (f : Frame) (l : Nat) : List Nat := (List.range 136).map fun k => f.line.getD (8 * k + l) 0

/-- An empty cell. -/
def Cell.empty : Cell :=
  { used := false, first := false, last := false, stream := false, len := 0, crc := 0, bytes := List.replicate 252 0 }

/-- Cut a packet into cells of 252 payload bytes (R421, R422); `n` counts the cells still to cut. -/
def cutCells (stream : Bool) : Nat → Bool → List Byte → List Cell
  | 0, _, _ => []
  | n + 1, first, l =>
    let now := l.take 252
    let c : Cell := { used := true, first, last := n = 0, stream, len := BitVec.ofNat 8 now.length, crc := 0,
                      bytes := now ++ List.replicate (252 - now.length) 0 }
    { c with crc := BitVec.ofNat 16 c.crcOf } :: cutCells stream n false (l.drop 252)

/-- The cells of a packet. -/
def Packet.cells (p : Packet) (stream : Bool) : List Cell :=
  let w := p.wire
  cutCells stream ((w.length + 251) / 252) true w

/-- The stream of a packet at its level (R422). -/
def Packet.stream (p : Packet) : Bool :=
  2 ≤ p.plevel.toNat && [Kind.join, .joinAck, .agree, .reduce, .vote, .abandon, .commit].any (·.code == p.kind)

/-- The kinds that take the eligible ports in rotation (R437). -/
def Packet.spreads (p : Packet) : Bool := [Kind.bucketRs, .bucketAg, .dispatch, .combine].any (·.code == p.kind)

end Sys2Proof

namespace Sys2Proof.Machine

/-! ### A port's sending side -/

/-- The domain of a port (R419) and its number within the block. -/
def portDom (k : Nat) : Nat := if k < 20 then 40 + k / 4 else 45
def portIdx (k : Nat) : Nat := if k < 20 then k % 4 else k - 20

/-- Occurrences of item `i` of a port (R518). -/
def State.occPort (s : State) (k i : Nat) (n : Nat := 1) : State := s.occ (portDom k) (32 * portIdx k + i) n

/-- The next packet of a stream that has cells left. -/
def Port.head? (q : Port) (stream : Bool) : Option OutPkt := q.waiting.find? fun o => o.stream == stream && !o.cells.isEmpty

/-- Take the next cell that may go: a control cell before a bulk one, each against a credit of its stream (R422, R426). -/
def Port.takeCell (q : Port) : Option (Cell × PktTag × Port) :=
  let go (stream : Bool) : Option (Cell × PktTag × Port) :=
    match q.head? stream with
    | none => none
    | some o =>
      match o.cells with
      | [] => none
      | c :: cs =>
        let o' := { o with cells := cs, started := true }
        let waiting := (q.waiting.foldl (fun (acc : List OutPkt × Bool) x =>
          if acc.2 then (acc.1 ++ [x], true)
          else if x == o then ((if cs.isEmpty then acc.1 else acc.1 ++ [o']), true) else (acc.1 ++ [x], false)) ([], false)).1
        let tag : PktTag := { pkt := o.pkt, stream := o.stream, own := o.own }
        some (c, tag, { q with waiting, credBulk := if stream then q.credBulk else q.credBulk - 1,
                               credCtrl := if stream then q.credCtrl - 1 else q.credCtrl,
                               tx := q.tx + c.len.toNat })
  match (if q.credCtrl > 0 then go true else none) with
  | some r => some r
  | none => if q.credBulk > 0 then go false else none

/-- Up to `n` cells for a frame. -/
def Port.takeCells : Nat → Port → List Cell × List PktTag × Port
  | 0, q => ([], [], q)
  | n + 1, q =>
    match q.takeCell with
    | none => ([], [], q)
    | some (c, t, q) =>
      let (cs, ts, q) := Port.takeCells n q
      (c :: cs, t :: ts, q)

/-- Build and send one frame: its cells, the acknowledgement, the credits returned and any NAK (R420). -/
def Port.frameOut (q : Port) : Port × Nat :=
  let (cs, ts, q) := Port.takeCells 5 q
  let cs' := cs ++ List.replicate (5 - cs.length) Cell.empty
  let bc := min q.retBulk 255
  let cc := min q.retCtrl 15
  let f : Frame := { fseq := q.fseq, aseq := q.rxSeq - 1, bcred := BitVec.ofNat 8 bc, ccred := BitVec.ofNat 4 cc,
                     nak := q.nakDue, cells := cs' }
  ({ q with fseq := q.fseq + 1, replay := q.replay ++ [(f, ts)], retBulk := q.retBulk - bc, retCtrl := q.retCtrl - cc,
            grantBulk := q.grantBulk + bc, grantCtrl := q.grantCtrl + cc, nakDue := false }, cs.length)

/-- Is there something a frame must carry: a cell that may go, credits to return, a NAK? -/
def Port.due (q : Port) : Bool := q.takeCell.isSome || q.retBulk > 0 || q.retCtrl > 0 || q.nakDue

/-- Send frames while the port is UP, its replay buffer has room (R425) and something is due; `n` bounds the frames. -/
def State.pump (s : State) (k : Nat) : Nat → State
  | 0 => s
  | n + 1 =>
    let q := s.port k
    if q.state = .up && q.replay.length < 512 && q.due then
      let (q, used) := q.frameOut
      (((s.modPort k fun _ => q).occPort k 0).occPort k 2 used).pump k n
    else if q.state = .up && q.waiting.any (fun o => !o.cells.isEmpty) then s.occPort k 7 else s

/-- Does a port hold its transmitters in electrical idle at high impedance (R419)? -/
def State.txIdle (s : State) (k : Nat) : Bool :=
  !s.isLive (portDom k) || !s.pins.resetN || (s.port k).state = .down || (s.port k).state = .disabled

/-- The line bits that a port carries in one D51 cycle: eight lanes of 224 Gb/s, or four (R419, R429). -/
def Port.bits (q : Port) : Nat := if q.half then 1792 else 3584

/-- One D51 cycle of an UP port: it sends frames continuously, of 10,880 line bits each, and empty ones serve as keep-alive (R420, R428). A
full replay buffer holds them back (R425). -/
def State.keepAlive (s : State) (k : Nat) : State :=
  let q := s.port k
  if q.state ≠ .up || !s.isLive (portDom k) then s
  else if q.line + q.bits < 10880 then s.modPort k fun q => { q with line := q.line + q.bits }
  else
    let s := s.modPort k fun q => { q with line := q.line + q.bits - 10880 }
    if 512 ≤ q.replay.length then s else
    let (q, used) := (s.port k).frameOut
    ((s.modPort k fun _ => q).occPort k 0).occPort k 2 used

/-- Enough frames for everything that waits. -/
def Port.frames (q : Port) : Nat := (q.waiting.map fun o => o.cells.length).sum + 2

/-- Put a packet on a port's stream and send what can be sent. -/
def State.emit (s : State) (k : Nat) (stream : Bool) (p : Packet) (own : Bool) : State :=
  let s := s.modPort k fun q => { q with waiting := q.waiting ++ [{ stream, pkt := p, cells := p.cells stream, own }] }
  s.pump k (s.port k).frames

/-! ### The path table -/

/-- A word of table space (R504). -/
def State.tword (s : State) (k : Nat) : Nat := (Sparse.get (0 : Word64) s.table k).toNat

/-- Store a word of table space (R504). -/
def State.setTable (s : State) (k v : Nat) : State := { s with table := Sparse.put 0 s.table k (BitVec.ofNat 64 v) }

/-- Set a field of a word of table space. -/
def State.setTableBits (s : State) (k lo w v : Nat) : State :=
  let x := s.tword k
  s.setTable k (x - bits x lo w * 2 ^ lo + v % 2 ^ w * 2 ^ lo)

/-- Set bits of a natural number below 2^n. -/
def popcount (x n : Nat) : Nat := ((List.range n).filter fun k => x / 2 ^ k % 2 = 1).length

/-- Does path-table word 0 match a coordinate and a job (R436)? -/
def pathMatch (w c job : Nat) : Bool :=
  w % 2 = 1 && ((c ^^^ bits w 16 16) &&& bits w 32 16) = 0 && (bits w 1 1 = 1 || bits w 4 12 = job)

/-- The rank of a matching entry: set bits of DMASK, then a job-specific entry (R436). -/
def pathRank (w : Nat) : Nat := 2 * popcount (bits w 32 16) 16 + (if bits w 1 1 = 1 then 0 else 1)

/-- The entry the lookup chooses (R436): the highest rank, the lowest index among equals. -/
def State.pathEntry (s : State) (c job : Nat) : Option Nat :=
  (s.table.foldl (fun (best : Option (Nat × Nat)) p =>
    if p.1 < 8192 && p.1 % 2 = 0 && pathMatch p.2.toNat c job then
      match best with
      | some (_, r) => if r < pathRank p.2.toNat then some (p.1 / 2, pathRank p.2.toNat) else best
      | none => some (p.1 / 2, pathRank p.2.toNat)
    else best) none).map (·.1)

/-- The eligible ports of an entry at a level, ascending (R437). -/
def State.eligible (s : State) (entry level : Nat) : List Nat :=
  let w := s.tword (2 * entry + 1)
  (List.range 20).filter fun k => w / 2 ^ k % 2 = 1 && (s.port k).state = .up && level ≤ (s.port k).nlevel

/-- SPREAD of an entry. -/
def State.spread (s : State) (entry : Nat) : Bool := bits (s.tword (2 * entry)) 2 1 = 1

/-- Does this device's path to a coordinate for a job run at level L or above (R432)? -/
def State.pathAt (s : State) (c job level : Nat) : Bool :=
  match s.pathEntry c job with
  | none => false
  | some e => !(s.eligible e level).isEmpty

/-- The next port of a rotation (R437). -/
def rotate (last : Option Nat) (ports : List Nat) : Option Nat :=
  match last with
  | none => ports.head?
  | some k =>
    match ports.find? (fun x => k < x) with
    | some x => some x
    | none => ports.head?

/-- Send one packet of this device (R436, R437). The flag says whether a port was found. -/
def State.sendRaw (s : State) (p : Packet) : State × Bool :=
  match s.pathEntry p.dest.toNat p.job.toNat with
  | none => (s, false)
  | some e =>
    let ports := s.eligible e p.plevel.toNat
    if p.kind == Kind.drain.code then
      let ports := if s.spread e then ports else ports.take 1
      let two := 2 ≤ p.plevel.toNat
      let p := { p with nblk := BitVec.ofNat 16 (ports.length * (if two then 2 else 1)) }
      (s.each ports fun s k =>
        let s := s.emit k false p true
        if two then s.emit k true p true else s, !ports.isEmpty)
    else if s.spread e && p.spreads then
      match rotate (Sparse.get none s.rot e) ports with
      | none => (s, false)
      | some k => (({ s with rot := Sparse.put none s.rot e (some k) }).emit k p.stream p true, true)
    else
      match ports.head? with
      | none => (s, false)
      | some k => (s.emit k p.stream p true, true)

/-- This device's coordinate. -/
def State.self (s : State) : Nat := s.coord.inForce.toNat

/-- A packet of a job's current attempt, addressed to a member (R332, R431). -/
def State.mkPacket (s : State) (c : JobCtx) (k : Kind) (dest : Nat) : Packet :=
  { dest := BitVec.ofNat 16 dest, plevel := BitVec.ofNat 4 c.jr.compat, hops := 0, job := BitVec.ofNat 12 c.job,
    gen := BitVec.ofNat 4 c.gen, kind := k.code, flags := BitVec.ofNat 8 (16 * c.attempt), ticket := s.ticket,
    src := s.coord.inForce, seq := 0, eb := 0, bucket := 0, first := 0, nblk := 0, maxq := 0, drops := 0, payload := [] }

/-- The other members of a job, in member-list order. -/
def JobCtx.others (c : JobCtx) : List Nat := (List.range c.members.length).filter (· ≠ c.self)

end Sys2Proof.Machine
end

