-- ==== Sys2Proof/Machine/Words.lean ====
section
/-! DEFINITION. Instruction words (R208 to R213, R225, R254, R259) and the codes and classes of trap causes (R197, R284). -/
namespace Sys2Proof.Machine

/-! ### Instruction words -/

/-- The fields of R208. -/
def QEntry.op (e : QEntry) : Nat := bits e.w0.toNat 56 8
def QEntry.x (e : QEntry) : Bool := e.w0.getLsbD 55
def QEntry.mod (e : QEntry) : Nat := bits e.w0.toNat 48 7
def QEntry.wa (e : QEntry) : Nat := bits e.w0.toNat 42 6
def QEntry.wb (e : QEntry) : Nat := bits e.w0.toNat 36 6
def QEntry.sg (e : QEntry) : Nat := bits e.w0.toNat 30 6
def QEntry.da (e : QEntry) : Nat := bits e.w0.toNat 18 12
def QEntry.db (e : QEntry) : Nat := bits e.w0.toNat 6 12
def QEntry.cr (e : QEntry) : Nat := bits e.w0.toNat 0 6
/-- One modifier bit. -/
def QEntry.m (e : QEntry) (k : Nat) : Bool := e.w0.getLsbD (48 + k)
/-- Bits of the second word, which is zero in the 64-bit form and at the basic level (R196). -/
def QEntry.hi (e : QEntry) (lo w : Nat) : Nat := bits e.w1.toNat lo w

/-- Courses of a cut code (R53). -/
def coursesOf (cut : Nat) : Nat := match cut with | 0 => 1 | 1 => 4 | 2 => 9 | _ => 36
/-- The edge of a cut code (R53). -/
def edgeOf (cut : Nat) : Nat := match cut with | 0 => 768 | 1 => 384 | 2 => 256 | _ => 128

/-- What decode knows of an opcode (R213, R254): its queue class (0 in-line, 1 array by MOD[0], 3 feeder by MOD[0], 5, 6, 7),
the modifier bits it uses, whether it uses DA, DB and CR, and the bits of its second word (R225, R259). -/
structure OpInfo where
  queue : Nat
  mod   : Nat
  da    : Nat
  db    : Nat
  cr    : Nat
  hi    : Nat := 0
deriving DecidableEq, Repr

/-- The opcode map (R213, R254); none for a reserved opcode (R212). -/
def opInfo (op : Nat) : Option OpInfo :=
  let d := 0xFFF
  let row := 2 ^ 48 - 1
  match op with
  | 0x00 => some ⟨0, 0, 0, 0, 0, 0⟩
  | 0x01 => some ⟨0, 0, d, d, 0, 0⟩
  | 0x02 => some ⟨0, 1, d, d, 0, 0⟩
  | 0x03 => some ⟨0, 0x7F, 0, 0, 0, 0⟩
  | 0x04 => some ⟨0, 0, 0, d, 0x3F, 0⟩
  | 0x05 => some ⟨0, 0, 0, 0, 0x3F, 0⟩
  | 0x10 => some ⟨1, 0xF, d, d, 0x3F, 0xFFFFF⟩
  | 0x11 => some ⟨1, 3, 0, 0, 0x3F, 0⟩
  | 0x12 => some ⟨1, 0xF, d, d, 0x3F, row⟩
  | 0x13 => some ⟨0, 0x7F, d, 0, 0, 0xFF⟩
  | 0x14 => some ⟨0, 0, 0, 0, 0, 0⟩
  | 0x30 => some ⟨3, 3, d, d, 0, row⟩
  | 0x31 => some ⟨3, 3, d, d, 0, row⟩
  | 0x32 => some ⟨3, 0xF, d, d, 0, row⟩
  | 0x38 => some ⟨6, 0, d, d, 0, 0⟩
  | 0x39 => some ⟨6, 0, d, d, 0, 0⟩
  | 0x3A => some ⟨6, 0, d, d, 0, 0⟩
  | 0x50 => some ⟨5, 0x49, d, 0, 0, row⟩
  | 0x51 => some ⟨5, 0x4B, d, 0, 0, row⟩
  | 0x52 => some ⟨5, 0x4B, d, 0, 0, 2 ^ 64 - 1⟩
  | 0x53 => some ⟨5, 0x4F, d, 0, 0, 2 ^ 64 - 1⟩
  | 0x60 => some ⟨7, 0, d, 0, 0xF, 0⟩
  | 0x61 => some ⟨7, 0, d, d, 0, 0⟩
  | 0x62 => some ⟨7, 3, d, d, 0xF, 0⟩
  | 0x63 => some ⟨7, 7, d, d, 0xF, 0xFFFF⟩
  | 0x64 => some ⟨7, 0xF, d, d, 0xF, 0xFFFF⟩
  | 0x65 => some ⟨7, 3, d, 0x1F, 0xF, 0⟩
  | 0x66 => some ⟨7, 0, d, 0, 0xF, 0⟩
  | 0x80 => some ⟨7, 1, 0xF, d, 0x1F, 0⟩
  | 0x81 => some ⟨7, 0, d, d, 0, 0xF⟩
  | 0x82 => some ⟨7, 0, d, d, 0, 0xF⟩
  | 0x83 => some ⟨7, 1, d, 0, 0xF, 0⟩
  | 0x90 => some ⟨6, 1, d, 0, 0xF, 0⟩
  | 0x91 => some ⟨6, 3, d, 0, 0xF, 3⟩
  | 0x92 => some ⟨6, 3, d, 0, 0xF, 3⟩
  | 0x93 => some ⟨6, 0, d, 0, 0xF, 3⟩
  | 0x94 => some ⟨6, 3, d, 0, 0xF, 0⟩
  | 0xA0 => some ⟨0, 0, 0, 0, 0, 0⟩
  | 0xA1 => some ⟨0, 1, 0, 0, 0, 0⟩
  | 0xA2 => some ⟨0, 0, 0, d, 0, 0⟩
  | 0xF0 => some ⟨0, 1, 0, 0xF, 0x3F, 0⟩
  | 0xF1 => some ⟨0, 0, 0, d, 0, 0⟩
  | 0xF2 => some ⟨0, 0, 0, 0, 0, 0⟩
  | _ => none

/-- Descriptors that an RD instruction's range spans (R211). -/
def rdSpan (op : Nat) : Nat := match op with | 0x50 => 5 | 0x51 => 7 | 0x52 => 4 | _ => 5

/-- Is the field value `x` within the bits of `m`? -/
def within (x m : Nat) : Bool := x &&& m == x

/-- The checks of R210 and R211 beyond unused fields: true where the word takes FIELD. -/
def fieldBad (e : QEntry) : Bool :=
  match e.op with
  | 0x01 => 4095 < e.da + e.db
  | 0x04 => e.db = 0
  | 0x10 => coursesOf (bits e.mod 1 2) ≤ e.cr
  | 0x11 => e.m 1 && e.cr ≠ 0
  | 0x13 => bits e.mod 0 2 = 3
  | 0x50 => 4095 < e.da + 4
  | 0x51 => 4095 < e.da + 6
  | 0x52 => 4095 < e.da + 3 || bits e.mod 0 2 = 3
  | 0x53 => 4095 < e.da + 4 || bits e.mod 0 2 = 3
  | 0x62 => bits e.mod 0 2 = 3
  | 0x91 => 2 ≤ e.mod
  | 0x92 => e.mod = 0 || e.mod = 3
  | 0x94 => e.mod = 3
  | 0xF0 => e.m 0 && e.cr < 56
  | _ => false

/-- What decode says of a word (R209 to R212): OPCODE, FIELD, or the opcode's information. The second word is checked only at
the expert level. -/
def decodeWord (expert : Bool) (e : QEntry) : Except TrapCause OpInfo :=
  match opInfo e.op with
  | none => .error .opcode
  | some i =>
    if !within e.mod i.mod || !within e.da i.da || !within e.db i.db || !within e.cr i.cr || fieldBad e ||
       (expert && e.x && !within e.w1.toNat i.hi) then .error .field
    else .ok i

/-- The queue an instruction goes to (R179): 0 is in-line. -/
def queueOf (i : OpInfo) (e : QEntry) : Nat :=
  if i.queue = 1 || i.queue = 3 then i.queue + (if e.m 0 then 1 else 0) else i.queue

/-! ### Trap causes -/

/-- The code of a cause (R197, R284). -/
def TrapCause.code : TrapCause → Nat
  | .opcode => 0x01 | .field => 0x02 | .descInvalid => 0x03 | .descFormat => 0x04 | .descAlign => 0x05
  | .pairing => 0x06 | .mxAxis => 0x07 | .kLimit => 0x08 | .edge => 0x09 | .bankInvalid => 0x0A | .ridgeScale => 0x0B
  | .address => 0x0C | .dataError => 0x0D | .parityHalt => 0x0E | .sparOvf => 0x0F | .waitTimeout => 0x10
  | .fetchFault => 0x11 | .software => 0x12 | .jobState => 0x20 | .jobFull => 0x21 | .joinRefused => 0x22
  | .groupInvalid => 0x23 | .bucketRange => 0x24 | .reduceSize => 0x25 | .commitTwice => 0x26 | .objInvalid => 0x27

/-- The SKIP bit of a cause's class (R197, R199); none where the class always halts. -/
def TrapCause.skipBit : TrapCause → Option Nat
  | .opcode | .field => some 0
  | .descInvalid | .descFormat | .descAlign | .pairing | .mxAxis | .kLimit | .edge | .bankInvalid | .ridgeScale => some 1
  | .address | .dataError => some 2
  | .parityHalt => some 3
  | .sparOvf | .waitTimeout => some 4
  | .fetchFault | .software => none
  | .jobState | .jobFull | .joinRefused | .groupInvalid | .bucketRange | .reduceSize | .commitTwice | .objInvalid => some 5

end Sys2Proof.Machine
end

