-- ==== Sys2Proof/Machine/Jobs.lean ====
section
/-! DEFINITION. Gutter jobs (R329), their rings (R341, R342), the step attempt with its abandonment (R348, R349), the commit vote
and its outcome (R376 to R383), publish and flip (R371, R372), and the mirror that follows a flip (R384 to R388). -/
namespace Sys2Proof.Machine

/-! ### Completion -/

/-- An issued instruction reaches its completion point, with the trap its completion takes (R253). -/
def State.finish (s : State) (d seq : Nat) (trap : Option TrapCause := none) : State :=
  s.modTr d fun t => { t with issued := t.issued.map fun i => if i.e.seq = seq then { i with done := true, trap } else i }

/-- The same, by reference. -/
def State.finishRef (s : State) (r : InsRef) (trap : Option TrapCause := none) : State := s.finish r.d r.seq trap

/-- Write one immediate word of a Truss (R258). -/
def State.setImm (s : State) (d k : Nat) (v : Word32) : State := s.modTr d fun t => { t with imm := vmod t.imm k fun _ => v }

/-- The classes of instruction that abandonment ends (R348): CO and UP, but not CO.JOIN, CO.DRAIN and UP.COMMIT. -/
def endsOnAbandon (op : Nat) : Bool := (0x61 ≤ op && op ≤ 0x65) || op = 0x80 || op = 0x81 || op = 0x82

/-- Is a CO.VOTE among the reductions in flight? Its operations are 3 (AND) and 4 (OR). -/
def Red.isVote (r : Red) : Bool := 3 ≤ r.op

/-! ### Rings -/

/-- A ring of a reduction (R341, R342): the LEVEL field of its packets, its size, this member's position in it, and the member
index at position p, which is `base + stride * p`. -/
structure Ring where
  lvl    : Nat
  size   : Nat
  pos    : Nat
  base   : Nat
  stride : Nat
deriving DecidableEq, Repr

/-- The member index at a position. -/
def Ring.at (r : Ring) (p : Nat) : Nat := r.base + r.stride * (p % r.size)

/-- The members after and before this one. -/
def Ring.next (r : Ring) : Nat := r.at (r.pos + 1)
def Ring.prev (r : Ring) : Nat := r.at (r.pos + r.size - 1)

/-- The rings that a member takes part in: the whole job under RING; its group, then its rank across the groups, under TREE2. -/
def JobCtx.rings (c : JobCtx) : List Ring :=
  if c.jr.tree then
    let g := c.jr.group
    [⟨1, g, c.self % g, c.self / g * g, 1⟩, ⟨2, c.members.length / g, c.self / g, c.self % g, g⟩]
  else [⟨0, c.members.length, c.self, 0, 1⟩]

/-- Where a member forwards what it has of a broadcast of segment 0 (R341, R342, R352, R380), with the LEVEL of each. -/
def JobCtx.castOut (c : JobCtx) : List (Nat × Nat) :=
  match c.rings with
  | [r] => if r.pos + 1 < r.size then [(r.next, r.lvl)] else []
  | [r, q] =>
    (if r.pos = 0 && q.pos + 1 < q.size then [(q.next, q.lvl)] else []) ++
      (if r.pos + 1 < r.size then [(r.next, r.lvl)] else [])
  | _ => []

/-- Put an index into a list kept in ascending order of `f`. -/
def insertBy (f : Nat → Nat) (x : Nat) : List Nat → List Nat
  | [] => [x]
  | y :: ys => if f x < f y then x :: y :: ys else y :: insertBy f x ys

/-- The members in ascending coordinate order (R352), as member indices. -/
def JobCtx.chain (c : JobCtx) : List Nat :=
  (List.range c.members.length).foldl (fun l x => insertBy (c.members.getD · 0) x l) []

/-- This member's place in the chain. -/
def JobCtx.chainPos (c : JobCtx) : Nat := c.chain.findIdx (· = c.self)

/-- The data of a Gutter event (R508). -/
def JobCtx.d0 (c : JobCtx) : Nat := c.job + 0x1000 * c.gen

/-- A packet to a member, by index. -/
def State.packetTo (s : State) (c : JobCtx) (k : Kind) (m : Nat) : Packet := s.mkPacket c k (c.members.getD m 0)

/-- FLAGS with a LEVEL field (R332). -/
def withLevel (p : Packet) (lvl : Nat) : Packet := { p with flags := p.flags + BitVec.ofNat 8 (4 * lvl) }

/-- The LEVEL field of FLAGS. -/
def levelOf (p : Packet) : Nat := bits p.flags.toNat 2 2

/-! ### Parameter groups (R362) -/

/-- A word of group `n`, as an index of table space. -/
def gKey (n w : Nat) : Nat := 0x240000 + 16 * n + w

/-- A word of row-step entry `j` (R374). -/
def rKey (j w : Nat) : Nat := 0x250000 + 4 * j + w

def State.gw (s : State) (n w : Nat) : Nat := s.tword (gKey n w)
/-- Fields of word 0. -/
def State.gValid (s : State) (n : Nat) : Bool := bits (s.gw n 0) 0 1 = 1
def State.gFrozen (s : State) (n : Nat) : Bool := bits (s.gw n 0) 1 1 = 1
def State.gMirror (s : State) (n : Nat) : Bool := bits (s.gw n 0) 2 1 = 1
def State.gJob (s : State) (n : Nat) : Nat := bits (s.gw n 0) 8 12
def State.gEpoch (s : State) (n : Nat) : Nat := bits (s.gw n 0) 32 1
def State.gArmed (s : State) (n : Nat) : Bool := bits (s.gw n 0) 33 1 = 1
def State.gOff (s : State) (n : Nat) : Nat := bits (s.gw n 1) 0 40
def State.gRse (s : State) (n : Nat) : Nat := bits (s.gw n 0) 40 8
/-- The active and inactive buffers (R370). -/
def State.gActive (s : State) (n : Nat) : Nat := bits (s.gw n (3 + s.gEpoch n)) 0 48
def State.gInactive (s : State) (n : Nat) : Nat := bits (s.gw n (4 - s.gEpoch n)) 0 48

/-- The groups that are valid, ascending. -/
def State.groups (s : State) : List Nat :=
  s.table.filterMap fun p =>
    if 0x240000 ≤ p.1 && p.1 < 0x250000 && p.1 % 16 = 0 && p.2.getLsbD 0 then some ((p.1 - 0x240000) / 16) else none

/-- ARMED and PADONE of every group clear (R370). -/
def State.clearArmed (s : State) : State := s.each s.groups fun s n => s.setTableBits (gKey n 0) 33 2 0

/-- Copy bytes with their markers (R290): an uncorrectable unit read raises its event; the accesses pass the Loft slices (R293), and lines
that the host holds are wanted (R456). -/
def State.copyMem (s : State) (src dst n : Nat) : State :=
  let s := (s.forRead [{ a := src, n }]).forWrite [{ a := dst, n }]
  let bad := s.badUnits [{ a := src, n }]
  ((s.each bad State.memUncorr).write dst (s.bytes src n)).each bad fun s u =>
    let lo := max src u
    let hi := min (src + n) (u + (placeOf src).region.unit)
    s.each (touchedUnits (dst + (lo - src)) (hi - lo)) fun s v => s.mark v true

/-- Publish a group from one of its buffers (R372). -/
def State.publish (s : State) (n buf : Nat) : State :=
  let len := bits (s.gw n 11) 0 40
  if len = 0 then s else s.copyMem (buf + bits (s.gw n 10) 0 40) (bits (s.gw n 9) 0 48) len

/-! ### The end of a pass -/

/-- A run of a program is under way for an instruction. -/
def State.running (s : State) (ins : InsRef) : Bool :=
  s.cores.toList.any fun k => match k.inst with | some i => i.ins = ins | none => false

/-- Passes that have nothing left to do complete (R272, R273); one that a fault stopped completes when its running instances have
ended (R417). -/
def State.passEnd (s : State) : State :=
  s.each s.passes fun s p =>
    if s.running p.ins then s
    else if p.stopped || (p.noprog.isEmpty && p.work.all (·.finished)) then
      ({ s with passes := s.passes.filter (·.ins ≠ p.ins) } : State).finishRef p.ins p.trap
    else s

/-- The mirror fence (R388). -/
def State.fence (s : State) : Bool :=
  s.commit.cjob.isNone || (if s.commit.expert && s.commit.skipConf then s.commit.mstate ≠ 1 else s.commit.conf)

/-- Groups without a program are armed as soon as the fence holds (R370). -/
def State.armFree (s : State) : State :=
  if !s.fence then s else
  let todo := s.passes.flatMap fun p => if p.b then p.noprog else []
  let s := s.each todo fun s n => s.setTableBits (gKey n 0) 33 1 1
  ({ s with passes := s.passes.map fun p => if p.b then { p with noprog := [] } else p } : State).passEnd

/-! ### Abandonment -/

/-- The CO and UP instructions of the attempt complete at once, write nothing further and signal (R348, point 3); an
abandoned CO.VOTE writes 0. -/
def State.endInstructions (s : State) : State :=
  let votes := s.jobs.toList.flatMap fun c => c.reds.filter Red.isVote
  let s := s.each votes fun s r => s.setImm r.ins.d r.immIdx 0
  let s := s.each (List.range 4) fun s d => s.modTr d fun t =>
    { t with issued := t.issued.map fun i =>
        if i.q = 7 && endsOnAbandon i.e.op && !i.done then { i with done := true, trap := none } else i }
  { s with
    jobs := s.jobs.map fun c =>
      { c with reds := [], disps := [], combs := [], early := [],
               buckets := c.buckets.filter fun p => (p.2.map (·.isLanded)).getD false }
    bktWait := []
    passes := []
    cores := s.cores.map fun k => { k with inst := none } }

/-- Has this device's UP.COMMIT of the attempt issued (R348, R349)? -/
def State.voted (s : State) : Bool := s.commit.ins.isSome

/-- A condition forces this device's no vote (R383); where its vote is already cast it changes nothing (R349). -/
def State.forceNo (s : State) (cause : Nat) : State :=
  s.modCommit fun c => if c.causes.contains cause then c else { c with causes := cause :: c.causes }

/-- A packet of a step attempt found no eligible port (R438): it is counted, EV_NO_PATH is raised once per ticket, and a no is forced. -/
def State.noPathNote (s : State) : State := ((s.occPort 0 10).raiseOnce 0 0x3C2 40 0 0).forceNo 0xC

/-- Send ABANDON to every other member of every OPEN job (R348, point 1). -/
def State.sendAbandons (s : State) : State :=
  s.each (s.jobs.toList.filter (·.state = 1)) fun s c => s.each c.others fun s i =>
    let (s, ok) := s.sendRaw { s.packetTo c .abandon i with bucket := if s.voted then 1 else 0 }
    if ok then s else s.noPathNote

/-- The acts of the first occasion to abandon an attempt (R348). -/
def State.abandonActs (s : State) (cause : Nat) : State :=
  if s.commit.abandoned then s else
  let s := s.modCommit fun c => { c with abandoned := true }
  let s := s.sendAbandons
  let opens := s.jobs.toList.filter (·.state = 1)
  let s : State := { s with jobs := s.jobs.map fun c => { c with failed := true } }
  let s := (s.orReg 46 0xC 0x20).occ 46 13
  let s := s.each opens fun s c => s.raise 0x305 46 c.d0 0 cause
  s.endInstructions

/-- A packet of a step attempt found no eligible port (R438): counted, and the attempt is FAILED. -/
def State.noPathActs (s : State) : State := s.noPathNote.abandonActs 0xC

/-- Send a commit packet. -/
def State.sendCommit (s : State) (p : Packet) : State :=
  let (s, ok) := s.sendRaw p
  if ok then s else s.noPathActs

/-! ### Commit packets and the vote path (R378, R381) -/

/-- A COMMIT packet (R381). -/
def State.commitPacket (s : State) (c : JobCtx) (m phase : Nat) (v : FoldVal) (lvl : Nat) : Packet :=
  withLevel { s.packetTo c .commit m with
    bucket := BitVec.ofNat 32 phase, first := (if v.val then 1 else 0) + (if v.unprot then 2 else 0),
    drops := BitVec.ofNat 32 v.cnt } lvl

/-- Advance a fold at a phase: what goes on, where it is ready and has not gone. -/
def Fold.advance (f : Fold) (ph : Nat) (r : Ring) : Option FoldVal :=
  if f.out.contains ph then none
  else
    match f.own.find? (·.1 = ph) with
    | none => none
    | some (_, v) =>
      if r.pos = 1 % r.size then some v
      else (f.inc.find? (·.1 = ph)).map fun p =>
        { val := v.val && p.2.val, cnt := v.cnt + p.2.cnt, unprot := v.unprot || p.2.unprot }

/-- The fold of a phase code (0x01 VOTE, 0x03 MIRRORED). -/
def Commit.fold (c : Commit) (code : Nat) : Fold := if code = 1 then c.vote else c.mir

def State.setFold (s : State) (code : Nat) (f : Fold) : State :=
  s.modCommit fun c => if code = 1 then { c with vote := f } else { c with mir := f }

/-- Run a fold through its phases from `ph` on; the value where it ends at m_0. -/
def State.foldGo (s : State) (c : JobCtx) (code ph : Nat) : List Ring → State × Option FoldVal
  | [] => (s, none)
  | r :: rest =>
    let f := s.commit.fold code
    match f.advance ph r with
    | none => (s, none)
    | some v =>
      let f := { f with out := ph :: f.out }
      if r.pos ≠ 0 then ((s.setFold code f).sendCommit (s.commitPacket c r.next code v r.lvl), none)
      else if rest.isEmpty then (s.setFold code f, some v)
      else (s.setFold code { f with own := f.own ++ [(ph + 1, v)] }).foldGo c code (ph + 1) rest

/-- This device's own value enters a fold. -/
def State.foldOwn (s : State) (c : JobCtx) (code : Nat) (v : FoldVal) : State × Option FoldVal :=
  let f := s.commit.fold code
  (s.setFold code { f with own := f.own ++ [(0, v)] }).foldGo c code 0 c.rings

/-- A partial comes at a phase. -/
def State.foldIn (s : State) (c : JobCtx) (code ph : Nat) (v : FoldVal) : State × Option FoldVal :=
  let f := s.commit.fold code
  (s.setFold code { f with inc := f.inc ++ [(ph, v)] }).foldGo c code ph (c.rings.drop ph)

/-- The members folded at this device, its own first value included, with the value `val` (R381). -/
def Fold.seen (f : Fold) (val : Bool) : FoldVal :=
  let l := ((f.own.filter (·.1 = 0)) ++ f.inc).map (·.2)
  { val, cnt := (l.map (·.cnt)).sum, unprot := l.any (·.unprot) }

/-- Send OUTCOME or CONFIRM on along the all-gather order (R380, R388), with the members folded in DROPS and their UNPROT (R381). -/
def State.castOn (s : State) (c : JobCtx) (phase : Nat) (v : FoldVal) : State :=
  s.each c.castOut fun s m => s.sendCommit (s.commitPacket c m.1 phase v m.2)

/-! ### Mirror (R384 to R388) -/

/-- The UP twin ports. -/
def State.twinUp (s : State) : List Nat := [20, 21].filter fun k => (s.port k).state = .up

/-- The partner's coordinate, where there is a partner (R442). -/
def State.partner (s : State) : Option Nat :=
  match s.twinUp with
  | [] => none
  | k :: ks =>
    if s.pins.twin && ks.all (fun x => (s.port x).peer = (s.port k).peer) then some (s.port k).peer.toNat else none

/-- The context of the commit job, while it is set. -/
def State.commitJob (s : State) : Option JobCtx := s.commit.cjob.map s.job

/-- The data of a commit event (R508). -/
def State.commitD0 (s : State) : Nat := s.commit.cmjob.toNat

/-- The buckets of a job (R336). -/
def JobRec.perBucket (r : JobRec) : Nat := r.mib * 2 ^ 18
def JobRec.nBuckets (r : JobRec) : Nat := (r.spaceLen + r.perBucket - 1) / r.perBucket

/-- Round up to a multiple of 256. -/
def up256 (x : Nat) : Nat := (x + 255) / 256 * 256

/-- Bytes that travel in a mirror, each with its poison. -/
abbrev MByte := Byte × Bool

/-- The bytes of device memory with their markers. -/
def State.mbytes (s : State) (a n : Nat) : List MByte :=
  (List.range n).map fun k => (s.byte (a + k), s.poisonAt (a + k))

/-- The words of table space as bytes. -/
def State.tableBytes (s : State) (k n : Nat) : List MByte :=
  (List.range n).flatMap fun j => (leBytes (s.tword (k + j)) 8).map fun b => (b, false)

/-- Zeros. -/
def zeros (n : Nat) : List MByte := List.replicate n (0, false)

/-- The sections of the mirror set (R384, R385): the index of each and its bytes. -/
def State.mirrorSections (s : State) : List (Nat × List MByte) :=
  (match s.commitJob with
    | none => []
    | some c => [(0xFFFF, s.mbytes c.jr.scaletab (16 * c.jr.nBuckets))]) ++
  ((s.groups.filter s.gMirror).map fun n =>
    let row := if s.gRse n = 0 then zeros 32 else s.tableBytes (rKey (s.gRse n) 0) 4
    (n, s.tableBytes (gKey n 0) 16 ++ row ++ zeros 96 ++ s.mbytes (s.gActive n) (bits (s.gw n 5) 0 40)))

/-- The image of a slot (R385) for a committed ticket, COMPLETE being `done`. CHECK is formed with COMPLETE set. -/
def State.mirrorImage (s : State) (n : Nat) (done : Bool) : List MByte :=
  let secs := s.mirrorSections
  let start := up256 (64 + 16 * secs.length)
  let (tab, body, _) := secs.foldl (fun (acc : List Byte × List MByte × Nat) sec =>
    let len := sec.2.length
    (acc.1 ++ leBytes sec.1 2 ++ leBytes len 6 ++ leBytes acc.2.2 8,
      acc.2.1 ++ sec.2 ++ zeros (up256 len - len), acc.2.2 + up256 len)) ([], [], start)
  let head (f : Nat) : List Byte :=
    leBytes n 6 ++ leBytes s.commitD0 2 ++ leBytes secs.length 2 ++ leBytes f 6 ++
      leBytes (start - 64 - 16 * secs.length + body.length) 8
  let plain (l : List Byte) : List MByte := l.map fun b => (b, false)
  plain (head (if done then 1 else 0) ++ leBytes (crc32 (head 1 ++ tab)) 4 ++ List.replicate 36 0 ++ tab) ++
    zeros (start - 64 - 16 * secs.length) ++ body

/-- Kind bytes of mirror traffic on the twin ports (the manual gives none; log entry 44). -/
def mirrorData : BitVec 8 := 0xF0
def mirrorAckKind : BitVec 8 := 0xF1

/-- A twin packet of a kind (R441). -/
def State.twinPacket (s : State) (kind : BitVec 8) (n : Nat) : Packet :=
  { dest := BitVec.ofNat 16 (s.partner.getD 0), plevel := 0, hops := 0, job := BitVec.ofNat 12 s.commitD0,
    gen := BitVec.ofNat 4 (s.commitD0 / 4096), kind, flags := 0, ticket := BitVec.ofNat 48 n, src := s.coord.inForce,
    seq := BitVec.ofNat 16 s.commit.mirrorNo, eb := 0, bucket := 0, first := 0, nblk := 0, maxq := 0, drops := 0, payload := [] }

/-- Send a twin packet on the k-th UP twin port, in rotation. -/
def State.sendTwin (s : State) (k : Nat) (p : Packet) : State :=
  let ports := s.twinUp
  match ports[k % ports.length]? with
  | none => s
  | some q => s.emit q false { p with plevel := BitVec.ofNat 4 (s.port q).nlevel } true

/-- Eight bytes of marks and the data of a piece. -/
def mirrorPiece (l : List MByte) : List Byte :=
  leBytes ((List.range 64).foldl (fun m u => if ((l.drop (32 * u)).take 32).any (·.2) then m + 2 ^ u else m) 0) 8 ++ l.map (·.1)

/-- The bytes of memory that the mirror set holds (R384). -/
def State.mirrorSpans (s : State) : List Span :=
  (match s.commitJob with
    | none => []
    | some c => [{ a := c.jr.scaletab, n := 16 * c.jr.nBuckets }]) ++
  (s.groups.filter s.gMirror).map fun n => { a := s.gActive n, n := bits (s.gw n 5) 0 40 }

/-- The twin link reads the mirror set through the slices and over the laths (R24, R33, R293); its poison is reported (R290). -/
def State.mirrorRead (s : State) : State :=
  let s := s.forRead s.mirrorSpans
  s.each (s.badUnits s.mirrorSpans) State.memUncorr

/-- Send the mirror image in pieces of 2,048 B (the manual gives no form; log entry 44): BUCKET and FIRST hold the piece's offset,
MAXQ, DROPS and EB the size of the image. -/
def State.sendMirror (s : State) (n : Nat) : State :=
  let img := s.mirrorImage n false
  let size := img.length
  s.mirrorRead.each (List.range ((size + 2047) / 2048)) fun s k =>
    s.sendTwin k { s.twinPacket mirrorData n with
      bucket := BitVec.ofNat 32 (2048 * k), first := BitVec.ofNat 32 (2048 * k / 2 ^ 32), drops := BitVec.ofNat 32 size,
      maxq := BitVec.ofNat 16 (size / 2 ^ 32), eb := BitVec.ofNat 16 (size / 2 ^ 48), payload := mirrorPiece ((img.drop (2048 * k)).take 2048) }

/-- This device is unprotected for its ticket (R387). -/
def State.mirrorLost (s : State) : State :=
  ((s.modCommit fun c => { c with unprot := true, mstate := 2, sending := none }).orReg 46 0x40C 8).raiseOnce 0 0x342 46 s.commitD0

/-- The mirror of the new committed ticket starts (R382 order 5, R387). -/
def State.mirrorStart (s : State) : State :=
  if (s.regRaw 45 0x400).getLsbD 1 then s.modCommit fun c => { c with unprot := true, mstate := 0, sending := none }
  else if s.partner.isNone then s.mirrorLost
  else
    let n := s.ticket.toNat - 1
    (s.modCommit fun c => { c with unprot := false, mstate := 1, sending := some n, mirrorNo := (c.mirrorNo + 1) % 65536 }).sendMirror n

/-! ### The outcome -/

/-- What a step attempt starts with (R261, R370, R382, R388); `keep` are causes of no that stay. -/
def State.newAttempt (s : State) (keep : List NoCause) : State :=
  let s := s.endInstructions.clearArmed
  let s := s.modCommit fun c =>
    { c with cast := none, castWhy := [], vote := {}, conf := false, causes := keep, abandoned := false, mir := {},
             mirSent := false, nonfin := [] }
  { s with jobs := s.jobs.map fun c => { c with failed := false, ords := [], buckets := [] } }

/-- The code that CMNO takes for a no outcome (R383): the lowest of the causes that hold on this device. -/
def Commit.noCode (c : Commit) (extra : List Nat) : Nat :=
  let l := c.causes ++ c.castWhy ++ (if c.cast = some true then [9] else []) ++ extra
  match l.min? with
  | some x => x
  | none => 7

/-- Publish, flip and the advance of the ticket (R371, R372, R382 orders 2 and 3), which does not wrap (R40). -/
def State.flip (s : State) : State :=
  let armed := s.groups.filter s.gArmed
  let s := s.each armed fun s n => s.publish n (s.gInactive n)
  let t := s.ticket
  let s := s.each armed fun s n =>
    ((s.setTableBits (gKey n 0) 32 1 (1 - s.gEpoch n)).setTableBits (gKey n 0) 33 1 0).setTable (gKey n 15) t.toNat
  let s := if s.ticketEnd then s else s.setTicket (t + 1)
  let s := s.modPwrc fun p => if p.gpend.isSome then { p with gNow := true } else p
  s.modCommit fun c => { c with rollReady := true, mstate := 1 }

/-- An outcome is applied (R382): to the contexts, to the groups, and to the stream, which is owed it where its UP.COMMIT has not
issued (R568). -/
def State.applyOutcome (s : State) (yes : Bool) (extra : List Nat) : State :=
  let code := if yes then 0 else s.commit.noCode extra
  let s := s.modCommit fun c => { c with cmno := code, lastYes := yes }
  let s := if yes then s.occ 46 22 else (s.occ 46 23).occ 46 (32 + code)
  let s := match s.commit.ins with
    | none => s.modCommit fun c => { c with owed := true }
    | some r => (s.modCommit fun c => { c with ins := none }).finishRef r
  let s := if yes then s.flip else s
  let s : State := { s with jobs := s.jobs.map fun c =>
    if c.state = 0 then c else { c with attempt := if yes then 0 else (c.attempt + 1) % 16 } }
  let s := (s.newAttempt []).modCommit fun c => { c with trapNext := false }
  if yes then s.mirrorStart else s

/-- This device sends MIRRORED once per attempt of the commit job (R388); at m_0 the fold may end in CONFIRM. -/
def State.sendMirrored (s : State) : State :=
  match s.commit.cjob with
  | none => s
  | some j =>
    let c := s.job j
    if s.commit.mirSent || s.commit.mstate = 1 || c.state = 0 then s else
    let (s, v) := (s.modCommit fun m => { m with mirSent := true }).foldOwn c 3 ⟨true, 1, s.commit.unprot⟩
    match v with
    | none => s
    | some v => if v.cnt = c.members.length then (s.castOn c 4 v).modCommit fun m => { m with conf := true } else s

/-- OUTCOME goes out or on (R379, R380), then it is applied. -/
def State.outcomeOnce (s : State) (c : JobCtx) (v : FoldVal) (extra : List Nat) : State :=
  ((s.castOn c 2 v).applyOutcome v.val extra).sendMirrored

/-- The same; a trap that came after UP.COMMIT issued fails the attempt that begins (R276), which the root decides at once. -/
def State.outcomeAs (s : State) (c : JobCtx) (v : FoldVal) (extra : List Nat) : State :=
  let carry := s.commit.trapNext
  let s := s.outcomeOnce c v extra
  if !carry then s else
  let s := (s.forceNo 2).abandonActs 2
  if c.self = 0 then
    s.outcomeOnce { c with attempt := if v.val then 0 else (c.attempt + 1) % 16 } (s.commit.vote.seen false) []
  else s

/-- The root decides (R379), with the members that its fold of votes holds. -/
def State.outcome (s : State) (c : JobCtx) (yes : Bool) (extra : List Nat) : State := s.outcomeAs c (s.commit.vote.seen yes) extra

/-- The codes of R383 that keep this device from voting yes (R274, R369, R377). -/
def State.noReasons (s : State) : List Nat :=
  let c := s.commit
  let job := (s.commitJob.map (·.job)).getD 0
  let l := c.causes ++ (if c.yesBit then [] else [1]) ++ (if s.ticketEnd then [3] else []) ++
    (if s.passes.any (fun p => p.b && p.groups.any fun n => s.gJob n = job) then [4] else []) ++
    (if c.nonfin.any (fun p => !(c.expert && p.2)) || s.groups.any (fun n => s.gw n 14 ≠ 0 && !(c.expert && c.nfok.contains n))
      then [8] else [])
  if l.isEmpty && c.abandoned then [7] else l

/-- UP.COMMIT casts this device's vote once the fence holds, or at once in an abandoned attempt (R377 to R379). -/
def State.tryCast (s : State) : State :=
  match s.commit.ins, s.commit.cjob with
  | some _, some j =>
    if s.commit.cast.isSome || !(s.commit.abandoned || s.fence) then s else
    let c := s.job j
    let why := s.noReasons
    let yes := why.isEmpty
    let s := s.modCommit fun m => { m with cast := some yes, castWhy := why }
    let s := if why.contains 8 then (s.orReg 46 0x40C 4).raiseOnce 0 0x341 46 s.commitD0 else s
    let s := if !yes && c.self ≠ 0 then s.sendCommit { s.commitPacket c 0 1 ⟨false, 1, s.commit.unprot⟩ 0 with flags := BitVec.ofNat 8 (16 * c.attempt + 2) } else s
    let (s, v) := s.foldOwn c 1 ⟨yes, 1, s.commit.unprot⟩
    if c.self = 0 && !yes then s.outcome c false []
    else
      match v with
      | some v => if v.val && v.cnt = c.members.length then s.outcome c true [] else s
      | none => s
  | _, _ => s

/-- CONFIRM is held (R388): the fence holds. -/
def State.confirmed (s : State) : State := ((s.modCommit fun c => { c with conf := true }).armFree).tryCast

/-- Abandon the current attempt (R348): only the first occasion of an attempt acts; the root then decides no where its own
UP.COMMIT has not issued (R379), and an UP.COMMIT that waits casts no (R377). -/
def State.abandon (s : State) (cause : Nat) : State :=
  if s.commit.abandoned then s else
  let s := s.abandonActs cause
  match s.commitJob with
  | some c => if c.self = 0 && c.state ≠ 0 && !s.voted then s.outcome c false [] else s.tryCast
  | none => s.tryCast

/-- The current attempt is marked FAILED (R347, R350, R351, R438, R440, R486): a no vote, and abandonment. -/
def State.failAttempt (s : State) (cause : Nat) : State := (s.forceNo cause).abandon cause

/-- A trap marks the ticket failed (R200); after UP.COMMIT has issued it marks the next one instead (R276). -/
def State.failTicket (s : State) : State :=
  if s.commit.ins.isSome then s.modCommit fun c => { c with trapNext := true } else s.failAttempt 2

/-- A packet of a step attempt found no eligible port (R438). -/
def State.noPath (s : State) : State := s.noPathNote.failAttempt 0xC

/-- Send a packet of a step attempt (R436 to R438). -/
def State.send (s : State) (p : Packet) : State :=
  let (s, ok) := s.sendRaw p
  if ok then s else s.noPath

/-- The device's four Trusses are restarted (R203): a step attempt begins in the sense of R261 and R370, an owed outcome is
cleared (R568), and an abandonment that no outcome has ended stays. -/
def State.restart (s : State) : State :=
  let s := s.clearArmed
  let s := s.modCommit fun c => { c with owed := false, aborted := [], nonfin := [] }
  { s with jobs := s.jobs.map fun c =>
      { c with ords := [], buckets := [], reds := [], disps := [], combs := [], early := [] }
           bktWait := [] }

end Sys2Proof.Machine
end

