-- ==== Sys2Proof/Machine/Trap.lean ====
section
/-! DEFINITION. Taking a trap (R197 to R201), spars (R185 to R191), issue and completion (R183): what every instruction of a
Truss shares. -/
namespace Sys2Proof.Machine

/-- Does a trap of this cause skip on this Truss (R199)? -/
def Truss.skips (t : Truss) (c : TrapCause) : Bool :=
  match c.skipBit with
  | none => false
  | some k => t.expert && t.skip.getLsbD k

/-! ### Taking a trap -/

/-- Where a trap stands (R201). -/
structure TrapAt where
  queue : Nat
  line  : Nat
  word  : Nat
  spar  : Nat := 0
  code  : Nat := 0
deriving DecidableEq, Repr

/-- Take a trap on TRUSS[d] (R197 to R201): it is recorded, reported and fails the ticket; a halting one stops decode. -/
def State.trap (s : State) (d : Nat) (c : TrapCause) (w : TrapAt) : State :=
  let t := s.tr d
  let skip := t.skips c
  let s :=
    if t.trap.cause = 0 then s.modTr d fun t =>
      { t with trap := { cause := BitVec.ofNat 8 c.code, queue := BitVec.ofNat 3 w.queue, line := BitVec.ofNat 16 w.line,
                         word := BitVec.ofNat 5 w.word, spar := BitVec.ofNat 6 w.spar, skipped := skip } }
    else (s.modTr d fun t => { t with multi := true }).occ (16 + d) 3
  let d0 := c.code + 256 * w.queue
  let d1 := w.line + 0x10000 * w.word + 0x200000 * w.spar
  let s :=
    if skip then (s.occ (16 + d) 2).raise 0x281 (16 + d) d0 d1 w.code
    else (s.modTr d fun t => { t with trapped := true }).raise 0x280 (16 + d) d0 d1 w.code
  s.failTicket

/-- The place of an instruction. -/
def QEntry.at (e : QEntry) (q : Nat) : TrapAt := { queue := q, line := e.line, word := e.word }

/-! ### Spars -/

/-- The count of a spar; the open spar reads 0xFFFF (R185). -/
def Truss.spar (t : Truss) (k : Nat) : Nat := if k = 0 then 0xFFFF else (vget t.spcnt k 0).toNat

/-- Are both waits satisfied at once (R187)? -/
def Truss.waitsOk (t : Truss) (a b : Nat) : Bool :=
  if a = b then a = 0 || 2 ≤ t.spar a else (a = 0 || 1 ≤ t.spar a) && (b = 0 || 1 ≤ t.spar b)

/-- Take one from a count. -/
def Truss.takeSpar (t : Truss) (k : Nat) : Truss :=
  if k = 0 then t else { t with spcnt := vmod t.spcnt k (· - 1), progress := true }

/-- Take both waits (R187). -/
def Truss.takeWaits (t : Truss) (a b : Nat) : Truss := (t.takeSpar a).takeSpar b

/-- The weight of a spar (R186): its field of SPWT. -/
def State.weight (s : State) (d k : Nat) : Nat := bits (s.regRaw (16 + d) (0x80 + 4 * (k / 4))).toNat (4 * (k % 4)) 4

/-- The share mask of a shared spar (R188). -/
def State.share (s : State) (d k : Nat) : Nat := bits (s.regRaw (16 + d) (0x60 + 4 * ((k - 56) / 4))).toNat (4 * (k % 4)) 4

/-- Where decode stands: the in-line instruction that holds it, else the next instruction. -/
def Truss.decodeAt (t : Truss) : Nat × Nat :=
  match t.decTaken with
  | some e => (e.line, e.word)
  | none => (t.head, t.word)

/-! ### The instruction at decode -/

/-- What stands at decode (R176). -/
inductive AtDecode where
  | nothing | ins (e : QEntry)
deriving DecidableEq, Repr

/-- The word `k` words after the word at decode; none where its line is not held, or did not come (R178). -/
def Truss.wordAt (t : Truss) (k : Nat) : Option Word64 :=
  match t.fbuf[(t.word + k) / 32]? with
  | none => none
  | some l => if l.bad then none else some (l.words.getD ((t.word + k) % 32) 0)

/-- The expert operands that an instruction takes by default (R196, R259): PRIO 1 of OB.PROMOTE, OB.EVICT and OB.PREFETCH, else 0. -/
def hiDefault (w0 : Word64) : Word64 := if 0x91 ≤ bits w0.toNat 56 8 ∧ bits w0.toNat 56 8 ≤ 0x93 then 1 else 0

/-- The instruction at decode; a 128-bit form needs both words (R176). Its second word counts only at the expert level
(R196). -/
def Truss.atDecode (t : Truss) (expert : Bool) : AtDecode :=
  let at0 (w0 w1 : Word64) : QEntry :=
    { w0, w1 := if expert && w0.getLsbD 55 then w1 else hiDefault w0, line := t.head, word := t.word, seq := t.nextSeq }
  match t.wordAt 0 with
  | none => .nothing
  | some w0 =>
    if w0.getLsbD 55 then
      match t.wordAt 1 with
      | none => .nothing
      | some w1 => .ins (at0 w0 w1)
    else .ins (at0 w0 0)

/-- May TRUSS[d] decode (R178, R198, R202)? -/
def Truss.decoding (t : Truss) : Bool := t.run && !t.trapped && !t.aborting

/-- The instruction of decode that takes its waits in this cycle if they are satisfied: an in-line instruction or the NOP of a skipped
word (R180, R199). -/
def State.claimDecode (s : State) (d : Nat) : Option QEntry :=
  let t := s.tr d
  if !t.decoding || t.decTaken.isSome then none else
  match t.atDecode (s.level (16 + d) 4) with
  | .nothing => none
  | .ins e =>
    if t.decTrap then some e else
    match decodeWord (s.level (16 + d) 4) e with
    | .ok i => if queueOf i e = 0 then some e else none
    | .error _ => none

/-- The instruction waiting on a spar at decode: an in-line one, or the NOP of a skipped word. -/
def State.waitingDecode (s : State) (d : Nat) : Option QEntry :=
  (s.claimDecode d).filter fun e => !(s.tr d).waitsOk e.wa e.wb

/-- Instructions that wait on a spar, each with its queue: queue heads, then decode, which is the youngest (R204). -/
def State.waiting (s : State) (d : Nat) : List (Nat × QEntry) :=
  let t := s.tr d
  let heads := if t.trapped || t.aborting then [] else
    (List.range 7).filterMap fun k =>
      match vget t.queues (k + 1) [] with
      | [] => none
      | e :: _ => if t.waitsOk e.wa e.wb then none else some (k + 1, e)
  heads ++ (s.waitingDecode d).toList.map fun e => (0, e)

/-! ### Urgent entries of the valley queue (R156) -/

/-- Is an instruction's own wait on a spar unsatisfied (R187)? -/
def Truss.shortOn (t : Truss) (e : QEntry) (spar : Nat) : Bool :=
  (e.wa = spar || e.wb = spar) && t.spar spar < (if e.wa = e.wb then 2 else 1)

/-- Does an instruction of the foreground stream wait on a spar (R156)? -/
def State.awaited (s : State) (d spar : Nat) : Bool :=
  spar ≠ 0 && (s.waiting d).any fun p => (s.tr d).shortOn p.2 spar

/-- Is the k-th entry of the queue urgent (R156)? -/
def State.urgentAt (s : State) (d k : Nat) : Bool :=
  let t := s.tr d
  t.vqDrain || (t.vqFull && 64 ≤ t.valley.length && k = 0) || (t.valley[k]?).any (·.urgent) || (t.valley.drop k).any fun v => s.awaited d v.e.sg

/-- Every entry that is urgent now stays urgent until it completes (R156). -/
def State.markUrgent (s : State) (d : Nat) : State :=
  if (s.tr d).valley.isEmpty then s
  else s.modTr d fun t =>
    { t with valley := ((List.range t.valley.length).zip t.valley).map fun p => { p.2 with urgent := p.2.urgent || s.urgentAt d p.1 } }

/-! ### Signals -/

/-- Add to a count (R188, R190): above 0xFFFF it stays there and the Truss takes SPAR_OVF, with the position of the
instruction then at decode (R201). Waits see the sum in the next Truss cycle (R189): those that stood until now leave their entries
urgent (R156). An addition to a count that stays at 0xFFFF still makes the tick not idle (DESIGN CHOICE, log entry 65). -/
def State.addSpar (s : State) (d k n : Nat) : State :=
  if k = 0 then s else
  let s := s.markUrgent d
  let t := s.tr d
  let v := t.spar k + n
  let s := s.modTr d fun t => { t with spcnt := vmod t.spcnt k fun _ => BitVec.ofNat 16 (min v 0xFFFF), progress := true, turn := none }
  if v ≤ 0xFFFF then s else s.trap d .sparOvf { queue := 0, line := t.decodeAt.1, word := t.decodeAt.2, spar := k }

/-- Apply the signal of a spar (R188, R191): to this Truss at once, to another as a message of the control class over both laths (R24,
R33). The weight of a shared spar is that of the Truss that signals, at every destination: R188 says only the spar's weight (DESIGN
CHOICE, log entry 66). -/
def State.signal (s : State) (d k : Nat) : State :=
  if k = 0 then s
  else if k < 56 then s.addSpar d k (s.weight d k)
  else
    let m := s.share d k
    let n := s.weight d k
    s.each (List.range 4) fun s e =>
      if m / 2 ^ e % 2 = 0 then s
      else if e = d then s.addSpar d k n
      else ({ s with spars := s.spars ++ [{ src := d, dst := e, spar := k, weight := n }] } : State).lath d 0 1 |>.lath e 0 1

/-! ### Issue and completion -/

/-- Issue the head of a queue: it leaves the queue, takes its waits and is in flight (R181, R187). Its queue has had its turn in this
Truss cycle (R189), which is charged as ISSUE (R205). -/
def State.issue (s : State) (d q : Nat) (e : QEntry) : State :=
  s.modTr d fun t =>
    let t := t.takeWaits e.wa e.wb
    { t with queues := vmod t.queues q List.tail, issued := t.issued ++ [{ q, e }], progress := true, turn := some q,
             acts := vmod t.acts q (· + 1) }

/-- An instruction takes a trap at issue (R253). Where the trap halts it is taken out of flight and does not signal; where the trap
skips it is a NOP that signals in its place among its queue's instructions (R184, R199). -/
def State.issueTrap (s : State) (d q : Nat) (e : QEntry) (c : TrapCause) : State :=
  let skip := (s.tr d).skips c
  (s.modTr d fun t =>
    { t with issued := if skip then t.issued.map fun i => if i.e.seq = e.seq then { i with done := true, trap := none } else i
                       else t.issued.filter (·.e.seq ≠ e.seq) }).trap d c (e.at q)

/-- The oldest issued instruction of a queue. -/
def Truss.oldest (t : Truss) (q : Nat) : Option Issued := t.issued.find? (·.q = q)

/-- Issued instructions of a queue. -/
def Truss.inFlight (t : Truss) (q : Nat) : Nat := (t.issued.filter (·.q = q)).length

/-- Instructions of a queue in progress: issued and not completed (R183, R242, R251, R313). -/
def Truss.atWork (t : Truss) (q : Nat) : Nat := t.inFlight q

/-- A reference to an instruction. -/
def QEntry.ref (e : QEntry) (d : TrussId) : InsRef := ⟨d, e.seq⟩

end Sys2Proof.Machine
end

