-- ==== Sys2Proof/Machine/Access.lean ====
section
/-! DEFINITION. What every CSR access shares: dark islands (R503, R512), accesses at which no register stands (R495), served
accesses (R516), and the Underlay window (R457). -/
namespace Sys2Proof.Machine

/-- A CSR access that met R495, R496 or R504. -/
def State.badCsr (s : State) : State := (s.orReg 59 0 4).occ 59 0

/-- An access reached a dark island (R503): the first one after DARK was last clear is recorded and raises
EV_DARK_ACCESS. Nothing is recorded while HUBNOC itself is held (R530). -/
def State.darkAccess (s : State) (r : Requester) (window off : Nat) : State :=
  if !s.pins.pwrok || !s.pins.resetN then s else
  let first := !(s.regRaw 59 0).getLsbD 0
  let s := (s.orReg 59 0 1).occ 59 1
  if first then
    ((s.setRegRaw 59 4 (BitVec.ofNat 16 window)).setRegRaw 59 8 (BitVec.ofNat 16 off)).raise 0x200 59
      (window + 0x10000 * off) (if r = .host then 0 else 1)
  else s

/-- A CSR access that an island serves is counted in group COMMON of the island, and its request and its reply are control messages
(R33, R516, R518). -/
def State.reached (s : State) (dom : Nat) : State := (s.common dom 2).lathControl dom 2

/-- An access to an island's window: dark islands answer zero and ignore writes. The flag says whether the access is served. -/
def State.reach (s : State) (r : Requester) (dom off : Nat) : State × Bool :=
  if s.isLive dom then (s.reached dom, true) else (s.darkAccess r dom off, false)

/-- Does a host WR wait in front of the next host CSR write (R453)? -/
def Mcl.wrAhead (m : Mcl) : Bool := (m.inbox.takeWhile fun x => x.type ≠ .csrWr).any fun x => x.type = .wr

/-- Does a write by a requester come in? The host's come while the link is UP (R465), behind its earlier WRs (R453). -/
def State.heard (s : State) (r : Requester) : Bool := r = .keeper || (s.mcl.link = 2 && s.isLive 50 && !s.mcl.wrAhead)

/-- A command that stands for a CSR write by a requester reaches an island's window, where the write comes in. -/
def State.reachBy (s : State) (r : Requester) (dom off : Nat) : State × Bool :=
  if s.heard r then s.reach r dom off else (s, false)

/-- A write of word `k` of table space, which stands in HUBNOC (R503, R504). -/
def State.tableWrite (s : State) (k : Nat) (f : State → State) : State :=
  if s.isLive 59 then f s else s.darkAccess .host 59 (8 * k % 0x10000)

/-- Ask the host for lines that it holds (R456). -/
def State.recall (s : State) (lines : List Nat) : State :=
  s.each lines fun s n =>
    if s.mcl.snoop.any (fun x => x.line = n && !x.recalling) then
      (s.occ 50 2).modMcl fun m =>
        { m with snoop := m.snoop.map fun x => if x.line = n then { x with recalling := true } else x
                 out := m.out ++ [{ type := .recall, ch := 0, poison := false, status := 0, tag := BitVec.ofNat 16 m.nextTag,
                                    len := 0, addr := BitVec.ofNat 52 (64 * n), data := [] }]
                 nextTag := m.nextTag + 1 }
    else s

/-- A command whose accesses meet lines that the host holds does not act yet: the lines are recalled, and it waits for the
host's RECALL_ACK (R456). -/
def waitRecall (s : State) (r : Host.Outcome State Fault Refusal) : Host.Outcome State Fault Refusal :=
  match r with
  | .next t => if t.mcl.wanted.isEmpty then .next t else .next (s.recall t.mcl.wanted)
  | r => r

/-- Does an Underlay address lie within the window's size (R457)? -/
def State.underlayOk (s : State) (a n : Nat) : Bool :=
  0x100000000000 ≤ a && a + n ≤ 0x100000000000 + ((s.regRaw 50 0x60).toNat + 1) * 0x40000000 && a + n ≤ 0x500000000000

/-- A stash page (R317). -/
def pageBytes : Nat := 0x200000

/-- Does a span meet a stash range? -/
def Stash.meets (t : Stash) (x : Span) : Bool := x.a < t.range + t.rpages * pageBytes && t.range < x.a + x.n && t.rpages ≠ 0

/-- Does a span meet the stash range of a Truss that `no` does not except? -/
def State.inStash (s : State) (no : Option Nat) (x : Span) : Bool :=
  (List.range 4).any fun d => some d ≠ no && (s.tr d).stash.meets x

end Sys2Proof.Machine
end

