-- ==== Sys2Proof/Machine/Flits.lean ====
section
/-! DEFINITION. The wire of the Maelzar Coherent Link (14): messages and flits as bytes (R446, R450), what may go next (R449 to R451), flits
sent (R447), and the device's reads of the Underlay whose commands carry the answer (R457). -/
namespace Sys2Proof
open Sys2Proof.Machine

/-! ### Messages and flits as bytes -/

/-- The TYPE byte of a message (R450). -/
def MsgType.code : MsgType → Nat
  | .rd => 1 | .wr => 2 | .cpl => 3 | .rdShared => 4 | .rdOwn => 5 | .wb => 6 | .recall => 7 | .recallAck => 8 | .db => 9
  | .csrRd => 10 | .csrWr => 11

/-- The type of a TYPE byte. -/
def MsgType.ofCode (n : Nat) : Option MsgType :=
  [MsgType.rd, .wr, .cpl, .rdShared, .rdOwn, .wb, .recall, .recallAck, .db, .csrRd, .csrWr].find? (·.code == n)

/-- Requests that ask for LEN bytes carry none themselves (log entry 51). -/
def MsgType.bare : MsgType → Bool
  | .rd | .rdShared | .rdOwn | .csrRd | .recall => true
  | _ => false

/-- A message as bytes (R450). -/
def Msg.wire (m : Msg) : List Byte :=
  [BitVec.ofNat 8 m.type.code, BitVec.ofNat 8 (m.ch.toNat + (if m.poison then 4 else 0) + 8 * m.status.toNat)] ++
    leBytes m.tag.toNat 2 ++ leBytes m.len.toNat 2 ++ [0, 0] ++ leBytes m.addr.toNat 8 ++ m.data

/-- Whether a message is one whose CPL the sender awaits on its channel (R450). -/
def Msg.request (m : Msg) : Bool := m.type ≠ .cpl && m.type ≠ .recallAck && m.await

/-- The CTRL field of a flit (R446). -/
def Flit.ctrl (f : Flit) : Nat :=
  f.fseq.toNat + 2 ^ 12 * f.aseq.toNat + (if f.nak then 2 ^ 24 else 0) + 2 ^ 32 * f.cohCred.toNat + 2 ^ 40 * f.bulkCred.toNat +
    2 ^ 48 * f.dbCred.toNat

/-- The CRC-64 (ECMA-182) that a flit must carry, over its bytes 0 to 247 (R446). -/
def Flit.crcOf (f : Flit) : Nat := (f.msg ++ leBytes f.ctrl 8).foldl (crcByte 64 0x42F0E1EBA9EA3693) 0

end Sys2Proof

namespace Sys2Proof.Machine

/-! ### Sending (R446, R447, R449, R451) -/

/-- Is the link UP, and MCL powered and not held in reset? -/
def State.mclUp (s : State) : Bool := s.mcl.link = 2 && s.isLive 50 && s.pins.resetN

/-- Requests of a channel sent and not completed: those of the tier engines and of MCL itself, recalls, or doorbells, less what waits. -/
def Mcl.outstanding (m : Mcl) (ch : Nat) : Nat :=
  (if ch = 1 then m.uw.length + m.own.length else if ch = 0 then (m.snoop.filter (·.recalling)).length else m.dbs.length) -
    (m.out.filter fun x => x.ch.toNat = ch && x.request).length

/-- Credits of a channel: one a message (log entry 51). -/
def Mcl.cred (m : Mcl) (ch : Nat) : Nat := if ch = 0 then m.credCoh else if ch = 1 then m.credBulk else m.credDb

/-- Has a request with this tag gone out that is not completed? Tags are given in turn, so two requests share one only when 65,536 have
been given. -/
def Mcl.tagBusy (m : Mcl) (tag : Nat) : Bool :=
  65536 < m.nextTag &&
    (m.out.filter fun x => x.tag.toNat = tag && x.request).length <
      (m.uw.filter (·.tag = tag)).length + (m.own.filter (·.1 = tag)).length + (m.dbs.filter (· = tag)).length

/-- May a message go: against a credit, and as a request within 4,096 outstanding and with a TAG of its own (R449, R450)? -/
def Mcl.may (m : Mcl) (x : Msg) : Bool :=
  m.cred x.ch.toNat ≠ 0 && (!x.request || (m.outstanding x.ch.toNat < 4096 && !m.tagBusy x.tag.toNat))

/-- The next message of a channel, where it may go. On the bulk channel the requesters are served in rotation (R451), and the messages that
no requester sends take a turn beside them (DESIGN CHOICE, log entry 83). -/
def Mcl.next (m : Mcl) (ch : Nat) : Option Msg :=
  if ch = 1 then
    (List.range 10).findSome? fun k =>
      (m.out.find? fun x => x.ch = 1 && x.who = (m.lastReq + 1 + k) % 10).bind fun x => if m.may x then some x else none
  else (m.out.find? (·.ch.toNat = ch)).bind fun x => if m.may x then some x else none

/-- Take a message from its channel. -/
def Mcl.take (m : Mcl) (x : Msg) : Mcl :=
  { m with out := m.out.erase x, txRest := m.txRest ++ x.wire,
           credCoh := if x.ch = 0 then m.credCoh - 1 else m.credCoh, credBulk := if x.ch = 1 then m.credBulk - 1 else m.credBulk,
           credDb := if x.ch = 0 || x.ch = 1 then m.credDb else m.credDb - 1,
           turn := if x.ch = 0 then true else if x.ch = 1 then false else m.turn,
           lastReq := if x.ch = 1 then x.who else m.lastReq }

/-- The message that goes next: doorbells first, then the coherent and bulk channels in turn (R451). -/
def Mcl.pick (m : Mcl) : Option Msg :=
  (m.next 2).or (if m.turn then (m.next 1).or (m.next 0) else (m.next 0).or (m.next 1))

/-- Gather the bytes of one flit; `n` bounds the messages. -/
def Mcl.gather (m : Mcl) : Nat → Mcl
  | 0 => m
  | n + 1 =>
    if 240 ≤ m.txRest.length then m else
    match m.pick with
    | none => m
    | some x => (m.take x).gather n

/-- Build and send one flit (R446, R447). -/
def Mcl.flitOut (m : Mcl) : Mcl :=
  let m := m.gather 15
  let now := m.txRest.take 240
  let f : Flit := { fseq := m.fseq, aseq := m.rxSeq - 1, nak := m.nakDue, cohCred := BitVec.ofNat 8 (min 255 m.retCoh),
                    bulkCred := BitVec.ofNat 8 (min 255 m.retBulk), dbCred := BitVec.ofNat 8 (min 255 m.retDb),
                    msg := now ++ List.replicate (240 - now.length) 0, crc := 0 }
  { m with fseq := m.fseq + 1, replay := m.replay ++ [{ f with crc := BitVec.ofNat 64 f.crcOf }], txRest := m.txRest.drop 240,
           nakDue := false, retCoh := m.retCoh - min 255 m.retCoh, retBulk := m.retBulk - min 255 m.retBulk,
           retDb := m.retDb - min 255 m.retDb }

/-- Must a flit go now? -/
def Mcl.due (m : Mcl) : Bool :=
  m.nakDue || !m.txRest.isEmpty || m.pick.isSome || m.retCoh ≠ 0 || m.retBulk ≠ 0 || m.retDb ≠ 0

/-- Send flits while the link is UP, its replay buffer has room and something is due; `n` bounds the flits. -/
def Mcl.pump (m : Mcl) : Nat → Mcl
  | 0 => m
  | n + 1 => if m.link = 2 && m.replay.length < 256 && m.due then m.flitOut.pump n else m

/-- Send what can be sent. -/
def State.mclPump (s : State) : State := s.modMcl fun m => m.pump (2 * m.out.length + 20)

/-- Queue a message to the host. -/
def State.toHost (s : State) (m : Msg) : State := s.modMcl fun x => { x with out := x.out ++ [m] }

/-! ### Keep-alive (R448) -/

/-- An UP link with no flit unacknowledged and nothing to send sends an empty flit in each D51 cycle; the manual gives no pace (DESIGN
CHOICE, log entry 84). -/
def State.mclKeepAlive (s : State) : State :=
  let s := if s.mclUp then s.mclPump else s
  if s.mclUp && s.mcl.replay.isEmpty then s.modMcl Mcl.flitOut else s

/-! ### Messages to the host -/

/-- A completion to the host (R450). -/
def State.complete (s : State) (ch status : Nat) (tag : BitVec 16) (data : List Byte) (poison : Bool := false) : State :=
  s.toHost { type := .cpl, ch := BitVec.ofNat 2 ch, poison, status := BitVec.ofNat 3 status, tag,
             len := BitVec.ofNat 16 data.length, addr := 0, data }

/-- A request of MCL itself, with a tag of its own. -/
def State.ownWrite (s : State) (a : Nat) (data : List Byte) (what : OwnReq) : State :=
  let tag := s.mcl.nextTag % 65536
  (s.modMcl fun m => { m with nextTag := m.nextTag + 1, own := m.own ++ [(tag, what)] }).toHost
    { type := .wr, ch := 1, poison := false, status := 0, tag := BitVec.ofNat 16 tag, len := BitVec.ofNat 16 data.length,
      addr := BitVec.ofNat 52 a, data, who := if what = .mailbox then 8 else 9 }

/-! ### Reads whose command carries what the host answers (R451, R457, R463, log entry 83) -/

/-- RD messages of a requester for `n` bytes at a host address; the command that sends them holds their CPLs. -/
def State.askHost (s : State) (who a n : Nat) : State :=
  if s.mcl.link ≠ 2 then s else
  s.each (List.range ((n + 255) / 256)) fun s k =>
    (s.modMcl fun m => { m with nextTag := m.nextTag + 1 }).toHost
      { type := .rd, ch := 1, poison := false, status := 0, tag := BitVec.ofNat 16 s.mcl.nextTag,
        len := BitVec.ofNat 16 (min 256 (n - 256 * k)), addr := BitVec.ofNat 52 (a + 256 * k), data := [], who, await := false }

/-- The host address of an Underlay address (R457). -/
def State.hostAddr (s : State) (a : Nat) : Nat :=
  (s.regRaw 50 0x10).toNat * 0x1000 + (s.regRaw 50 0x14).toNat * 0x10000000 + (s.regRaw 50 0x18).toNat * 0x100000000000 +
    (a - 0x100000000000)

/-- A poisoned message came (R463). -/
def State.poisonIn (s : State) : State := (s.orReg 50 0xC 4).raiseOnce 50 0x403 50

/-- Note poison where a message carries it. -/
def State.notePoison (s : State) (p : Bool) : State := if p then s.poisonIn else s

/-- Did the host's answers bring good data: the link is UP (R464), and every CPL has STATUS OK and no POISON (R463)? -/
def State.answered (s : State) (good poison : Bool) : Bool := good && !poison && s.mcl.link = 2

end Sys2Proof.Machine
end

