-- ==== Sys2Proof/Machine/Issue.lean ====
section
/-! DEFINITION. What may issue (R181, R189): the arrays as their engines show them, which engine
accepts which instruction, and the order in which the queues take their waits. -/
namespace Sys2Proof.Machine

/-! ### Components of an array -/

def Ga.course (g : Ga) (c : Nat) : Course := vget g.courses c {}
def Ga.modCourse (g : Ga) (c : Nat) (f : Course → Course) : Ga := { g with courses := vmod g.courses c f }
def State.modCourse (s : State) (i c : Nat) (f : Course → Course) : State := s.modGa i (·.modCourse c f)

/-- A change is pending (R54, R156). -/
def Ga.pending (g : Ga) : Bool := g.pendCsr || g.pendEdge.isSome || g.pendFill.isSome

/-- Instructions are held: a change is pending or a recut is under way. -/
def Ga.held (g : Ga) : Bool := g.pending || g.recut

/-- Does the shadow bank hold a foreground tile? -/
def Course.fgShadow (k : Course) : Bool := k.shadow.valid && k.shadow.fill.isNone

/-- Does a waiting operation concern a course? -/
def ArrOp.covers (n c : Nat) : ArrOp → Bool
  | .swap _ k | .run k _ => k = c
  | .swapAll _ => c < n
def ArrOp.isSwap : ArrOp → Bool
  | .run _ _ => false
  | _ => true

/-- The waiting runs of a course. -/
def Ga.runsOn (g : Ga) (c : Nat) : List RunReq :=
  g.ops.filterMap fun o => match o with | .run k r => if k = c then some r else none | _ => none

/-- Does a swap wait on a course? -/
def Ga.swapOn (g : Ga) (c : Nat) : Bool := g.ops.any fun o => o.isSwap && o.covers (coursesOf g.cut) c

/-- The courses of an array's cut. -/
def Ga.all (g : Ga) : List Nat := List.range (coursesOf g.cut)

/-! ### Issue -/

/-- Does the engine of a queue accept an instruction? An array takes a load for a course whose shadow bank is free (R49), a swap where
none waits (R235), a run while nothing is held (R54), the course is not halted (R71; log entry 20) and at most one other waits (R239); a feeder takes one instruction at a time
(R242), the Ridge two (R251), the tier engine eight (R313), the object directory 256 requests (R310). -/
def State.accepts (s : State) (d q : Nat) (e : QEntry) : Bool :=
  match q with
  | 1 | 2 =>
    let g := s.gaAt (2 * d + (q - 1))
    if e.op = 0x10 then (g.course e.cr).load.isNone && !(g.course e.cr).fgShadow
    else if e.op = 0x11 then (if e.m 1 then g.all else [e.cr]).all fun c => !g.swapOn c
    else !g.held && !(g.course e.cr).halted && (g.runsOn e.cr).length < 2
  | 3 | 4 => (s.tr d).atWork q = 0
  | 5 => (s.tr d).atWork 5 < 2
  | 6 => (s.tr d).atWork 6 < 8 && (e.op < 0x90 || s.obreqs.length < 256)
  | _ => true

/-- The instruction of a queue that issues in this cycle if its waits are satisfied; queue 0 is decode. -/
def State.claim (s : State) (d q : Nat) : Option QEntry :=
  let t := s.tr d
  if q = 0 then s.claimDecode d
  else if t.trapped || t.aborting then none
  else
    match vget t.queues q [] with
    | [] => none
    | e :: _ => if s.accepts d q e then some e else none

/-- The queues that take their waits before a queue does, from the point where the Truss cycle under way stands (R189). -/
def turnsBefore (last : Option Nat) (q : Nat) : List Nat :=
  match last with
  | none => List.range q
  | some k =>
    if k < q then (List.range q).filter (k < ·) else (List.range 8).filter (k < ·) ++ List.range q

/-- The Truss with what the queues before a queue leave of the spar counts (R189). -/
def State.leftFor (s : State) (d q : Nat) : Truss :=
  (turnsBefore (s.tr d).turn q).foldl (fun t p =>
    match s.claim d p with
    | some e => if t.waitsOk e.wa e.wb then t.takeWaits e.wa e.wb else t
    | none => t) (s.tr d)

/-- The head of an issue queue, where it holds the opcode and issues (R181): it is not held (R198, R202), its engine accepts it, and the
queues before it leave it its waits (R187, R189). -/
def State.ready (s : State) (d q op : Nat) : Option QEntry :=
  let t := s.tr d
  match vget t.queues q [] with
  | [] => none
  | e :: _ =>
    if e.op = op && !t.trapped && !t.aborting && s.accepts d q e && (s.leftFor d q).waitsOk e.wa e.wb then some e else none

end Sys2Proof.Machine
end

