-- ==== Sys2Proof/Machine/Counters.lean ====
section
/-! DEFINITION. The counter commands of chapter 17: snapshot, freeze, clear and the per-port windows. -/
namespace Sys2Proof.Machine

/-- Start a snapshot for a request made at (ticket, stamp) (R522, points 1 and 2). -/
def State.startSnap (s : State) (t st : Word48) : State :=
  (s.modCtr fun c =>
    { c with snapTicket := t, snapStamp := st, snapCount := satAdd c.snapCount 1, snapBusy := true }).occ 59 9

/-- A snapshot is requested (R522): one that finds a snapshot in progress, or others waiting, waits its turn. -/
def State.requestSnap (s : State) : State :=
  if s.ctr.snapBusy || !s.ctr.snapNext.isEmpty then
    s.modCtr fun c => { c with snapNext := c.snapNext ++ [(s.ticket, s.stamp)] }
  else s.startSnap s.ticket s.stamp

/-- KEEPER.PCCTL.SNAP written with 1. -/
def execSnap (r : Requester) (s : State) : Host.Outcome State Fault Refusal :=
  let (s, ok) := s.reachBy r 51 0x100
  .next (if ok then s.requestSnap else s)

/-- Every island has copied its counters (R522, points 3 and 4); the copies of a dark island keep their values. -/
def execSnapshotEnd (s : State) : Host.Outcome State Fault Refusal :=
  if !s.ctr.snapBusy then .next s else
  .next (s.modCtr fun c =>
    { c with snapBusy := false
             snap := (c.val.filter fun p => s.isLive (keyDom p.1)) ++ (c.snap.filter fun p => !s.isLive (keyDom p.1)) |>.foldl
               (fun m p => Sparse.put 0 m p.1 p.2) [] })

/-- A request that waited starts when the snapshot in progress has ended (R522). -/
def execDeferredSnapshot (s : State) : Host.Outcome State Fault Refusal :=
  match s.ctr.snapNext with
  | [] => .next s
  | (t, st) :: rest =>
    if s.ctr.snapBusy then .next s
    else .next ((s.modCtr fun c => { c with snapNext := rest }).startSnap t st)

/-- FREEZE is written (R521): the Keeper carries it to every powered island in the control class. -/
def State.setFreeze (s : State) (on : Bool) : State :=
  (((s.setField 51 0x100 1 1 (if on then 1 else 0)).each (List.range 60) fun s n =>
    if vget s.live n false then s.lathControl n 1 else s)).modCtr fun c => { c with frzBusy := true }

/-- KEEPER.PCCTL.FREEZE written. -/
def execFreeze (r : Requester) (on : Bool) (s : State) : Host.Outcome State Fault Refusal :=
  let (s, ok) := s.reachBy r 51 0x100
  .next (if ok then s.setFreeze on else s)

/-- Every powered island has applied the freeze state (R521). -/
def execFreezeApplied (s : State) : Host.Outcome State Fault Refusal :=
  if !s.ctr.frzBusy then .next s else
  .next (s.modCtr fun c => { c with frzBusy := false, frozen := (s.regRaw 51 0x100).getLsbD 1 })

/-- USER_EN of KEEPER.PCCTL. -/
def State.userEn (s : State) : Bool := (s.regRaw 51 0x100).getLsbD 0

/-- Does a requester's write reach the island region (R523)? -/
def State.mayCount (s : State) (r : Requester) : Bool := r = .keeper || s.userEn

/-- Clear the counters of an island with their saturation bits (R513, R515). -/
def State.clearCounters (s : State) (n : Nat) : State :=
  let keep (k : Nat) : Bool := keyDom k ≠ n
  (s.modCtr fun c => { c with val := c.val.filter fun p => keep p.1, sat := c.sat.filter fun p => keep p.1 }).setRegRaw
    n 0x8004 0

/-- A write of 1 to PCCFG.CLR clears before the access that carries it is counted: an increment and a clear in one cycle leave the count of
that cycle (R516). -/
def State.clearFirst (s : State) (n : Nat) (r : Requester) : State :=
  if s.isLive n && s.mayCount r then s.clearCounters n else s

/-- PCCFG.CLR of a domain written with 1. -/
def execClr (n : DomainId) (r : Requester) (s : State) : Host.Outcome State Fault Refusal :=
  .next (if s.heard r then ((s.clearFirst n r).reach r n 0x8000).1 else s)

/-- A bandwidth window of a port ends (R527); its counts saturate (R13). -/
def execBandwidthWindowEnd (port : PortId) (s : State) : Host.Outcome State Fault Refusal :=
  if !s.isLive (portDom port) then .next s else
  let q := s.port port
  let s := s.modCtr fun c => { c with ports := vmod c.ports port fun w => (min satMax q.tx, min satMax q.rx, satAdd w.2.2 1) }
  .next (s.modPort port fun q => { q with tx := 0, rx := 0 })

end Sys2Proof.Machine
end

