-- ==== Sys2Proof/Machine/Operands.lean ====
section
/-! DEFINITION. Operand forms: the tensor descriptor (R214 to R220), formats (R76, R78), slate-blocked views (R142 to R148),
plain runs (R219), places (R221, R260), row windows (R225), and the reading and writing of elements. -/
namespace Sys2Proof.Machine

/-! ### Descriptors -/

/-- A descriptor's fields (R214). -/
structure Desc where
  valid  : Bool
  level  : Bool
  fmt    : Nat
  nonsat : Bool
  sr     : Bool
  mxrule : Bool
  scmode : Nat
  margin : Nat
  sexp   : Int
  tid    : Nat
  base   : Nat
  row0   : Nat
  sbase  : Nat
  col0   : Nat
  param  : Nat
  rows   : Nat
  cols   : Nat
  bpitch : Nat
  pcols  : Nat
  maxrec : Nat
  hrec   : Nat
  silrec : Nat
deriving DecidableEq, Repr

/-- A two's-complement field. -/
def signedOf (x w : Nat) : Int := if x < 2 ^ (w - 1) then x else (x : Int) - 2 ^ w

/-- A two's-complement field's bits. -/
def unsignedOf (x : Int) (w : Nat) : Nat := (x % (2 ^ w : Nat)).toNat

/-- A descriptor from its eight words. Reserved bits are ignored (R215); at the basic level the conversion and scaling fields
read SAT, RNE, rule 0, present-tensor scaling and margin 0 (R88, R126); SCMODE 3 clamps to 2. ROWS or COLS of 0 make any descriptor
invalid (R216), a plain run among them, of which R219 ignores COLS (DESIGN CHOICE, log entry 76). -/
def Desc.ofWords (ws : List Word64) : Desc :=
  let w (k : Nat) : Nat := (ws.getD k 0).toNat
  let lvl := bits (w 0) 1 1 = 1
  let cols := bits (w 3) 32 32
  { valid := bits (w 0) 0 1 = 1 && bits (w 3) 0 32 ≠ 0 && cols ≠ 0, level := lvl, fmt := bits (w 0) 2 4,
    nonsat := lvl && bits (w 0) 6 1 = 1, sr := lvl && bits (w 0) 7 1 = 1, mxrule := lvl && bits (w 0) 8 1 = 1,
    scmode := if lvl then min 2 (bits (w 0) 9 2) else 0, margin := if lvl then bits (w 0) 11 3 else 0,
    sexp := signedOf (bits (w 0) 16 8) 8, tid := bits (w 0) 24 24, base := bits (w 1) 0 40 * 256,
    row0 := bits (w 1) 40 24, sbase := bits (w 2) 0 40 * 256, col0 := bits (w 2) 40 24, param := bits (w 2) 0 32,
    rows := bits (w 3) 0 32, cols, bpitch := bits (w 4) 0 32,
    pcols := if bits (w 4) 32 32 = 0 then cols else bits (w 4) 32 32, maxrec := bits (w 5) 0 42 * 64,
    hrec := bits (w 6) 0 42 * 64, silrec := bits (w 7) 0 44 * 16 }

/-- The words of an entry of a descriptor table. -/
def Truss.descWords (t : Truss) (i : Nat) : List Word64 := Sparse.getList 0 t.desc (8 * i) 8

/-- A descriptor of TRUSS[d]; index 0 is the null descriptor (R192). -/
def State.desc (s : State) (d i : Nat) : Desc :=
  let x := Desc.ofWords ((s.tr d).descWords i)
  { x with valid := x.valid && i ≠ 0 }

/-- The index after wrap (R220). -/
def descIdx (i : Nat) : Nat := i % 4096

/-- Write an entry of a descriptor table; a load into entry 0 is ignored (R192). -/
def State.setDesc (s : State) (d i : Nat) (ws : List Word64) : State :=
  if i = 0 then s else s.modTr d fun t => { t with desc := Sparse.putList 0 t.desc (8 * i) ws }

/-- Write SEXP of a descriptor (R127, R194). -/
def State.setSexp (s : State) (d i : Nat) (x : Int) : State :=
  s.modTr d fun t =>
    let w := (Sparse.get 0 t.desc (8 * i)).toNat
    let w' := w - bits w 16 8 * 0x10000 + unsignedOf x 8 * 0x10000
    { t with desc := Sparse.put 0 t.desc (8 * i) (BitVec.ofNat 64 w') }

/-! ### Formats (R76) -/

/-- Is the format code one of R76 other than ZB8 and the reserved ones? -/
def fmtOk (f : Nat) : Bool := f ≤ 9
/-- An MX format. -/
def isMx (f : Nat) : Bool := f = 2 || f = 3 || f = 4
/-- A format with a tensor scale exponent (R89). -/
def isScaled (f : Nat) : Bool := f = 0 || f = 1 || f = 6
/-- Z40 in either form. -/
def isZ40 (f : Nat) : Bool := f = 8 || f = 9
/-- The layout of an element. -/
def layoutOf (f : Nat) : Layout :=
  match f with
  | 0 | 2 => .e4m3 | 1 | 3 => .e5m2 | 4 => .e2m1 | 5 => .bf16 | 6 => .binary16 | 7 => .binary32 | _ => .z40
/-- Bits of a stored element. -/
def fmtBits (f : Nat) : Nat :=
  match f with
  | 0 | 1 | 2 | 3 => 8 | 4 => 4 | 5 | 6 => 16 | 7 => 32 | 8 => 40 | _ => 64
/-- Data bytes of a slate block. -/
def blockBytes (f : Nat) : Nat := 128 * fmtBits f
/-- Bytes that `n` consecutive elements from the start of a slate row occupy. -/
def runBytes (f n : Nat) : Nat := (n * fmtBits f + 7) / 8

/-- The checks of a view at issue (R192, R216, R197, R143), in ascending order of trap code. -/
def Desc.check (x : Desc) (fmts : Nat → Bool) : Option TrapCause :=
  if !x.valid then some .descInvalid
  else if !fmtOk x.fmt || !fmts x.fmt then some .descFormat
  else if x.bpitch < (x.cols + 31) / 32 then some .descAlign
  else none

/-- The check of a plain run (R219). -/
def Desc.checkRun (x : Desc) : Option TrapCause := if !x.valid then some .descInvalid else none

/-- The first of several results that is a trap, lowest code first. -/
def firstTrap (l : List (Option TrapCause)) : Option TrapCause :=
  (l.filterMap id).foldl (fun (b : Option TrapCause) c =>
    match b with
    | some x => if c.code < x.code then some c else b
    | none => some c) none

/-! ### Views -/

/-- The address of a slate block (R142) and of its scale line (R145). -/
def Desc.block (x : Desc) (br bc : Nat) : Nat := x.base + (br * x.bpitch + bc) * blockBytes x.fmt
def Desc.scaleLine (x : Desc) (br bc : Nat) : Nat := x.sbase + (br * x.bpitch + bc) * 32

/-- The byte address of element (r, c); of the byte that holds it in MXFP4. -/
def Desc.elem (x : Desc) (r c : Nat) : Nat := x.block (r / 32) (c / 32) + (32 * (r % 32) + c % 32) * fmtBits x.fmt / 8

/-- The stored code of element (r, c); a container word gives its Z40 bits (R96). -/
def State.code (s : State) (x : Desc) (r c : Nat) : Nat :=
  let a := x.elem r c
  if x.fmt = 4 then bits (s.readNat a 1) (4 * (c % 2)) 4
  else if x.fmt = 9 then s.readNat a 8 / 2 ^ 24
  else s.readNat a (fmtBits x.fmt / 8)

/-- The stored element with every bit of a container word, in a reading orientation. -/
def State.rawT (s : State) (x : Desc) (t : Bool) (r c : Nat) : Nat :=
  let (r, c) := if t then (c, r) else (r, c)
  if x.fmt = 9 then s.readNat (x.elem r c) 8 else s.code x r c

/-- The scale code of the MX block of element (r, c). -/
def State.scaleCode (s : State) (x : Desc) (r c : Nat) : Nat := s.readNat (x.scaleLine (r / 32) (c / 32) + r % 32) 1

/-- The value of a stored code with the tensor scale (R89) or the block scale (R92) applied exactly. -/
def decodeElem (f : Nat) (sexp : Int) (scale code : Nat) : Num :=
  let v := (layoutOf f).decode code
  if isScaled f then v.scale (-sexp)
  else if isMx f then (if scale = 0xFF then .nan else v.scale ((scale : Int) - 127))
  else v

/-- The value as a feeder's max unit sees it, widened to Z40 (R82, R105, R123). -/
def measured (f : Nat) (sexp : Int) (scale code : Nat) : Num := rneZ40 (decodeElem f sexp scale code)

/-- The exact value of element (r, c). -/
def State.value (s : State) (x : Desc) (r c : Nat) : Num :=
  decodeElem x.fmt x.sexp (if isMx x.fmt then s.scaleCode x r c else 0) (s.code x r c)

/-- The value widened to Z40 by a feeder read: infinity above its range (R82, R105). -/
def State.widen (s : State) (x : Desc) (r c : Nat) : Num := rneZ40 (s.value x r c)

/-- Rows and columns in a reading orientation (R146). -/
def Desc.rowsT (x : Desc) (t : Bool) : Nat := if t then x.cols else x.rows
def Desc.colsT (x : Desc) (t : Bool) : Nat := if t then x.rows else x.cols
/-- The exact value in a reading orientation. -/
def State.valueT (s : State) (x : Desc) (t : Bool) (r c : Nat) : Num := if t then s.value x c r else s.value x r c
/-- The stored code in a reading orientation. -/
def State.codeT (s : State) (x : Desc) (t : Bool) (r c : Nat) : Nat := if t then s.code x c r else s.code x r c

/-- The element index of R119 and R217. -/
def Desc.index (x : Desc) (r c : Nat) : Nat := ((32 * x.row0 + r) * x.pcols + 32 * x.col0 + c) % 2 ^ 40

/-- The last byte of a view's elements, and of its scale lines. -/
def Desc.lastByte (x : Desc) : Nat := x.elem (x.rows - 1) (x.cols - 1) + (fmtBits x.fmt + 7) / 8 - 1
def Desc.lastScale (x : Desc) : Nat := x.scaleLine ((x.rows - 1) / 32) ((x.cols - 1) / 32) + (x.rows - 1) % 32

/-- The bytes of the elements (r, c) for r in [r0, r1) and c in [c0, c1), with their scale lines (R290): one span for each
slate row of each block. -/
def Desc.spans (x : Desc) (r0 r1 c0 c1 : Nat) : List Span :=
  (List.range (r1 - r0)).flatMap fun i =>
    let r := r0 + i
    (List.range ((c1 + 31) / 32 - c0 / 32)).flatMap fun j =>
      let bc := c0 / 32 + j
      let lo := max c0 (32 * bc)
      let hi := min c1 (32 * bc + 32)
      let a := x.elem r lo
      let d : Span := { a, n := (x.elem r (hi - 1) + (fmtBits x.fmt + 7) / 8) - a, home := x.base, last := x.lastByte,
                        run := (x.block (r / 32) bc, blockBytes x.fmt) }
      let line := x.scaleLine (r / 32) bc
      if isMx x.fmt then [d, { a := line + r % 32, n := 1, home := x.base, last := x.lastScale, run := (line, 32) }] else [d]

/-- The spans of rows [r0, r1) in a reading orientation. -/
def Desc.spansT (x : Desc) (t : Bool) (r0 r1 c0 c1 : Nat) : List Span :=
  if t then x.spans c0 c1 r0 r1 else x.spans r0 r1 c0 c1

/-- The whole view. -/
def Desc.all (x : Desc) : List Span := x.spans 0 x.rows 0 x.cols

/-! ### Places -/

/-- May a feeder or Ridge operand of CD[d] stand in this region (R221)? -/
def feederPlace (d : Nat) : Region → Bool
  | .array i => i / 2 = d
  | .ridge k => k = d
  | .loft _ => true
  | _ => false

/-- May a record run of an RD instruction (R221)? -/
def recordPlace (d : Nat) : Region → Bool
  | .hbm _ => true
  | r => feederPlace d r

/-- May an operand of the tier engine stand here, the Underlay window apart (R221)? -/
def tierPlace : Region → Bool
  | .hbm _ | .loft _ | .array _ | .ridge _ => true
  | _ => false

/-- May a view of a CO or UP instruction (R260)? -/
def gutterPlace : Region → Bool
  | .hbm _ | .loft _ | .array _ | .gutter _ => true
  | _ => false

/-- All spans lie in permitted places by plain addresses, each operand wholly in one place (R221, R260): the place where its first
block stands, whether or not the instruction reaches all of it. -/
def spansIn (ok : Region → Bool) (l : List Span) : Bool :=
  l.all fun x =>
    let at' (a : Nat) : Nat := (placeOf a).region.place
    let p := at' x.home
    x.plain && (placeOf x.last).twist = 0 && ok (placeOf x.a).region && at' x.a = p && at' (x.a + x.n - 1) = p && at' x.last = p

/-- What an instruction's accesses report at completion: ADDRESS for an operand outside its places or not reachable, read or
written, then DATA_ERROR for a consumed unit that is uncorrectable (R221, R290, R491). -/
def State.access (s : State) (m : Mover) (ok : Region → Bool) (reads writes : List Span) : State × Option TrapCause :=
  if !(spansIn ok reads && spansIn ok writes) || !(writes.all fun x => s.rangeOk x.a x.n) then (s, some .address)
  else
    let (s, trap) := (s.want (s.snooped writes true)).consume reads
    ((s.touch m reads false true).touch m writes true true, trap)

/-- The row window (R225): first row and one past the last, clipped to `rows`; empty beyond the view. -/
def QEntry.window (e : QEntry) (rows : Nat) : Nat × Nat :=
  let f := 32 * e.hi 0 24
  let n := 32 * e.hi 24 24
  (min f rows, if n = 0 then rows else min rows (f + n))

/-! ### Writing -/

/-- The access check of an instruction's operands, then of the records it touches, which may stand in any memory. -/
def State.accessAll (s : State) (m : Mover) (ok : Region → Bool) (reads writes recs : List Span) : State × Option TrapCause :=
  match s.access m ok reads writes with
  | (s, some c) => (s, some c)
  | (s, none) => s.access m Region.isMem recs recs

/-- The same for an instruction whose data move before it turns to its records: the trap that it meets before its data move, and
the one that its records bring after (R253). -/
def State.accessMove (s : State) (m : Mover) (ok : Region → Bool) (reads writes recs : List Span) :
    State × Option TrapCause × Option TrapCause :=
  match s.access m ok reads writes with
  | (s, some c) => (s, some c, none)
  | (s, none) =>
    match s.access m Region.isMem recs recs with
    | (s, some .dataError) => (s, none, some .dataError)
    | (s, c) => (s, c, none)

/-- Write the given bytes of a run and leave the others (`none`): units whose every byte is given lose their marker, units given
in part and poisoned stay as they are (R290). -/
def State.writeSome (s : State) (a : Nat) (l : List (Option Byte)) : State :=
  let given (u : Nat) : Bool := a ≤ u && ((l.drop (u - a)).take (placeOf a).region.unit).all (·.isSome)
  let s := s.each ((wholeUnits a l.length).filter given) fun s u => s.mark u false
  s.each ((List.range l.length).zip l) fun s p =>
    match p.2 with
    | some b => s.putByte (a + p.1) b
    | none => s

/-- A code as the bytes of its format; a container word carries Z40 in its upper bits and writes zero below (R96). -/
def codeBytes (f code : Nat) : List Byte :=
  if f = 9 then leBytes (code * 2 ^ 24) 8 else leBytes code (fmtBits f / 8)

/-- The bytes that a copy of container words moves unchanged (R104): all 64 bits; of every other format the code's bytes. -/
def rawBytes (f code : Nat) : List Byte := if f = 9 then leBytes code 8 else codeBytes f code

/-- One slate row of a block as bytes: `g c` is the code to write at block column c, or none to leave it; `raw` for container words
given whole. -/
def slateRow (f : Nat) (raw : Bool) (old : Nat → Nat) (g : Nat → Option Nat) : List (Option Byte) :=
  if f = 4 then
    (List.range 16).map fun j =>
      match g (2 * j), g (2 * j + 1) with
      | none, none => none
      | a, b => some (BitVec.ofNat 8 ((a.getD (old (2 * j))) + 16 * (b.getD (old (2 * j + 1)))))
  else
    (List.range 32).flatMap fun c =>
      match g c with
      | some v => (if raw then rawBytes f v else codeBytes f v).map some
      | none => List.replicate (fmtBits f / 8) none

/-- Write one block of a destination view (R144): given elements are written, elements of the view that are not given stay, and
every padding position takes code 0. `scale` gives the scale byte of a slate row of an MX block; padding rows take 0x7F
(R145). -/
def State.writeBlock (s : State) (x : Desc) (br bc : Nat) (g : Nat → Nat → Option Nat) (scale : Nat → Option Nat) (raw : Bool) :
    State :=
  let rows := (List.range 32).flatMap fun i =>
    let r := 32 * br + i
    slateRow x.fmt raw (fun c => s.code x r (32 * bc + c)) fun j =>
      let c := 32 * bc + j
      if x.rows ≤ r || x.cols ≤ c then some 0 else g r c
  let s := s.writeSome (x.block br bc) rows
  if isMx x.fmt then
    s.writeSome (x.scaleLine br bc) ((List.range 32).map fun i =>
      if x.rows ≤ 32 * br + i then some (BitVec.ofNat 8 0x7F) else (scale (32 * br + i)).map (BitVec.ofNat 8))
  else s

/-- Write the elements `g` gives among rows [r0, r1) and columns [c0, c1) of a view, block by block; blocks that this range does
not reach are not written. -/
def State.writeView (s : State) (x : Desc) (r0 r1 c0 c1 : Nat) (g : Nat → Nat → Option Nat)
    (scale : Nat → Nat → Option Nat := fun _ _ => none) (raw : Bool := false) : State :=
  if r1 ≤ r0 || c1 ≤ c0 then s else
  s.each (List.range ((r1 + 31) / 32 - r0 / 32)) fun s i =>
    s.each (List.range ((c1 + 31) / 32 - c0 / 32)) fun s j =>
      s.writeBlock x (r0 / 32 + i) (c0 / 32 + j)
        (fun r c => if r0 ≤ r && r < r1 && c0 ≤ c && c < c1 then g r c else none)
        (fun r => if r0 ≤ r && r < r1 then scale r (c0 / 32 + j) else none) raw

/-- The spans that writing rows [r0, r1) and columns [c0, c1) touches: whole blocks (R144) and their scale lines. -/
def Desc.blockSpans (x : Desc) (r0 r1 c0 c1 : Nat) : List Span :=
  if r1 ≤ r0 || c1 ≤ c0 then [] else
  (List.range ((r1 + 31) / 32 - r0 / 32)).flatMap fun i =>
    (List.range ((c1 + 31) / 32 - c0 / 32)).flatMap fun j =>
      let d : Span := { a := x.block (r0 / 32 + i) (c0 / 32 + j), n := blockBytes x.fmt, home := x.base, last := x.lastByte }
      if isMx x.fmt then [d, { a := x.scaleLine (r0 / 32 + i) (c0 / 32 + j), n := 32, home := x.base, last := x.lastScale }] else [d]

/-- The bytes of the positions [lo, hi) of a slate row. -/
def Desc.rowSpan (x : Desc) (r lo hi : Nat) : List Span :=
  if hi ≤ lo then [] else
  let a := x.elem r lo
  [{ a, n := (x.elem r (hi - 1) + (fmtBits x.fmt + 7) / 8) - a, home := x.base, last := x.lastByte }]

/-- The bytes that writing rows [r0, r1) and columns [c0, c1) changes: those elements, the padding positions of every block written
(R144), and their scale bytes (R145). -/
def Desc.writtenSpans (x : Desc) (r0 r1 c0 c1 : Nat) : List Span :=
  if r1 ≤ r0 || c1 ≤ c0 then [] else
  (List.range ((r1 + 31) / 32 - r0 / 32)).flatMap fun i =>
    (List.range ((c1 + 31) / 32 - c0 / 32)).flatMap fun j =>
      let bc := c0 / 32 + j
      let (lo, hi) := (32 * bc, 32 * bc + 32)
      (List.range 32).flatMap fun k =>
        let r := 32 * (r0 / 32 + i) + k
        let sc : List Span := if isMx x.fmt then [{ a := x.scaleLine (r / 32) bc + k, n := 1, home := x.base, last := x.lastScale }] else []
        if x.rows ≤ r then x.rowSpan r lo hi ++ sc
        else (if r0 ≤ r && r < r1 then x.rowSpan r (max c0 lo) (min c1 hi) ++ sc else []) ++ x.rowSpan r (max lo x.cols) hi

/-- Bytes that an instruction both reads and writes hold undefined values after it (R223): each such run takes a free value. -/
def State.smear (s : State) (reads writes : List Span) : State :=
  s.each (reads.flatMap fun p => writes.filterMap fun q =>
    let lo := max p.a q.a
    let hi := min (p.a + p.n) (q.a + q.n)
    if lo < hi then some ({ a := lo, n := hi - lo } : Span) else none) fun s x =>
      let (v, s) := s.drawFree
      s.write x.a (leBytes v x.n)

/-- The bytes of the elements that a write of rows [r0, r1) and columns [c0, c1) gives. -/
def Desc.destSpans (x : Desc) (r0 r1 c0 c1 : Nat) : List Span := if r1 ≤ r0 || c1 ≤ c0 then [] else x.spans r0 r1 c0 c1

/-- The overlaps of a move (R223): bytes of an operand that are written, as elements or as a record, and bytes of a record, which the
instruction reads and writes in place, that elements overwrite. -/
def State.smearMove (s : State) (reads written recs : List Span) : State := (s.smear reads (written ++ recs)).smear recs written

/-- An instruction that ends in DATA_ERROR leaves the destination bytes that it had written (R253). How many those are, and what
came of the poisoned data, the spec does not say: each run of them takes a free value (log entry 19). -/
def State.spoil (s : State) (c : TrapCause) (l : List Span) : State :=
  if c = .dataError then
    s.each l fun s x =>
      let (v, s) := s.drawFree
      s.write x.a (leBytes v x.n)
  else s

/-! ### Measurements (R123, R124, R167 to R169) -/

/-- The statistics of a measurement. -/
structure Stats where
  amax : Num := Num.zero
  nz   : Nat := 0
  nf   : Nat := 0
deriving DecidableEq, Repr

/-- Take one element into a measurement. -/
def Stats.take (t : Stats) (x : Num) : Stats :=
  if x.nonFinite then { t with nf := t.nf + 1 }
  else if x.nonzeroFinite then
    { t with nz := t.nz + 1, amax := if Num.lt t.amax x.abs then x.abs else t.amax }
  else t

/-- The measurement of a list of elements. -/
def statsOf (l : List Num) : Stats := l.foldl Stats.take {}

/-- Words of a record. -/
def State.recWord (s : State) (a k : Nat) : Nat := s.readNat (a + 8 * k) 8
def State.setRecWord (s : State) (a k v : Nat) : State := s.writeNat (a + 8 * k) v 8

/-- The spans of the records a destination names: 64 B of max record, 16 B of silence record, 320 B of history record. -/
def Desc.recSpans (x : Desc) (hist : Bool) : List Span :=
  (if x.maxrec ≠ 0 then [{ a := x.maxrec, n := 64 }] else []) ++
  (if x.maxrec ≠ 0 && x.silrec ≠ 0 then [{ a := x.silrec, n := 16 }] else []) ++
  (if hist && x.hrec ≠ 0 then [{ a := x.hrec, n := 320 }] else [])

/-- Was the ticket in word 6 silent for the tensor (R168)? -/
def State.silent (s : State) (m : Nat) : Bool :=
  let w1 := s.recWord m 1
  (bits w1 48 1 = 1 && bits w1 0 48 = 0 && bits (s.recWord m 2) 0 48 = 0) ||
  (bits (s.recWord m 7) 0 48 = bits (s.recWord m 6) 0 48 && bits (s.recWord m 4) 0 48 = bits (s.recWord m 3) 0 48)

/-- Judge the ticket of the last measurement open (R168, R169), on feeder `i`. -/
def State.judgeSilence (s : State) (i : Nat) (x : Desc) : State :=
  if x.silrec = 0 then s else
  let t' := bits (s.recWord x.maxrec 6) 0 48
  let last := s.readNat x.silrec 6
  if t' = last || s.ticket.toNat ≤ t' then s else
  let count := s.readNat (x.silrec + 6) 6
  let raised := s.readNat (x.silrec + 12) 1 % 2
  let quiet := s.silent x.maxrec
  let count' := if quiet then (if t' = last + 1 then satAdd count 1 else 1) else 0
  let raised' := if quiet then raised else 0
  let due := quiet && raised' = 0 && (s.cfg (8 + i) 0x58).toNat ≤ count'
  let flags := if due then 1 else raised'
  let s := s.write x.silrec (leBytes t' 6 ++ leBytes count' 6 ++ leBytes flags 4)
  if due then (s.raise 0x242 (8 + i) x.tid).occ (8 + i) 4 else s

/-- Open a max record with the instruction's statistics (R124), on feeder `i`. -/
def State.openRec (s : State) (i : Nat) (x : Desc) (t : Stats) : State :=
  if x.maxrec = 0 then s else
  let s := s.judgeSilence i x
  let keep := bits (s.recWord x.maxrec 1) 50 2
  let s := s.setRecWord x.maxrec 0 (toContainer t.amax).toNat
  let s := s.setRecWord x.maxrec 1
    (min satMax t.nz + 2 ^ 48 + (if t.nf ≠ 0 then 2 ^ 49 else 0) + keep * 2 ^ 50)
  let s := s.setRecWord x.maxrec 2 (min satMax t.nf)
  s.setRecWord x.maxrec 6 s.ticket.toNat

/-- Merge statistics into a max record (R124). -/
def State.mergeRec (s : State) (x : Desc) (t : Stats) : State :=
  if x.maxrec = 0 then s else
  let w1 := s.recWord x.maxrec 1
  let old := ofContainer (BitVec.ofNat 64 (s.recWord x.maxrec 0))
  let nf := satAdd (bits (s.recWord x.maxrec 2) 0 48) t.nf
  let s := s.setRecWord x.maxrec 0 (toContainer (if Num.lt old t.amax then t.amax else old)).toNat
  let s := s.setRecWord x.maxrec 1
    (satAdd (bits w1 0 48) t.nz + bits w1 48 1 * 2 ^ 48 + (if nf ≠ 0 then 2 ^ 49 else 0) + bits w1 50 2 * 2 ^ 50)
  s.setRecWord x.maxrec 2 nf

/-- A measurement by the max unit of feeder `i`: opened or merged, with FD.NSTAT.NONFINITE (chapter 4, Registers). -/
def State.measure (s : State) (i : Nat) (x : Desc) (opens : Bool) (t : Stats) : State :=
  let s := if opens then s.openRec i x t else s.mergeRec x t
  if t.nf ≠ 0 && x.maxrec ≠ 0 then s.orReg (8 + i) 0x54 8 else s

/-- What a quantize pass writes into its destination's max record (R85, R123, R134). -/
structure QCount where
  nz   : Nat := 0
  fl   : Nat := 0
  sat  : Nat := 0
deriving DecidableEq, Repr

def QCount.add (a b : QCount) : QCount := { nz := a.nz + b.nz, fl := a.fl + b.fl, sat := a.sat + b.sat }

/-- Words 3 to 5, RECOVER, OVERSHOOT and QTICKET of a max record (R124). -/
def State.quantRec (s : State) (x : Desc) (q : QCount) (recover ovf : Bool) : State :=
  if x.maxrec = 0 then s else
  let w1 := s.recWord x.maxrec 1
  let s := s.setRecWord x.maxrec 1
    (bits w1 0 50 + (if recover then 2 ^ 50 else 0) + (if ovf then 2 ^ 51 else 0))
  let s := s.setRecWord x.maxrec 3 (min satMax q.nz)
  let s := s.setRecWord x.maxrec 4 (min satMax q.fl)
  let s := s.setRecWord x.maxrec 5 (min satMax q.sat)
  s.setRecWord x.maxrec 7 s.ticket.toNat

/-! ### Seeds and conversions -/

/-- The effective seed S of feeder `i` (R121). -/
def State.seed (s : State) (i : Nat) : Word64 :=
  let k := (s.regRaw (8 + i) 0x44).toNat + 0x10000 * (s.regRaw (8 + i) 0x48).toNat +
    0x100000000 * (s.regRaw (8 + i) 0x4C).toNat + 0x1000000000000 * (s.regRaw (8 + i) 0x50).toNat
  let k := BitVec.ofNat 64 k
  if (s.cfg (8 + i) 0x40).getLsbD 1 then k ^^^ s.ticket.setWidth 64 else k

/-- The rounding of a quantize pass into element (r, c) of a destination (R88, R119). -/
def State.round (s : State) (i : Nat) (x : Desc) (r c : Nat) : Round :=
  if x.sr then .sr (genU (s.seed i) (BitVec.ofNat 24 x.tid) (BitVec.ofNat 40 (x.index r c)) 0xFFFF) else .rne

/-- Convert one value into a format other than an MX one (R105), with the scale exponent of R89. -/
def convertTo (x : Desc) (sexp : Int) (rd : Round) (v : Num) : Conv :=
  (layoutOf x.fmt).convert (!x.nonsat) rd (if isScaled x.fmt then v.scale sexp else v)

/-- The counts of one converted element. -/
def countElem (f : Nat) (v : Num) (k : Conv) : QCount :=
  { nz := if v.nonzeroFinite then 1 else 0, fl := if flushed v k.code (layoutOf f) then 1 else 0,
    sat := if k.ovf then 1 else 0 }

/-- The exponent of an element's largest binade and its largest finite value (R93). -/
def mxBinade (f : Nat) : Int := match f with | 2 => 8 | 3 => 15 | _ => 2
def mxMax (f : Nat) : Num := match f with | 2 => .fin false 448 0 | 3 => .fin false 57344 0 | _ => .fin false 6 0

/-- `⌈log2(a / v)⌉` for finite values above zero. -/
def ceilLog2Ratio (a v : Num) : Int :=
  match a, v with
  | .fin _ m e, .fin _ n f =>
    let k : Int := floorLog2 m e - floorLog2 n f
    -- a / v lies in (2^(k-1), 2^(k+1)); compare a with v * 2^(k-1), v * 2^k
    if !Num.lt (v.scale (k - 1)) a then k - 1 else if !Num.lt (v.scale k) a then k else k + 1
  | _, _ => 0

/-- The scale code of an MX block from its elements (R93). -/
def mxScale (x : Desc) (l : List Num) : Nat :=
  if l.any Num.nonFinite then 0xFF
  else
    match (statsOf l).amax with
    | .fin _ m e =>
      if m = 0 then 0x7F
      else
        let k := if x.mxrule then ceilLog2Ratio (.fin false m e) (mxMax x.fmt) + 127
          else floorLog2 m e - mxBinade x.fmt + 127
        (max 0 (min 254 k)).toNat
    | _ => 0xFF

/-- Convert one element of an MX block under its scale code (R93). -/
def mxElem (x : Desc) (scale : Nat) (rd : Round) (v : Num) : Conv :=
  if scale = 0xFF then ⟨0, false⟩ else (layoutOf x.fmt).convert true rd (v.scale (127 - scale))

end Sys2Proof.Machine
end

