-- ==== Sys2Proof/Machine/Truss.lean ====
section
/-! DEFINITION. The Truss (chapters 6 to 8): the stream ring, fetch, decode, in-line instructions, completion, spar messages,
abort, the stash reset and the watchdog. -/
namespace Sys2Proof.Machine

/-! ### The stream ring -/

/-- The settings in force at a control boundary of the Truss function (R195). -/
def State.trussBoundary (s : State) (d : Nat) : State :=
  let dom := 16 + d
  s.modTr d fun t => { t with expert := s.level dom 4, skip := BitVec.ofNat 6 (s.cfgBits dom 8 0 6),
                              wdog := (s.cfg dom 0xC).toNat }

/-- The ring's registers as written: base address and length (R172). -/
def State.ringRegs (s : State) (d : Nat) : Nat × Nat :=
  let r (o : Nat) : Nat := (s.regRaw (16 + d) o).toNat
  (r 0x14 * 0x100 + r 0x18 * 0x1000000 + r 0x1C * 0x10000000000, r 0x20)

/-- Start fetch and decode (R175, R178): a ring written since is put in force, with the head at SRESTART; a word of the old ring that was
being skipped at decode is left with it. -/
def State.runStart (s : State) (d : Nat) : State :=
  let t := s.tr d
  if t.run then s
  else if t.ringNew then
    let (base, size) := s.ringRegs d
    s.modTr d fun t =>
      { t with run := true, ringNew := false, ringBase := base, ringSize := size, avail := 0, word := 0, fbuf := [],
               decTrap := false, head := min (s.regRaw (16 + d) 0x30).toNat (size - 1) }
  else s.modTr d fun t => { t with run := true }

/-- A Truss runs again: once all four were aborted the device's Trusses are restarted (R203). -/
def State.setRunning (s : State) (d : Nat) : State :=
  if (List.range 4).all s.commit.aborted.contains then s.restart
  else s.modCommit fun c => { c with aborted := c.aborted.filter (· ≠ d) }

/-- TRUSS[d].CTL.RUN written with 1. -/
def execRunStart (d : TrussId) (r : Requester) (s : State) : Host.Outcome State Fault Refusal :=
  let (s, ok) := s.reachBy r (16 + d) 0
  .next (if ok then (s.runStart d).setRunning d else s)

/-- TRUSS[d].CTL.RUN written with 0 (R178): decode stops before the next instruction; an in-line one that has taken its waits still
completes. -/
def execRunStop (d : TrussId) (r : Requester) (s : State) : Host.Outcome State Fault Refusal :=
  let (s, ok) := s.reachBy r (16 + d) 0
  .next (if ok then s.modTr d fun t => { t with run := false } else s)

/-- Lines pushed (R173). -/
def State.push (s : State) (d n : Nat) : State :=
  s.modTr d fun t => { t with avail := min (t.avail + n) t.ringSize }

/-- TRUSS[d].SPUSH written under a mask; the register reads zero, so unmasked bits are zero. -/
def execSpush (d : TrussId) (r : Requester) (n mask : Half) (s : State) : Host.Outcome State Fault Refusal :=
  let (s, ok) := s.reachBy r (16 + d) 0x2C
  .next (if ok then s.push d (n &&& mask).toNat else s)

/-- The address of the next line to fetch: the first line not held, while the fetch unit has room (R176). -/
def Truss.nextFetch (t : Truss) : Option Nat :=
  if t.run && !t.trapped && !t.aborting && t.fbuf.length < 16 && t.fbuf.length < t.avail then
    some ((t.head + t.fbuf.length) % t.ringSize)
  else none

/-- Hold a fetched line; TRUSS counts it (R518, item 11). -/
def State.holdLine (s : State) (d : Nat) (l : FLine) : State :=
  (s.modTr d fun t => { t with fbuf := t.fbuf ++ [l] }).occ (16 + d) 11

/-- The 64-bit words of bytes. -/
def wordsOf (n : Nat) (l : List Byte) : List Word64 :=
  (List.range n).map fun k => BitVec.ofNat 64 (leNat ((l.drop (8 * k)).take 8))

/-- The word, counted from the first held line, of the first instruction at or after word `w` that does not start in a held line. -/
def Truss.pastHeld (t : Truss) : Nat → Nat → Nat
  | 0, w => w
  | n + 1, w =>
    match t.fbuf[w / 32]? with
    | none => w
    | some l => t.pastHeld n (w + if (l.words.getD (w % 32) 0).getLsbD 55 then 2 else 1)

/-- A fetch fails (R172, R178, R197): FETCH_FAULT is recorded against the first instruction of the line, which starts at its second word
where an instruction straddles into it (R176). -/
def State.fetchFault (s : State) (d k : Nat) : State :=
  let t := s.tr d
  (s.holdLine d { line := k, words := [], bad := true }).trap d .fetchFault
    { queue := 0, line := k, word := t.pastHeld (32 * t.fbuf.length) t.word - 32 * t.fbuf.length }

/-- A requested line returns (R172, R176, R178): from HBM through its Loft slice (R293) or from the Loft scratchpad, or from the
Underlay with the bytes the host gave. Any other address, an uncorrectable error, and a read that fails (R463, R464) are FETCH_FAULT. -/
def fetchLine (d : TrussId) (data : LineData) (s : State) : Host.Outcome State Fault Refusal :=
  if !data.wf 256 then .fault .malformed else
  match (s.tr d).nextFetch with
  | none => .next s
  | some k =>
    let a := (s.tr d).ringBase + 256 * k
    match (placeOf a).region, data with
    | .underlay, .memory _ => .next (if s.underlayOk a 256 && s.mcl.link = 2 then s else s.fetchFault d k)
    | .underlay, .underlay good bytes poison =>
      if !s.underlayOk a 256 then .next (s.fetchFault d k) else
      let ok := s.answered good poison
      let s := (s.askHost (4 + d) (s.hostAddr a) 256).notePoison (poison && s.mcl.link = 2)
      .next (if ok then (s.cross (.cd d) { a, n := 256 }).holdLine d { line := k, words := wordsOf 32 bytes } else s.fetchFault d k)
    | .hbm _, _ | .loft _, _ =>
      let l : List Span := [{ a, n := 256 }]
      let (s, trap) := s.consume l
      .next (if trap.isSome then s.fetchFault d k
        else ((s.corrected data l).touch (.cd d) l false true).holdLine d { line := k, words := wordsOf 32 (s.bytes a 256) })
    | _, _ => .next (s.fetchFault d k)

/-- FETCH_LINE, where the host holds no line of it. -/
def execFetchLine (d : TrussId) (data : LineData) (s : State) : Host.Outcome State Fault Refusal :=
  waitRecall s (fetchLine d data s)

/-! ### Decode -/

/-- Decode moves past the instruction's words and leaves the lines it has finished (R173). -/
def Truss.advance (t : Truss) (x : Bool) : Truss :=
  let w := t.word + (if x then 2 else 1)
  let lines := w / 32
  { t with word := w % 32, head := (t.head + lines) % t.ringSize, avail := t.avail - lines, fbuf := t.fbuf.drop lines,
           nextSeq := t.nextSeq + 1, decTrap := false, progress := true, turn := some 0,
           acts := vmod t.acts 0 (· + 1) }

/-- An instruction decodes: decode moves on, and it is counted (R518, items 0 and 1). -/
def State.decoded (s : State) (d : Nat) (e : QEntry) : State :=
  let s := (s.modTr d (·.advance e.x)).occ (16 + d) 0
  if e.x && !(s.tr d).expert then s.occ (16 + d) 1 else s

/-- The NOP that stands for a word skipped at decode takes its waits where the queues before it leave them (R189), then signals (R199);
the cycle in which it decodes is a control boundary (R195). -/
def State.skipNop (s : State) (d : Nat) (e : QEntry) : State :=
  if (s.leftFor d 0).waitsOk e.wa e.wb then
    (((s.trussBoundary d).modTr d (·.takeWaits e.wa e.wb)).decoded d e).signal d e.sg
  else s

/-- One instruction decodes (R179, R180): it goes to its queue where that has room. Traps at decode are taken here; an in-line
instruction waits for its own command, and decode proceeds only after it. -/
def execInstructionDecode (d : TrussId) (s : State) : Host.Outcome State Fault Refusal :=
  waitRecall s <|
  let t := s.tr d
  if !t.decoding || t.decTaken.isSome then .next s else
  match t.atDecode (s.level (16 + d) 4) with
  | .nothing => .next s
  | .ins e =>
    if t.decTrap then .next (s.skipNop d e) else
    match decodeWord (s.level (16 + d) 4) e with
    | .error c =>
      let s := (s.trussBoundary d).trap d c (e.at 0)
      if (s.tr d).skips c then .next ((s.modTr d fun t => { t with decTrap := true }).skipNop d e) else .next s
    | .ok i =>
      let q := queueOf i e
      if q = 0 || 16 ≤ (vget t.queues q []).length then .next s
      else
        let s := (s.trussBoundary d).decoded d e
        .next (s.modTr d fun t => { t with queues := vmod t.queues q (· ++ [e]) })

/-- The in-line instruction with the opcode: the one that has issued and holds decode, whatever has become of RUN since (R178, R198,
R202); else the one at decode, where the queues before it leave it its waits (R180, R187, R189). The state returned has it issued: it
has decoded at a control boundary (R195), its waits are taken, and it holds decode. -/
def State.inline (s : State) (d op : Nat) : Option (QEntry × State) :=
  match (s.tr d).decTaken with
  | some e => if e.op = op then some (e, s) else none
  | none =>
    match s.claim d 0 with
    | none => none
    | some e =>
      if e.op = op && !(s.tr d).decTrap && (s.leftFor d 0).waitsOk e.wa e.wb then
        some (e, ((s.trussBoundary d).decoded d e).modTr d fun t => { t.takeWaits e.wa e.wb with decTaken := some e })
      else none

/-- The in-line instruction leaves decode: its completion makes the watchdog tick not idle (DESIGN CHOICE, log entry 65). -/
def State.release (s : State) (d : Nat) : State := s.modTr d fun t => { t with decTaken := none, progress := true }

/-- The in-line instruction completes and signals (R183). -/
def State.inlineDone (s : State) (d : Nat) (e : QEntry) : State := (s.release d).signal d e.sg

/-- Run an in-line instruction whose effect needs no further wait. -/
def inlineRun (d : TrussId) (op : Nat) (f : State → QEntry → State) (s : State) : Host.Outcome State Fault Refusal :=
  waitRecall s <|
  match s.inline d op with
  | none => .next s
  | some (e, s) => .next ((f s e).inlineDone d e)

/-- NOP (R226). -/
def execNop (d : TrussId) (s : State) : Host.Outcome State Fault Refusal := inlineRun d 0x00 (fun s _ => s) s

/-- Descriptor indices that an instruction names (R193, R220). -/
def State.names (s : State) (d : Nat) (e : QEntry) : List Nat :=
  let a (k : Nat) : Nat := descIdx (e.da + k)
  let b (k : Nat) : Nat := descIdx (e.db + k)
  match e.op with
  | 0x10 => [a 0]
  | 0x12 =>
    let z := if isZ40 (s.desc d (b 0)).fmt then 0 else 1
    let x := s.desc d (a 0)
    [a 0, b 0, b z] ++ (if 65536 < x.colsT (e.m 1) then [b (z + 1)] else [])
  | 0x13 => [a 0, a 1, a 2]
  | 0x30 | 0x31 | 0x38 | 0x39 => [a 0, b 0]
  | 0x32 => if e.m 3 then [a 0, b 0, b 1] else [a 0, b 0]
  | 0x3A => [a 0, b 0, b 1]
  | 0x50 | 0x51 | 0x52 | 0x53 => (List.range (rdSpan e.op)).map a
  | 0x61 | 0x62 => [b 0]
  | 0x63 => [b 0, b 1, b 2]
  | 0x64 => [b 0, b 1, b 2, b 3]
  | _ => []

/-- Every decoded instruction of the Truss that has not completed, valley-queue entries included. -/
def Truss.incomplete (t : Truss) : List QEntry :=
  t.queues.toList.flatten ++ t.issued.map (·.e) ++ t.valley.map (·.e)

/-- The descriptor interlock of R193. -/
def State.interlocked (s : State) (d : Nat) (e : QEntry) : Bool :=
  (s.tr d).incomplete.any fun x => (s.names d x).any fun k => e.da ≤ k && k ≤ e.da + e.db

/-- Load descriptors one after another until one fails (R228). A read through the rotate view acts on eight bytes and gives zeros for the
others (R303); one of HBM passes its Loft slice (R293). -/
def State.dload (s : State) (d : Nat) (idx src : Nat) : Nat → State × Option TrapCause
  | 0 => (s, none)
  | n + 1 =>
    let p := placeOf src
    let l : List Span := [{ a := p.plain, n := if p.twist = 3 then 8 else 64 }]
    let (s, trap) := if p.region.isMem then s.consume l else (s, some .address)
    match trap with
    | some c => (s, some c)
    | none => ((s.touch (.cd d) l false true).setDesc d idx (wordsOf 8 (s.readVia src 64))).dload d (idx + 1) (src + 64) n

/-- May SY.DLOAD read 64 bytes of the Underlay: in the window (R457), and in no stash range (R318)? -/
def State.dloadAt (s : State) (a : Nat) : Bool := s.underlayOk a 64 && !s.inStash none { a, n := 64 }

/-- The same from the Underlay, with the bytes the host returned. -/
def State.dloadHost (s : State) (d idx : Nat) (good poison : Bool) (bytes : List Byte) (src n : Nat) : State × Option TrapCause :=
  let ok := (List.range n).takeWhile fun k =>
    s.dloadAt (src + 64 * k) && 64 * (k + 1) ≤ bytes.length && s.answered good poison
  let asked := ((List.range n).takeWhile fun k => s.dloadAt (src + 64 * k)).length
  let s' := ((s.askHost (4 + d) (s.hostAddr src) (64 * asked)).notePoison (poison && asked ≠ 0 && s.mcl.link = 2)).each ok fun s k =>
    (s.cross (.cd d) { a := src + 64 * k, n := 64 }).setDesc d (idx + k) (wordsOf 8 ((bytes.drop (64 * k)).take 64))
  (s', if ok.length = n then none else if s.dloadAt (src + 64 * ok.length) then some .dataError else some .address)

/-- SY.DLOAD (R193, R228): after its waits it holds decode until the interlock clears, then copies. An error ends it with a trap
at completion; it has completed and signals (R253). -/
def syDload (d : TrussId) (data : LineData) (s : State) : Host.Outcome State Fault Refusal :=
  if !data.wf 262144 then .fault .malformed else
  match s.inline d 0x01 with
  | none => .next s
  | some (e, s) =>
    if s.interlocked d e then .next s else
    let src := (s.tr d).alat.toNat / 64 * 64
    match (placeOf src).region, data with
    | .underlay, .memory _ =>
      if !s.dloadAt src then .next ((s.trap d .address (e.at 0)).inlineDone d e)
      else if s.mcl.link = 2 then .next s
      else .next ((s.trap d .dataError (e.at 0)).inlineDone d e)
    | .underlay, .underlay good bytes poison =>
      let (s, trap) := s.dloadHost d e.da good poison bytes src (e.db + 1)
      let s := match trap with | some c => s.trap d c (e.at 0) | none => s
      .next (s.inlineDone d e)
    | _, _ =>
      let (s, trap) := (s.corrected data [{ a := (placeOf src).plain, n := 64 * (e.db + 1) }]).dload d e.da src (e.db + 1)
      let s := match trap with | some c => s.trap d c (e.at 0) | none => s
      .next (s.inlineDone d e)

/-- SY.DLOAD, where the host holds no line of its source. -/
def execSyDload (d : TrussId) (data : LineData) (s : State) : Host.Outcome State Fault Refusal :=
  waitRecall s (syDload d data s)

/-- SY.ALAT (R227). -/
def execSyAlat (d : TrussId) (s : State) : Host.Outcome State Fault Refusal :=
  inlineRun d 0x02 (fun s e => s.modTr d fun t =>
    let v := bits e.w0.toNat 6 24
    let x := t.alat.toNat
    { t with alat := BitVec.ofNat 48 (if e.m 0 then x % 0x1000000 + v * 0x1000000 else x / 0x1000000 * 0x1000000 + v) }) s

/-- Is every instruction of a queue complete (R229)? -/
def Truss.queueEmpty (t : Truss) (q : Nat) : Bool := (vget t.queues q []).isEmpty && t.issued.all (·.q ≠ q)

/-- SY.FENCE (R229). -/
def execSyFence (d : TrussId) (s : State) : Host.Outcome State Fault Refusal :=
  waitRecall s <|
  match s.inline d 0x03 with
  | none => .next s
  | some (e, s) =>
    if (List.range 7).all fun k => e.mod / 2 ^ k % 2 = 0 || (s.tr d).queueEmpty (k + 1) then .next (s.inlineDone d e)
    else .next s

/-- SY.SPADD (R230). -/
def execSySpadd (d : TrussId) (s : State) : Host.Outcome State Fault Refusal :=
  inlineRun d 0x04 (fun s e => s.addSpar d e.cr e.db) s

/-- SY.SPCLR (R231). -/
def execSySpclr (d : TrussId) (s : State) : Host.Outcome State Fault Refusal :=
  inlineRun d 0x05 (fun s e =>
    if e.cr = 0 then s else s.modTr d fun t => { t with spcnt := vmod t.spcnt e.cr fun _ => 0, progress := true }) s

/-- PC.SNAP (R279). -/
def execPcSnap (d : TrussId) (s : State) : Host.Outcome State Fault Refusal :=
  inlineRun d 0xA0 (fun s _ => if s.userEn then s.requestSnap else s.occ (16 + d) 7) s

/-- PC.FREEZE (R279, R521). -/
def execPcFreeze (d : TrussId) (s : State) : Host.Outcome State Fault Refusal :=
  inlineRun d 0xA1 (fun s e => if s.userEn then s.setFreeze (e.m 0) else s.occ (16 + d) 7) s

/-- PC.MARK (R280). -/
def execPcMark (d : TrussId) (s : State) : Host.Outcome State Fault Refusal :=
  inlineRun d 0xA2 (fun s e => s.raise 0x282 (16 + d) (e.db + 0x1000 * d.val)) s

/-- What SETP writes (R281): a share mask or a weight, whose value 0 clamps to 1; spar 0 has no field. -/
def State.setp (s : State) (d : Nat) (e : QEntry) : State :=
  let v := e.db % 16
  if e.m 0 then s.setField (16 + d) (0x60 + 4 * ((e.cr - 56) / 4)) (4 * (e.cr % 4)) 4 v
  else if e.cr = 0 then s
  else s.setField (16 + d) (0x80 + 4 * (e.cr / 4)) (4 * (e.cr % 4)) 4 (max 1 v)

/-- SETP (R281): the value takes effect in the next Truss cycle, so its own signal still uses the old one. -/
def execSetp (d : TrussId) (s : State) : Host.Outcome State Fault Refusal :=
  waitRecall s <|
  match s.inline d 0xF0 with
  | none => .next s
  | some (e, s) => .next ((s.inlineDone d e).setp d e)

/-- TRAP (R282): it takes its waits, halts with SOFTWARE and does not signal. -/
def execTrap (d : TrussId) (s : State) : Host.Outcome State Fault Refusal :=
  waitRecall s <|
  match s.inline d 0xF1 with
  | none => .next s
  | some (e, s) => .next ((s.trap d .software { e.at 0 with code := e.db }).release d)

/-- SYS.STOP (R283). -/
def execSysStop (d : TrussId) (s : State) : Host.Outcome State Fault Refusal :=
  inlineRun d 0xF2 (fun s _ => s.modTr d fun t => { t with run := false }) s

/-! ### Completion and spar messages -/

/-- The oldest issued instruction of a queue completes, if it has reached its completion point (R183, R184): its trap, if any,
is taken, and its signal applied (R253). -/
def execInstructionComplete (d : TrussId) (q : Fin 8) (s : State) : Host.Outcome State Fault Refusal :=
  waitRecall s <|
  match (s.tr d).oldest q with
  | none => .next s
  | some i =>
    if !i.done then .next s else
    let s := s.modTr d fun t => { t with issued := t.issued.filter (·.e.seq ≠ i.e.seq), turn := none }
    let s := match i.trap with | some c => s.trap d c (i.e.at q) | none => s
    .next (s.signal d i.e.sg)

/-- The oldest shared-spar signal from one Truss arrives at another (R188, R191). -/
def execSparSignalArrive (src dst : TrussId) (s : State) : Host.Outcome State Fault Refusal :=
  waitRecall s <|
  let here (x : SparSig) : Bool := x.src = src.val && x.dst = dst.val
  match s.spars.find? here with
  | none => .next s
  | some x => .next ({ s with spars := s.spars.eraseP here }.addSpar dst x.spar x.weight)

/-! ### Abort, stash reset, watchdog -/

/-- The stash settings that the registers hold (R317). -/
def State.stashRegs (s : State) (d : Nat) : Stash :=
  let r (o : Nat) : Nat := (s.regRaw (16 + d) o).toNat
  { range := r 0x308 * 0x200000 + r 0x30C * 0x2000000000, rpages := r 0x310,
    pool := r 0x314 * 0x200000 + r 0x318 * 0x2000000000, ppages := r 0x31C,
    spill := r 0x320 * 0x200000 + r 0x324 * 0x2000000000, quota := r 0x328, nospill := (s.cfg (16 + d) 0x304).getLsbD 0 }

/-- Order 3 of an abort (R202), once every issued instruction, in-line ones included, and every started visit has completed. The trap registers hold the first
trap after the last abort (R201), so they read no trap. -/
def execAbortComplete (d : TrussId) (s : State) : Host.Outcome State Fault Refusal :=
  let t := s.tr d
  if !t.aborting || !t.issued.isEmpty || t.decTaken.isSome || t.valley.any (·.visiting.isSome) then .next s else
  let head := min (s.regRaw (16 + d) 0x30).toNat (t.ringSize - 1)
  .next ((s.modTr d fun t =>
    { t with spcnt := Vector.replicate 64 0, head, avail := 0, word := 0, fbuf := [], trapped := false, multi := false,
             valley := [], vqDrain := false, aborting := false, run := false, trap := {}, idle := 0, progress := true }).modCommit fun c =>
    { c with aborted := if c.aborted.contains d.val then c.aborted else d.val :: c.aborted })

/-- The oldest of them. -/
def oldestOf (l : List (Nat × QEntry)) : Option (Nat × QEntry) :=
  l.foldl (fun (b : Option (Nat × QEntry)) x =>
    match b with
    | some y => if x.2.seq < y.2.seq then some x else b
    | none => some x) none

/-- WAIT_TIMEOUT against the oldest waiting instruction (R204); where it skips, the instruction leaves without taking its waits
and signals (R199). -/
def State.waitTimeout (s : State) (d : Nat) : State :=
  match oldestOf (s.waiting d) with
  | none => s
  | some (q, e) =>
    let t := s.tr d
    let spar := if e.wa ≠ 0 && t.spar e.wa < (if e.wa = e.wb then 2 else 1) then e.wa else e.wb
    let skip := t.skips .waitTimeout
    let s := s.trap d .waitTimeout { e.at q with spar }
    if !skip then s
    else if q = 0 then (s.decoded d e).signal d e.sg
    else (s.modTr d fun t => { t with queues := vmod t.queues q List.tail, progress := true }).signal d e.sg

/-- A watchdog tick (R204), which is also a control boundary (R195). -/
def execWatchdogTick (d : TrussId) (s : State) : Host.Outcome State Fault Refusal :=
  waitRecall s <|
  if !s.isLive (16 + d) then .next s else
  let s := (s.trussBoundary d).markUrgent d
  let t := s.tr d
  let idle := !t.progress && !(s.waiting d).isEmpty
  let n := if idle then t.idle + 1 else 0
  let s := s.modTr d fun t => { t with idle := n, progress := false }
  if t.wdog ≠ 0 && idle && t.wdog ≤ n then .next ((s.modTr d fun t => { t with idle := 0 }).waitTimeout d) else .next s

end Sys2Proof.Machine
end

