-- ==== Sys2Proof/Machine/Array.lean ====
section
/-! DEFINITION. The great arrays (chapters 2, 4 and 7): tiles, the fold, loads, swaps and runs, pending changes and recuts. -/
namespace Sys2Proof.Machine

/-! ### Tiles -/

/-- The K span of a course of an edge (R45). -/
def kSpan (fmt edge : Nat) : Nat := if fmt = 4 then 2 * edge else edge

/-- The K span of a slate (R107). -/
def groupLen (fmt : Nat) : Nat := if fmt = 4 then 64 else 32

/-- The product class with the further pairing limits of R46; codes that are no array operand have none. -/
def pairClass (fmt : Nat) : Option Nat :=
  match fmt with
  | 0 | 1 => some 0 | 2 | 3 => some 1 | 4 => some 2 | 5 | 6 => some 3 | 7 => some 4 | _ => none

/-- May the formats meet in one product (R46)? -/
def pairs (a b : Nat) : Bool := (pairClass a).isSome && pairClass a = pairClass b

/-- An array operand's formats and the drain output formats (R103). -/
def arrayFmt (f : Nat) : Bool := f ≤ 7
def drainFmt (f : Nat) : Bool := 5 ≤ f && f ≤ 9

/-- What a bank records of tile `kt`, `nt` of a stationary view (R232). -/
def tileAt (x : Desc) (tr : Bool) (kt nt : Nat) : Bank :=
  { kt, nt, kw := x.rowsT tr, nw := x.colsT tr, fmt := x.fmt, orient := tr }

/-- Tile `t` of a stationary view cut at an edge (R232). -/
def tileBank (x : Desc) (tr : Bool) (edge t : Nat) : Bank :=
  let n := (x.colsT tr + edge - 1) / edge
  tileAt x tr (t / n) (t % n)

/-- The K range and the N range of a tile that hold real elements (R232). -/
def Bank.kRange (b : Bank) (edge : Nat) : Nat × Nat :=
  let ks := kSpan b.fmt edge
  (min b.kw (b.kt * ks), min b.kw (b.kt * ks + ks))
def Bank.nRange (b : Bank) (edge : Nat) : Nat × Nat := (min b.nw (b.nt * edge), min b.nw (b.nt * edge + edge))

/-- The bytes that loading a tile reads. -/
def tileSpans (x : Desc) (tr : Bool) (b : Bank) (edge : Nat) : List Span :=
  let (k0, k1) := b.kRange edge
  let (n0, n1) := b.nRange edge
  x.spansT tr k0 k1 n0 n1

/-- The tile's contents: for each real column its values down K (R89, R92, R233). -/
def State.tileData (s : State) (x : Desc) (tr : Bool) (b : Bank) (edge : Nat) : List (List Num) :=
  let (k0, k1) := b.kRange edge
  let (n0, n1) := b.nRange edge
  (List.range (n1 - n0)).map fun n => (List.range (k1 - k0)).map fun k => s.valueT x tr (k0 + k) (n0 + n)

/-! ### The fold (R107 to R114, R237) -/

/-- The groups of [k0, k1): first index and one past the last. -/
def groupsOf (q k0 k1 : Nat) : List (Nat × Nat) :=
  (List.range ((k1 - k0 + q - 1) / q)).map fun j => (k0 + q * j, min k1 (k0 + q * j + q))

/-- Does a group end a chunk of a product of contraction `kc` (R237)? -/
def endsChunk (kc : Nat) (g : Nat × Nat) : Bool := g.2 = kc || g.2 % 65536 = 0

/-- The running sum and the spill total of one output element. -/
structure Acc where
  r     : Num := Num.zero
  total : Num := Num.zero
deriving DecidableEq, Repr

/-- A group sum (R107, R108): one rounding of the exact sum of exact products. -/
def groupSum (l : List Num) : Num := rneZ40 (Num.sum l)

/-- One group joins the running sum (R110); at a chunk end the partial joins the spill total (R113). -/
def Acc.step (spill : Nat → Num → Num → Num) (kc : Nat) (a : Acc) (g : Nat × Nat) (sum : Num) : Acc :=
  let r := rneZ40 (a.r.add sum)
  if endsChunk kc g then
    let c := (g.2 - 1) / 65536
    { r := Num.zero, total := if c = 0 then r else spill c a.total r }
  else { a with r }

/-- The spill-add of chunk `c` into element (m, n) (R113, R119). -/
def spillAdd (seed : Word64) (x : Desc) (m n c : Nat) (t p : Num) : Num :=
  srZ40 (genU seed (BitVec.ofNat 24 x.tid) (BitVec.ofNat 40 (x.index m n)) (BitVec.ofNat 16 c)) (t.add p)

/-! ### The bank of a run -/

/-- Is a run accepted now on a course bound to the shadow bank: a swap waits or the course swaps by itself, and the bank holds a
foreground tile or a load of it is outstanding (R48, R65, R235)? -/
def Ga.bindsShadow (g : Ga) (c : Nat) : Bool :=
  (g.swapOn c || g.autoswap) && ((g.course c).load.isSome || (g.course c).fgShadow)

/-- The bank that a run accepted now on a course will use: a foreground tile of the shadow bank or the one its load brings, where it
binds that bank; else the live bank, which a swap of every course leaves to a course without a load (R235). -/
def Ga.boundBank (g : Ga) (c : Nat) : Option Bank :=
  let k := g.course c
  if g.bindsShadow c then
    if k.fgShadow then some k.shadow else k.load.map (·.bank)
  else if k.live.valid then some k.live else none

/-- The waiting runs of a course that are bound to its live bank (R65). -/
def Ga.liveRuns (g : Ga) (c : Nat) : List RunReq := (g.runsOn c).filter fun r => !r.toShadow

/-! ### Running a tile -/

/-- What a run is made of: its flags, its views, its orientation, whether it is seeded, its row window and the rounding seed. -/
structure TileRun where
  /-- Did the instruction carry MO? -/
  mo    : Bool
  mov   : Desc
  dst   : Desc
  part  : Desc
  total : Desc
  tr    : Bool
  seeded : Bool
  rows  : Nat × Nat
  seed  : Word64
deriving DecidableEq, Repr

/-- The geometry of a run on a bank (R236, R237): contraction, K range of the tile, group length, columns. -/
structure TileGeo where
  kc  : Nat
  k0  : Nat
  k1  : Nat
  kEnd : Nat
  q   : Nat
  n0  : Nat
  n1  : Nat
deriving DecidableEq, Repr

def tileGeo (b : Bank) (edge kx : Nat) : TileGeo :=
  let ks := kSpan b.fmt edge
  let kc := min b.kw kx
  let k0 := b.kt * ks
  { kc, k0, k1 := min kc (k0 + ks), kEnd := k0 + ks, q := groupLen b.fmt, n0 := b.nt * edge, n1 := min b.nw (b.nt * edge + edge) }

/-- The tile that holds the last K index (R237). -/
def TileGeo.last (t : TileGeo) : Bool := t.k0 < t.kc && t.kc ≤ t.kEnd
def TileGeo.groups (t : TileGeo) : List (Nat × Nat) := groupsOf t.q t.k0 t.k1
/-- The tile ends on a chunk end. -/
def TileGeo.closed (t : TileGeo) : Bool := t.k0 < t.k1 && endsChunk t.kc (t.k0, t.k1)
/-- Is the running sum written to the partial view? -/
def TileGeo.writesPart (t : TileGeo) : Bool := !t.last && !t.closed
/-- Is the spill total written: a chunk below the last closes in this tile? -/
def TileGeo.writesTotal (t : TileGeo) : Bool :=
  t.groups.any fun g => endsChunk t.kc g && decide ((g.2 - 1) / 65536 < (t.kc - 1) / 65536)
/-- Is the spill total read: a chunk above 0 closes? -/
def TileGeo.readsTotal (t : TileGeo) : Bool :=
  65536 < t.kc && t.groups.any fun g => endsChunk t.kc g && decide (65536 < g.2)
/-- Is the partial view read? -/
def TileGeo.readsPart (t : TileGeo) (seeded : Bool) : Bool := seeded && t.k0 % 65536 ≠ 0

/-- The final sums of element (m, n) in this tile. -/
def State.accAt (s : State) (b : Bank) (t : TileGeo) (x : TileRun) (m n : Nat) : Acc :=
  let col := b.data.getD (n - t.n0) []
  t.groups.foldl (fun a g =>
    a.step (spillAdd x.seed x.dst m n) t.kc g
      (groupSum ((List.range (g.2 - g.1)).map fun j =>
        (s.valueT x.mov x.tr m (g.1 + j)).mul (col.getD (g.1 + j - t.k0) Num.zero))))
    { r := if t.readsPart x.seeded then s.value x.part m n else Num.zero,
      total := if t.readsTotal then s.value x.total m n else Num.zero }

/-- The bytes a run reads, and the bytes of the blocks it writes. -/
def TileRun.reads (x : TileRun) (t : TileGeo) : List Span :=
  let r1 := min x.rows.2 x.dst.rows
  let n1 := min t.n1 x.dst.cols
  x.mov.spansT x.tr x.rows.1 x.rows.2 t.k0 (min t.kEnd (x.mov.colsT x.tr)) ++
  (if t.readsPart x.seeded then x.part.spans x.rows.1 r1 t.n0 n1 else []) ++
  (if t.readsTotal then x.total.spans x.rows.1 r1 t.n0 n1 else [])
def TileRun.writes (x : TileRun) (t : TileGeo) : List Span :=
  let r1 := min x.rows.2 x.dst.rows
  let n1 := min t.n1 x.dst.cols
  (if t.last then x.dst.blockSpans x.rows.1 r1 t.n0 n1 else []) ++
  (if t.writesPart then x.part.blockSpans x.rows.1 r1 t.n0 n1 else []) ++
  (if t.writesTotal then x.total.blockSpans x.rows.1 r1 t.n0 n1 else [])

/-- Is the partial view the destination itself (R237)? -/
def TileRun.inPlace (x : TileRun) : Bool := x.part == x.dst

/-- The bytes that the rows [r0, r1) of a run write in its destination, its partial and its total view. -/
def TileRun.written (x : TileRun) (t : TileGeo) (r0 r1 : Nat) : List Span × List Span × List Span :=
  let r1 := min r1 x.dst.rows
  let w (d : Desc) : List Span := d.writtenSpans r0 r1 t.n0 (min t.n1 x.dst.cols)
  (if t.last then w x.dst else [], if t.writesPart then w x.part else [], if t.writesTotal then w x.total else [])

/-- The bytes both read and written become undefined (R223): the moving view against all that is written, the partial and the total
view each against the other views; a view in place with itself stands (R237). `recs` are the record bytes that the run writes. -/
def State.smearRun (s : State) (x : TileRun) (t : TileGeo) (r0 r1 : Nat) (recs : List Span) : State :=
  let (wd, wp, wt) := x.written t r0 r1
  let rows := min r1 x.dst.rows
  let n1 := min t.n1 x.dst.cols
  let s := s.smear (x.mov.spansT x.tr r0 r1 t.k0 (min t.kEnd (x.mov.colsT x.tr))) (wd ++ wp ++ wt ++ recs)
  let s := s.smear recs (wd ++ wp ++ wt)
  let s := if t.readsPart x.seeded then s.smear (x.part.destSpans r0 rows t.n0 n1) ((if x.inPlace then [] else wd) ++ wt ++ recs) else s
  if t.readsTotal then s.smear (x.total.destSpans r0 rows t.n0 n1) (wd ++ wp ++ recs) else s

/-- The bytes of the elements that a run of a tile gives. -/
def TileRun.dest (x : TileRun) (t : TileGeo) : List Span :=
  let r1 := min x.rows.2 x.dst.rows
  let n1 := min t.n1 x.dst.cols
  (if t.last then x.dst.destSpans x.rows.1 r1 t.n0 n1 else []) ++ (if t.writesPart then x.part.destSpans x.rows.1 r1 t.n0 n1 else []) ++
  (if t.writesTotal then x.total.destSpans x.rows.1 r1 t.n0 n1 else [])

/-- The max record as bytes that a merge reads and writes. -/
def Desc.maxSpan (x : Desc) : List Span := if x.maxrec = 0 then [] else [{ a := x.maxrec, n := 64 }]

/-- A read in the cycle of a collision returns undefined data (R305): the state whose word at `a` holds a free value, which is
only read from. -/
def State.collided (s : State) (a : Nat) : State × State :=
  let (v, s) := s.drawFree
  (s, s.write (a / 8 * 8) (leBytes (v % 2 ^ 64) 8))

/-- A same-word collision in a store (R305). -/
def State.collide (s : State) (a : Nat) : State :=
  let r := (placeOf a).region
  let (off, item) := match r with | .gutter _ => (0xF00, 30) | _ => (0x10, 5)
  ((s.orReg r.dom off 4).occ r.dom item).raiseOnce r.dom 0x2C2 r.dom (a / 8 * 8) r.dom

/-- A store address. -/
def Region.isStore : Region → Bool
  | .array _ | .ridge _ | .gutter _ => true
  | _ => false

/-- Does the collision a run meets concern a word of an operand it reads from a store? -/
def hitsSpans (l : List Span) (a : Nat) : Bool :=
  (placeOf a).region.isStore && l.any fun x => x.a < a / 8 * 8 + 8 && a / 8 * 8 < x.a + x.n

/-- A live-bank parity error (R71). One that falls in the same cycle as the last one of another course joins it (R72): the lower
course number stays recorded and no second event is raised. -/
def State.parityError (s : State) (i c : Nat) (same : Bool) : State :=
  let last := (s.gaAt i).parLast
  let joins := same && last.any (· ≠ c)
  let low := if joins then min c (last.getD c) else c
  let s := (((((s.orReg i 0xC 1).setField i 0xC 1 6 low).modCourse i c fun k => { k with parity := true }).modGa i fun g =>
    { g with parLast := some low }).occ i 0)
  if joins then s else s.raise 0x210 i c

/-- Write the results of rows [r0, r1) (R236, R237); from row `bad` on they are the not-a-number of the format (R71). The final
results are measured (R238), unless the instruction ends in a trap or the record cannot be written (`late`, R253). -/
def State.drain (s view : State) (i : Nat) (b : Bank) (t : TileGeo) (x : TileRun) (r0 r1 bad : Nat) (late : Bool) : State :=
  let n1 := min t.n1 x.dst.cols
  let accs := (List.range (r1 - r0)).map fun m => (List.range (n1 - t.n0)).map fun n => view.accAt b t x (r0 + m) (t.n0 + n)
  let acc (m n : Nat) : Acc := (accs.getD (m - r0) []).getD (n - t.n0) {}
  let z (m : Nat) (v : Num) : Option Nat := some (if bad ≤ m then Layout.z40.nanCode else toZ40 v)
  let code (m n : Nat) : Nat :=
    if bad ≤ m then (layoutOf x.dst.fmt).nanCode else (convertTo x.dst x.dst.sexp .rne (acc m n).total).code
  let e := min r1 x.dst.rows
  let s := if t.writesPart then s.writeView x.part r0 e t.n0 n1 fun m n => z m (acc m n).r else s
  let s := if t.writesTotal then s.writeView x.total r0 e t.n0 n1 fun m n => z m (acc m n).total else s
  let s := if t.last then s.writeView x.dst r0 e t.n0 n1 fun m n => some (code m n) else s
  let vals := (List.range (e - r0)).flatMap fun m => (List.range (n1 - t.n0)).map fun n =>
    measured x.dst.fmt x.dst.sexp 0 (code (r0 + m) (t.n0 + n))
  (if t.last && !late then s.measure i x.dst false (statsOf vals) else s).smearRun x t r0 r1
    (if late then [] else if x.mo then x.dst.recSpans false else if t.last then x.dst.maxSpan else [])

/-- Does a course hold work: an accepted load, or an operation that waits? -/
def Ga.working (g : Ga) (c : Nat) : Bool := (g.course c).load.isSome || g.ops.any (·.covers (coursesOf g.cut) c)

/-- Does a swap of the course wait: an MM.SWAP, or the automatic one that a run bound to the shadow bank needs (R65)? -/
def Ga.swapWaits (g : Ga) (c : Nat) : Bool := g.swapOn c || (g.runsOn c).any (·.toShadow)

/-- The cause of one course in a cycle in which it does not inject, by the ranks of R69; `bubble` is set where the PWRC removes the
slot. A course that the parity policy has halted counts so whatever waits on it (R71). A load that has not begun waits on data from the array store (WEIGHT_WINDOW_LATE), one that has begun has its data present
(SWAP_GAP, R158); a load that no swap waits for is charged alike (log entry 49). -/
def Ga.courseCause (g : Ga) (bubble : Bool) (c : Nat) : Nat :=
  let halted := (g.course c).halted
  if (g.working c || halted) && bubble then 1
  else if halted then 2
  else if !g.working c then 9
  else if g.recut || g.pending then 3
  else if (g.course c).load.any (fun l => !l.began) then 4
  else 5

/-- Add to a counter, and raise EV_PC_SAT where that is due. -/
def State.tallyIf (s : State) (key n : Nat) : State := if n = 0 then s else s.tally key n

/-- Beats per moving vector (R45). -/
def beatsOf (fmt : Nat) : Nat := if fmt ≤ 4 then 1 else if fmt = 7 then 8 else 2

/-- Is the island stretched (R481)? -/
def State.stretched (s : State) (dom : Nat) : Bool := vget s.pwrc.stretch dom false

/-- Is cycle `j` of an array a bubble (R473), by the count that has reached the arrays? In hold every slot is removed (R486). -/
def Pwrc.bubbleAt (p : Pwrc) (j : Nat) : Bool :=
  p.hold || decide (j % 256 * p.arr / 256 < (j % 256 + 1) * p.arr / 256)

/-- The bubbles among the cycles from place `j` on in which `left` beats are injected (R473); `fuel` bounds the cycles tried. -/
def Pwrc.bubblesIn (p : Pwrc) : Nat → Nat → Nat → Nat
  | 0, _, _ => 0
  | _, _, 0 => 0
  | fuel + 1, j, left + 1 => if p.bubbleAt j then p.bubblesIn fuel (j + 1) (left + 1) + 1 else p.bubblesIn fuel (j + 1) left

/-- The bubbles that `n` beats meet: whole runs of 256 cycles carry 256 - n beats each, the rest is counted cycle by cycle. -/
def Pwrc.bubblesFor (p : Pwrc) (j n : Nat) : Nat :=
  if p.arr = 0 then 0 else n / (256 - p.arr) * p.arr + p.bubblesIn 512 j (n % (256 - p.arr))

/-- `n` cycles of GA[i] of one kind: the slots of the four counters (R525), the cause (R69), CYC, and the cycles of a stretched island
(R481). -/
def State.arrayCycles (s : State) (i cause n : Nat) (slots : Nat × Nat × Nat × Nat) : State :=
  if n = 0 then s else
  let s := (s.modGa i fun g => { g with last := cause, place := g.place + BitVec.ofNat 8 n })
  let s := if s.stretched i then s.common i 0 n else s
  if s.ctr.frozen then s else
  (((((s.tallyIf (keySlot i 0) (n * slots.1)).tallyIf (keySlot i 1) (n * slots.2.1)).tallyIf (keySlot i 2) (n * slots.2.2.1)).tallyIf
    (keySlot i 3) (n * slots.2.2.2)).charge i 0 cause n).tally (keyCyc i) n

/-- The cycles in which a course injects `n` beats over its live tile (R525): slates with a real K row and a real output column, the other
slates of the course, and those of the other courses by their causes. The array's cause is the highest-ranked one of the other courses
that hold work, else ISSUE; cycles of a fill visit are ISSUE cycles (R69, R158). Among them fall the bubbles of the PWRC, whose slots
every course that holds work loses (R473). -/
def State.injected (s : State) (i c : Nat) (t : TileGeo) (fill : Bool) (n : Nat) : State :=
  let g := s.gaAt i
  let side := edgeOf g.cut / 32
  let per := side * side
  let real := min side ((t.k1 - t.k0 + t.q - 1) / t.q) * min side ((t.n1 - t.n0 + 31) / 32)
  let others := (g.all.filter (· ≠ c)).map (g.courseCause false)
  let back := (others.filter fun x => x = 2 || x = 8).length * per
  let lost := (((g.all.filter (· ≠ c)).filter fun k => g.courseCause true k = 1).length + 1) * per
  let low := others.foldl min 9
  let bubbles := s.pwrc.bubblesFor g.place.toNat n
  (s.arrayCycles i 1 bubbles (0, 0, 576 - lost, lost)).arrayCycles i (if fill || low = 9 then 0 else low) n
    (real, per - real, 576 - per - back, back)

/-- Run the live tile of a course (R236 to R238), with the physical faults it meets; the trap its completion takes. A course
halted by the parity policy injects no more than a number of further vectors that the spec leaves open (R71), and its run writes no
record (R253). A collision with port 0 on a word that the run reads makes what it reads undefined; on a word that it writes, port 1's
bytes, the run's, stand (R305). Its beats are counted, those of a run that ends in a trap at completion among them (log entry 49). -/
def State.runTile (s : State) (i c : Nat) (x : TileRun) (f : RunFaults) (fill : Bool) : State × Option TrapCause :=
  if x.rows.2 ≤ x.rows.1 then (s, none) else
  let g := s.gaAt i
  let b := (g.course c).live
  let t := tileGeo b (edgeOf g.cut) (x.mov.colsT x.tr)
  match s.accessMove (.cd (i / 2)) (feederPlace (i / 2)) (x.reads t) (x.writes t) (if x.mo then x.dst.recSpans false else if t.last then x.dst.maxSpan else []) with
  | (s, some cause, _) =>
    ((s.spoil cause (x.dest t)).injected i c t fill ((x.rows.2 - x.rows.1) * beatsOf b.fmt), some cause)
  | (s, none, late) =>
    let (r0, r1) := x.rows
    let (wd, wp, wt) := x.written t r0 r1
    let s := match f.corr.filter (hitsSpans (x.reads t)) with | some a => s.memCorr a | none => s
    let (s, view) := match f.collide with
      | some a =>
        if hitsSpans (x.reads t) a then (let (s, v) := s.collided a; (s.collide a, v))
        else if hitsSpans (wd ++ wp ++ wt) a then (s.collide a, s) else (s, s)
      | none => (s, s)
    let beats (s : State) (e : Nat) : State := s.injected i c t fill ((e - r0) * beatsOf b.fmt)
    let bad0 := if (g.course c).parity then r0 else r1
    match f.parity.filter (fun v => r0 + v < r1) with
    | none => (beats (s.drain view i b t x r0 r1 bad0 late.isSome) r1, late)
    | some v =>
      let bad := min bad0 (r0 + v)
      let s := s.parityError i c f.same
      if g.parpol then
        let (n, s) := s.drawFree
        let stop := r0 + v + 1 + n % (r1 - r0 - v)
        ((beats (s.drain view i b t x r0 stop bad true) stop).modCourse i c fun k => { k with halted := true }, some .parityHalt)
      else (beats (s.drain view i b t x r0 r1 bad late.isSome) r1, late)

/-! ### Waiting operations -/

/-- An instruction in flight takes BANK_INVALID (R51, R65, R197). -/
def State.bankInvalid (s : State) (r : InsRef) : State :=
  match (s.tr r.d).issued.find? (·.e.seq = r.seq) with
  | some i => s.issueTrap r.d i.q i.e .bankInvalid
  | none => s

/-- A course swaps (R48): live and valid bit come from the shadow bank, which empties. -/
def State.swapCourse (s : State) (i c : Nat) : State :=
  (s.modCourse i c fun k => { k with live := k.shadow, shadow := {}, parity := false }).occ i 2

/-- The waiting runs of a course are bound to its live bank: the swap they waited for has come, or leaves them there. -/
def Ga.landed (g : Ga) (c : Nat) : Ga :=
  { g with ops := g.ops.map fun o => match o with
      | .run k r => if k = c then .run k { r with toShadow := false } else .run k r
      | o => o }

/-- A foreground swap of a course (R48, R65): what waited for it now uses the live bank. -/
def State.swapFore (s : State) (i c : Nat) : State := (s.swapCourse i c).modGa i (·.landed c)

/-- May a waiting operation act, given those that wait before it (R48, R51, R54, R65, R235)? -/
def Ga.opReady (g : Ga) (before : List ArrOp) (o : ArrOp) : Bool :=
  let n := coursesOf g.cut
  !g.recut &&
  match o with
  | .swap _ c =>
    let k := g.course c
    !before.any (·.covers n c) && k.load.isNone && (k.fgShadow || k.failed || !g.held)
  | .swapAll _ =>
    before.isEmpty && g.all.all (fun c => (g.course c).load.isNone) &&
      (g.all.any (fun c => (g.course c).fgShadow || (g.course c).failed) || !g.held)
  | .run c r =>
    !before.any (·.covers n c) && !(g.course c).halted && !(g.autoswap && r.toShadow)

/-- The run that a request makes. -/
def RunReq.tileRun (r : RunReq) : TileRun :=
  let mov := Desc.ofWords r.mov
  { mo := r.e.m 3, mov, dst := Desc.ofWords r.dst, part := Desc.ofWords r.part, total := Desc.ofWords r.total, tr := r.e.m 1,
    seeded := r.e.m 2, rows := r.e.window (mov.rowsT (r.e.m 1)), seed := r.seed }

/-- The swap of a course whose load failed (R51): it swaps nothing, and the live valid bit is cleared from its slot. -/
def State.swapFailed (s : State) (i c : Nat) : State :=
  (s.modCourse i c fun k => { k with live := { k.live with valid := false }, failed := false }).modGa i (·.landed c)

/-- A waiting operation acts. A swap that finds neither a tile nor a failed load takes BANK_INVALID and leaves the live bank (R51,
R55); a swap of every course takes each course for itself (R235). -/
def State.fire (s : State) (i : Nat) : ArrOp → State
  | .swap ins c =>
    let k := (s.gaAt i).course c
    if k.failed then (s.swapFailed i c).bankInvalid ins
    else if k.fgShadow then (s.swapFore i c).finishRef ins
    else (s.modGa i (·.landed c)).bankInvalid ins
  | .swapAll ins =>
    let g := s.gaAt i
    let s' := s.each g.all fun s c =>
      if (g.course c).failed then s.swapFailed i c
      else if (g.course c).fgShadow then s.swapFore i c
      else s.modGa i (·.landed c)
    if g.all.any fun c => (g.course c).fgShadow then s'.finishRef ins else s'.bankInvalid ins
  | .run c r =>
    if ((s.gaAt i).course c).live.valid then
      let (s, trap) := s.runTile i c r.tileRun r.faults false
      s.finishRef r.ins trap
    else s.bankInvalid r.ins

/-- The first operation that may act, and the others. -/
def splitReady (ready : List ArrOp → ArrOp → Bool) (before : List ArrOp) : List ArrOp → Option (ArrOp × List ArrOp)
  | [] => none
  | o :: rest => if ready before o then some (o, before ++ rest) else splitReady ready (before ++ [o]) rest

/-- Let waiting operations act, at most `n` of them. -/
def State.drive (s : State) (i : Nat) : Nat → State
  | 0 => s
  | n + 1 =>
    match splitReady (s.gaAt i).opReady [] (s.gaAt i).ops with
    | none => s
    | some (o, rest) => ((s.modGa i fun g => { g with ops := rest }).fire i o).drive i n

/-- Let every operation that may act do so; in hold every array slot is removed (R486 order 2). -/
def State.settle (s : State) (i : Nat) : State := if s.pwrc.hold then s else s.drive i (s.gaAt i).ops.length

/-- Put an operation behind the others of an array. -/
def State.enqueue (s : State) (i : Nat) (o : ArrOp) : State := (s.modGa i fun g => { g with ops := g.ops ++ [o] }).settle i

/-! ### Shadow loads -/

/-- The visits of some entries return to the front of their entries (R155); while the Truss ends an abort such an entry has no started
visit and is discarded (R202). -/
def Truss.unvisit (t : Truss) (p : VEntry → Bool) : Truss :=
  { t with valley := (t.valley.map fun v => if p v then { v with visiting := none } else v).filter fun v =>
      !t.aborting || v.visiting.isSome }

/-- A fill tile in the shadow bank of a course is dropped (R155). -/
def State.dropFill (s : State) (i c : Nat) : State :=
  match ((s.gaAt i).course c).shadow.fill with
  | none => s
  | some r =>
    ((s.modCourse i c fun k => { k with shadow := {} }).modTr r.d (·.unvisit fun v => v.e.seq = r.seq)).occ (16 + r.d) 5

/-- A foreground shadow load begins (R49, R155): its data are read, and a fill tile in its way is dropped. -/
def State.beginLoad (s : State) (i c : Nat) (l : Load) : State :=
  let s := s.dropFill i c
  let x := Desc.ofWords l.stat
  let tr := l.e.m 3
  let (s, trap) := s.access (.cd (i / 2)) (feederPlace (i / 2)) (tileSpans x tr l.bank (edgeOf l.edge)) []
  let bank := { l.bank with data := s.tileData x tr l.bank (edgeOf l.edge) }
  s.modCourse i c fun k => { k with load := some { l with began := true, bank, trap } }

/-- The load of a course does not come about: the course holds none, and under AUTOSWAP the runs bound to its shadow bank take
BANK_INVALID (R65). -/
def State.loadGone (s : State) (i c : Nat) : State :=
  let g := s.gaAt i
  let s := s.modCourse i c fun k => { k with load := none, shadow := {} }
  if g.autoswap then
    (s.modGa i fun g => { g with ops := g.ops.filter fun o => match o with | .run k r => k ≠ c || !r.toShadow | _ => true }).each
      ((g.runsOn c).filter (·.toShadow)) fun s r => s.bankInvalid r.ins
  else s

/-- A load ends with ADDRESS or DATA_ERROR (R51): a swap that waits for it will swap nothing on this course and clear its live valid
bit. -/
def State.loadFails (s : State) (i c : Nat) : State :=
  let waits := (s.gaAt i).swapOn c
  (s.modCourse i c fun k => { k with failed := k.failed || waits }).loadGone i c

/-- A held or waiting load begins. -/
def execShadowLoadBegin (i : ArrayId) (c : Fin 36) (s : State) : Host.Outcome State Fault Refusal :=
  waitRecall s <|
  let g := s.gaAt i
  match (g.course c).load with
  | none => .next s
  | some l => .next (if l.began || g.held then s else s.beginLoad i c l)

/-- An instruction in flight takes a trap of its completion now. -/
def State.trapRef (s : State) (r : InsRef) (c : TrapCause) : State :=
  match (s.tr r.d).issued.find? (·.e.seq = r.seq) with
  | some i => s.trap r.d c (i.e.at i.q)
  | none => s

/-- A load in progress ends (R44, R51): the shadow bank becomes valid, or stays not valid where the load traps. That trap comes
before the BANK_INVALID of a swap that waited for the load. -/
def execShadowLoadEnd (i : ArrayId) (c : Fin 36) (s : State) : Host.Outcome State Fault Refusal :=
  waitRecall s <|
  match ((s.gaAt i).course c).load with
  | none => .next s
  | some l =>
    if !l.began then .next s else
    let s := match l.trap with
      | some cause => (s.trapRef l.ins cause).loadFails i c
      | none => s.modCourse i c fun k => { k with load := none, shadow := { l.bank with valid := true } }
    .next ((s.finishRef l.ins none).settle i)

/-! ### Pending changes and recuts -/

/-- The settings that a drain boundary installs (R54): those the registers ask for. At the expert level the cut is GA.XCFG.CUT (R57)
and at the basic level under ROLLOUT it is 128 (R56), whatever edge an MM.LOADW named; at the basic level under TRAIN it is the edge
that an MM.LOADW requested, else the one that an urgent valley entry asks for (R156). -/
def State.gaTarget (s : State) (i : Nat) : Ga → Ga := fun g =>
  let expert := s.level i 0
  let rollout := bits (s.cfg i 0).toNat 1 2 = 1
  let x := (s.cfg i 4).toNat
  let cut := if expert then bits x 0 2 else if rollout then 3 else g.pendEdge.getD (g.pendFill.getD g.cut)
  { g with expert, rollout, cut, autoswap := if expert then bits x 2 1 = 1 else rollout,
           arb := expert && bits x 3 1 = 1, parpol := expert && bits x 4 1 = 1 }

/-- Do the registers hold a field that differs from the value in force (R54)? -/
def State.gaDiffers (s : State) (i : Nat) : Bool :=
  let g := { s.gaAt i with pendEdge := none, pendFill := none, pendCsr := true }
  let t := s.gaTarget i g
  let x := (s.cfg i 4).toNat
  decide (t.expert ≠ g.expert) || decide (t.rollout ≠ g.rollout) ||
    (t.expert && (decide (bits x 0 2 ≠ g.cut) || decide (t.autoswap ≠ g.autoswap) || decide (t.arb ≠ g.arb) ||
      decide (t.parpol ≠ g.parpol)))

/-- A write of GA.CFG or GA.XCFG leaves a change pending, or takes a pending one back (R54, R73). -/
def State.writeGa (s : State) (i : Nat) (r : Requester) (off : Nat) (data mask : Half) : State :=
  let s := s.regWrite r i off data mask
  let diff := s.gaDiffers i
  (s.modGa i fun g => { g with pendCsr := diff }).settle i

/-- GA.CFG or GA.XCFG is written. -/
def execGaCfgWrite (i : ArrayId) (r : Requester) (expert : Bool) (data mask : Half) (s : State) :
    Host.Outcome State Fault Refusal :=
  let off := if expert then 4 else 0
  waitRecall s <|
  let (s, ok) := s.reachBy r i off
  .next (if ok then s.writeGa i r off data mask else s)

/-- The loads accepted and not begun, oldest first. -/
def Ga.heldLoads (g : Ga) : List (Nat × Load) :=
  (((List.range 36).filterMap fun c => (g.course c).load.bind fun l => if l.began then none else some (c, l)).mergeSort
    fun a b => a.2.ins.seq ≤ b.2.ins.seq)

/-- Judge one held load by the settings now in force (R55): one that takes EDGE has read and written nothing, and a held swap of its
course then finds no load (R51). A held load of the cut now in force begins although an older one has just
requested a further recut: R55 lets it begin its load, R54 would hold it again (DESIGN CHOICE, log entry 20). -/
def State.resumeLoad (s : State) (i c : Nat) (l : Load) : State :=
  let g := s.gaAt i
  if l.edge = g.cut then s.beginLoad i c l
  else if !g.expert && !g.rollout then s.modGa i fun g => { g with pendEdge := some (g.pendEdge.getD l.edge) }
  else (s.loadGone i c).issueTrap l.ins.d (if i % 2 = 0 then 1 else 2) l.e .edge

/-- Held instructions resume in their order (R55). -/
def State.resume (s : State) (i : Nat) : State :=
  (s.each (s.gaAt i).heldLoads fun s p => s.resumeLoad i p.1 p.2).settle i

/-- Does a waiting swap of a course stand on a shadow bank that is valid or loading, or whose load has failed (R53)? -/
def Ga.swapStands (g : Ga) (c : Nat) : Bool := (g.course c).fgShadow || (g.course c).failed || (g.course c).load.any (·.began)

/-- Does a waiting operation keep the drain boundary away (R53)? Every accepted run does until it has injected, and a swap on a course
whose shadow bank is valid or loading until its slot, also where they wait for what comes after the boundary (log entry 20). -/
def Ga.keepsAway (g : Ga) : ArrOp → Bool
  | .swap _ c => g.swapStands c
  | .swapAll _ => g.all.any g.swapStands
  | .run _ _ => true

/-- Is the array at a drain boundary (R53)? Runs inject when they may, so no vector is in flight between commands. -/
def Ga.drained (g : Ga) : Bool :=
  ((List.range 36).all fun c => !((g.course c).load.any (·.began))) && !g.ops.any g.keepsAway

/-- Every bank of a course loses its contents (R55); a parity halt ends (R71). -/
def Course.cleared (k : Course) : Course := { k with live := {}, shadow := {}, parity := false, halted := false }

/-- Visits that had loaded a tile into an array's shadow banks return to the front of their entries. -/
def State.recallVisits (s : State) (i : Nat) : State :=
  s.modTr (i / 2) (·.unvisit fun v => v.bound == some (decide (i % 2 = 1)))

/-- A pending change meets its drain boundary (R54, R55): settings change, and a recut starts where the cut changes. -/
def execDrainBoundary (i : ArrayId) (s : State) : Host.Outcome State Fault Refusal :=
  waitRecall s <|
  let g := s.gaAt i
  if !g.pending || g.recut || !g.drained then .next s else
  let g' := { s.gaTarget i g with pendCsr := false, pendEdge := none, pendFill := none }
  if g'.cut = g.cut then .next ((s.modGa i fun _ => g').resume i)
  else
    .next (((s.modGa i fun _ => { g' with recut := true, courses := g'.courses.map Course.cleared }).recallVisits i).occ i 1)

/-- The recut is complete (R55). -/
def execRecutDone (i : ArrayId) (s : State) : Host.Outcome State Fault Refusal :=
  waitRecall s <|
  if (s.gaAt i).recut then .next ((s.modGa i fun g => { g with recut := false }).resume i) else .next s

/-- A course with AUTOSWAP set swaps (R65): its shadow bank is valid, and every vector of the runs bound to its live bank has been
injected. In hold the PWRC removes every slot (R486). -/
def execAutoswap (i : ArrayId) (c : Fin 36) (s : State) : Host.Outcome State Fault Refusal :=
  waitRecall s <|
  let g := s.gaAt i
  if g.autoswap && !g.recut && !s.pwrc.hold && (g.course c).fgShadow && !(g.course c).halted && (g.liveRuns c).isEmpty then
    .next ((s.swapFore i c).settle i)
  else .next s

/-! ### MM.LOADW, MM.SWAP, MM.RUN -/

/-- The trap EDGE of a named edge (R56, R57): at the basic level under TRAIN any edge stands. -/
def Ga.edgeBad (g : Ga) (edge : Nat) : Bool := if g.expert then edge ≠ g.cut else g.rollout && edge ≠ 3

/-- MM.LOADW (R232 to R234). -/
def execMmLoadw (d : TrussId) (a : LocalId) (s : State) : Host.Outcome State Fault Refusal :=
  waitRecall s <|
  let q := 1 + a.val
  let i := 2 * d.val + a.val
  match s.ready d q 0x10 with
  | none => .next s
  | some e =>
    let g := s.gaAt i
    let s := s.issue d q e
    let x := s.desc d e.da
    let edge := bits e.mod 1 2
    let trap := firstTrap [x.check arrayFmt, if isMx x.fmt && !e.m 3 then some .mxAxis else none,
                           if g.edgeBad edge then some .edge else none]
    match trap with
    | some c => .next (s.issueTrap d q e c)
    | none =>
      let l : Load := { ins := e.ref d, e, stat := (s.tr d).descWords e.da, edge,
                        bank := tileBank x (e.m 3) (edgeOf edge) (e.db + 4096 * e.hi 0 20) }
      let s := s.modCourse i e.cr fun k => { k with load := some l }
      .next (if edge = g.cut then s else s.modGa i fun g => { g with pendEdge := some (g.pendEdge.getD edge) })

/-- MM.SWAP (R235). A fill tile in a shadow bank is not the foreground's and counts as no valid bank (DESIGN CHOICE, log entry
70). -/
def execMmSwap (d : TrussId) (a : LocalId) (s : State) : Host.Outcome State Fault Refusal :=
  waitRecall s <|
  let q := 1 + a.val
  let i := 2 * d.val + a.val
  match s.ready d q 0x11 with
  | none => .next s
  | some e =>
    let g := s.gaAt i
    let all := e.m 1
    let l := if all then g.all else [e.cr]
    let s := s.issue d q e
    if g.autoswap then .next (s.finish d e.seq)
    else if !g.held && l.all (fun c => !(g.course c).fgShadow && (g.course c).load.isNone) then
      .next (s.issueTrap d q e .bankInvalid)
    else .next (s.enqueue i (if all then .swapAll (e.ref d) else .swap (e.ref d) e.cr))

/-- The check of a partial or total view (R237). -/
def Desc.checkZ40 (x dst : Desc) : Option TrapCause :=
  match x.check isZ40 with
  | some c => some c
  | none => if x.rows < dst.rows || x.cols < dst.cols then some .descFormat else none

/-- An instruction with MO opens the record when it issues (R224), where the record can be reached; it judges silence where the
silence record can be (R168). What cannot is ADDRESS at completion (R197). -/
def State.openAtIssue (s : State) (i : Nat) (x : Desc) (mo : Bool) : State :=
  let can (l : List Span) : Bool := spansIn Region.isMem l && l.all fun p => s.rangeOk p.a p.n
  if mo && can x.maxSpan then s.measure i (if can (x.recSpans false) then x else { x with silrec := 0 }) true {}
  else s

/-- The traps that an MM.RUN takes at issue (R238), on the bank it binds. The partial view is checked where this tile reads or writes
it: R237 names no condition, but a run of a whole contraction has no use of the descriptor beside its destination, and R220 lets
an index trap where its descriptor is required (DEDUCED, log entry 58). -/
def runTraps (g : Ga) (bank : Option Bank) (mov dst part total : Desc) (e : QEntry) : Option TrapCause :=
  let tr := e.m 1
  let w := e.window (mov.rowsT tr)
  let t := tileGeo (bank.getD {}) (edgeOf g.cut) (mov.colsT tr)
  firstTrap [
    mov.check arrayFmt, dst.check drainFmt,
    if bank.isSome && (t.writesPart || t.readsPart (e.m 2)) then part.checkZ40 dst else none,
    if bank.isSome && 65536 < t.kc then total.checkZ40 dst else none,
    if bank.any (fun b => !pairs mov.fmt b.fmt) then some .pairing else none,
    if isMx mov.fmt && tr then some .mxAxis else none,
    if 4294901760 < mov.colsT tr then some .kLimit else none,
    if g.rollout && 32 < w.2 - w.1 then some .edge else none,
    if bank.isNone then some .bankInvalid else none]

/-- The indices of the partial and the total view (R220, R237). -/
def partIdx (dst : Desc) (db : Nat) : Nat := if isZ40 dst.fmt then db else descIdx (db + 1)

/-- MM.RUN (R236 to R239). -/
def mmRun (d : TrussId) (a : LocalId) (f : RunFaults) (s : State) : Host.Outcome State Fault Refusal :=
  let q := 1 + a.val
  let i := 2 * d.val + a.val
  match s.ready d q 0x12 with
  | none => .next s
  | some e =>
    let g := s.gaAt i
    let s := s.issue d q e
    let dst := s.desc d e.db
    let p := partIdx dst e.db
    match runTraps g (g.boundBank e.cr) (s.desc d e.da) dst (s.desc d p) (s.desc d (descIdx (p + 1))) e with
    | some c => .next (s.issueTrap d q e c)
    | none =>
      let w (k : Nat) : List Word64 := (s.tr d).descWords k
      let r : RunReq := { ins := e.ref d, e, mov := w e.da, dst := w e.db, part := w p, total := w (descIdx (p + 1)),
                          seed := s.seed i, faults := f, toShadow := g.bindsShadow e.cr }
      let rows := e.window ((s.desc d e.da).rowsT (e.m 1))
      .next ((s.openAtIssue i dst (e.m 3 && rows.1 < rows.2)).enqueue i (.run e.cr r))

/-- MM.RUN, where the host holds no line of its records. -/
def execMmRun (d : TrussId) (a : LocalId) (f : RunFaults) (s : State) : Host.Outcome State Fault Refusal :=
  waitRecall s (mmRun d a f s)

end Sys2Proof.Machine
end

