-- ==== Sys2Proof/Machine/Crypto.lean ====
section
/-! DEFINITION. SHAKE256, which the images, the certificate and the reports use (R536 to R540): the Keccak permutation over 25 lanes of
64 bits, rate 136 bytes, domain suffix 0x1F. The manual names the function and no more (log entry 7). -/
namespace Sys2Proof.Machine

/-- Lane (x, y) of the state. -/
abbrev lane (a : List Word64) (x y : Nat) : Word64 := a.getD (x % 5 + 5 * (y % 5)) 0

/-- A state from its lanes. -/
def lanes25 (f : Nat → Nat → Word64) : List Word64 := (List.range 25).map fun k => f (k % 5) (k / 5)

/-- Rotation offsets of the rho step, lane by lane. -/
def rhoOffs : List Nat := [0, 1, 62, 28, 27, 36, 44, 6, 55, 20, 3, 10, 43, 25, 39, 41, 45, 15, 21, 8, 18, 2, 61, 56, 14]

/-- Round constants of the iota step. -/
def iotaConsts : List Word64 := [
  0x0000000000000001, 0x0000000000008082, 0x800000000000808A, 0x8000000080008000, 0x000000000000808B, 0x0000000080000001,
  0x8000000080008081, 0x8000000000008009, 0x000000000000008A, 0x0000000000000088, 0x0000000080008009, 0x000000008000000A] ++ [
  0x000000008000808B, 0x800000000000008B, 0x8000000000008089, 0x8000000000008003, 0x8000000000008002, 0x8000000000000080,
  0x000000000000800A, 0x800000008000000A, 0x8000000080008081, 0x8000000000008080, 0x0000000080000001, 0x8000000080008008]

/-- One round. -/
def keccakRound (a : List Word64) (rc : Word64) : List Word64 :=
  let col (x : Nat) : Word64 := lane a x 0 ^^^ lane a x 1 ^^^ lane a x 2 ^^^ lane a x 3 ^^^ lane a x 4
  let a := lanes25 fun x y => lane a x y ^^^ col (x + 4) ^^^ (col (x + 1)).rotateLeft 1
  let rot := lanes25 fun x y => (lane a x y).rotateLeft (rhoOffs.getD (x + 5 * y) 0)
  let b := lanes25 fun x y => lane rot (x + 3 * y) x
  let c := lanes25 fun x y => lane b x y ^^^ (~~~lane b (x + 1) y &&& lane b (x + 2) y)
  lanes25 fun x y => if x = 0 && y = 0 then lane c 0 0 ^^^ rc else lane c x y

/-- The permutation: 24 rounds. -/
def keccak (a : List Word64) : List Word64 := iotaConsts.foldl keccakRound a

/-- Absorb one block of 136 bytes. -/
def absorb (a : List Word64) (blk : List Byte) : List Word64 :=
  keccak ((List.range 25).map fun k =>
    if k < 17 then a.getD k 0 ^^^ BitVec.ofNat 64 (leNat ((blk.drop (8 * k)).take 8)) else a.getD k 0)

/-- Absorb `n` blocks. -/
def absorbAll (a : List Word64) (l : List Byte) : Nat → List Word64
  | 0 => a
  | n + 1 => absorbAll (absorb a (l.take 136)) (l.drop 136) n

/-- The message with its suffix and padding. -/
def shakePad (l : List Byte) : List Byte :=
  let n := 136 - l.length % 136
  l ++ (List.range n).map fun k => (if k = 0 then 0x1F else 0) ||| (if k + 1 = n then 0x80 else 0)

/-- The first `n` bytes of SHAKE256, up to the 136 of one block. -/
def shakeBytes (l : List Byte) (n : Nat) : List Byte :=
  let p := shakePad l
  let a := absorbAll (List.replicate 25 0) p (p.length / 136)
  ((a.take 17).flatMap fun w => leBytes w.toNat 8).take n

/-- The 256-bit output of SHAKE256. -/
def shake256 (l : List Byte) : List Byte := shakeBytes l 32

/-- The key-generation randomness of the identity key (R538): the first 48 bytes of SHAKE256 over the seed and the ASCII bytes ZL8-ID. -/
def identityRandom : List Byte := shakeBytes (leBytes Config.identitySeed.toNat 32 ++ [0x5A, 0x4C, 0x38, 0x2D, 0x49, 0x44]) 48

/-- The identity public key, derived at every cold and warm reset (R538). -/
def identityKey : List Byte := Config.falconPublic identityRandom

/-- A signature of a message with the identity key, of a length in bytes. -/
def identitySign (msg : List Byte) (n : Nat) : List Byte := (List.range n).map (Config.falconByte identityRandom msg)

end Sys2Proof.Machine
end

