-- ==== Sys2Proof/Machine/Valley.lean ====
section
/-! DEFINITION. The valley queue (R151 to R159, R240, R241): MM.DEFER, MM.VQDRAIN and the visits that run its entries. -/
namespace Sys2Proof.Machine

/-- The views of an entry, and its moving vectors. -/
def VEntry.statD (v : VEntry) : Desc := Desc.ofWords v.stat
def VEntry.movD (v : VEntry) : Desc := Desc.ofWords v.mov
def VEntry.dstD (v : VEntry) : Desc := Desc.ofWords v.dst
def VEntry.vectors (v : VEntry) : Nat := v.movD.rowsT (v.e.m 5)
/-- The cut code of its edge. -/
def VEntry.edge (v : VEntry) : Nat := bits v.e.mod 2 2

/-- The local arrays that ARR names (R153). -/
def arrNames (e : QEntry) : List Nat :=
  match bits e.mod 0 2 with | 0 => [0] | 1 => [1] | _ => [0, 1]

/-- The traps of MM.DEFER (R240). -/
def State.deferTraps (s : State) (d : Nat) (e : QEntry) (stat mov dst : Desc) : Option TrapCause :=
  let edge := bits e.mod 2 2
  let kx := mov.colsT (e.m 5)
  firstTrap [
    stat.check arrayFmt, mov.check arrayFmt, dst.check isZ40,
    if !pairs mov.fmt stat.fmt then some .pairing else none,
    if (isMx stat.fmt && !e.m 4) || (isMx mov.fmt && e.m 5) then some .mxAxis else none,
    if 65536 < min (stat.rowsT (e.m 4)) kx || 4294901760 < kx then some .kLimit else none,
    if (arrNames e).all fun a => (s.gaAt (2 * d + a)).rollout && edge ≠ (s.gaAt (2 * d + a)).cut then some .edge else none]

/-- MM.DEFER (R151, R156, R240): a new entry, or a stall on a full queue. It issues at decode, where MO opens the destination's record
(R224), on FD[2d] where the entry may run on either array; one that stalls opens it when its entry is queued (DESIGN CHOICE, log
entry 68). -/
def execMmDefer (d : TrussId) (s : State) : Host.Outcome State Fault Refusal :=
  waitRecall s <|
  match s.inline d 0x13 with
  | none => .next s
  | some (e, s) =>
    let k (j : Nat) : Nat := descIdx (e.da + j)
    match s.deferTraps d e (s.desc d (k 0)) (s.desc d (k 1)) (s.desc d (k 2)) with
    | some c =>
      let skip := (s.tr d).skips c
      let s := (s.trap d c (e.at 0)).release d
      .next (if skip then s.signal d e.sg else s)
    | none =>
      if 64 ≤ (s.tr d).valley.length then .next ((s.modTr d fun t => { t with vqFull := true }).markUrgent d)
      else
        let w (j : Nat) : List Word64 := (s.tr d).descWords (k j)
        let bound := match bits e.mod 0 2 with | 0 => some false | 1 => some true | _ => none
        let v : VEntry := { e, stat := w 0, mov := w 1, dst := w 2, bound }
        let s := s.openAtIssue (2 * d.val + (if bound = some true then 1 else 0)) v.dstD (e.m 6)
        .next ((s.modTr d fun t => { t with valley := t.valley ++ [v], vqFull := false }).release d)

/-- MM.VQDRAIN (R241): it holds decode until the queue is empty. -/
def execMmVqdrain (d : TrussId) (s : State) : Host.Outcome State Fault Refusal :=
  waitRecall s <|
  match s.inline d 0x14 with
  | none => .next s
  | some (e, s) =>
    if (s.tr d).valley.isEmpty then .next ((s.modTr d fun t => { t with vqDrain := false }).inlineDone d e)
    else .next ((s.modTr d fun t => { t with vqDrain := true }).markUrgent d)

/-- The oldest entry that local array `a` may take (R153, R154): bound to it or free, with no older entry of its destination's
tensor. An entry that waits for an older one of its tensor on the other array is passed over for a younger one (DESIGN CHOICE, log
entry 67). -/
def Truss.candidate (t : Truss) (a : Nat) : Option (Nat × VEntry) :=
  ((List.range t.valley.length).zip t.valley).find? fun p =>
    (match p.2.bound with | some b => b == decide (a = 1) | none => true) &&
    (t.valley.take p.1).all fun w => w.dstD.tid ≠ p.2.dstD.tid

/-- Replace or remove the k-th entry. -/
def State.setEntry (s : State) (d k : Nat) (v : VEntry) : State := s.modTr d fun t => { t with valley := t.valley.set k v }
def State.dropEntry (s : State) (d k : Nat) : State := s.modTr d fun t => { t with valley := t.valley.eraseIdx k }

/-- Does a bank hold the entry's current tile? -/
def VEntry.holds (v : VEntry) (d : TrussId) (b : Bank) : Bool :=
  b.valid && b.fill = some (v.e.ref d) && b.kt = v.kt && b.nt = v.nt

/-- The lowest-numbered course on which the entry's next visit may start. For a fill (R154, R155): no moving vector waits to be
injected into its live bank, no foreground data of the course has begun to arrive, under PREEMPT = 0 no load of it is pending, and its
live bank holds the entry's tile or its shadow bank is free. An urgent entry issues as foreground work (R156): it needs only the bank
that its next step uses. A halted course injects nothing (R71). -/
def State.fillable (s : State) (d : TrussId) (i : Nat) (urgent : Bool) (v : VEntry) : Option Nat :=
  let g := s.gaAt i
  let preempt := s.cfgBits (16 + d) 0x204 8 1 = 1
  g.all.find? fun c =>
    let k := g.course c
    let arriving := k.load.any (·.began) || k.fgShadow
    (g.liveRuns c).isEmpty && !k.halted && (urgent || preempt || k.load.isNone) &&
      (if v.holds d k.live then urgent || !arriving else !arriving && !k.shadow.valid)

/-- An entry ends (R183): it leaves the queue and signals. -/
def State.endEntry (s : State) (d k : Nat) (v : VEntry) : State := (s.dropEntry d k).signal d v.e.sg

/-- The entry after a visit that ran rows up to `row` (R111, R153). -/
def VEntry.after (v : VEntry) (row edge : Nat) : VEntry :=
  if row < v.vectors then { v with row }
  else
    let b := tileAt v.statD (v.e.m 4) v.kt v.nt
    if (v.kt + 1) * kSpan b.fmt edge < b.kw then { v with kt := v.kt + 1, row := 0 }
    else { v with kt := 0, nt := v.nt + 1, row := 0 }

/-- Has every tile run? -/
def VEntry.finished (v : VEntry) (edge : Nat) : Bool := v.statD.colsT (v.e.m 4) ≤ v.nt * edge

/-- Vectors of one visit (R153, R225); ROLLOUT limits a run to 32 (R65). -/
def State.visitLen (s : State) (d i : Nat) (v : VEntry) : Nat :=
  let n := v.e.hi 0 8
  let n := 32 * min 128 (if n = 0 then s.cfgBits (16 + d) 0x204 0 8 else n)
  if (s.gaAt i).rollout then min 32 n else n

/-- The physical faults that meet a fill visit (R71, R305, R306): free values, any at all or none (log entry 22). -/
def State.drawFaults (s : State) : RunFaults × State :=
  let pick (n : Nat) : Option Nat := if n = 0 then none else some (n - 1)
  let (p, s) := s.drawFree
  let (q, s) := s.drawFree
  let (m, s) := s.drawFree
  let (x, s) := s.drawFree
  ({ parity := pick p, same := x % 2 = 1, collide := pick q, corr := pick m }, s)

/-- Inject the vectors of a visit whose tile is in the live bank of course `c` (R153), at most `len` of them, with the physical faults
that meet it (R71, R305). The first visit meets what the records that MO opens at issue could not give (R252). -/
def State.visitRun (s : State) (d : TrussId) (a k c len : Nat) (v : VEntry) : State :=
  let i := 2 * d.val + a
  let (f, s) := s.drawFaults
  let dst := v.dstD
  let row := min v.vectors (v.row + len)
  let x : TileRun := { mo := v.e.m 6 && !v.opened, mov := v.movD, dst, part := dst, total := dst, tr := v.e.m 5, seeded := v.kt ≠ 0, rows := (v.row, row),
                       seed := s.seed i }
  let (s, trap) := s.runTile i c x f true
  match trap with
  | some cause => (s.trap d cause (v.e.at 0)).endEntry d k v
  | none =>
    let edge := edgeOf (s.gaAt i).cut
    let v' := { v.after row edge with opened := true, visiting := none }
    if v'.finished edge then s.endEntry d k v
    else if (s.tr d).aborting then s.dropEntry d k
    else s.setEntry d k v'

/-- Load the entry's tile into the shadow bank of a course: the visit has started, with the settings then in force (R170). -/
def State.visitLoad (s : State) (d : TrussId) (a k c : Nat) (v : VEntry) : State :=
  let i := 2 * d.val + a
  let edge := edgeOf (s.gaAt i).cut
  let x := v.statD
  let tr := v.e.m 4
  let b := tileAt x tr v.kt v.nt
  let (s, trap) := s.access (.cd d) (feederPlace d) (tileSpans x tr b edge) []
  match trap with
  | some cause => (s.trap d cause (v.e.at 0)).endEntry d k v
  | none =>
    (s.modCourse i c fun q =>
      { q with shadow := { b with valid := true, data := s.tileData x tr b edge, fill := some (v.e.ref d) } }).setEntry d k
      { v with visiting := some c, len := s.visitLen d i v }

/-- A visit that has loaded its tile into the shadow bank of course `c` swaps it in and injects (R153): not while the course is halted
(R71) or moving vectors wait for its live bank. A tile that is no longer there was dropped (R155). -/
def State.visitSwap (s : State) (d : TrussId) (a k c : Nat) (v : VEntry) : State :=
  let i := 2 * d.val + a
  let g := s.gaAt i
  if (g.course c).halted || !(g.liveRuns c).isEmpty then s
  else if v.holds d (g.course c).shadow then (s.swapCourse i c).visitRun d a k c v.len v
  else if (s.tr d).aborting then s.dropEntry d k
  else s.setEntry d k { v with visiting := none }

/-- A visit starts, or a visit that has loaded its tile swaps it in and injects (R153 to R157). An urgent entry of another edge asks
for a recut (R156) at the basic level under TRAIN; where R57 or R56 fixes the cut it waits until the cut is its own (DEDUCED, log
entry 57). An entry is bound at its first visit only (R153). Visits of urgent entries are fill visits and their cycles ISSUE as those of
any fill (R158; DESIGN CHOICE, log entry 69). -/
def fillVisit (d : TrussId) (a : LocalId) (s : State) : Host.Outcome State Fault Refusal :=
  let i := 2 * d.val + a.val
  let s := s.markUrgent d
  let t := s.tr d
  if s.pwrc.hold then .next s else
  match t.candidate a with
  | none => .next s
  | some (k, v) =>
    match v.visiting with
    | some c => .next (s.visitSwap d a k c v)
    | none =>
      let g := s.gaAt i
      if t.trapped || t.aborting || (!v.urgent && s.cfgBits (16 + d) 0x200 1 1 = 1) || !s.isLive i then .next s
      else if v.edge ≠ g.cut then
        if v.urgent && !g.expert && !g.rollout then .next (s.modGa i fun g => { g with pendFill := some (g.pendFill.getD v.edge) }) else .next s
      else if g.held then .next s
      else
        match s.fillable d i v.urgent v with
        | none => .next s
        | some c =>
          let s := s.occ (16 + d) 4
          let v := { v with bound := some (decide (a.val = 1)) }
          .next (if v.holds d (g.course c).live then s.visitRun d a k c (s.visitLen d i v) v else s.visitLoad d a k c v)

/-- FILL_VISIT (in hold every array slot is removed, R486), where the host holds no line of its records. -/
def execFillVisit (d : TrussId) (a : LocalId) (s : State) : Host.Outcome State Fault Refusal :=
  waitRecall s (fillVisit d a s)

end Sys2Proof.Machine
end

