-- ==== Sys2Proof/Machine/Move.lean ====
section
/-! DEFINITION. Moves through a feeder (R242 to R244): TX.COPY, TX.TRANS and TX.QUANT with the choice of scales
(R125 to R134) and history records (R129 to R132). -/
namespace Sys2Proof.Machine

/-! ### Copies -/

/-- The traps of a copy at issue (R243). -/
def copyTraps (src dst : Desc) (tr : Bool) : Option TrapCause :=
  firstTrap [src.check fmtOk, dst.check fmtOk,
    if src.fmt ≠ dst.fmt && !(isZ40 src.fmt && isZ40 dst.fmt) then some .descFormat else none,
    if tr && isMx src.fmt then some .mxAxis else none]

/-- The rows and columns that go from a source, in its reading orientation, into a destination (R225, R243). -/
def moveWindow (e : QEntry) (src dst : Desc) (tr : Bool) : Nat × Nat × Nat :=
  let (r0, r1) := e.window (src.rowsT tr)
  (r0, min r1 dst.rows, min (src.colsT tr) dst.cols)

/-- The copy of one view to another (R243), with its measurement, on feeder `i`; the trap it completes with. Container words go
whole (R104); between the two Z40 forms every bit of the encoding goes (R98). -/
def State.copyView (s : State) (i : Nat) (e : QEntry) (src dst : Desc) (tr : Bool) : State × Option TrapCause :=
  let (r0, r1, n) := moveWindow e src dst tr
  let (_, rEnd) := e.window (src.rowsT tr)
  if rEnd ≤ r0 then (s, none) else
  let reads := src.spansT tr r0 rEnd 0 (src.colsT tr)
  match s.accessMove (.cd (i / 2)) (feederPlace (i / 2)) reads (dst.blockSpans r0 r1 0 n) (if e.m 1 then dst.recSpans false else dst.maxSpan) with
  | (s, some c, _) => (s.spoil c (dst.destSpans r0 r1 0 n), some c)
  | (s, none, late) =>
    let old := s
    let raw := src.fmt = dst.fmt
    let s := s.writeView dst r0 r1 0 n (fun r c => some (if raw then old.rawT src tr r c else old.codeT src tr r c))
      (fun r bc => if isMx src.fmt then some (old.scaleCode src r (32 * bc)) else none) raw
    let vals := (List.range (r1 - r0)).flatMap fun r => (List.range n).map fun c =>
      measured dst.fmt dst.sexp (if isMx src.fmt then old.scaleCode src (r0 + r) c else 0) (old.codeT src tr (r0 + r) c)
    let recs := if late.isSome then [] else if e.m 1 then dst.recSpans false else dst.maxSpan
    ((if late.isSome then s else s.measure i dst false (statsOf vals)).smearMove reads (dst.writtenSpans r0 r1 0 n) recs, late)

/-- TX.COPY and TX.TRANS. -/
def runCopy (d : TrussId) (f : LocalId) (tr : Bool) (s : State) : Host.Outcome State Fault Refusal :=
  let q := 3 + f.val
  let i := 2 * d.val + f.val
  match s.ready d q (if tr then 0x31 else 0x30) with
  | none => .next s
  | some e =>
    let s := s.issue d q e
    let src := s.desc d e.da
    let dst := s.desc d e.db
    match copyTraps src dst tr with
    | some c => .next (s.issueTrap d q e c)
    | none =>
      let rows := e.window (src.rowsT tr)
      let (s, trap) := (s.openAtIssue i dst (e.m 1 && rows.1 < rows.2)).copyView i e src dst tr
      .next (s.finish d e.seq trap)

/-- TX.COPY (R243). -/
def execTxCopy (d : TrussId) (f : LocalId) (s : State) : Host.Outcome State Fault Refusal :=
  waitRecall s (runCopy d f false s)

/-- TX.TRANS (R243). -/
def execTxTrans (d : TrussId) (f : LocalId) (s : State) : Host.Outcome State Fault Refusal :=
  waitRecall s (runCopy d f true s)

/-! ### Scales -/

/-- The largest finite value V of a scaled format (R125). -/
def vMax (f : Nat) : Num := match f with | 0 => .fin false 448 0 | 1 => .fin false 57344 0 | _ => .fin false 65504 0

/-- The scale exponent chosen from a magnitude and a margin (R125). -/
def scaleExp (f : Nat) (a : Num) (m : Nat) : Int :=
  match a with
  | .fin _ k _ => if k = 0 then 0 else max (-128) (min 127 (-(ceilLog2Ratio a.abs (vMax f)) - (m : Int)))
  | _ => -128

/-- The usable entries of a history record for a window of `h` tickets before `t`: ticket distance and maximum (R130). -/
def State.history (s : State) (a h t : Nat) : List (Nat × Num) :=
  (List.range 32).filterMap fun k =>
    let x := s.readNat (a + 8 * k) 4
    let d := (t + 2 ^ 32 - s.readNat (a + 8 * k + 4) 4) % 2 ^ 32
    if 1 ≤ d && d ≤ h && !(ofB32 x).isNan && x < 2 ^ 31 then some (d, ofB32 x) else none

/-- The history length H (R129). -/
def State.histLen (s : State) (a : Nat) : Nat := max 1 (min 32 (s.readNat (a + 256) 1 % 64))

/-- The magnitude that a full window gives (R130): one that holds H entries, whatever their tickets within it; none where the pass runs
under recovery (R131). -/
def State.histMax (s : State) (a : Nat) : Option Num :=
  if a = 0 then none else
  let h := s.histLen a
  let l := s.history a h (s.ticket.toNat % 2 ^ 32)
  if h ≤ l.length then
    some (l.foldl (fun m p => if Num.lt m p.2 then p.2 else m) Num.zero)
  else none

/-- Write the present maximum and LAST (R132), and RECOVERING (R131). A stored entry of this ticket that no pass writes, a NaN or
a value with the sign bit, is kept by a pass without MO where its own is not larger; bytes 264 to 319 are left as they are: the
record's table says Written 0 and names no writer (DESIGN CHOICE, log entry 24). -/
def State.histWrite (s : State) (a : Nat) (pm : Num) (opens recovering : Bool) : State :=
  if a = 0 then s else
  let t := s.ticket.toNat
  let k := a + 8 * (t % 32)
  let own := (Layout.binary32.convert false .up pm).code
  let stored := s.readNat k 4
  let keep := !opens && s.readNat (k + 4) 4 = t % 2 ^ 32 && !Num.lt (ofB32 stored) (ofB32 own)
  let s := (s.writeNat k (if keep then stored else own) 4).writeNat (k + 4) (t % 2 ^ 32) 4
  (s.writeNat (a + 257) (if recovering then 1 else 0) 1).writeNat (a + 258) t 6

/-- A pass of a ticket's first kind on a feeder: status bit, count, and the event once a ticket unless switched off
(R131, R134). -/
def State.scaleEvent (s : State) (i code bit item : Nat) (enabled : Bool) (tid : Nat) : State :=
  let s := (s.orReg (8 + i) 0x54 (BitVec.ofNat 16 (2 ^ bit))).occ (8 + i) item
  if enabled then s.raiseOnce i code (8 + i) tid
  else { s with once := if s.once.contains (code, i, s.ticket) then s.once else (code, i, s.ticket) :: s.once }

/-! ### Quantize passes -/

/-- A source that may be quantized into any format (R244). -/
def isWide (f : Nat) : Bool := 5 ≤ f && f ≤ 9

/-- The traps of TX.QUANT at issue (R244). -/
def quantTraps (src : Desc) (dsts : List Desc) (turned : Bool) : Option TrapCause :=
  firstTrap (src.check fmtOk :: (if isMx src.fmt && turned then some .mxAxis else none) ::
    dsts.flatMap fun x => [x.check fmtOk, if isWide src.fmt || src.fmt = x.fmt then none else some .descFormat])

/-- What one destination of a quantize pass receives: its rows and columns, and the value and code read for each element. -/
structure QuantIn where
  r0 : Nat
  r1 : Nat
  c0 : Nat
  c1 : Nat
  val  : Nat → Nat → Num
  code : Nat → Nat → Nat
  scale : Nat → Nat → Nat

/-- The codes of a pass into its destination, with counts (R85, R93, R105, R106). -/
structure QuantOut where
  cells  : List (List Nat)
  scales : List (List Nat)
  count  : QCount

/-- The encoding a same-format pass writes (R106): NaN is made canonical. -/
def sameCode (f scale code : Nat) : Nat :=
  if isMx f && scale = 0xFF then 0
  else if ((layoutOf f).decode code).isNan then (layoutOf f).nanCode else code

/-- Convert everything one destination receives; `port` names the feeder of each row. Only elements that the destination receives are
counted: of source elements beyond the destination view R85 says nothing (DESIGN CHOICE, log entry 24). Between the packed and the
container form of Z40 the encoding is kept with its NaN payload (R98), though R106 would make it canonical in a pass of one format
(DESIGN CHOICE, log entry 24). -/
def State.convertAll (s : State) (port : Nat → Nat) (src x : Desc) (sexp : Int) (q : QuantIn) : QuantOut :=
  let rows := (List.range (q.r1 - q.r0)).map (q.r0 + ·)
  let cols := (List.range (q.c1 - q.c0)).map (q.c0 + ·)
  let nonzero (r c : Nat) : Bool :=
    !(isMx src.fmt && q.scale r c = 0xFF) && ((layoutOf src.fmt).decode (q.code r c)).nonzeroFinite
  let kept : QCount := { nz := ((rows.map fun r => (cols.filter (nonzero r)).length).sum) }
  if src.fmt = x.fmt then
    { cells := rows.map fun r => cols.map fun c => sameCode x.fmt (q.scale r c) (q.code r c)
      scales := rows.map fun r => (List.range ((q.c1 + 31) / 32 - q.c0 / 32)).map fun j => q.scale r (32 * (q.c0 / 32 + j))
      count := kept }
  else if isZ40 src.fmt && isZ40 x.fmt then
    { cells := rows.map fun r => cols.map (q.code r), scales := [], count := kept }
  else if isMx x.fmt then
    let scales := rows.map fun r => (List.range ((q.c1 + 31) / 32 - q.c0 / 32)).map fun j =>
      let b := q.c0 / 32 + j
      mxScale x ((cols.filter fun c => c / 32 = b).map (q.val r))
    let sc (r c : Nat) : Nat := (scales.getD (r - q.r0) []).getD (c / 32 - q.c0 / 32) 0x7F
    let conv (r c : Nat) : Conv := mxElem x (sc r c) (s.round (port r) x r c) (q.val r c)
    { cells := rows.map fun r => cols.map fun c => (conv r c).code
      scales
      count := rows.foldl (fun n r => cols.foldl (fun n c =>
        let k := countElem x.fmt (q.val r c) (conv r c)
        n.add (if sc r c = 0xFF then { k with fl := 0 } else k)) n) {} }
  else
    let conv (r c : Nat) : Conv := convertTo x sexp (s.round (port r) x r c) (q.val r c)
    { cells := rows.map fun r => cols.map fun c => (conv r c).code
      scales := []
      count := rows.foldl (fun n r => cols.foldl (fun n c => n.add (countElem x.fmt (q.val r c) (conv r c))) n) {} }

/-- How the scale of a destination is chosen (R126 to R131). -/
inductive ScaleBy where
  /-- The format takes no tensor scale. -/
  | none
  /-- A same-format pass keeps the source's (R106). -/
  | keep (s : Int)
  | fixed
  | present
  | window (a : Num)
  | recover
deriving DecidableEq, Repr

/-- The choice for one destination. -/
def State.scaleBy (s : State) (src x : Desc) : ScaleBy :=
  if !isScaled x.fmt then .none
  else if src.fmt = x.fmt then .keep src.sexp
  else if x.scmode = 2 then .fixed
  else if x.scmode = 0 then .present
  else match s.histMax x.hrec with | some a => .window a | none => .recover

/-- Does the choice need the present maximum of the source's record or a measuring read (R127)? -/
def ScaleBy.measures : ScaleBy → Bool
  | .present | .recover => true
  | _ => false

/-- The scale exponent. -/
def ScaleBy.exp (b : ScaleBy) (x : Desc) (present : Num) : Int :=
  match b with
  | .none => 0
  | .keep s => s
  | .fixed => x.sexp
  | .present | .recover => scaleExp x.fmt present x.margin
  | .window a => scaleExp x.fmt a x.margin

/-- Is the source's record VALID for the current ticket (R124, R127)? -/
def State.recValid (s : State) (x : Desc) : Bool :=
  x.maxrec ≠ 0 && bits (s.recWord x.maxrec 1) 48 1 = 1 && bits (s.recWord x.maxrec 6) 0 48 = s.ticket.toNat

/-- Every element of a view as a feeder reads it. -/
def State.wholeView (s : State) (x : Desc) : List Num :=
  (List.range x.rows).flatMap fun r => (List.range x.cols).map fun c => s.widen x r c

/-- The present maximum that scales are chosen from (R127): the source's record, or a measuring read of the whole source, which
opens that record. It opens it without a measure-open flag; that it judges silence too, as R168 says of an instruction with the
flag, is a DESIGN CHOICE (log entry 24). -/
def State.present (s : State) (i : Nat) (src : Desc) : State × Num :=
  if s.recValid src then (s, ofContainer (BitVec.ofNat 64 (s.recWord src.maxrec 0)))
  else
    let t := statsOf (s.wholeView src)
    (((s.measure i src true t).orReg (8 + i) 0x54 4).occ (8 + i) 0, t.amax)

/-- Write the elements of one destination of a pass. -/
def State.quantView (s : State) (x : Desc) (q : QuantIn) (o : QuantOut) : State :=
  s.writeView x q.r0 q.r1 q.c0 q.c1 (fun r c => some ((o.cells.getD (r - q.r0) []).getD (c - q.c0) 0))
    (fun r bc => some ((o.scales.getD (r - q.r0) []).getD (bc - q.c0 / 32) 0x7F))

/-- Does a saturated element overshoot the chosen scale (R134): under history or fixed scaling? -/
def ScaleBy.overshoots : ScaleBy → Bool
  | .fixed | .window _ | .recover => true
  | _ => false

/-- Write one destination of a pass: elements, record words, history entry and SEXP (R123, R127, R131, R132). OVERSHOOT follows the
count for every format (R123). -/
def State.quantInto (s : State) (d idx : Nat) (x : Desc) (b : ScaleBy) (sexp : Int) (opens : Bool) (pm : Num)
    (q : QuantIn) (o : QuantOut) : State :=
  let recover := b = .recover
  let s := s.quantView x q o
  let s := s.quantRec x o.count recover (o.count.sat ≠ 0)
  let s := match b with
    | .window _ | .recover => s.histWrite x.hrec pm opens recover
    | _ => s
  match b with
  | .none | .fixed => s
  | _ => s.setSexp d idx sexp

/-- What feeder `i` reports of a pass into a destination, `sat` telling whether an element it passed saturated (R131, R134). R134 counts
QSAT under any scaling and lets it set OVERSHOOT under history or fixed scaling: FD.NSTAT.OVERSHOOT and the count of overshooting passes
follow that, though its register table names no scaling (DESIGN CHOICE, log entry 72). -/
def State.passEvents (s : State) (i : Nat) (x : Desc) (b : ScaleBy) (sat : Bool) : State :=
  let s := if b = .recover then s.scaleEvent i 0x240 0 2 ((s.cfg (8 + i) 0x40).getLsbD 3) x.tid else s
  if sat && b.overshoots then s.scaleEvent i 0x241 1 3 ((s.cfg (8 + i) 0x40).getLsbD 2) x.tid else s

/-- The records that a destination of a pass names: max record, silence record, history record. -/
def quantRecs (x : Desc) (b : ScaleBy) : List Span :=
  x.maxSpan ++ (match b with | .window _ | .recover => if x.hrec = 0 then [] else [{ a := x.hrec, n := 320 }] | _ => [])

/-- TX.QUANT (R244): one read, one or two destinations. -/
def State.quantize (s : State) (d : TrussId) (i : Nat) (e : QEntry) (src : Desc) (dsts : List (Nat × Desc)) :
    State × Option TrapCause :=
  let tr := e.m 1
  let (r0, rEnd) := e.window (src.rowsT tr)
  if rEnd ≤ r0 then (s, none) else
  let n := src.colsT tr
  let ins (k : Nat) (x : Desc) : QuantIn :=
    if k = 0 then
      { r0, r1 := min rEnd x.rows, c0 := 0, c1 := min n x.cols, val := fun r c => rneZ40 (s.valueT src tr r c),
        code := s.codeT src tr, scale := fun r c => if tr then s.scaleCode src c r else s.scaleCode src r c }
    else
      { r0 := 0, r1 := min n x.rows, c0 := r0, c1 := min rEnd x.cols, val := fun r c => rneZ40 (s.valueT src tr c r),
        code := fun r c => s.codeT src tr c r, scale := fun r c => s.scaleCode src r c }
  let bys := dsts.map fun p => s.scaleBy src p.2
  let measures := bys.any ScaleBy.measures && !s.recValid src
  let reads := if measures then src.all else src.spansT tr r0 rEnd 0 n
  let jobs := ((List.range dsts.length).zip (dsts.zip bys)).map fun p => (p.1, p.2.1.1, p.2.1.2, p.2.2)
  let writes := jobs.flatMap fun p => let q := ins p.1 p.2.2.1; p.2.2.1.blockSpans q.r0 q.r1 q.c0 q.c1
  let recs := (jobs.flatMap fun p => quantRecs p.2.2.1 p.2.2.2) ++
    (if bys.any ScaleBy.measures then src.recSpans false else [])
  let dest := jobs.flatMap fun p => let q := ins p.1 p.2.2.1; p.2.2.1.destSpans q.r0 q.r1 q.c0 q.c1
  let written := jobs.flatMap fun p => let q := ins p.1 p.2.2.1; p.2.2.1.writtenSpans q.r0 q.r1 q.c0 q.c1
  let deciding := recs.filter fun x => !jobs.any fun p => p.2.2.1.maxSpan.contains x
  match s.accessMove (.cd d) (feederPlace d) reads writes recs with
  | (s', some c, _) => (s'.spoil c dest, some c)
  | (s', none, late) =>
    if late.isSome && !(s'.badUnits deciding).isEmpty then (s'.spoil .dataError dest, late) else
    let (s', a) := if bys.any ScaleBy.measures then (let p := s'.present i src; (if late.isSome then s' else p.1, p.2)) else (s', Num.zero)
    let pm := (statsOf ((List.range (rEnd - r0)).flatMap fun r => (List.range n).map fun c =>
      rneZ40 (s.valueT src tr (r0 + r) c))).amax
    let outs := jobs.map fun p =>
      let sexp := p.2.2.2.exp p.2.2.1 a
      (p, sexp, s.convertAll (fun _ => i) src p.2.2.1 sexp (ins p.1 p.2.2.1))
    let s' := s'.each outs fun s' o =>
      if late.isSome then s'.quantView o.1.2.2.1 (ins o.1.1 o.1.2.2.1) o.2.2
      else (s'.quantInto d o.1.2.1 o.1.2.2.1 o.1.2.2.2 o.2.1 (e.m 2) pm (ins o.1.1 o.1.2.2.1) o.2.2).passEvents i o.1.2.2.1
        o.1.2.2.2 (o.2.2.count.sat ≠ 0)
    ((s'.smearMove reads written (if late.isSome then [] else recs)).occ (8 + i) 1, late)

/-- TX.QUANT (R244). -/
def txQuant (d : TrussId) (f : LocalId) (s : State) : Host.Outcome State Fault Refusal :=
  let q := 3 + f.val
  let i := 2 * d.val + f.val
  match s.ready d q 0x32 with
  | none => .next s
  | some e =>
    let s := s.issue d q e
    let src := s.desc d e.da
    let idx := e.db :: (if e.m 3 then [descIdx (e.db + 1)] else [])
    let dsts := idx.map fun k => (k, s.desc d k)
    match quantTraps src (dsts.map (·.2)) (e.m 1 || e.m 3) with
    | some c => .next (s.issueTrap d q e c)
    | none =>
      let (s, trap) := s.quantize d i e src dsts
      .next (s.finish d e.seq trap)

/-- TX.QUANT, where the host holds no line of its records. -/
def execTxQuant (d : TrussId) (f : LocalId) (s : State) : Host.Outcome State Fault Refusal :=
  waitRecall s (txQuant d f s)

end Sys2Proof.Machine
end

