-- ==== Sys2Proof/Machine/Vectors.lean ====
section
/-! DEFINITION. The special functions of the Gutter cores (R411) and of the Ridge (R163): a bracket of the exact value, and the bits of a
reference vector within one unit in the last place of it. -/
namespace Sys2Proof.Machine

/-! ### Brackets of exact values, in fixed point with 256 binary places -/

/-- One, in units of 2^-256. -/
def fxOne : Nat := 2 ^ 256

/-- A real value that lies strictly between `lo` and `hi` units of 2^e. -/
structure Bracket where
  lo : Int
  hi : Int
  e : Int
deriving DecidableEq, Repr

/-- The bracket of `a` units of 2^e, computed with an error far below 2^40 units. -/
def around (a e : Int) : Bracket := ⟨a - 2 ^ 40, a + 2 ^ 40, e⟩

/-- 2 * artanh(p / q), for 0 <= p / q <= 1 / 3: the odd powers over their exponents. -/
def fxAtanh2 (p q : Nat) : Nat :=
  let z := p * fxOne / q
  let z2 := z * z / fxOne
  2 * ((List.range 84).foldl (fun (x : Nat × Nat) i => (x.1 * z2 / fxOne, x.2 + x.1 / (2 * i + 1))) (z, 0)).2

/-- ln 2. -/
def fxLn2 : Nat := fxAtanh2 1 3

/-- ln of m * 2^e, m not 0. -/
def fxLn (m : Nat) (e : Int) : Int :=
  let k := Nat.log2 m
  ((k : Int) + e) * (fxLn2 : Int) + (fxAtanh2 (m - 2 ^ k) (m + 2 ^ k) : Int)

/-- e^r for 0 <= r < 1: the power series. -/
def fxExp (r : Nat) : Nat :=
  ((List.range 64).foldl (fun (x : Nat × Nat) i => (x.1 * r / (fxOne * (i + 1)), x.2 + x.1)) (fxOne, 0)).2

/-- A finite value in units of 2^-256, rounded down, held within -256 and 256. -/
def fxOf (neg : Bool) (m : Nat) (e : Int) : Int :=
  let k := e + 256
  let a := if 0 ≤ k then m * 2 ^ k.toNat else if neg then (m + 2 ^ (-k).toNat - 1) / 2 ^ (-k).toNat else m / 2 ^ (-k).toNat
  let b : Int := if neg then -(a : Int) else a
  max (-256 * (fxOne : Int)) (min (256 * (fxOne : Int)) b)

/-- e^(k ln 2 + r / 2^256). -/
def bracketExp (k : Int) (r : Nat) : Bracket := around (fxExp r : Nat) (k - 256)

/-- The bracket of a special function of a finite value by its number (`Config.refVector`), none where no exact value exists. -/
def specialBracket (n : Nat) (neg : Bool) (m : Nat) (e : Int) : Option Bracket :=
  let x := fxOf neg m e
  match n with
  | 1 => some (bracketExp (x / (fxOne : Int)) ((x % (fxOne : Int)).toNat * fxLn2 / fxOne))
  | 3 | 5 => some (bracketExp (x / (fxLn2 : Int)) (x % (fxLn2 : Int)).toNat)
  | 2 => if neg || m = 0 then none else some (around (fxLn m e * (fxOne : Int) / (fxLn2 : Int)) (-256))
  | 4 | 6 => if neg || m = 0 then none else some (around (fxLn m e) (-256))
  | _ =>
    if neg || m = 0 then none
    else some (around (Nat.sqrt (2 ^ 600 / (m * 2 ^ (e % 2).toNat)) : Nat) (-300 - (e - e % 2) / 2))

/-! ### The encodings within one unit of a bracketed value -/

/-- The encoding of the magnitude `t` units of 2^e in a rounding direction. -/
def Layout.magCode (l : Layout) (r : Round) (t : Nat) (e : Int) : Int := (l.convert false r (.fin false t e)).code

/-- The encodings of a layout in the order of their values, as integers: a negative encoding is minus its magnitude. The greatest at or
below `t` units of 2^e. -/
def Layout.floorCode (l : Layout) (t e : Int) : Int := if 0 ≤ t then l.magCode .zero t.natAbs e else -l.magCode .up t.natAbs e

/-- The least at or above `t` units of 2^e. -/
def Layout.ceilCode (l : Layout) (t e : Int) : Int := -l.floorCode (-t) e

/-- The encoding that such an integer stands for. -/
def Layout.ofOrder (l : Layout) (k : Int) : Nat := if k < 0 then l.signBit + k.natAbs else k.natAbs

/-- An encoding within one unit in the last place of a bracketed value, chosen by `v` (R163, R411). -/
def Layout.within (l : Layout) (b : Bracket) (v : Nat) : Nat :=
  let k := l.floorCode b.lo b.e
  l.ofOrder (k + (v : Int) % (l.ceilCode b.hi b.e - k + 1))

/-- The infinity of which a function of the Ridge has the exact value 0 (R163): exp of minus infinity, 1 over the root of plus infinity.
The cores' table gives those cases itself (R411). -/
def ridgeZero (n : Nat) (neg : Bool) : Bool := if n = 5 then neg else n = 7 && !neg

/-- The bits of the reference vector of function `n` in a layout (arithmetic `ty`: 0 Z40, 1 binary32) at an operand: the free vector, within
one unit in the last place of the exact value where there is one (R163, R411; log entry 6). -/
def vectorCode (l : Layout) (n ty code : Nat) : Nat :=
  let v := Config.refVector n ty code
  match l.decode code with
  | .fin neg m e =>
    match specialBracket n neg m e with
    | some b => l.within b v
    | none => v % 2 ^ l.width
  | .inf neg => if ridgeZero n neg then l.within ⟨-1, 1, -4096⟩ v else v % 2 ^ l.width
  | .nan => v % 2 ^ l.width

end Sys2Proof.Machine
end

