-- ==== Sys2Proof/Machine/Ridge.lean ====
section
/-! DEFINITION. The Ridge engines (R160 to R166, R248 to R251): normalisation and soft maximum, forward and backward. -/
namespace Sys2Proof.Machine

/-! ### Arithmetic -/

/-- Z40 arithmetic with RNE (R163). -/
def zadd (a b : Num) : Num := rneZ40 (a.add b)
def zsub (a b : Num) : Num := rneZ40 (a.add b.neg)
def zmul (a b : Num) : Num := rneZ40 (a.mul b)
def zdiv (a : Num) (n : Nat) : Num := rneZ40 (a.divSticky (.fin false n 0))

/-- The published vectors of the Ridge's functions (R163): 5 exp, 6 ln, 7 inverse square root. -/
def ridgeFun (k : Nat) (x : Num) : Num := Layout.z40.decode (vectorCode .z40 k 0 (toZ40 x))

/-- The fold of R110 over terms, positions that take no part given as none: 32 consecutive positions form a group. -/
def foldFrom (seed : Num) (l : List (Option Num)) : Num :=
  (List.range ((l.length + 31) / 32)).foldl (fun acc j =>
    match ((l.drop (32 * j)).take 32).filterMap id with
    | [] => acc
    | g => rneZ40 (acc.add (groupSum g))) seed

/-- A row sum S(·). -/
def rowSum (l : List Num) : Num := foldFrom Num.zero (l.map some)

/-! ### Rows -/

/-- What one row gives: outputs, the record, and whether it read a non-finite value (R165). -/
structure RidgeRow where
  out : List Num
  rec0 : Num
  rec1 : Num
  bad : Bool
  /-- The terms of the column sums (R163): dy * xh, and dy. -/
  dg : List Num := []
  db : List Num := []
deriving DecidableEq, Repr

/-- A row that reads a NaN or an infinity (R165). -/
def badRow (n : Nat) : RidgeRow :=
  { out := List.replicate n .nan, rec0 := .nan, rec1 := .nan, bad := true, dg := List.replicate n .nan,
    db := List.replicate n .nan }

/-- Element j of a list, by default 0. -/
def at0 (l : List Num) (j : Nat) : Num := l.getD j Num.zero

/-- Normalisation, forward (R163). -/
def normF (rms : Bool) (x gamma beta : List Num) (eps : Num) : RidgeRow :=
  let n := x.length
  if x.any Num.nonFinite || gamma.any Num.nonFinite || beta.any Num.nonFinite || eps.nonFinite then badRow n else
  let mu := if rms then Num.zero else zdiv (rowSum x) n
  let c := x.map (zsub · mu)
  let v := zdiv (rowSum (c.map fun y => y.mul y)) n
  let r := ridgeFun 7 (zadd v eps)
  { out := (List.range n).map fun j => zadd (zmul (zmul (at0 c j) r) (at0 gamma j)) (at0 beta j)
    rec0 := mu, rec1 := r, bad := false }

/-- Normalisation, backward (R163). -/
def normB (rms : Bool) (x dy gamma : List Num) (m r : Num) : RidgeRow :=
  let n := x.length
  if x.any Num.nonFinite || dy.any Num.nonFinite || gamma.any Num.nonFinite || (!rms && m.nonFinite) || r.nonFinite then
    badRow n else
  let mu := if rms then Num.zero else m
  let xh := x.map fun y => zmul (zsub y mu) r
  let g := (List.range n).map fun j => zmul (at0 dy j) (at0 gamma j)
  let a := if rms then Num.zero else zdiv (rowSum g) n
  let b := zdiv (rowSum ((List.range n).map fun j => (at0 g j).mul (at0 xh j))) n
  { out := (List.range n).map fun j => zmul r (zsub (zsub (at0 g j) a) (zmul (at0 xh j) b))
    rec0 := m, rec1 := r, bad := false, dg := (List.range n).map fun j => zmul (at0 dy j) (at0 xh j), db := dy }

/-- Soft maximum, forward (R163); `mask j` says that position j is masked. -/
def smaxF (x : List Num) (mask : Nat → Bool) (tau : Num) : RidgeRow :=
  let n := x.length
  let live := (List.range n).filter fun j => !mask j
  if live.any (fun j => (at0 x j).nonFinite) || tau.nonFinite then badRow n
  else match live.map fun j => zmul tau (at0 x j) with
    | [] => { out := List.replicate n Num.zero, rec0 := .inf true, rec1 := Num.zero, bad := false }
    | z0 :: zs =>
      let m := zs.foldl Num.max z0
      let e (j : Nat) : Num := zsub (zmul tau (at0 x j)) m
      let l := ridgeFun 6 (foldFrom Num.zero ((List.range n).map fun j => if mask j then none else some (ridgeFun 5 (e j))))
      { out := (List.range n).map fun j => if mask j then Num.zero else ridgeFun 5 (zsub (e j) l)
        rec0 := m, rec1 := l, bad := false }

/-- Soft maximum, backward (R163): `x` holds p, or s when it is recomputed. A non-finite scale makes every row one that reads a NaN
(R250). Of a row whose MAX is -infinity and that reads a NaN or infinity besides, R165 says two things: it writes +0 (DESIGN CHOICE, log
entry 25). -/
def smaxB (recomp : Bool) (x dp : List Num) (mask : Nat → Bool) (tau m l : Num) : RidgeRow :=
  let n := x.length
  let live := (List.range n).filter fun j => !mask j
  if tau.nonFinite then badRow n
  else if live.isEmpty || m = .inf true then
    { out := List.replicate n Num.zero, rec0 := m, rec1 := l, bad := false }
  else if live.any (fun j => (at0 x j).nonFinite || (at0 dp j).nonFinite) || m.nonFinite || l.nonFinite then
    badRow n
  else
    let p (j : Nat) : Num := if recomp then ridgeFun 5 (zsub (zsub (zmul tau (at0 x j)) m) l) else at0 x j
    let dd := foldFrom Num.zero ((List.range n).map fun j => if mask j then none else some ((p j).mul (at0 dp j)))
    { out := (List.range n).map fun j => if mask j then Num.zero else zmul tau (zmul (p j) (zsub (at0 dp j) dd))
      rec0 := m, rec1 := l, bad := false }

/-! ### Operands -/

/-- A descriptor used as a record run (R219): base, items, PARAM. -/
def Desc.recAt (x : Desc) (j : Nat) : Nat := x.base + 10 * j

/-- The value of a binary32 PARAM (R250). -/
def Desc.paramNum (x : Desc) : Num := ofB32 x.param

/-- The record of a row (R162). -/
def State.record (s : State) (x : Desc) (j : Nat) : Num × Num :=
  (Layout.z40.decode (s.readNat (x.recAt j) 5), Layout.z40.decode (s.readNat (x.recAt j + 5) 5))

/-- Write the record of a row, within the run. -/
def State.setRecord (s : State) (x : Desc) (j : Nat) (r : RidgeRow) : State :=
  if x.rows ≤ j then s else s.write (x.recAt j) (leBytes (toZ40 r.rec0) 5 ++ leBytes (toZ40 r.rec1) 5)

/-- One row of an input as the feeder delivers it (R105, R160). An element that lies outside the view has no stated value: it
reads as the free value `oob`. -/
def State.ridgeRow (s : State) (x : Desc) (tr : Bool) (r n : Nat) (oob : Num) : List Num :=
  (List.range n).map fun c =>
    if r < x.rowsT tr && c < x.colsT tr then rneZ40 (s.valueT x tr r c) else oob

/-- The traps of an input view, an output view, and a record run (R251, R161). -/
def ridgeIn (x : Desc) (tr : Bool) : List (Option TrapCause) :=
  [x.check fmtOk, if tr && isMx x.fmt then some .mxAxis else none]
def ridgeOut (x : Desc) : List (Option TrapCause) :=
  [x.check fmtOk, if isScaled x.fmt && x.scmode = 0 then some .ridgeScale else none]
def ridgeRec (x : Desc) : List (Option TrapCause) :=
  [x.checkRun, if x.fmt ≠ 8 then some .descFormat else none]
def ridgeMask (x : Desc) (tr : Bool) : List (Option TrapCause) :=
  x.check (fun f => f = 0 || f = 1) :: ridgeIn x tr
/-- The checks of an optional slot. -/
def opt (x : Desc) (l : List (Option TrapCause)) : List (Option TrapCause) := if x.valid then l else []

/-- One output of an RD instruction: its descriptor and index, its rows, and its values by row and column. -/
structure RidgeDst where
  x    : Desc
  idx  : Nat
  r0   : Nat
  r1   : Nat
  n    : Nat
  opens : Bool
  val  : List (List Num)

/-- The feeder of a row (R160). -/
def State.ridgePort (s : State) (d r : Nat) : Nat :=
  match s.cfgBits (20 + d) 4 0 2 with | 0 => 2 * d + r % 2 | 1 => 2 * d | _ => 2 * d + 1

/-- Write one output through the quantize path (R160). Under recovery the present maximum is that of the values the instruction
writes. Each feeder measures, counts and reports the rows that pass it; R141 names one feeder of a pass and says nothing of an output
whose rows alternate between two (DESIGN CHOICE, log entry 25). -/
def State.ridgeWrite (s : State) (d : Nat) (o : RidgeDst) : State :=
  let x := o.x
  let src : Desc := { x with fmt := if x.fmt = 9 then 8 else 9 }
  let q : QuantIn :=
    { r0 := o.r0, r1 := min o.r1 x.rows, c0 := 0, c1 := min o.n x.cols,
      val := fun r c => at0 (o.val.getD (r - o.r0) []) c, code := fun r c => toZ40 (at0 (o.val.getD (r - o.r0) []) c),
      scale := fun _ _ => 0x7F }
  let pm := (statsOf o.val.flatten).amax
  let b := s.scaleBy src x
  let sexp := b.exp x pm
  let port := s.ridgePort d
  let conv (q : QuantIn) : QuantOut := s.convertAll port src x sexp q
  let out := conv q
  let rows (p : Nat) : List Nat := (List.range (q.r1 - q.r0)).filter fun r => port (q.r0 + r) = p
  let vals (p : Nat) : List Num := (rows p).flatMap fun r => (List.range q.c1).map fun c =>
    measured x.fmt sexp ((out.scales.getD r []).getD (c / 32) 0x7F) ((out.cells.getD r []).getD c 0)
  let ports := [2 * d, 2 * d + 1].filter fun p => !(rows p).isEmpty
  let s := (s.each ports fun s p => s.measure p x false (statsOf (vals p))).quantInto d o.idx x b sexp o.opens pm q out
  s.each ports fun s p => (s.occ (8 + p) 1).passEvents p x b
    ((rows p).any fun r => (conv { q with r0 := q.r0 + r, r1 := q.r0 + r + 1 }).count.sat ≠ 0)

/-- The first non-finite row of a ticket on a Ridge (R165). -/
def State.ridgeNonfinite (s : State) (d : Nat) : State :=
  if s.once.contains (0x260, d, s.ticket) then s
  else
    let s := { s with once := (0x260, d, s.ticket) :: s.once }.orReg (20 + d) 0xC 1
    if (s.cfg (20 + d) 4).getLsbD 2 then s.raise 0x260 (20 + d) s.ticket.toNat else s

/-- The operands of an RD instruction: row window, elements a row, inputs, outputs, records read or written. -/
structure RidgeOp where
  r0     : Nat
  r1     : Nat
  n      : Nat
  reads  : List Span
  recIn  : List Span
  recOut : List Span
  outs   : List (Desc × Nat × Nat × Nat)
  /-- The outputs whose records MO opens (R249). -/
  opens  : List Desc
deriving DecidableEq, Repr

/-- The records each output of an RD instruction touches. -/
def ridgeRecs (x : Desc) : List Span :=
  x.maxSpan ++ (if isScaled x.fmt && x.scmode = 1 && x.hrec ≠ 0 then [{ a := x.hrec, n := 320 }] else [])

/-- The spans that outputs write: descriptor, first row, end row, columns. -/
def RidgeOp.writes (o : RidgeOp) : List Span :=
  o.outs.flatMap fun p => p.1.blockSpans p.2.1 (min p.2.2.1 p.1.rows) 0 (min p.2.2.2 p.1.cols)

/-- The bytes that outputs change (R144, R223). -/
def RidgeOp.written (o : RidgeOp) : List Span :=
  o.outs.flatMap fun p => p.1.writtenSpans p.2.1 (min p.2.2.1 p.1.rows) 0 (min p.2.2.2 p.1.cols)

/-- The elements that outputs give. -/
def RidgeOp.dest (o : RidgeOp) : List Span :=
  o.outs.flatMap fun p => p.1.destSpans p.2.1 (min p.2.2.1 p.1.rows) 0 (min p.2.2.2 p.1.cols)

/-- The records of outputs that an RD instruction writes. -/
def RidgeOp.recs (o : RidgeOp) : List Span :=
  (o.outs.flatMap fun (p : Desc × Nat × Nat × Nat) => ridgeRecs p.1) ++ o.opens.flatMap fun x => x.recSpans false

/-- The overlaps of an RD instruction (R223). -/
def State.smearRidge (s : State) (o : RidgeOp) (reads : List Span) : State := s.smearMove reads (o.written ++ o.recOut) o.recs

/-- The access checks of an RD instruction (R221); where one ends in DATA_ERROR, its outputs may be written (R253). -/
def State.ridgeAccess (s : State) (d : Nat) (o : RidgeOp) : State × Option TrapCause :=
  let (t, trap) := match s.access (.cd d) (recordPlace d) o.recIn o.recOut with
    | (s, some c) => (s, some c)
    | (s, none) => s.accessAll (.cd d) (feederPlace d) o.reads o.writes o.recs
  match trap with
  | some c => (if spansIn (feederPlace d) o.writes then t.spoil c o.dest else t, trap)
  | none => (t, none)

/-- The record bytes of rows [r0, r1) of a run. -/
def Desc.recRows (x : Desc) (r0 r1 : Nat) : List Span :=
  let r1 := min r1 x.rows
  if r1 ≤ r0 then [] else [{ a := x.recAt r0, n := 10 * (r1 - r0), home := x.base, last := x.recAt x.rows - 1 }]

/-- The bytes of rows [r0, r1) of an input in its orientation. -/
def Desc.ridgeSpans (x : Desc) (tr : Bool) (r0 r1 n : Nat) : List Span :=
  x.spansT tr r0 (min r1 (x.rowsT tr)) 0 (min n (x.colsT tr))

/-- Finish the rows: counts, records, non-finite rows (R165, R518). -/
def State.ridgeRows (s : State) (d : Nat) (rec : Option Desc) (r0 : Nat) (rows : List RidgeRow) : State :=
  let s := match rec with
    | some x => s.each ((List.range rows.length).zip rows) fun s p => s.setRecord x (r0 + p.1) p.2
    | none => s
  let bad := (rows.filter (·.bad)).length
  let s := ((s.occ (20 + d) 0).occ (20 + d) 1 rows.length).occ (20 + d) 2 bad
  if bad = 0 then s else s.ridgeNonfinite d

/-- The free value that elements outside their views read as. -/
def State.oob (s : State) : State × Num :=
  let (v, s) := s.drawFree
  (s, Layout.z40.decode (v % 2 ^ 40))

/-- Issue an RD instruction: checks, MO, the work, completion. The feeder of row 0 opens an output's records and judges silence, also
where the rows alternate between two feeders, of which R168 names none (DESIGN CHOICE, log entry 73). -/
def runRidge (d : TrussId) (op : Nat) (traps : State → QEntry → List (Option TrapCause))
    (outs : State → QEntry → List Desc) (work : State → QEntry → State × Option TrapCause) (s : State) :
    Host.Outcome State Fault Refusal :=
  match s.ready d 5 op with
  | none => .next s
  | some e =>
    let s := s.issue d 5 e
    match firstTrap (traps s e) with
    | some c => .next (s.issueTrap d 5 e c)
    | none =>
      let w := e.window ((s.desc d e.da).rowsT (e.m 6))
      if w.2 ≤ w.1 then .next ((s.occ (20 + d) 0).finish d e.seq)
      else
        let n := (s.desc d e.da).colsT (e.m 6)
        let s := s.modTr d fun t => { t with rowBuf := n ≤ 16384 }
        let s := s.each (outs s e) fun s x => s.openAtIssue (s.ridgePort d 0) x (e.m 3)
        let (s, trap) := work s e
        .next (s.finish d e.seq trap)

/-- The row of ones an absent gamma reads as, and the zeros of an absent beta (R249). -/
def State.paramRow (s : State) (x : Desc) (n : Nat) (z oob : Num) : List Num :=
  if x.valid then s.ridgeRow x false 0 n oob else List.replicate n z

/-- The rows [r0, r1). -/
def rowsFrom (r0 r1 : Nat) : List Nat := (List.range (r1 - r0)).map (r0 + ·)

/-- RD.NORMF (R163, R248). -/
def State.ridgeNormF (s : State) (d : TrussId) (e : QEntry) : State × Option TrapCause :=
  let k (j : Nat) : Desc := s.desc d (e.da + j)
  let tr := e.m 6
  let x := k 0
  let n := x.colsT tr
  let (r0, r1) := e.window (x.rowsT tr)
  let p1 (y : Desc) : List Span := if y.valid then y.ridgeSpans false 0 1 n else []
  let o : RidgeOp := { r0, r1, n, reads := x.ridgeSpans tr r0 r1 n ++ p1 (k 2) ++ p1 (k 3), recIn := [],
                       recOut := (k 4).recRows r0 r1, outs := [(k 1, r0, r1, n)], opens := if e.m 3 then [k 1] else [] }
  match s.ridgeAccess d o with
  | (s, some c) => (s, some c)
  | (s, none) =>
    let (s, oob) := s.oob
    let gamma := s.paramRow (k 2) n Num.one oob
    let beta := s.paramRow (k 3) n Num.zero oob
    let rows := (rowsFrom r0 r1).map fun r => normF (e.m 0) (s.ridgeRow x tr r n oob) gamma beta (k 4).paramNum
    let s := s.ridgeWrite d { x := k 1, idx := e.da + 1, r0, r1, n, opens := e.m 3, val := rows.map (·.out) }
    ((s.ridgeRows d (some (k 4)) r0 rows).smearRidge o o.reads, none)

/-- The traps of RD.NORMF at issue (R248 to R250). -/
def State.normFTraps (s : State) (d : TrussId) (e : QEntry) : List (Option TrapCause) :=
  let k (j : Nat) : Desc := s.desc d (e.da + j)
  ridgeIn (k 0) (e.m 6) ++ ridgeOut (k 1) ++ opt (k 2) (ridgeIn (k 2) false) ++ opt (k 3) (ridgeIn (k 3) false) ++
    ridgeRec (k 4) ++ [if 65536 < (k 0).colsT (e.m 6) then some .kLimit else none]

/-- RD.NORMF. -/
def execRdNormf (d : TrussId) (s : State) : Host.Outcome State Fault Refusal :=
  waitRecall s <| runRidge d 0x50 (fun s e => s.normFTraps d e) (fun s e => [s.desc d (e.da + 1)]) (fun s e => s.ridgeNormF d e) s

/-- A column sum over rows, 32 rows a group, from what the destination holds where it accumulates (R164). -/
def State.colSum (s : State) (x : Desc) (acc : Bool) (n : Nat) (rows : List (List Num)) (oob : Num) : List Num :=
  let base := if acc then s.ridgeRow x false 0 n oob else List.replicate n Num.zero
  (List.range n).map fun j => foldFrom (at0 base j) (rows.map fun r => some (at0 r j))

/-- The outputs of RD.NORMB whose records MO opens. -/
def State.normBOuts (s : State) (d : TrussId) (e : QEntry) : List Desc :=
  s.desc d (e.da + 4) :: (if e.m 1 then [] else [s.desc d (e.da + 5), s.desc d (e.da + 6)].filter (·.valid))

/-- RD.NORMB (R163, R248). -/
def State.ridgeNormB (s : State) (d : TrussId) (e : QEntry) : State × Option TrapCause :=
  let k (j : Nat) : Desc := s.desc d (e.da + j)
  let tr := e.m 6
  let acc := e.m 1
  let x := k 0
  let n := x.colsT tr
  let (r0, r1) := e.window (x.rowsT tr)
  let p1 (y : Desc) (b : Bool) : List Span := if y.valid && b then y.ridgeSpans false 0 1 n else []
  let out1 (j : Nat) : List (Desc × Nat × Nat × Nat) := if (k j).valid then [(k j, 0, 1, n)] else []
  let ins := x.ridgeSpans tr r0 r1 n ++ (k 1).ridgeSpans tr r0 r1 n ++ p1 (k 2) true
  let o : RidgeOp := { r0, r1, n, reads := ins ++ p1 (k 5) acc ++ p1 (k 6) acc, recIn := (k 3).recRows r0 r1, recOut := [],
                       outs := (k 4, r0, r1, n) :: out1 5 ++ out1 6, opens := if e.m 3 then s.normBOuts d e else [] }
  match s.ridgeAccess d o with
  | (s, some c) => (s, some c)
  | (s, none) =>
    let (s, oob) := s.oob
    let gamma := s.paramRow (k 2) n Num.one oob
    let rows := (rowsFrom r0 r1).map fun r =>
      let m := if r < (k 3).rows then s.record (k 3) r else (oob, oob)
      normB (e.m 0) (s.ridgeRow x tr r n oob) (s.ridgeRow (k 1) tr r n oob) gamma m.1 m.2
    let dg := s.colSum (k 5) acc n (rows.map (·.dg)) oob
    let db := s.colSum (k 6) acc n (rows.map (·.db)) oob
    let s := s.ridgeWrite d { x := k 4, idx := e.da + 4, r0, r1, n, opens := e.m 3, val := rows.map (·.out) }
    let one (s : State) (j : Nat) (v : List Num) : State :=
      if (k j).valid then s.ridgeWrite d { x := k j, idx := e.da + j, r0 := 0, r1 := 1, n, opens := e.m 3 && !acc, val := [v] } else s
    let s := one (one s 5 dg) 6 db
    let but (j : Nat) : List Span := ({ o with outs := o.outs.filter fun p => p.1 != k j } : RidgeOp).written
    ((((s.ridgeRows d none r0 rows).smearRidge o (ins ++ o.recIn)).smear (p1 (k 5) acc) (but 5 ++ o.recs)).smear (p1 (k 6) acc)
      (but 6 ++ o.recs), none)

/-- The traps of RD.NORMB at issue (R248 to R250). -/
def State.normBTraps (s : State) (d : TrussId) (e : QEntry) : List (Option TrapCause) :=
  let k (j : Nat) : Desc := s.desc d (e.da + j)
  ridgeIn (k 0) (e.m 6) ++ ridgeIn (k 1) (e.m 6) ++ opt (k 2) (ridgeIn (k 2) false) ++ ridgeRec (k 3) ++ ridgeOut (k 4) ++
    opt (k 5) (ridgeOut (k 5)) ++ opt (k 6) (ridgeOut (k 6)) ++ [if 65536 < (k 0).colsT (e.m 6) then some .kLimit else none]

/-- RD.NORMB. -/
def execRdNormb (d : TrussId) (s : State) : Host.Outcome State Fault Refusal :=
  waitRecall s <| runRidge d 0x51 (fun s e => s.normBTraps d e) (fun s e => s.normBOuts d e) (fun s e => s.ridgeNormB d e) s

/-- Is position j of row r masked (R250)? A position beyond the mask view has no code there (R144): it reads as the free value `oob`. -/
def State.masked (s : State) (e : QEntry) (first mask : Desc) (slot : Bool) (oob : Num) (r j : Nat) : Bool :=
  match bits e.mod 0 2 with
  | 1 =>
    let tr := e.m 6
    let org := if tr then first.col0 else first.row0
    decide ((((32 * org + r) % first.colsT tr : Nat) : Int) + signedOf (e.hi 48 16) 16 < (j : Int))
  | 2 =>
    let tr := e.m 6
    slot && (if r < mask.rowsT tr && j < mask.colsT tr then s.codeT mask tr r j ≠ 0 else oob ≠ Num.zero)
  | _ => false

/-- RD.SMAXF (R163, R248, R250). -/
def State.ridgeSmaxF (s : State) (d : TrussId) (e : QEntry) : State × Option TrapCause :=
  let k (j : Nat) : Desc := s.desc d (e.da + j)
  let tr := e.m 6
  let x := k 0
  let n := x.colsT tr
  let (r0, r1) := e.window (x.rowsT tr)
  let slot := bits e.mod 0 2 = 2
  let o : RidgeOp := { r0, r1, n, reads := x.ridgeSpans tr r0 r1 n ++ (if slot then (k 3).ridgeSpans tr r0 r1 n else []),
                       recIn := [], recOut := (k 2).recRows r0 r1, outs := [(k 1, r0, r1, n)],
                       opens := if e.m 3 then [k 1] else [] }
  match s.ridgeAccess d o with
  | (s, some c) => (s, some c)
  | (s, none) =>
    let (s, oob) := s.oob
    let rows := (rowsFrom r0 r1).map fun r => smaxF (s.ridgeRow x tr r n oob) (s.masked e x (k 3) true oob r) (k 2).paramNum
    let s := s.ridgeWrite d { x := k 1, idx := e.da + 1, r0, r1, n, opens := e.m 3, val := rows.map (·.out) }
    ((s.ridgeRows d (some (k 2)) r0 rows).smearRidge o o.reads, none)

/-- The traps of RD.SMAXF at issue (R248 to R250). -/
def State.smaxFTraps (s : State) (d : TrussId) (e : QEntry) : List (Option TrapCause) :=
  let k (j : Nat) : Desc := s.desc d (e.da + j)
  ridgeIn (k 0) (e.m 6) ++ ridgeOut (k 1) ++ ridgeRec (k 2) ++
    (if bits e.mod 0 2 = 2 then ridgeMask (k 3) (e.m 6) else []) ++
    [if 65536 < (k 0).colsT (e.m 6) then some .kLimit else none]

/-- RD.SMAXF. -/
def execRdSmaxf (d : TrussId) (s : State) : Host.Outcome State Fault Refusal :=
  waitRecall s <| runRidge d 0x52 (fun s e => s.smaxFTraps d e) (fun s e => [s.desc d (e.da + 1)]) (fun s e => s.ridgeSmaxF d e) s

/-- RD.SMAXB (R163, R248, R250). -/
def State.ridgeSmaxB (s : State) (d : TrussId) (e : QEntry) : State × Option TrapCause :=
  let k (j : Nat) : Desc := s.desc d (e.da + j)
  let tr := e.m 6
  let x := k 0
  let n := x.colsT tr
  let (r0, r1) := e.window (x.rowsT tr)
  let slot := e.m 2 && bits e.mod 0 2 = 2
  let o : RidgeOp :=
    { r0, r1, n, recIn := (k 2).recRows r0 r1, recOut := [], outs := [(k 3, r0, r1, n)],
      opens := if e.m 3 then [k 3] else [],
      reads := x.ridgeSpans tr r0 r1 n ++ (k 1).ridgeSpans tr r0 r1 n ++ (if slot then (k 4).ridgeSpans tr r0 r1 n else []) }
  match s.ridgeAccess d o with
  | (s, some c) => (s, some c)
  | (s, none) =>
    let (s, oob) := s.oob
    let rows := (rowsFrom r0 r1).map fun r =>
      let m := if r < (k 2).rows then s.record (k 2) r else (oob, oob)
      smaxB (e.m 2) (s.ridgeRow x tr r n oob) (s.ridgeRow (k 1) tr r n oob) (s.masked e x (k 4) slot oob r) (k 2).paramNum m.1 m.2
    let s := s.ridgeWrite d { x := k 3, idx := e.da + 3, r0, r1, n, opens := e.m 3, val := rows.map (·.out) }
    ((s.ridgeRows d none r0 rows).smearRidge o (o.reads ++ o.recIn), none)

/-- The traps of RD.SMAXB at issue (R248 to R250). -/
def State.smaxBTraps (s : State) (d : TrussId) (e : QEntry) : List (Option TrapCause) :=
  let k (j : Nat) : Desc := s.desc d (e.da + j)
  ridgeIn (k 0) (e.m 6) ++ ridgeIn (k 1) (e.m 6) ++ ridgeRec (k 2) ++ ridgeOut (k 3) ++
    (if e.m 2 && bits e.mod 0 2 = 2 then ridgeMask (k 4) (e.m 6) else []) ++
    [if 65536 < (k 0).colsT (e.m 6) then some .kLimit else none]

/-- RD.SMAXB. -/
def execRdSmaxb (d : TrussId) (s : State) : Host.Outcome State Fault Refusal :=
  waitRecall s <| runRidge d 0x53 (fun s e => s.smaxBTraps d e) (fun s e => [s.desc d (e.da + 3)]) (fun s e => s.ridgeSmaxB d e) s

end Sys2Proof.Machine
end

