-- ==== Sys2Proof/Machine/Tier.lean ====
section
/-! DEFINITION. The tier engine (R245 to R247, R313), the Underlay requests it makes (R457, R463), the stash (R317 to R322),
the Loft modes (R297), and the abort of a Truss, which resets its stash (R202, R322). -/
namespace Sys2Proof.Machine

/-! ### The stash map -/

/-- The page of the stash range that holds an address. -/
def Stash.pageOf (t : Stash) (a : Nat) : Option Nat :=
  if t.range ≤ a && a < t.range + t.rpages * pageBytes then some ((a - t.range) / pageBytes) else none

/-- Where a page lives. -/
def Stash.look (t : Stash) (p : Nat) : Page := Sparse.get .empty t.map p
def Stash.base (t : Stash) (p : Nat) : Option Nat :=
  match t.look p with
  | .empty => none
  | .pool n => some (t.pool + n * pageBytes)
  | .spill n => some (t.spill + n * pageBytes)

/-- The address that an address stands for; none in an EMPTY page. -/
def Stash.route (t : Stash) (a : Nat) : Option Nat :=
  match t.pageOf a with
  | none => some a
  | some p => (t.base p).map (· + (a - t.range) % pageBytes)

/-- The pages of the stash range that spans touch. -/
def Stash.pages (t : Stash) (l : List Span) : List Nat :=
  (l.flatMap fun x =>
    if t.meets x then
      let lo := (max x.a t.range - t.range) / pageBytes
      let hi := (min (x.a + x.n) (t.range + t.rpages * pageBytes) - 1 - t.range) / pageBytes
      (List.range (hi + 1 - lo)).map (lo + ·)
    else []).eraseDups

/-- The lowest number below `n` that is not taken. -/
def lowestFree (n : Nat) (taken : Nat → Bool) : Option Nat := (List.range n).find? fun k => !taken k

/-- Allocate a page (R319). -/
def State.allocPage (s : State) (d p : Nat) : State × Bool :=
  let t := (s.tr d).stash
  let live (x : Page) : Bool := t.map.any fun q => q.2 = x
  match lowestFree t.ppages fun n => live (.pool n) with
  | some n => (s.modTr d fun t => { t with stash := { t.stash with map := Sparse.put .empty t.stash.map p (.pool n) } }, true)
  | none =>
    match if t.nospill then none else lowestFree t.quota fun n => live (.spill n) with
    | none => (s, false)
    | some n =>
      let s := s.modTr d fun t => { t with stash := { t.stash with map := Sparse.put .empty t.stash.map p (.spill n) } }
      (((s.orReg (16 + d) 0x334 2).occ (16 + d) 10).raiseOnce d 0x2C4 (16 + d) d, true)

/-- Allocate every EMPTY page among some, as far as pages can be had; false where one is missing. -/
def State.allocPages (s : State) (d : Nat) (l : List Nat) : State × Bool :=
  l.foldl (fun (p : State × Bool) k =>
    if (p.1.tr d).stash.look k = .empty then
      let (s, ok) := p.1.allocPage d k
      (s, p.2 && ok)
    else p) (s, true)

/-! ### Underlay requests -/

/-- An instruction in flight will take DATA_ERROR at completion (R463). -/
def State.uwFail (s : State) (ins : InsRef) : State :=
  s.modTr ins.d fun t =>
    { t with issued := t.issued.map fun i =>
        if i.e.seq = ins.seq && (i.e.op = 0x38 || i.e.op = 0x39 || i.e.op = 0x3A) && i.trap.isNone then
          { i with trap := some .dataError } else i }

/-- Send a request over the lath and on the bulk channel; while the link is not UP it fails at once (R464). -/
def State.uwSend (s : State) (ins : InsRef) (ty : MsgType) (kind : UwKind) (a n : Nat) (poison : Bool) (data : List Byte) : State :=
  if s.mcl.link ≠ 2 then
    match kind with
    | .write => s.uwFail ins
    | .read dst _ => ((touchedUnits dst n).foldl (fun s u => s.mark u true) s).uwFail ins
  else (s.cross (.cd ins.d) { a, n }).modMcl fun m =>
    let tag := m.nextTag % 65536
    { m with nextTag := m.nextTag + 1, uw := m.uw ++ [{ tag, ins, kind, len := n }],
             out := m.out ++ [{ type := ty, ch := 1, poison, status := 0, tag := BitVec.ofNat 16 tag, len := BitVec.ofNat 16 n,
                                addr := BitVec.ofNat 52 (s.hostAddr a), data, who := ins.d }] }

/-! ### Pieces of a transfer -/

/-- What a piece of a destination receives. -/
inductive PieceSrc where
  | at (a : Nat)
  | const (b : Byte)
  /-- The byte keeps its low nibble and takes 0 in its high one: an MXFP4 padding position beside the last element. -/
  | padHigh
deriving DecidableEq, Repr

/-- A run of destination bytes. `half`: of the last byte only the low nibble is moved (MXFP4), the other being kept (false) or
0 (true). -/
structure Piece where
  src  : PieceSrc
  dst  : Nat
  n    : Nat
  half : Option Bool := none
deriving DecidableEq, Repr

/-- Cut a piece where a page of the stash may end (R317). -/
def Piece.cut (p : Piece) : Nat → List Piece
  | 0 => []
  | k + 1 =>
    if p.n = 0 then [] else
    let room := min (pageBytes - p.dst % pageBytes) (match p.src with | .at a => pageBytes - a % pageBytes | _ => p.n)
    if p.n ≤ room then [p]
    else
      { p with n := room, half := none } ::
        Piece.cut { p with src := (match p.src with | .at a => .at (a + room) | c => c), dst := p.dst + room, n := p.n - room } k

/-- The byte that a half piece leaves. -/
def halfByte (old new : Byte) : Option Bool → Byte
  | none => new
  | some true => new &&& 0x0F
  | some false => (old &&& 0xF0) ||| (new &&& 0x0F)

/-- Write the bytes of a piece. -/
def State.putPiece (s : State) (a : Nat) (bs : List Byte) (half : Option Bool) : State :=
  let k := bs.length - 1
  s.write a (bs.take k ++ (bs.drop k).map fun b => halfByte (s.byte (a + k)) b half)

/-- Move one piece between addresses already routed (R104, R290, R457, R566). A host byte of which only the padding nibble is to be
written is left alone: the link writes whole bytes (log entry 60). -/
def State.movePiece (s : State) (ins : InsRef) (p : Piece) : State :=
  let out := (placeOf p.dst).region = .underlay
  match p.src with
  | .const b =>
    if out then s.uwSend ins .wr .write p.dst p.n false (List.replicate p.n b) else s.write p.dst (List.replicate p.n b)
  | .padHigh => if out then s else s.write p.dst [s.byte p.dst &&& 0x0F]
  | .at a =>
    if (placeOf a).region = .underlay then s.uwSend ins .rd (.read p.dst p.half) a p.n false []
    else
      let bs := s.bytes a p.n
      let bad := (touchedUnits a p.n).filter s.poisonAt
      if out then
        let k := bs.length - 1
        let bs := bs.take k ++ (bs.drop k).map fun b => if p.half = some true then b &&& 0x0F else b
        s.uwSend ins .wr .write p.dst p.n (!bad.isEmpty) bs
      else
        (s.putPiece p.dst bs p.half).each bad fun s u =>
          let lo := max a u
          let hi := min (a + p.n) (u + (placeOf a).region.unit)
          s.each (touchedUnits (p.dst + (lo - a)) (hi - lo)) fun s v => s.mark v true

/-- Route a piece through the stash map; a piece that meets an EMPTY page is dropped (its instruction took ADDRESS). -/
def Piece.routed (t : Stash) (p : Piece) : Option Piece :=
  match t.route p.dst with
  | none => none
  | some dst =>
    match p.src with
    | .at a => (t.route a).map fun a => { p with dst, src := .at a }
    | _ => some { p with dst }

/-- The padding positions of row `r` of a destination in block column `bc` (R144): code 0; in MXFP4 the nibble beside the last column of
the view, unless the row's own piece writes it. -/
def padPiece (dst : Desc) (r bc : Nat) (nibble : Bool) : List Piece :=
  let b := fmtBits dst.fmt
  let a := dst.block (r / 32) bc + r % 32 * (4 * b)
  let k := dst.cols - 32 * bc
  if k < 32 then
    (if nibble && b = 4 && k % 2 = 1 then [{ src := .padHigh, dst := a + k / 2, n := 1 }] else []) ++
      [{ src := .const 0, dst := a + (k * b + 7) / 8, n := 4 * b - (k * b + 7) / 8 }]
  else []

/-- The row `r` of a destination in block column `bc`, from row `sr` of a source (none: zeros), `C` columns being copied
(R104, R144, R145). -/
def rowPiece (src : Desc) (sr : Option Nat) (dst : Desc) (r c bc : Nat) : List Piece :=
  let b := fmtBits dst.fmt
  let w := 4 * b
  let a := dst.block (r / 32) bc + r % 32 * w
  let scaleAt := dst.scaleLine (r / 32) bc + r % 32
  match sr with
  | none => { src := .const 0, dst := a, n := w } :: (if isMx dst.fmt then [{ src := .const 0x7F, dst := scaleAt, n := 1 }] else [])
  | some sr =>
    let nc := min 32 (c - 32 * bc)
    let half := if b = 4 && nc % 2 = 1 then some (decide (32 * bc + nc = dst.cols)) else none
    { src := .at (src.block (sr / 32) bc + sr % 32 * w), dst := a, n := (nc * b + 7) / 8, half } ::
      padPiece dst r bc (half ≠ some true) ++
      (if isMx dst.fmt then [{ src := .at (src.scaleLine (sr / 32) bc + sr % 32), dst := scaleAt, n := 1 }] else [])

/-- The padding of the blocks that rows [0, rows) and columns [0, c) reach, beyond those rows: the columns beyond the view in its further
rows, and every position of the rows beyond it (R144, R145). -/
def padRows (dst : Desc) (rows c : Nat) : List Piece :=
  (List.range ((rows + 31) / 32 * 32 - rows)).flatMap fun k =>
    (List.range ((c + 31) / 32)).flatMap fun bc =>
      if rows + k < dst.rows then padPiece dst (rows + k) bc true else rowPiece dst none dst (rows + k) c bc

/-- The pieces of a copy of one view to another (R246). -/
def movePieces (src dst : Desc) : List Piece :=
  let rows := min src.rows dst.rows
  let c := min src.cols dst.cols
  ((List.range rows).flatMap fun r => (List.range ((c + 31) / 32)).flatMap fun bc => rowPiece src (some r) dst r c bc) ++
    padRows dst rows c

/-- The device bytes that pieces write, and those of them that they write whole. -/
def writtenBy (whole : Bool) (l : List Piece) : List Span :=
  l.filterMap fun p =>
    if (placeOf p.dst).region = .underlay then none
    else some { a := p.dst, n := if whole && (p.half = some false || p.src = .padHigh) then p.n - 1 else p.n }

/-- Poisoned units that the pieces of one move cover wholly lose their marker, whatever order the pieces come in (R290). -/
def State.cleanWhole (s : State) (l : List Piece) : State :=
  let w := writtenBy true l
  let cover (u : Nat) : Nat :=
    (w.map fun x => min (x.a + x.n) (u + (placeOf u).region.unit) - max x.a u).sum
  s.each ((s.badUnits w).filter fun u => (placeOf u).region.unit ≤ cover u) fun s u => s.mark u false

/-! ### Operands -/

/-- May a tier-engine operand stand there (R221, R318, R457)? -/
def State.tierSpan (s : State) (no : Option Nat) (x : Span) : Bool :=
  x.n = 0 ||
  match (placeOf x.a).region with
  | .underlay => s.underlayOk x.a x.n && !s.inStash no x && spansIn (· = .underlay) [x]
  | _ => spansIn tierPlace [x] && s.rangeOk x.a x.n

/-- Cut a span at the ends of stash pages, at most `k` times. -/
def Span.cut (x : Span) : Nat → List Span
  | 0 => [x]
  | k + 1 =>
    let room := pageBytes - x.a % pageBytes
    if x.n ≤ room then [x] else { a := x.a, n := room } :: Span.cut { a := x.a + room, n := x.n - room } k

/-- The device bytes among spans, routed through the stash map. -/
def Stash.deviceSpans (t : Stash) (l : List Span) : List Span :=
  (l.flatMap (·.cut 2)).filterMap fun x =>
    match t.route x.a with
    | none => none
    | some a => if (placeOf a).region = .underlay then none else some { a, n := x.n }

/-- Tier-engine accesses pass the Loft slices; the table rows of a gather are no sequential reads (R291, R294). -/
def State.touchTier (s : State) (d : Nat) (reads writes : List Span) (narrow : List Span := []) : State :=
  ((s.stream (.cd d) reads).touch (.cd d) narrow false true).touch (.cd d) writes true true

/-! ### Completion of a transfer -/

/-- The trap that an instruction in flight has met so far. -/
def State.trapOf (s : State) (ins : InsRef) : Option TrapCause :=
  ((s.tr ins.d).issued.find? (·.e.seq = ins.seq)).bind (·.trap)

/-- Has an instruction Underlay requests outstanding? -/
def State.uwBusy (s : State) (ins : InsRef) : Bool := s.mcl.uw.any fun r => r.ins = ins

/-- A transfer whose last byte has moved reaches its completion point (R313); the copies of the object directory end by their own
commands. -/
def State.moveDone (s : State) (ins : InsRef) : State :=
  if s.uwBusy ins || s.obreqs.any (·.ins = ins) then s else s.finishRef ins (s.trapOf ins)

/-- Set the trap of an instruction in flight. -/
def State.setTrap (s : State) (ins : InsRef) (trap : Option TrapCause) : State :=
  match trap with
  | none => s
  | some c => s.modTr ins.d fun t =>
    { t with issued := t.issued.map fun i => if i.e.seq = ins.seq then { i with trap := some c } else i }

/-- Does the Underlay window hold the host bytes of a piece (R457)? A spill page may lie past its size. -/
def State.pieceOk (s : State) (p : Piece) : Bool :=
  let ok (a : Nat) : Bool := (placeOf a).region ≠ .underlay || s.underlayOk a p.n
  ok p.dst && (match p.src with | .at a => ok a | _ => true)

/-- Move the pieces of an instruction, whose operands stand where they may (R246, R247, R290); bytes both read and written become
undefined (R223). A piece past the window's size moves nothing, and the instruction takes ADDRESS (R457). `narrow` are the reads of the
narrow path. -/
def State.moveAll (s : State) (ins : InsRef) (reads narrow writes : List Span) (pieces : List Piece) : State :=
  let t := (s.tr ins.d).stash
  let dr := t.deviceSpans reads
  let dn := t.deviceSpans narrow
  let dw := t.deviceSpans writes
  let (s, trap) := (s.want (s.snooped dw true)).consume (dr ++ dn)
  let (l, out) := ((pieces.flatMap fun p => p.cut 3).filterMap (·.routed t)).partition s.pieceOk
  let s := (s.touchTier ins.d dr dw dn).setTrap ins (if out.isEmpty then trap else some .address)
  ((((s.cleanWhole l).each l fun s p => s.movePiece ins p)).smear (dr ++ dn) (writtenBy false l)).moveDone ins

/-- A TX.STASH into the stash range takes its pages (R319); where one is missing it stalls (R321), having moved nothing. -/
def State.stashTry (s : State) (x : StashStall) : State :=
  let src := Desc.ofWords x.src
  let dst := Desc.ofWords x.dst
  let rows := min src.rows dst.rows
  let c := min src.cols dst.cols
  let writes := dst.blockSpans 0 rows 0 c
  let (s, ok) := s.allocPages x.ins.d ((s.tr x.ins.d).stash.pages writes)
  if ok then
    (s.modTr x.ins.d fun t => { t with stash := { t.stash with stalled := t.stash.stalled.filter (·.ins ≠ x.ins) } }).moveAll
      x.ins (src.spans 0 rows 0 c) [] writes (movePieces src dst)
  else if (s.tr x.ins.d).stash.stalled.any (·.ins = x.ins) then s
  else s.modTr x.ins.d fun t => { t with stash := { t.stash with stalled := t.stash.stalled ++ [x] } }

/-- Stalled stashes try again once a page may be had. -/
def State.stashResume (s : State) (d : Nat) : State := s.each (s.tr d).stash.stalled State.stashTry

/-- A TX.FETCH that has read its last line frees every page that its source view's bytes touch (R320). -/
def State.freePages (s : State) (ins : InsRef) : State :=
  let t := (s.tr ins.d).stash
  match t.freeing.find? (·.1 = ins) with
  | none => s
  | some (_, l) =>
    if s.uwBusy ins then s else
    (s.modTr ins.d fun t =>
      { t with stash := { t.stash with freeing := t.stash.freeing.filter (·.1 ≠ ins)
                                       map := l.foldl (fun m p => Sparse.put .empty m p .empty) t.stash.map } }).stashResume ins.d

/-! ### TX.STASH, TX.FETCH, TX.GATHER -/

/-- The traps of a tier-engine move at issue (R245). -/
def tierTraps (src dst : Desc) : Option TrapCause :=
  firstTrap [src.check fmtOk, dst.check fmtOk, if src.fmt ≠ dst.fmt then some .descFormat else none]

/-- TX.STASH and TX.FETCH (R246, R318 to R320). -/
def tierMove (d : TrussId) (fetch : Bool) (s : State) : Host.Outcome State Fault Refusal :=
  match s.ready d 6 (if fetch then 0x39 else 0x38) with
  | none => .next s
  | some e =>
    let s := s.issue d 6 e
    let src := s.desc d e.da
    let dst := s.desc d e.db
    match tierTraps src dst with
    | some c => .next (s.issueTrap d 6 e c)
    | none =>
      let t := (s.tr d).stash
      let rows := min src.rows dst.rows
      let c := min src.cols dst.cols
      let reads := src.spans 0 rows 0 c
      let writes := dst.blockSpans 0 rows 0 c
      let empty (l : List Span) : Bool := (t.pages l).any fun p => t.look p = .empty
      if !((reads ++ writes).all (s.tierSpan (some d.val))) || empty reads || (fetch && empty writes) then
        .next (s.finish d e.seq (some .address))
      else if fetch then
        let freed := t.pages (src.blockSpans 0 src.rows 0 src.cols)
        let s := s.modTr d fun t => { t with stash := { t.stash with freeing := t.stash.freeing ++ [(e.ref d, freed)] } }
        .next ((s.moveAll (e.ref d) reads [] writes (movePieces src dst)).freePages (e.ref d))
      else
        .next (s.stashTry { ins := e.ref d, src := (s.tr d).descWords e.da, dst := (s.tr d).descWords e.db })

/-- TX.STASH (R246, R319). -/
def execTxStash (d : TrussId) (s : State) : Host.Outcome State Fault Refusal := waitRecall s (tierMove d false s)

/-- TX.FETCH (R246, R320). -/
def execTxFetch (d : TrussId) (s : State) : Host.Outcome State Fault Refusal := waitRecall s (tierMove d true s)

/-- The kind of memory a gather's table stands in (R292). -/
def tableKind : Region → Nat
  | .hbm _ => 1 | .loft _ => 2 | .array _ => 3 | .ridge _ => 4 | _ => 0

/-- Does the whole table stand in one of them? -/
def tableOk (l : List Span) : Bool := spansIn (fun r => tableKind r ≠ 0) l

/-- Narrow accesses of a gathered row (R247, R291). -/
def State.narrow (s : State) (x : Desc) (r : Nat) : State :=
  s.each (List.range ((x.cols + 31) / 32)) fun s bc =>
    match (placeOf (x.block (r / 32) bc)).region with
    | .hbm k => s.occ (24 + k) 2 ((4 * fmtBits x.fmt + 31) / 32)
    | _ => s

/-- Are an index list's bytes at hand: those in device memory are read, those in the Underlay come with the command? -/
def indexAtHand (far : Bool) (n : Nat) : LineData → Bool
  | .memory _ => !far
  | .underlay ok bytes poison => !far || (ok && !poison && n ≤ bytes.length)

/-- The traps of TX.GATHER at issue (R247). -/
def gatherTraps (tab idx dst : Desc) : Option TrapCause :=
  firstTrap [tab.check fmtOk, idx.checkRun, dst.check fmtOk, if tab.fmt ≠ dst.fmt then some .descFormat else none]

/-- The bytes of an index list. -/
def Desc.runSpan (x : Desc) : Span := { a := x.base, n := 4 * x.rows }

/-- The rows that an issued TX.GATHER moves, its operands standing where they may (R247): row `j` of the destination from the row of the
table that index `j` names, or zeros where it names none, with counts of both. -/
def State.gather (s : State) (d : TrussId) (e : QEntry) (data : LineData) : State :=
  let tab := s.desc d e.da
  let idx := s.desc d e.db
  let dst := s.desc d (descIdx (e.db + 1))
  let run := idx.runSpan
  let rows := min idx.rows dst.rows
  let c := min tab.cols dst.cols
  let far := (placeOf run.a).region = .underlay
  let item (j : Nat) : Nat :=
    match data with
    | .underlay _ bytes _ => if far then leNat ((bytes.drop (4 * j)).take 4) else s.readNat (run.a + 4 * j) 4
    | .memory _ => s.readNat (run.a + 4 * j) 4
  let js := List.range rows
  let hit := js.filter fun j => item j < tab.rows
  let reads := if far then [] else [run]
  let rowReads := hit.flatMap fun j => tab.spans (item j) (item j + 1) 0 c
  -- the columns that a block row's blocks reach: rows of zeros go on beyond the table's
  let reach (br : Nat) : Nat := if js.any fun j => j / 32 = br && tab.rows ≤ item j then dst.cols else c
  let blocks (n : Nat) : List Nat := List.range ((n + 31) / 32)
  let pieces := (js.flatMap fun j =>
    if item j < tab.rows then
      (blocks c).flatMap (fun bc => rowPiece tab (some (item j)) dst j c bc) ++
        ((blocks (reach (j / 32))).drop ((c + 31) / 32)).flatMap fun bc => padPiece dst j bc true
    else (blocks dst.cols).flatMap fun bc => rowPiece tab none dst j c bc) ++ padRows dst rows (reach (rows / 32))
  let writes := (blocks rows).flatMap fun br => dst.blockSpans (32 * br) (min rows (32 * br + 32)) 0 (reach br)
  let s := (s.each hit fun s j => s.narrow tab (item j)).occ (16 + d) 8 (rows - hit.length)
  let s := if far then s.cross (.cd d) run else s
  (s.corrected data (reads ++ rowReads)).moveAll (e.ref d) reads rowReads writes pieces

/-- The tier engine reads an index list in the Underlay (R451, R463). -/
def State.askIndex (s : State) (d : Nat) (run : Span) (data : LineData) : State :=
  (s.askHost d (s.hostAddr run.a) run.n).notePoison (s.mcl.link = 2 && match data with | .underlay _ _ p => p | .memory _ => false)

/-- TX.GATHER (R247, R292). The host's bytes of an index list in the Underlay come with the command. -/
def txGather (d : TrussId) (data : LineData) (s : State) : Host.Outcome State Fault Refusal :=
  match s.ready d 6 0x3A with
  | none => .next s
  | some e =>
    let s := s.issue d 6 e
    let tab := s.desc d e.da
    let idx := s.desc d e.db
    let dst := s.desc d (descIdx (e.db + 1))
    match gatherTraps tab idx dst with
    | some c => .next (s.issueTrap d 6 e c)
    | none =>
      let rows := min idx.rows dst.rows
      let places := (idx.runSpan :: dst.blockSpans 0 rows 0 dst.cols).all (s.tierSpan none)
      if !places || !tableOk tab.all || !(tab.all.all fun x => s.rangeOk x.a x.n) then .next (s.finish d e.seq (some .address))
      else
        let far := (placeOf idx.base).region = .underlay
        let s := if far then s.askIndex d idx.runSpan data else s
        if !indexAtHand far (4 * rows) data || (far && s.mcl.link ≠ 2) then .next (s.finish d e.seq (some .dataError))
        else .next (s.gather d e data)

/-- TX.GATHER, where the host holds no line of it. -/
def execTxGather (d : TrussId) (data : LineData) (s : State) : Host.Outcome State Fault Refusal :=
  waitRecall s (txGather d data s)

/-! ### Stash reset, abort, the stash-full event -/

/-- A stash reset (R322): every page EMPTY, the registers in force; a stalled TX.STASH takes its pages if it can. -/
def State.stashReset (s : State) (d : Nat) : State :=
  (s.modTr d fun t =>
    { t with stash := { s.stashRegs d with stalled := t.stash.stalled, freeing := t.stash.freeing.map fun p => (p.1, []) } }).stashResume d

/-- TRUSS[d].STCFG.RESET written with 1. -/
def execStashReset (d : TrussId) (r : Requester) (s : State) : Host.Outcome State Fault Refusal :=
  waitRecall s <|
  let (s, ok) := s.reachBy r (16 + d) 0x300
  .next (if ok then s.stashReset d else s)

/-- Order 1 of an abort (R202), with its stash reset (R322). An MM.DEFER stalled on a full queue has no started visit and is discarded;
another in-line instruction that has issued completes. -/
def State.abortStart (s : State) (d : Nat) : State :=
  (s.modTr d fun t =>
    { t with aborting := true, queues := Vector.replicate 8 [], valley := t.valley.filter (·.visiting.isSome), decTrap := false,
             decTaken := t.decTaken.filter (·.op ≠ 0x13), vqFull := false }).stashReset d

/-- TRUSS[d].CTL.ABORT written with 1. -/
def execAbort (d : TrussId) (r : Requester) (s : State) : Host.Outcome State Fault Refusal :=
  waitRecall s <|
  let (s, ok) := s.reachBy r (16 + d) 0
  .next (if ok then s.abortStart d else s)

/-- A stash stall reaches 1 ms (R321). -/
def execStashFullTimeout (d : TrussId) (s : State) : Host.Outcome State Fault Refusal :=
  match (s.tr d).stash.stalled.find? (!·.raised) with
  | none => .next s
  | some x =>
    .next ((s.modTr d fun t =>
      { t with stash := { t.stash with stalled := t.stash.stalled.map fun y => if y.ins = x.ins then { y with raised := true } else y } }).raise
        0x2C0 (16 + d) d)

/-! ### Loft modes (R294, R297) -/

/-- Clear the bytes and markers of a range. -/
def State.wipe (s : State) (lo hi : Nat) : State :=
  { s with mem := Sparse.clear s.mem lo hi, poison := Sparse.clear s.poison lo hi }

/-- Does a line stand in the part of a slice that stops being cache when it goes over to `new` sets: where the sets are halved, the upper
half of them (DEDUCED, log entry 59)? -/
def Loft.leaves (l : Loft) (new line : Nat) : Bool := new = 0 || (new < l.sets && new ≤ line % l.sets)

/-- Put the mode and expert fields that the registers ask for in force on a slice (R297): the dirty lines of the part that stops
being cache go back and that part is invalidated; the scratchpad parts that come or go read as zero. -/
def State.loftApply (s : State) (k : Nat) : State :=
  let dom := 32 + k
  let mode := bits (s.cfg dom 0).toNat 1 2
  let old := s.loftAt k
  let new : Loft := { old with mode, expert := s.level dom 0, streamna := (s.cfg dom 4).getLsbD 0, prefways := s.cfgBits dom 4 1 5 }
  let base := 0x8000000000 + k * 0x8000000
  let (gone, kept) := old.lines.partition fun p => mode ≠ old.mode && old.leaves new.sets p.1
  let s := s.occ dom 2 (gone.filter (·.2)).length
  let lo := min old.scratch new.scratch
  let hi := max old.scratch new.scratch
  (s.wipe (base + lo) (base + hi)).modLoft k fun _ => { new with lines := kept }

/-- Do the registers ask for something that is not in force? -/
def State.loftDiffers (s : State) (k : Nat) : Bool :=
  let l := s.loftAt k
  let dom := 32 + k
  decide (bits (s.cfg dom 0).toNat 1 2 ≠ l.mode) || decide (s.level dom 0 ≠ l.expert) ||
    decide ((s.cfg dom 4).getLsbD 0 ≠ l.streamna) || decide (s.cfgBits dom 4 1 5 ≠ l.prefways)

/-- A write of LOFT.CFG or LOFT.XCFG: a change that differs from what is in force holds every access to the slice from now on (R297). -/
def State.writeLoft (s : State) (k : Nat) (r : Requester) (off : Nat) (data mask : Half) : State :=
  let s := s.regWrite r (32 + k) off data mask
  if s.loftDiffers k then s.modLoft k fun l => { l with reconf := true } else s

/-- LOFT.CFG or LOFT.XCFG is written. -/
def execLoftReconf (k : StackId) (r : Requester) (expert : Bool) (data mask : Half) (s : State) : Host.Outcome State Fault Refusal :=
  let off := if expert then 4 else 0
  let (s, ok) := s.reachBy r (32 + k) off
  .next (if ok then s.writeLoft k r off data mask else s)

/-- The slice meets its control boundary: what its registers ask for by then comes into force, and the accesses held go on (R297). -/
def execLoftReconfDone (k : StackId) (s : State) : Host.Outcome State Fault Refusal :=
  if (s.loftAt k).reconf then
    .next (((s.loftApply k).modLoft k fun l => { l with reconf := false }).occ (32 + k) 3)
  else .next s

end Sys2Proof.Machine
end

