-- ==== Sys2Proof/Machine/Objects.lean ====
section
/-! DEFINITION. Objects (R307 to R312): the object and slot tables, registration, and the requests of OB.PIN, OB.PROMOTE,
OB.EVICT, OB.PREFETCH and OB.WAIT (R277, R278). -/
namespace Sys2Proof.Machine

/-! ### The tables -/

/-- Word `w` of object `n` (R307), as an index of table space. -/
def obKey (n w : Nat) : Nat := 0x200000 + 8 * n + w

/-- The key of OCCUPANT of slot `k` (R309). -/
def slotKey (k : Nat) : Nat := 0x220000 + k

/-- An entry of the object table (R307). -/
structure Obj where
  valid   : Bool
  home    : Nat
  up      : Nat
  wb      : Bool
  pending : Bool
  state   : Nat
  upauth  : Bool
  pins    : Nat
  slot    : Nat
  size    : Nat
  homeDpa : Nat
  upDpa   : Nat
deriving DecidableEq, Repr

/-- The entry that words 0 to 3 spell. -/
def Obj.ofWords (w0 w1 w2 w3 : Nat) : Obj :=
  { valid := bits w0 0 1 = 1, home := bits w0 1 2, up := bits w0 3 2, wb := bits w0 5 1 = 1, pending := bits w0 7 1 = 1,
    state := bits w0 8 2, upauth := bits w0 10 1 = 1, pins := bits w0 11 4, slot := bits w0 16 12, size := bits w1 0 40,
    homeDpa := bits w2 0 48, upDpa := bits w3 0 48 }

/-- Object `n` as its entry stands. -/
def State.obj (s : State) (n : Nat) : Obj :=
  Obj.ofWords (s.tword (obKey n 0)) (s.tword (obKey n 1)) (s.tword (obKey n 2)) (s.tword (obKey n 3))

/-- Set a field of word 0. -/
def State.setObj (s : State) (n lo w v : Nat) : State :=
  s.setTableBits (obKey n 0) lo w v

/-- Set STATE and UPAUTH. -/
def State.setObjState (s : State) (n st : Nat) (auth : Bool) : State :=
  (s.setObj n 8 2 st).setObj n 10 1 (if auth then 1 else 0)

/-- Tiers as R277 numbers them: 0 Loft scratchpad, 1 HBM, 2 Underlay; 3 where there is no upper copy. -/
def Obj.tHome (o : Obj) : Nat := o.home
def Obj.tUp (o : Obj) : Nat := o.up
/-- The tier of the authoritative copy. -/
def Obj.tier (o : Obj) : Nat := if o.upauth then o.tUp else o.tHome

/-- Does a range lie wholly in the scratchpad parts of the Loft (R293, R294)? -/
def State.inScratch (s : State) (a n : Nat) : Bool :=
  0x8000000000 ≤ a && a + n ≤ 0x8040000000 &&
  (List.range 8).all fun k =>
    let base := 0x8000000000 + k * 0x8000000
    let hi := min (a + n) (base + 0x8000000)
    hi ≤ max a base || hi ≤ base + (s.loftAt k).scratch

/-- Does a range lie wholly in HBM? -/
def inHbm (a n : Nat) : Bool := a + n ≤ 0x8000000000

/-- The check of a registration (R307, R308 point 2). -/
def State.objOk (s : State) (o : Obj) : Bool :=
  let homeOk :=
    if o.home = 1 then inHbm o.homeDpa o.size
    else o.home = 2 && s.underlayOk o.homeDpa o.size && !s.inStash none { a := o.homeDpa, n := o.size }
  let upOk :=
    if o.up = 3 then true
    else if o.up = 0 then s.inScratch o.upDpa o.size
    else o.up = 1 && o.home = 2 && inHbm o.upDpa o.size
  o.size ≠ 0 && o.size % 256 = 0 && o.homeDpa % 256 = 0 && (o.up = 3 || o.upDpa % 256 = 0) && homeOk && upOk

/-- The fields of word 0 that software owns (R307). -/
def objSw (w : Nat) : Nat := bits w 0 6 + bits w 16 12 * 0x10000

/-- Software writes word 0 of object `n` (R308). -/
def State.writeObj0 (s : State) (n w : Nat) : State :=
  let o := s.obj n
  if o.valid then
    if bits w 0 1 = 0 && o.state = 1 && !o.upauth && o.pins = 0 && !s.obreqs.any (·.obj = n) then
      s.setTable (obKey n 0) (objSw w)
    else s.occ 59 5
  else if bits w 0 1 = 0 then s.setTable (obKey n 0) (objSw w)
  else if n ≠ 0 && s.objOk (Obj.ofWords w (s.tword (obKey n 1)) (s.tword (obKey n 2)) (s.tword (obKey n 3))) then
    ((s.setTable (obKey n 0) (objSw w + 0x100)).setTable (obKey n 4) 0).setTable (obKey n 5) 0
  else (s.setTable (obKey n 0) (objSw w - 1)).occ 59 4

/-- Software writes word `w` of object `n` (R307, R308). -/
def State.writeObj (s : State) (n w v : Nat) : State :=
  if w = 0 then s.writeObj0 n v
  else if 4 ≤ w then s
  else if (s.obj n).valid then s.occ 59 5
  else s.setTable (obKey n w) (bits v 0 (if w = 1 then 40 else 48))

/-- An object is registered: word 0 written with VALID = 1. -/
def execObjectRegister (n : Fin 16384) (w : Word64) (s : State) : Host.Outcome State Fault Refusal :=
  .next (s.tableWrite (0x200000 + 8 * n) fun s => s.writeObj0 n (w.toNat / 2 * 2 + 1))

/-- An object is deregistered: word 0 written with VALID = 0. -/
def execObjectDeregister (n : Fin 16384) (w : Word64) (s : State) : Host.Outcome State Fault Refusal :=
  .next (s.tableWrite (0x200000 + 8 * n) fun s => s.writeObj0 n (w.toNat / 2 * 2))

/-! ### Copies (R311, R312) -/

/-- The pieces of a copy, one for each 256-B line. -/
def linePieces (src dst size : Nat) : List Piece :=
  (List.range (size / 256)).map fun k => { src := .at (src + 256 * k), dst := dst + 256 * k, n := 256 }

/-- Can a line be reached? -/
def State.lineOk (s : State) (a : Nat) : Bool :=
  if (placeOf a).region = .underlay then s.underlayOk a 256 else s.rangeOk a 256

/-- Move the lines of a copy (R312): an uncorrectable unit read raises its event and carries its marker along (R290), and a line out of
reach moves nothing (R296). Neither traps: an OB instruction takes OBJ_INVALID alone (R285). -/
def State.copyObj (s : State) (ins : InsRef) (src dst size : Nat) : State :=
  let dev (a : Nat) : List Span := if (placeOf a).region = .underlay then [] else [{ a, n := size }]
  let s := s.want (s.snooped (dev src) false ++ s.snooped (dev dst) true)
  let s := s.touchTier ins.d (dev src) (dev dst)
  let ok := (linePieces src dst size).filter fun p => (match p.src with | .at a => s.lineOk a | _ => true) && s.lineOk p.dst
  let s := s.each (s.badUnits (ok.flatMap fun p => match p.src with | .at a => if (dev a).isEmpty then [] else [{ a, n := 256 }] | _ => []))
    State.memUncorr
  s.each ok fun s p => s.movePiece ins p

/-- Does a copy use the Underlay? -/
def Obj.far (o : Obj) : Bool := o.home = 2

/-! ### Requests -/

/-- A request completes: it leaves the directory, and counts as a no-op where it made no move (R311). -/
def State.obDone (s : State) (ins : InsRef) (moved : Bool) : State :=
  let s := ({ s with obreqs := s.obreqs.filter (·.ins ≠ ins) } : State).finishRef ins (s.trapOf ins)
  if moved then s else s.occ 59 6

/-- An eviction yields (R311). -/
def State.obYield (s : State) (n : Nat) (ins : InsRef) : State :=
  ((s.setTable (obKey n 5) (satAdd (s.tword (obKey n 5)) 1)).occ 59 7).obDone ins false

/-- A promotion begins: it takes its slot; the copy from the Underlay starts. -/
def State.obStart (s : State) (n : Nat) (ins : InsRef) : State :=
  let o := s.obj n
  let s := if o.slot = 0 then s else s.setTable (slotKey o.slot) n
  let s := (s.setObj n 7 1 0).setObjState n 2 false
  if o.far then s.copyObj ins o.homeDpa o.upDpa o.size else s

/-- Is the slot of an object free or its own (R309)? -/
def State.slotFree (s : State) (n : Nat) : Bool :=
  let o := s.obj n
  o.slot = 0 || s.tword (slotKey o.slot) = 0 || s.tword (slotKey o.slot) = n

/-- References to an object (R310). -/
def State.referenced (s : State) (n : Nat) : Bool :=
  let o := s.obj n
  o.pins ≠ 0 || (o.upauth && s.obreqs.any fun r => r.obj = n && r.kind = 4 && r.tier = o.tier)

/-- The event of a request that names a tier the object does not have (R311). -/
def State.mismatch (s : State) (n tier : Nat) : State :=
  let o := s.obj n
  if tier = o.tHome || tier = o.tUp then s else s.raise 0x2C3 59 n tier

/-- The oldest promotion that waits for a slot (R311). -/
def State.slotWaiter (s : State) (slot : Nat) : Option ObReq :=
  if slot = 0 then none
  else s.obreqs.find? fun r => r.kind = 1 && !r.queued && (s.obj r.obj).pending && (s.obj r.obj).slot = slot

/-- An eviction ends (R311). -/
def State.evictEnd (s : State) (n : Nat) (ins : InsRef) : State :=
  let o := s.obj n
  let s := if o.slot = 0 then s else s.setTable (slotKey o.slot) 0
  let s := ((s.setObjState n 1 false).setTable (obKey n 4) s.ticket.toNat).obDone ins true
  match s.slotWaiter o.slot with
  | none => s
  | some r => s.obStart r.obj r.ins

/-- The directory keeps a request for later. -/
def State.obQueue (s : State) (r : ObReq) : State :=
  { s with obreqs := s.obreqs.map fun x => if x.ins = r.ins then { x with queued := true } else x }

/-- A promotion meets an object (R311). -/
def State.obPromote (s : State) (r : ObReq) : State :=
  let o := s.obj r.obj
  if r.tier ≠ o.tUp || r.tier = o.tHome then (s.mismatch r.obj r.tier).obDone r.ins false
  else if o.state = 3 then
    match s.obreqs.find? fun x => x.obj = r.obj && x.kind = 2 && !x.queued with
    | none => (s.setObjState r.obj 1 true).obDone r.ins false
    | some x => ((s.setObjState r.obj 1 true).obYield r.obj x.ins).obDone r.ins false
  else if o.state = 2 || o.pending then s.obQueue r
  else if o.upauth then s.obDone r.ins false
  else if s.slotFree r.obj then s.obStart r.obj r.ins
  else s.setObj r.obj 7 1 1

/-- An eviction meets an object (R311). -/
def State.obEvict (s : State) (r : ObReq) : State :=
  let o := s.obj r.obj
  let s := s.mismatch r.obj r.tier
  if o.state = 2 || o.pending then s.obYield r.obj r.ins
  else if r.tier ≠ o.tHome then s.obDone r.ins false
  else if o.state = 3 then s.obQueue r
  else if !o.upauth then s.obDone r.ins false
  else if s.referenced r.obj || s.obreqs.any (fun x => x.obj = r.obj && x.kind = 1) then s.obYield r.obj r.ins
  else
    let s := s.setObjState r.obj 3 true
    if !o.wb then s.evictEnd r.obj r.ins
    else if o.far then s.copyObj r.ins o.upDpa o.homeDpa o.size else s

/-- A prefetch fills lines of the cache parts (R311, R297): of the object's lines in one stack, which follow one another, up to PREFWAYS in
each set. -/
def State.obPrefetch (s : State) (r : ObReq) : State :=
  let o := s.obj r.obj
  let s :=
    if o.upauth || o.home ≠ 1 then s
    else (s.want (s.shut [{ a := o.homeDpa, n := o.size }])).each (List.range (o.size / 256)) fun s k =>
      match (placeOf (o.homeDpa + 256 * k)).region with
      | .hbm h =>
        let l := s.loftAt h
        let first := max (o.homeDpa / 256) (h * 0x10000000)
        if l.sets = 0 then s.occ (16 + r.ins.d) 9
        else if (o.homeDpa / 256 + k - first) / l.sets < l.prefways then s.touchLine (o.homeDpa / 256 + k) false true else s
      | _ => s
  s.obDone r.ins false

/-- The directory serves a request (R310, R311). -/
def State.obServe (s : State) (r : ObReq) : State :=
  match r.kind with
  | 1 => s.obPromote r
  | 2 => s.obEvict r
  | 3 => s.obPrefetch r
  | 4 => s.mismatch r.obj r.tier
  | _ => s

/-- A wait whose condition holds completes (R311): no earlier request of its Truss on the object is outstanding, and the
authoritative copy is in its tier. -/
def State.waitMet (s : State) (r : ObReq) : Bool :=
  r.kind = 4 && (s.obj r.obj).tier = r.tier &&
  !s.obreqs.any fun x => x.ins.d = r.ins.d && x.obj = r.obj && x.ins.seq < r.ins.seq

/-- Complete the waits that are met, in the order they came. -/
def State.serveWaits (s : State) : State := s.each s.obreqs fun s r => if s.waitMet r then s.obDone r.ins false else s

/-- Serve the queued requests of an object while it is RESIDENT and nothing is pending, in order; `n` bounds them. -/
def State.serveQueue (s : State) (obj : Nat) : Nat → State
  | 0 => s
  | n + 1 =>
    let o := s.obj obj
    if o.state ≠ 1 || o.pending then s else
    match s.obreqs.find? fun r => r.obj = obj && r.queued with
    | none => s
    | some r =>
      (({ s with obreqs := s.obreqs.map fun x => if x.ins = r.ins then { x with queued := false } else x } : State).obServe
        { r with queued := false }).serveQueue obj n

/-- After a change of an object: its queue, then the waits. -/
def State.obSettle (s : State) (obj : Nat) : State := (s.serveQueue obj s.obreqs.length).serveWaits

/-- An OB instruction issues (R277, R278, R310): it stalls while the directory or its engine is full. -/
def obIssue (d : TrussId) (op : Nat) (kind : Nat) (s : State) : Host.Outcome State Fault Refusal :=
  waitRecall s <|
  match s.ready d 6 op with
  | none => .next s
  | some e =>
    let s := s.issue d 6 e
    let n := e.da + 0x1000 * bits e.cr 0 4
    if n = 0 || 16384 ≤ n || !(s.obj n).valid then .next (s.issueTrap d 6 e .objInvalid) else
    let r : ObReq := { ins := e.ref d, obj := n, kind, tier := bits e.mod 0 2, prio := e.hi 0 2 }
    let s : State := { s with obreqs := s.obreqs ++ [r] }
    if kind = 0 then
      let x := (s.obj n).pins
      let m := 2 ^ d.val
      let pins := if e.m 0 then (if x / m % 2 = 1 then x - m else x) else (if x / m % 2 = 1 then x else x + m)
      .next (((s.setObj n 11 4 pins).obDone r.ins false).obSettle n)
    else .next ((s.obServe r).obSettle n)

/-- OB.PIN (R277). -/
def execObPin (d : TrussId) (s : State) : Host.Outcome State Fault Refusal := obIssue d 0x90 0 s

/-- OB.PROMOTE (R277, R311). -/
def execObPromote (d : TrussId) (s : State) : Host.Outcome State Fault Refusal := obIssue d 0x91 1 s

/-- OB.EVICT (R277, R311). -/
def execObEvict (d : TrussId) (s : State) : Host.Outcome State Fault Refusal := obIssue d 0x92 2 s

/-- OB.PREFETCH (R277, R311). -/
def execObPrefetch (d : TrussId) (s : State) : Host.Outcome State Fault Refusal := obIssue d 0x93 3 s

/-- OB.WAIT (R277, R311). -/
def execObWait (d : TrussId) (s : State) : Host.Outcome State Fault Refusal := obIssue d 0x94 4 s

/-- The request whose copy is under way on an object. -/
def State.copying (s : State) (n kind : Nat) : Option ObReq :=
  s.obreqs.find? fun r => r.obj = n && r.kind = kind && !r.queued

/-- Is the copy of a request under way? -/
def State.inCopy (s : State) (r : ObReq) : Bool :=
  !r.queued && ((r.kind = 1 && (s.obj r.obj).state = 2) || (r.kind = 2 && (s.obj r.obj).state = 3))

/-- A copy of higher priority of the same tier engine takes its paths first, and ends first (R310's level rule; DEDUCED, log entry
60). A copy to or from the Underlay moves as the link lets it. -/
def State.outranked (s : State) (r : ObReq) : Bool :=
  !(s.obj r.obj).far && s.obreqs.any fun x => x.ins.d = r.ins.d && r.prio < x.prio && s.inCopy x && !(s.obj x.obj).far

/-- The copy of a promotion ends (R311); bytes from the Underlay have all come. -/
def promoteCopyEnd (n : Nat) (s : State) : State :=
  let o := s.obj n
  match if o.state = 2 then s.copying n 1 else none with
  | none => s
  | some r =>
    if s.uwBusy r.ins || s.outranked r then s else
    let s := if o.far then s else s.copyObj r.ins o.homeDpa o.upDpa o.size
    ((((s.setObjState n 1 true).setTable (obKey n 4) s.ticket.toNat).obDone r.ins true).serveWaits).obSettle n

/-- PROMOTE_COPY_END. -/
def execPromoteCopyEnd (n : Fin 16384) (s : State) : Host.Outcome State Fault Refusal :=
  waitRecall s (.next (promoteCopyEnd n s))

/-- The copy of an eviction ends (R311). -/
def evictCopyEnd (n : Nat) (s : State) : State :=
  let o := s.obj n
  match if o.state = 3 then s.copying n 2 else none with
  | none => s
  | some r =>
    if s.uwBusy r.ins || s.outranked r then s else
    let s := if o.far then s else s.copyObj r.ins o.upDpa o.homeDpa o.size
    (s.evictEnd n r.ins).obSettle n

/-- EVICT_COPY_END. -/
def execEvictCopyEnd (n : Fin 16384) (s : State) : Host.Outcome State Fault Refusal :=
  waitRecall s (.next (evictCopyEnd n s))

end Sys2Proof.Machine
end

