-- ==== Sys2Proof/Machine/Buckets.lean ====
section
/-! DEFINITION. Buckets (R336 to R347): CO.BUCKET with its intake, scale agreement (R135 to R137, R339), encoding (R102, R340),
the adders and the phases of a reduction (R341 to R344), and landing (R345). -/
namespace Sys2Proof.Machine

/-! ### Buckets and blocks (R336) -/

/-- Elements of bucket `b`. -/
def JobRec.elems (r : JobRec) (b : Nat) : Nat := min ((b + 1) * r.perBucket) r.spaceLen - b * r.perBucket

/-- Blocks of bucket `b`. -/
def JobRec.blocks (r : JobRec) (b : Nat) : Nat := (r.elems b + 31) / 32

/-- Blocks of quarter `q` among `n`. -/
def quarter (n q : Nat) : Nat := (n + 3 - q) / 4

/-- The segment that holds block `u` of `n`, cut among `k` members (R341). -/
def segOf (n k u : Nat) : Nat := ((u + 1) * k - 1) / n

/-- The first block of segment `i`. -/
def segStart (n k i : Nat) : Nat := i * n / k

/-- The segments of block `j` of bucket `b`: at the first level, and within it at the second (R341, R342). -/
def JobCtx.segs (c : JobCtx) (b j : Nat) : Nat × Nat :=
  let n := quarter (c.jr.blocks b) (j % 4)
  match c.rings with
  | r :: q :: _ =>
    let s := segOf n r.size (j / 4)
    let lo := segStart n r.size s
    (s, segOf (segStart n r.size (s + 1) - lo) q.size (j / 4 - lo))
  | [r] => (segOf n r.size (j / 4), 0)
  | [] => (0, 0)

/-- The blocks of bucket `b` in the order in which its ring needs them here (R341): the segment that starts at this member, then each
that comes next. -/
def JobCtx.order (c : JobCtx) (b : Nat) : List Nat :=
  match c.rings with
  | r :: _ => (List.range r.size).flatMap fun d =>
      (List.range (c.jr.blocks b)).filter fun k => (c.segs b k).1 = (r.pos + 2 * r.size - 1 - d) % r.size
  | [] => []

/-- A bucket of a context; an empty one where nothing of it is here yet. -/
def JobCtx.bucket (c : JobCtx) (b : Nat) : Bucket := (Sparse.get none c.buckets b).getD {}

/-- Change a bucket of context `j`. -/
def State.modBucket (s : State) (j b : Nat) (f : Bucket → Bucket) : State :=
  s.modJob j fun c => { c with buckets := Sparse.put none c.buckets b (some (f (c.bucket b))) }

/-! ### ZB8 blocks (R99 to R102, R343, R344) -/

/-- The bytes of a lane. -/
def laneBytes (esc : Bool) (v : Int) : List Byte := if esc then leBytes (unsignedOf v 16) 2 else leBytes (unsignedOf v 8) 1

/-- A block as it travels and lands. -/
def Block.wire (k : Block) : List Byte :=
  BitVec.ofNat 8 ((if k.poison then 0x80 else 0) + (if k.esc then 0x40 else 0)) :: k.lanes.flatMap (laneBytes k.esc)

/-- The bytes of a block that land: of its first `n` lanes (R336, R345). -/
def Block.landing (k : Block) (n : Nat) : List Byte :=
  BitVec.ofNat 8 ((if k.poison then 0x80 else 0) + (if k.esc then 0x40 else 0)) :: (k.lanes.take n).flatMap (laneBytes k.esc)

/-- The block that begins a run of bytes, with the rest. -/
def Block.ofWire : List Byte → Option (Block × List Byte)
  | [] => none
  | c :: l =>
    let esc := c.getLsbD 6
    let w := if esc then 2 else 1
    if l.length < 32 * w then none else
    let lanes := (List.range 32).map fun j => signedOf (leNat ((l.drop (w * j)).take w)) (8 * w)
    some (if c.getLsbD 7 then { poison := true } else { esc, lanes }, l.drop (32 * w))

/-- Read `n` blocks that fill a run of bytes exactly. -/
def blocksOf : Nat → List Byte → Option (List Block)
  | 0, l => if l.isEmpty then some [] else none
  | n + 1, l =>
    match Block.ofWire l with
    | none => none
    | some (k, l) => (blocksOf n l).map (k :: ·)

/-- A block of lane sums (R102, steps 3 to 5). -/
def Block.ofSums (lanes : List Int) (drops : Nat) : Block :=
  if lanes.all (fun v => -128 ≤ v && v ≤ 127) then { lanes, drops }
  else if lanes.all (fun v => -32768 ≤ v && v ≤ 32767) then { esc := true, lanes, drops }
  else { poison := true, drops }

/-- The largest magnitude among lanes. -/
def maxLane (l : List Int) : Nat := l.foldl (fun m v => max m v.natAbs) 0

/-- An adder's result (R343, R344): of an incoming block, none at the first member of a segment, and the local one. -/
def adder (inc : Option Block) (own : Block) : Block :=
  let i := inc.getD {}
  if i.poison || own.poison then { poison := true, drops := i.drops + own.drops }
  else
    let k := Block.ofSums (List.zipWith (· + ·) i.lanes own.lanes) (i.drops + own.drops)
    if k.poison then k else { k with maxq := max (max i.maxq own.maxq) (maxLane k.lanes) }

/-- The occurrences of an adder's result at slice `q` (R343, R359). -/
def State.countAdd (s : State) (q : Nat) (inc : Option Block) (own k : Block) : State :=
  let i := inc.getD {}
  if k.poison then
    if i.poison || own.poison then s else (s.orReg (46 + q) 0xC 0x10).occ (46 + q) 2
  else if k.esc && !i.esc && !own.esc then s.occ (46 + q) 0 else s

/-- RNE of a value to an integer. -/
def rneInt : Num → Int
  | .fin neg m e =>
    let k : Int := roundUnits .rne m e 0
    if neg then -k else k
  | _ => 0

/-- Encode one block of elements (R102, R340) at slice `q`. -/
def State.encodeBlock (s : State) (q : Nat) (drop : Bool) (eb : Int) (l : List Num) : State × Block :=
  if l.any Num.nonFinite then
    if drop then (s.occ (46 + q) 4, { drops := 1 }) else (s.occ (46 + q) 1, { poison := true })
  else
    let k := Block.ofSums (l.map fun x => rneInt (x.scale (-eb))) 0
    (if k.poison then (s.orReg (46 + q) 0xC 0x10).occ (46 + q) 2 else s, k)

/-! ### Landing (R345) -/

/-- The slot of block `j` of bucket `b`. -/
def JobRec.slot (r : JobRec) (b j : Nat) : Nat := r.landing + (b * r.mib * 2 ^ 13 + j) * 65

/-- A total lands: it is written to its slot, lanes beyond SPACE_LEN excepted (R336); a poisoned one
forces a no (R347). -/
def State.land (s : State) (j b blk : Nat) (k : Block) : State :=
  let c := s.job j
  let a := c.jr.slot b blk
  let bs := k.landing (min 32 (c.jr.elems b - 32 * blk))
  let s := (s.storeBucket (c.bucket b).pre a bs).modBucket j b fun x => { x with landed := x.landed ++ [(blk, k)] }
  if k.poison then
    let q := blk % 4
    (((s.orReg (46 + q) 0xC 8).occ (46 + q) 3).raiseOnce c.d0 0x300 (46 + q) c.d0 b).forceNo 5
  else s

/-! ### Phases (R341, R342) -/

/-- A bucket packet that carries one block. LAST marks the last block of the segment that its level cuts (R332, R342). -/
def State.bucketPacket (s : State) (c : JobCtx) (kind : Kind) (m lvl b blk : Nat) (eb : Int) (k : Block) : Packet :=
  let n := quarter (c.jr.blocks b) (blk % 4)
  let last := decide (blk / 4 + 1 = n ∨ (c.segs b (blk + 4)).1 ≠ (c.segs b blk).1 ∨
    (lvl = 2 ∧ (c.segs b (blk + 4)).2 ≠ (c.segs b blk).2))
  { s.packetTo c kind m with
    flags := BitVec.ofNat 8 (16 * c.attempt + 4 * lvl + (if last then 2 else 0) + (if k.poison then 1 else 0)),
    eb := BitVec.ofInt 16 eb, bucket := BitVec.ofNat 32 b, first := BitVec.ofNat 32 (blk / 4 + 2 ^ 30 * (blk % 4)), nblk := 1,
    maxq := BitVec.ofNat 16 k.maxq, drops := BitVec.ofNat 32 (min k.drops (2 ^ 32 - 1)), payload := k.wire }

/-- Send a block on a ring, unless the attempt has ended meanwhile. -/
def State.sendBlock (s : State) (j : Nat) (kind : Kind) (r : Ring) (b blk : Nat) (k : Block) : State :=
  let c := s.job j
  if (c.bucket b).eb.isNone then s else
  s.send (s.bucketPacket c kind r.next r.lvl b blk ((c.bucket b).eb.getD 0) k)

/-- The all-gather passes a total on (R341, R342): along the ring `r`, which ends before position `stop`. -/
def State.passOn (s : State) (j : Nat) (r : Ring) (stop b blk : Nat) (k : Block) : State :=
  if (r.pos + 1) % r.size = stop then s else s.sendBlock j .bucketAg r b blk k

/-- A total is formed at this member, or comes to it at the second level: it lands, and starts the all-gather of every level. -/
def State.total (s : State) (j b blk : Nat) (k : Block) : State :=
  let c := s.job j
  let (s0, s1) := c.segs b blk
  let s := s.land j b blk k
  match c.rings with
  | r :: q :: _ => (s.passOn j q s1 b blk k).passOn j r s0 b blk k
  | [r] => s.passOn j r s0 b blk k
  | [] => s

/-- Phase 2 of TREE2 (R342): this member's level-1 total meets what comes on the second ring. -/
def State.reduce2 (s : State) (j b blk : Nat) (inc : Option Block) (own : Block) : State :=
  let c := s.job j
  match c.rings with
  | _ :: q :: _ =>
    let k := adder inc own
    let s := (s.countAdd (blk % 4) inc own k).modBucket j b fun x =>
      { x with mid := x.mid.filter (·.1 ≠ blk), wait := x.wait.filter (·.1 ≠ blk) }
    if q.pos = (c.segs b blk).2 then s.total j b blk k else s.sendBlock j .bucketRs q b blk k
  | _ => s

/-- Reduce-scatter at the first level (R341, R342). -/
def State.reduce1 (s : State) (j b blk : Nat) (inc : Option Block) : State :=
  let c := s.job j
  match (c.bucket b).own.find? (·.1 = blk), c.rings with
  | some (_, own), r :: rest =>
    let k := adder inc own
    let s := (s.countAdd (blk % 4) inc own k).modBucket j b fun x => { x with gone := x.gone ++ [blk] }
    let (s0, s1) := c.segs b blk
    if r.pos ≠ s0 then s.sendBlock j .bucketRs r b blk k
    else
      match rest with
      | [] => s.total j b blk k
      | q :: _ =>
        let s := s.modBucket j b fun x => { x with mid := x.mid ++ [(blk, k)] }
        if q.pos = (s1 + 1) % q.size then s.reduce2 j b blk none k
        else
          match (c.bucket b).wait.find? (·.1 = blk) with
          | some (_, i) => s.reduce2 j b blk (some i) k
          | none => s
  | _, _ => s

/-! ### Scale agreement (R135 to R137, R339) -/

/-- The scale entry of a bucket. -/
def JobRec.entry (r : JobRec) (b : Nat) : Nat := r.scaletab + 16 * b

/-- A legal bucket exponent (R101). -/
def clampEb (x : Int) : Int := max (-157) (min 112 x)

/-- E_b from B (R136); an infinite B takes the highest. -/
def ebPresent : Num → Int
  | .fin _ m e => if m = 0 then 0 else clampEb (ceilLog2 m e - 7)
  | _ => 112

/-- A non-negative exact value in Z40, rounded toward plus infinity. -/
def upZ40 (x : Num) : Num := Layout.z40.decode (Layout.z40.convert false .up x).code

/-- Bytes of the Wire part of slice `q` that a bucket takes (R325): encoded blocks that have not left it, and partials and totals that
wait in it. -/
def Bucket.wire (k : Bucket) (q : Nat) : Nat :=
  (((k.own.filter (!k.gone.contains ·.1) ++ k.arr ++ k.mid ++ k.wait).filter (·.1 % 4 = q)).map (·.2.wire.length)).sum

/-- Is there room for `n` bytes in the Wire part of slice `q`: 4 MiB (R325)? -/
def State.wireRoom (s : State) (q n : Nat) : Bool :=
  (s.jobs.toList.map fun c => (c.buckets.map fun p => match p.2 with | some k => k.wire q | none => 0).sum).sum + n ≤ 0x400000

/-- The elements of block `k` in the intake of a bucket. -/
def Bucket.elements (b : Bucket) (k : Nat) : List Num :=
  (List.range 32).map fun i =>
    match Sparse.get none b.intake (32 * k + i) with
    | some v => Layout.z40.decode v
    | none => Num.zero

/-- The next block of a bucket is encoded under its agreed E_b (R340), where the Wire part of its slice has room for it; it starts its
segment, or meets the partial that waits for it. With the last block the intake is free (R337). -/
def State.encodeNext (s : State) (j b : Nat) : Option State :=
  let c := s.job j
  let bk := c.bucket b
  match bk.eb, (c.order b).find? fun k => !bk.own.any (·.1 = k) with
  | some eb, some k =>
    let (t, x) := s.encodeBlock (k % 4) c.jr.dropPol eb (bk.elements k)
    if !s.wireRoom (k % 4) x.wire.length then none else
    let t := t.modBucket j b fun y =>
      { y with own := y.own ++ [(k, x)], intake := if y.own.length + 1 = c.jr.blocks b then [] else y.intake,
               arr := y.arr.filter (·.1 ≠ k) }
    match c.rings, bk.arr.find? (·.1 = k) with
    | r :: _, inc =>
      if r.pos = ((c.segs b k).1 + 1) % r.size then some (t.reduce1 j b k none)
      else
        match inc with
        | some (_, i) => some (t.reduce1 j b k (some i))
        | none => some t
    | [], _ => some t
  | _, _ => none

/-- Blocks of a bucket are encoded as long as one may be; `n` bounds them. -/
def State.encodeUp (s : State) (j b : Nat) : Nat → State
  | 0 => s
  | n + 1 =>
    match s.encodeNext j b with
    | some t => t.encodeUp j b n
    | none => s

/-- Buckets whose encoding waits for the Wire part go on. -/
def State.encodeResume (s : State) : State :=
  s.each (List.range 64) fun s j => s.each ((s.job j).buckets.map (·.1)) fun s b => s.encodeUp j b ((s.job j).jr.blocks b)

/-- A bucket's E_b is known: it is encoded (R340). -/
def State.encode (s : State) (j b : Nat) (eb : Int) : State :=
  (s.modBucket j b fun x => { x with eb := some eb }).encodeUp j b ((s.job j).jr.blocks b)

/-- E_b is agreed: TRIED := t, and the bucket is encoded. -/
def State.agreed (s : State) (j b : Nat) (eb : Int) : State :=
  (s.store ((s.job j).jr.entry b + 8) (leBytes s.ticket.toNat 6)).encode j b eb

/-- An AGREE packet: the running value in Z40 container form as its payload, and in FIRST bits [31:30] where it stands: 0 on the
chain, 1 handed to m_0, 2 broadcast (the manual gives no form; log entry 45). -/
def State.agreePacket (s : State) (c : JobCtx) (m stage lvl b : Nat) (v : Num) : Packet :=
  withLevel { s.packetTo c .agree m with
    bucket := BitVec.ofNat 32 b, first := BitVec.ofNat 32 (2 ^ 30 * stage), payload := leBytes (toContainer v).toNat 8 } lvl

/-- B has come (R339): the device derives its E_b where it has none. -/
def State.takeB (s : State) (j b : Nat) (v : Num) : State :=
  let c := s.job j
  let bk := c.bucket b
  if bk.eb.isNone && bk.count = c.jr.elems b then s.agreed j b (ebPresent v) else s

/-- m_0 broadcasts B, and a member passes it on (R352). -/
def State.castB (s : State) (j b : Nat) (v : Num) : State :=
  let c := s.job j
  (s.each c.castOut fun s m => s.send (s.agreePacket c m.1 2 m.2 b v)).takeB j b v

/-- The chain of the present-bound exchange (R339, R352): this member folds its a once it is complete and the running value has
come. -/
def State.chainGo (s : State) (j b : Nat) : State :=
  let c := s.job j
  let bk := c.bucket b
  let pos := c.chainPos
  if bk.folded || bk.count ≠ c.jr.elems b || (pos ≠ 0 && bk.chain.isNone) then s else
  let v := upZ40 (Num.add (bk.chain.getD Num.zero) bk.amax)
  let s := s.modBucket j b fun x => { x with folded := true }
  match c.chain[pos + 1]? with
  | some m => s.send (s.agreePacket c m 0 0 b v)
  | none => if c.self = 0 then s.castB j b v else (s.send (s.agreePacket c 0 1 0 b v)).takeB j b v

/-- Every element of a bucket is contributed (R339): E_b is agreed by previous maximum, or the exchange begins. -/
def State.agree (s : State) (j b : Nat) : State :=
  let c := s.job j
  let a := c.jr.entry b
  let s := s.forRead [{ a, n := 16 }]
  let bad := (touchedUnits a 16).filter s.poisonAt
  let s := s.each bad State.memUncorr
  let t := s.ticket.toNat
  let prev := bad.isEmpty && s.readNat (a + 14) 1 % 2 = 1 && (s.readNat a 6 + 1) % 2 ^ 48 = t && s.readNat (a + 8) 6 ≠ t
  if prev then
    let s := s.agreed j b (clampEb (signedOf (s.readNat (a + 6) 2) 16 + c.jr.headroom - 7))
    if (c.bucket b).chain.isSome then s.chainGo j b else s
  else s.chainGo j b

/-! ### Contribution (R264, R265, R337, R338) -/

/-- Places of the views of classes CO and UP (R260). -/
def coPlace : Region → Bool
  | .hbm _ | .loft _ | .array _ | .gutter _ => true
  | _ => false

/-- The open context of a job, as an index. -/
def State.openJob (s : State) (job : Nat) : Option Nat :=
  (List.range 64).find? fun j => (s.job j).state = 1 && (s.job j).job = job

/-- Bytes that a bucket takes in the intake of slice `q`: 5 for each element of its quarter (R337). -/
def JobRec.intake (r : JobRec) (b q : Nat) : Nat :=
  let n := r.blocks b
  5 * (32 * quarter n q - if n ≠ 0 && (n - 1) % 4 = q then 32 * n - r.elems b else 0)

/-- Bytes of the intake of a slice that buckets not yet encoded hold (R337). -/
def State.intakeUsed (s : State) (q : Nat) : Nat :=
  (s.jobs.toList.map fun c =>
    (c.buckets.map fun p =>
      match p.2 with
      | some k => if k.count ≠ 0 && k.own.length < c.jr.blocks p.1 then c.jr.intake p.1 q else 0
      | none => 0).sum).sum

/-- Is there intake space for bucket `b` of context `j`? -/
def State.intakeRoom (s : State) (j b : Nat) : Bool :=
  let c := s.job j
  (c.bucket b).count ≠ 0 ||
    (List.range 4).all fun q => s.intakeUsed q + c.jr.intake b q ≤ 0x1800000

/-- The elements of a view as (index of R217, row, column). -/
def Desc.elements (x : Desc) : List (Nat × Nat × Nat) :=
  (List.range x.rows).flatMap fun r => (List.range x.cols).map fun c => (x.index r c, r, c)

/-- One CO.BUCKET contributes its elements of one bucket. -/
def State.takeBucket (s : State) (w : BktWait) (b : Nat) : State :=
  let c := s.job w.ctx
  let x := Desc.ofWords w.view
  let l := x.elements.filter fun p => (w.off + p.1) / c.jr.perBucket = b
  let s := s.modBucket w.ctx b fun bk => l.foldl (fun bk p =>
    let v := s.widen x p.2.1 p.2.2
    { bk with intake := Sparse.put none bk.intake ((w.off + p.1) % c.jr.perBucket) (some (toZ40 v)), count := bk.count + 1,
              amax := if !v.nonFinite && Num.lt bk.amax v.abs then v.abs else bk.amax }) bk
  if ((s.job w.ctx).bucket b).count = c.jr.elems b then s.agree w.ctx b else s

/-- A CO.BUCKET contributes to its buckets in ascending order while the intake has room; then it completes. -/
def State.contribute (s : State) (w : BktWait) : List Nat → State
  | [] => s.finishRef w.ins
  | b :: bs =>
    if s.intakeRoom w.ctx b then (s.takeBucket w b).contribute w bs
    else { s with bktWait := s.bktWait ++ [{ w with todo := b :: bs }] }

/-- Instructions that wait for intake space try again, in the order they came. -/
def State.bktResume (s : State) : State :=
  ({ s with bktWait := [] } : State).each s.bktWait fun t w => t.contribute w w.todo

/-- Does another CO.BUCKET that waits cover the element? -/
def State.bktCovers (s : State) (j e : Nat) : Bool :=
  let per := (s.job j).jr.perBucket
  s.bktWait.any fun w => w.ctx = j && w.todo.contains (e / per) && (Desc.ofWords w.view).elements.any fun p => w.off + p.1 = e

/-- Is element `e` of the gradient space contributed already? -/
def State.contributed (s : State) (j e : Nat) : Bool :=
  let c := s.job j
  let bk := c.bucket (e / c.jr.perBucket)
  bk.eb.isSome || (Sparse.get none bk.intake (e % c.jr.perBucket)).isSome || s.bktCovers j e

/-- The instruction's attempt is over: abandoned, or its outcome is owed (R348 point 4, R568). -/
def State.inert (s : State) : Bool := s.commit.abandoned || s.commit.owed

/-- CO.BUCKET (R264, R265). -/
def coBucket (d : TrussId) (s : State) : Host.Outcome State Fault Refusal :=
  match s.ready d 7 0x61 with
  | none => .next s
  | some e =>
    let s := s.issue d 7 e
    if s.inert then .next (s.finish d e.seq) else
    let n := e.da
    let x := s.desc d e.db
    let off := bits (s.gw n 1) 0 40
    let idx := x.elements.map (·.1)
    let jobTrap : Option TrapCause × Nat :=
      if !s.gValid n then (some .groupInvalid, 0)
      else
        match s.openJob (s.gJob n) with
        | none => (some .jobState, 0)
        | some j =>
          (if idx.any (fun i => bits (s.gw n 2) 0 40 ≤ i || (s.job j).jr.spaceLen ≤ off + i || s.contributed j (off + i)) ||
              idx.eraseDups.length ≠ idx.length then some .bucketRange else none, j)
    match firstTrap [x.check fun f => f = 7 || isZ40 f, jobTrap.1] with
    | some c => .next (s.issueTrap d 7 e c)
    | none =>
      let (s, trap) := s.access .collective coPlace x.all []
      if trap.isSome then .next (s.finish d e.seq trap) else
      let per := (s.job jobTrap.2).jr.perBucket
      let todo := (idx.map fun i => (off + i) / per).eraseDups.foldl (fun l b => insertBy id b l) []
      .next ((s.contribute { ins := e.ref d, ctx := jobTrap.2, off, view := (s.tr d).descWords e.db, todo } todo).bktResume)

/-- CO.BUCKET, where the host holds no line of it. -/
def execCoBucket (d : TrussId) (s : State) : Host.Outcome State Fault Refusal := waitRecall s (coBucket d s)

/-! ### A landed bucket (R345, R347) -/

/-- The landing of a bucket's last slot: M, the bucket's DROPS, the scale entry (R137, R339), the count of escapes. Where M is 0 the manual states no
EMAX: it is a free value beside MAX_VALID 0. -/
def State.bucketLanded (s : State) (j b : Nat) : State :=
  let c := s.job j
  let bk := c.bucket b
  let n := c.jr.blocks b
  if c.state = 0 || bk.isLanded || n = 0 || bk.landed.length ≠ n then s else
  let m := bk.landed.foldl (fun m p => max m p.2.maxq) 0
  let (f, s) := if m = 0 then s.drawFree else (0, s)
  let emax := if m = 0 then f % 2 ^ 16 else unsignedOf (ceilLog2 m 0 + bk.eb.getD 0) 16
  let t := s.ticket.toNat
  let a := c.jr.entry b
  let head := leBytes t 6 ++ leBytes emax 2
  let tail := leBytes (if m = 0 then 0 else 1) 2
  let bad := (touchedUnits a 16).filter s.poisonAt
  let s :=
    if bad.isEmpty then (s.storeBucket bk.pre a head).storeBucket bk.pre (a + 14) tail
    else
      let own := head ++ leBytes t 6 ++ tail
      let other := List.replicate 8 (0 : Byte) ++ leBytes t 6 ++ [0, 0]
      if (placeOf a).region.unit = 32 then
        if a % 32 = 0 then s.storeBucket bk.pre a (own ++ other) else s.storeBucket bk.pre (a - 16) (other ++ own)
      else s.storeBucket bk.pre a own
  let esc := (bk.landed.filter (·.2.esc)).length
  let s := if max 1 (n / 2 ^ c.jr.escThr) < esc then s.raiseOnce c.d0 0x301 46 c.d0 b else s
  s.modBucket j b fun x => { x with isLanded := true, drops := (bk.landed.map (·.2.drops)).sum }

end Sys2Proof.Machine
end

