-- ==== Sys2Proof/Machine/Reduce.lean ====
section
/-! DEFINITION. CO.REDUCE and CO.VOTE (R261, R266, R269, R352): the chain, the fold along the topology, and the broadcast. -/
namespace Sys2Proof.Machine

/-! ### Ordinals (R261) -/

/-- The kinds that a Truss issued so far in the attempt: one sequence of ordinals over CO.REDUCE, CO.DISPATCH, CO.COMBINE and CO.VOTE
(DEDUCED from check 9 of R334, which matches KIND against the instruction of an ordinal; log entry 46). -/
def JobCtx.issuedKinds (c : JobCtx) (d : Nat) : List (BitVec 8) := Sparse.get [] c.ords d

/-- Take the next ordinal; the SEQ word of the instruction (R332). -/
def State.takeOrd (s : State) (j : Nat) (k : Kind) (d : Nat) : State × Nat :=
  let l := (s.job j).issuedKinds d
  (s.modJob j fun c => { c with ords := Sparse.put [] c.ords d (l ++ [k.code]) }, d + 4 * (l.length % 16384))

/-- Has the instruction of a SEQ word not issued here yet? -/
def JobCtx.future (c : JobCtx) (seq : Nat) : Bool :=
  (seq / 4 + 16384 - (c.issuedKinds (seq % 4)).length % 16384) % 16384 < 8192

/-- Was the instruction of a SEQ word that has issued here a CO.VOTE? -/
def JobCtx.votedAt (c : JobCtx) (seq : Nat) : Bool :=
  let l := c.issuedKinds (seq % 4)
  l[l.length - 1 - (l.length + 16383 - seq / 4) % 16384]? == some Kind.vote.code

/-- The open context of a job operand (R255). -/
def State.jobAt (s : State) (e : QEntry) : Option Nat :=
  (List.range 64).find? fun j => (s.job j).state = 1 && (s.job j).job = e.da && (s.job j).gen = bits e.cr 0 4

/-! ### Failures of a received packet (R347, R351) -/

/-- A packet failed check 9 of R334 (R351), at slice `q`; a bucket packet names its bucket in the event (R361). -/
def State.seqMismatch (s : State) (j q : Nat) (bucket : Nat := 0) : State :=
  (((s.orReg (46 + q) 0xC 4).occ (46 + q) 12).raise 0x304 (46 + q) (s.job j).d0 bucket).failAttempt 6

/-! ### Reductions -/

/-- Combine two values of one element (R266, R269). -/
def redOp (op : Nat) (x y : Num) : Num :=
  match op with
  | 0 => rneZ40 (Num.add x y)
  | 1 | 4 => Num.max x y
  | _ => Num.min x y

/-- The kind of a reduction's packets. -/
def Red.kind (r : Red) : Kind := if r.isVote then .vote else .reduce

/-- A packet of a reduction (R352): values in Z40 container form, BUCKET the operation, FIRST bits [29:0] the first element and
bits [31:30] where it stands: 0 on its way, 1 handed to m_0, 2 broadcast (the manual gives no form; log entry 45). -/
def State.redPacket (s : State) (c : JobCtx) (r : Red) (m stage lvl off : Nat) (l : List Num) : Packet :=
  withLevel { s.packetTo c r.kind m with
    seq := BitVec.ofNat 16 r.seq, bucket := BitVec.ofNat 32 r.op, first := BitVec.ofNat 32 (off + 2 ^ 30 * stage),
    nblk := BitVec.ofNat 16 l.length, payload := l.flatMap fun x => leBytes (toContainer x).toNat 8 } lvl

/-- A reduction in flight, by its kind and SEQ word. -/
def JobCtx.red (c : JobCtx) (k : Kind) (seq : Nat) : Option Red := c.reds.find? fun r => r.kind == k && r.seq = seq

/-- Change a reduction. -/
def State.modRed (s : State) (j : Nat) (r : Red) (f : Red → Red) : State :=
  s.modJob j fun c => { c with reds := c.reds.map fun x => if x.ins = r.ins then f x else x }

/-- The result of a reduction is written, by RNE and the CMODE of its view (R86, R88), and it completes (R266, R269). -/
def State.redDone (s : State) (j : Nat) (r : Red) : State :=
  let x := Desc.ofWords r.view
  let at' (k : Nat) : Num :=
    match r.result.find? fun p => p.1 ≤ k && k < p.1 + p.2.length with
    | some (o, l) => l.getD (k - o) Num.zero
    | none => Num.zero
  let s :=
    if r.isVote then s.setImm r.ins.d r.immIdx (if (at' 0).nonzeroFinite then 0x3F800000 else 0)
    else
      let s := s.forWrite (x.blockSpans 0 x.rows 0 x.cols) .collective
      s.writeView x 0 x.rows 0 x.cols fun i k => some (convertTo x 0 .rne (at' (i * x.cols + k))).code
  (s.modJob j fun c => { c with reds := c.reds.filter (·.ins ≠ r.ins) }).finishRef r.ins

/-- Pieces of up to 512 elements (R352). -/
def pieces512 (l : List Num) : List (Nat × List Num) :=
  (List.range ((l.length + 511) / 512)).map fun k => (512 * k, (l.drop (512 * k)).take 512)

/-- A result of one piece comes: it is passed on along the all-gather order (R352), and taken. -/
def State.redResult (s : State) (j : Nat) (r : Red) (off : Nat) (l : List Num) : State :=
  let c := s.job j
  let s := s.each c.castOut fun s m => s.send (s.redPacket c r m.1 2 m.2 off l)
  let s := s.modRed j r fun x => if x.result.any (·.1 = off) then x else { x with result := x.result ++ [(off, l)] }
  match (s.job j).red r.kind r.seq with
  | none => s
  | some x => if (x.result.map (·.2.length)).sum = ((x.own.filter (·.1 = 0)).map (·.2.2.length)).sum then s.redDone j x else s

/-- The values of a reduction at a phase and piece. -/
def lookup3 (l : List (Nat × Nat × List Num)) (ph off : Nat) : Option (List Num) :=
  (l.find? fun p => p.1 = ph && p.2.1 = off).map (·.2.2)

/-- Advance one piece of MAX, MIN or a vote along the topology (R352), as a fold of segment 0. -/
def State.redTree (s : State) (j : Nat) (k : Kind) (seq off ph : Nat) : List Ring → State
  | [] => s
  | q :: rest =>
    match (s.job j).red k seq with
    | none => s
    | some r =>
      let c := s.job j
      let start := decide (q.pos = 1 % q.size)
      match if r.sent.contains (ph, off) then none else lookup3 r.own ph off, lookup3 r.parts ph off with
      | none, _ => s
      | some own, inc =>
        if !start && inc.isNone then s else
        let v := if start then own else List.zipWith (redOp r.op) (inc.getD []) own
        let s := s.modRed j r fun x => { x with sent := (ph, off) :: x.sent }
        if q.pos ≠ 0 then s.send (s.redPacket c r q.next 0 q.lvl off v)
        else if rest.isEmpty then s.redResult j r off v
        else (s.modRed j r fun x => { x with own := x.own ++ [(ph + 1, off, v)] }).redTree j k seq off (ph + 1) rest

/-- Advance one piece of a SUM along the chain (R266, R352). -/
def State.redChain (s : State) (j : Nat) (k : Kind) (seq off : Nat) : State :=
  let c := s.job j
  match c.red k seq with
  | none => s
  | some r =>
    let pos := c.chainPos
    match if r.sent.contains (0, off) then none else lookup3 r.own 0 off, lookup3 r.parts 0 off with
    | none, _ => s
    | some own, inc =>
      if pos ≠ 0 && inc.isNone then s else
      let v := if pos = 0 then own else List.zipWith (redOp 0) (inc.getD []) own
      let s := s.modRed j r fun x => { x with sent := (0, off) :: x.sent }
      match c.chain[pos + 1]? with
      | some m => s.send (s.redPacket c r m 0 0 off v)
      | none => if c.self = 0 then s.redResult j r off v else s.send (s.redPacket c r 0 1 0 off v)

/-- Advance one piece. -/
def State.redGo (s : State) (j : Nat) (r : Red) (off ph : Nat) : State :=
  if r.op = 0 then s.redChain j r.kind r.seq off else s.redTree j r.kind r.seq off ph ((s.job j).rings.drop ph)

/-- Values in a payload of Z40 containers. -/
def valuesOf (n : Nat) (l : List Byte) : List Num :=
  (List.range n).map fun k => ofContainer (BitVec.ofNat 64 (leNat ((l.drop (8 * k)).take 8)))

/-- A packet of a reduction that is in flight here (R334 check 9, R352). -/
def State.redPacketIn (s : State) (j : Nat) (r : Red) (src : Nat) (p : Packet) : State :=
  let c := s.job j
  let off := bits p.first.toNat 0 30
  let n := p.nblk.toNat
  let stage := bits p.first.toNat 30 2
  let fits := r.own.any (fun x => x.1 = 0 && x.2.1 = off && x.2.2.length = n) && p.payload.length = 8 * n && p.bucket.toNat = r.op
  let l := valuesOf n p.payload
  let ph := levelOf p - 1
  match if fits then stage else 3 with
  | 0 =>
    let from' := if r.op = 0 then (if c.chainPos = 0 then none else c.chain[c.chainPos - 1]?) else (match c.rings[ph]? with
      | some q => if q.pos ≠ 1 % q.size && (c.rings.take ph).all (·.pos = 0) then some q.prev else none
      | none => none)
    if from' = some src && (lookup3 r.parts (if r.op = 0 then 0 else ph) off).isNone then
      (s.modRed j r fun x => { x with parts := x.parts ++ [(if r.op = 0 then 0 else ph, off, l)] }).redGo j r off ph
    else s.seqMismatch j 0
  | 1 => if c.self = 0 && r.op = 0 then s.redResult j r off l else s.seqMismatch j 0
  | 2 => if c.self ≠ 0 then s.redResult j r off l else s.seqMismatch j 0
  | _ => s.seqMismatch j 0

/-- A reduction issues: its own values enter it. -/
def State.redStart (s : State) (j : Nat) (r : Red) : State :=
  let s := s.modJob j fun c => { c with reds := c.reds ++ [r] }
  s.each r.own fun s p => s.redGo j r p.2.1 0

/-- A received REDUCE or VOTE that passed checks 1 to 8: to its reduction, or kept until that issues (R261); a vote that comes after
its deadline has ended the instruction changes nothing (R269). -/
def State.redIn (s : State) (j src : Nat) (k : Kind) (p : Packet) : State :=
  let c := s.job j
  match c.red k p.seq.toNat with
  | some r => s.redPacketIn j r src p
  | none =>
    if c.future p.seq.toNat then s.modJob j fun c => { c with early := c.early ++ [p] }
    else if k == .vote && c.votedAt p.seq.toNat && bits p.first.toNat 30 2 = 0 then s
    else s.seqMismatch j 0

/-- The member index of a coordinate. -/
def JobCtx.index (c : JobCtx) (x : Nat) : Option Nat := c.members.findIdx? (· = x)

/-- The packets that waited for an instruction; one of another kind fails check 9 (R334). -/
def State.takeEarly (s : State) (j : Nat) (ks : List Kind) (seq : Nat) (f : State → Nat → Packet → State) : State :=
  let l := (s.job j).early.filter (·.seq.toNat = seq)
  (s.modJob j fun c => { c with early := c.early.filter (·.seq.toNat ≠ seq) }).each l fun s p =>
    match if s.commit.abandoned then none else (s.job j).index p.src.toNat with
    | some i => if ks.any (·.code == p.kind) then f s i p else s.seqMismatch j 0
    | none => s

/-- CO.REDUCE (R266). -/
def coReduce (d : TrussId) (s : State) : Host.Outcome State Fault Refusal :=
  match s.ready d 7 0x62 with
  | none => .next s
  | some e =>
    let s := s.issue d 7 e
    if s.inert then .next (s.finish d e.seq) else
    let x := s.desc d e.db
    match firstTrap [x.check fun f => f = 7 || f = 9, if 1024 < x.rows * x.cols then some .reduceSize else none,
        if (s.jobAt e).isNone then some .jobState else none] with
    | some c => .next (s.issueTrap d 7 e c)
    | none =>
      let j := (s.jobAt e).getD 0
      let (s, seq) := s.takeOrd j .reduce d
      let (s, trap) := s.access .collective coPlace x.all (x.blockSpans 0 x.rows 0 x.cols)
      if trap.isSome then .next (s.finish d e.seq trap) else
      let vals := (List.range x.rows).flatMap fun r => (List.range x.cols).map fun c => s.widen x r c
      let r : Red := { ins := e.ref d, op := bits e.mod 0 2, seq, view := (s.tr d).descWords e.db,
                       own := (pieces512 vals).map fun p => (0, p.1, p.2) }
      .next ((s.redStart j r).takeEarly j [.reduce] seq fun s i p => s.redIn j i .reduce p)

/-- CO.REDUCE, where the host holds no line of it. -/
def execCoReduce (d : TrussId) (s : State) : Host.Outcome State Fault Refusal := waitRecall s (coReduce d s)

/-- CO.VOTE (R269); in an attempt that is over it writes 0 (R348). -/
def execCoVote (d : TrussId) (s : State) : Host.Outcome State Fault Refusal :=
  waitRecall s <|
  match s.ready d 7 0x65 with
  | none => .next s
  | some e =>
    let s := s.issue d 7 e
    let k := bits e.db 0 5
    if s.inert then .next ((s.setImm d k 0).finish d e.seq) else
    match s.jobAt e with
    | none => .next (s.issueTrap d 7 e .jobState)
    | some j =>
      let (s, seq) := s.takeOrd j .vote d
      let r : Red := { ins := e.ref d, op := if e.m 1 then 4 else 3, seq, view := [], immIdx := k,
                       own := [(0, 0, [if e.m 0 then Num.one else Num.zero])] }
      .next ((s.redStart j r).takeEarly j [.vote] seq fun s i p => s.redIn j i .vote p)

/-- The deadline of a CO.VOTE passes at m_0 (R269): a missing vote counts as 0. -/
def execCovoteDeadline (j : Fin 64) (seq : BitVec 16) (s : State) : Host.Outcome State Fault Refusal :=
  waitRecall s <|
  let c := s.job j
  match c.red .vote seq.toNat with
  | none => .next s
  | some r =>
    if c.self ≠ 0 then .next s else
    let come := r.own.map (·.2.2) ++ r.parts.map (·.2.2)
    let v : Num := if r.op = 4 && come.any (fun l => l.any Num.nonzeroFinite) then Num.one else Num.zero
    .next (s.redResult j r 0 [v])

end Sys2Proof.Machine
end

