-- ==== Sys2Proof/Machine/Collective.lean ====
section
/-! DEFINITION. Opening and closing a job (R262, R263, R270, R326 to R331) and the expert traffic (R267, R268, R353 to R357). -/
namespace Sys2Proof.Machine

/-! ### The job record (R326, R327) -/

/-- The largest divisor of `p` that does not exceed `k`. -/
def divisorBelow (p : Nat) : Nat → Nat
  | 0 => 1
  | k + 1 => if p % (k + 1) = 0 then k + 1 else divisorBelow p k

/-- ⌈√p⌉. -/
def ceilSqrt (p : Nat) : Nat := if Nat.sqrt p * Nat.sqrt p = p then Nat.sqrt p else Nat.sqrt p + 1

/-- The fields of a job record of `p` members after the level rule (R326, R327). -/
def JobRec.ofBytes (l : List Byte) (p : Nat) : JobRec :=
  let f (a n : Nat) : Nat := leNat ((l.drop a).take n)
  let base : JobRec :=
    { compat := max 1 (f 3 1), scaletab := f 16 8, landing := f 24 8, spaceLen := f 32 5, experts := min 256 (f 40 2),
      capacity := f 42 2, check := f 252 4 }
  if f 2 1 % 2 = 0 then
    let g := divisorBelow p (ceilSqrt p)
    { base with tree := decide (64 < p && g ≠ 1), group := g }
  else
    let g := f 48 2
    { base with mib := max 1 (min 64 (f 44 1)), headroom := min 8 (f 45 1), dropPol := f 46 1 % 2 = 1, escThr := f 46 1 / 2 % 16,
                tree := decide (f 47 1 ≠ 0 ∧ 2 ≤ g ∧ p % g = 0), group := g, peerto := max 1 (f 50 2), vdead := max 1 (f 52 2) }

/-- Does a run of bytes lie in one of the places of R260? -/
def State.coRange (s : State) (a n : Nat) : Bool :=
  inHbm a n || s.inScratch a n ||
    match (placeOf a).region with
    | .array _ | .gutter _ => (placeOf a).twist = 0 && (placeOf a).region = (placeOf (a + n - 1)).region
    | _ => false

/-- The grounds of R328 and R431 to refuse a job before any packet. -/
def State.joinBad (s : State) (rec : List Byte) (ms : List Nat) (r : JobRec) (job gen : Nat) : Bool :=
  decide (crc32 (rec.take 252) ≠ r.check) || decide (leNat (rec.take 2) ≠ job + 0x1000 * gen) ||
    decide (ms.eraseDups.length ≠ ms.length) || !ms.contains s.self ||
    !(r.nBuckets = 0 || s.coRange r.scaletab (16 * r.nBuckets)) ||
    !(r.nBuckets = 0 || inHbm r.landing (65 * 2 ^ 13 * r.mib * r.nBuckets)) ||
    decide (s.keeper.toplevel < r.compat) || ms.any (fun m => m ≠ s.self && !s.pathAt m job r.compat)

/-! ### Opening (R262, R263, R330) -/

/-- A JOIN packet (R330): COMPAT is its LEVEL, CHECK its payload. -/
def State.joinPacket (s : State) (c : JobCtx) (m : Nat) : Packet := { s.packetTo c .join m with payload := leBytes c.jr.check 4 }

/-- An answer to a JOIN in this device's attempt: FLAGS bit 0 refuses. -/
def State.answerJoin (s : State) (p : Packet) (attempt : Nat) (ok : Bool) : State :=
  (s.sendRaw { p with dest := p.src, hops := 0, kind := Kind.joinAck.code,
                      flags := BitVec.ofNat 8 (16 * attempt + if ok then 0 else 1), ticket := s.ticket,
                      src := s.coord.inForce, seq := 0, payload := [] }).1

/-- The context of a job that is OPEN or DRAINING. -/
def State.ctxOf (s : State) (job : Nat) : Option Nat :=
  (List.range 64).find? fun j => (s.job j).state ≠ 0 && (s.job j).job = job

/-- A JOIN is acknowledged, refused or kept pending (R330). Where R330 answers, its answer stands for the drop of checks 2 and 3 of
R334; check 4, that its sender is a member, comes before the grounds that R330 adds. -/
def State.joinIn (s : State) (p : Packet) : State :=
  let pend : State := { s with joins := s.joins ++ [p] }
  match s.ctxOf p.job.toNat with
  | none => pend
  | some j =>
    let c := s.job j
    if c.gen ≠ p.gen.toNat then s.answerJoin p c.attempt false
    else if !c.members.contains p.src.toNat then s.occ 46 8
    else
      let same := p.payload = leBytes c.jr.check 4
      if c.state = 2 && same then pend
      else s.answerJoin p c.attempt (same && s.pathAt p.src.toNat p.job.toNat p.plevel.toNat)

/-- The CO.JOINs of a job complete once every other member has acknowledged (R330). -/
def State.joinCheck (s : State) (j : Nat) : State :=
  let c := s.job j
  if c.state ≠ 1 || c.acks.length + 1 < c.members.length then s else
  (s.modJob j fun c => { c with joiners := [] }).each c.joiners fun s r => s.finishRef r

/-- The slice of a packet: its quarter for the bucket kinds, GUTTER[0] for the others (log entry 46). -/
def sliceOf (p : Packet) : Nat :=
  if p.kind == Kind.bucketRs.code || p.kind == Kind.bucketAg.code then bits p.first.toNat 30 2 else 0

/-- Close a context (R331, R376): held packets of the job are STALE; where it was the commit job, none is set. -/
def State.closeJob (s : State) (j : Nat) : State :=
  let c := s.job j
  let mine (p : Packet × Option (Nat × Bool)) : Bool := p.1.job.toNat = c.job && p.1.gen.toNat = c.gen
  let l := s.held.filter mine
  let s := ({ s with held := s.held.filter (!mine ·) } : State).each l fun s p =>
    (s.orReg (46 + sliceOf p.1) 0xC 0x40).occ (46 + sliceOf p.1) 7
  let s := s.modJob j fun _ => {}
  if s.commit.cjob = some j then ((s.modCommit fun m => { m with cjob := none, vote := {}, mir := {}, mirSent := false }).armFree).tryCast
  else s

/-- Open a context for a job (R262): an attempt begins where no job was open (R261). -/
def State.openJobAs (s : State) (j : Nat) (c : JobCtx) : State :=
  let s := if s.jobActive then s else s.newAttempt (s.commit.causes.filter (· = 2))
  let s := s.modJob j fun _ => c
  let s : State := { s with lastGen := Sparse.put none s.lastGen c.job (some c.gen) }
  let s := s.each c.others fun s m => (s.sendRaw (s.joinPacket c m)).1
  let l := s.joins.filter (·.job.toNat = c.job)
  (({ s with joins := s.joins.filter (·.job.toNat ≠ c.job) } : State).each l State.joinIn).joinCheck j

/-- CO.JOIN (R262, R263, R328). -/
def coJoin (d : TrussId) (s : State) : Host.Outcome State Fault Refusal :=
  match s.ready d 7 0x60 with
  | none => .next s
  | some e =>
    let s := s.issue d 7 e
    let job := e.da
    let gen := bits e.cr 0 4
    match s.ctxOf job with
    | some j =>
      if (s.job j).state = 1 && (s.job j).gen = gen then
        .next ((s.modJob j fun c => { c with joiners := c.joiners ++ [e.ref d] }).joinCheck j)
      else .next (s.issueTrap d 7 e .jobState)
    | none =>
      if Sparse.get none s.lastGen job = some gen then .next (s.issueTrap d 7 e .jobState) else
      match (List.range 64).find? fun j => (s.job j).state = 0 with
      | none => .next (s.issueTrap d 7 e .jobFull)
      | some j =>
        let a := (s.tr d).alat.toNat / 256 * 256
        let (s, trap) := s.access .hub Region.isMem [{ a, n := 256 }] []
        if trap.isSome then .next (s.finish d e.seq trap) else
        let rec' := s.bytes a 256
        let f (k n : Nat) : Nat := leNat ((rec'.drop k).take n)
        let p := f 4 2 + 1
        let (s, trap) := s.access .hub Region.isMem [{ a := f 8 8, n := 2 * p }] []
        if trap.isSome then .next (s.finish d e.seq trap) else
        let ms := (List.range p).map fun k => s.readNat (f 8 8 + 2 * k) 2
        let r := JobRec.ofBytes rec' p
        if s.joinBad rec' ms r job gen then .next (s.finish d e.seq (some .joinRefused)) else
        .next (s.openJobAs j { state := 1, job, gen, home := d, jr := r, members := ms, self := ms.findIdx (· = s.self),
                               joiners := [e.ref d] })

/-- CO.JOIN, where the host holds no line of its record. -/
def execCoJoin (d : TrussId) (s : State) : Host.Outcome State Fault Refusal := waitRecall s (coJoin d s)

/-- A JOIN_ACK or refusal (R330, R263). -/
def State.joinAckIn (s : State) (j src : Nat) (p : Packet) : State :=
  let c := s.job j
  if p.flags.getLsbD 0 then
    if c.joiners.isEmpty then s
    else s.closeJob j |>.each c.joiners fun s r => s.finishRef r (some .joinRefused)
  else if c.acks.contains src then s
  else (s.modJob j fun c => { c with acks := src :: c.acks }).joinCheck j

/-! ### Draining (R270, R331) -/

/-- Does an issued instruction belong to a job? -/
def State.ofJob (s : State) (job : Nat) (e : QEntry) : Bool :=
  if e.op = 0x61 then s.gJob e.da = job
  else if e.op = 0x81 || e.op = 0x82 then (List.range (e.db + 1)).any fun k => s.gJob (e.da + k) = job
  else ((0x60 ≤ e.op && e.op ≤ 0x66) || e.op = 0x83) && e.da = job

/-- Has a DRAIN packet, with all its copies, come from every other member (R331, R437)? -/
def JobCtx.drained (c : JobCtx) : Bool :=
  c.others.all fun i => c.drains.any fun x => x.1 = i && x.2.1 ≤ x.2.2

/-- A CO.DRAIN completes when its conditions hold (R270, R331). -/
def State.drainCheck (s : State) (j : Nat) : State :=
  let c := s.job j
  match if c.state = 2 then c.drainer else none with
  | none => s
  | some r =>
    let busy := (List.range 4).any fun d => (s.tr d).issued.any fun i =>
      i.q = 7 && !i.done && !(d = r.d.val && i.e.seq = r.seq) && s.ofJob c.job i.e
    if busy || !(c.drained || c.drainLate) then s else
    let s := if c.drained then s else ((s.orReg 46 0xC 0x80).occ 46 15).raise 0x308 46 c.d0
    (s.closeJob j).finishRef r

/-- CO.DRAIN (R270, R331). -/
def execCoDrain (d : TrussId) (s : State) : Host.Outcome State Fault Refusal :=
  waitRecall s <|
  match s.ready d 7 0x66 with
  | none => .next s
  | some e =>
    let s := s.issue d 7 e
    match s.jobAt e with
    | none => .next (s.issueTrap d 7 e .jobState)
    | some j =>
      let s := s.modJob j fun c => { c with state := 2, drainer := some (e.ref d) }
      let c := s.job j
      .next ((s.each c.others fun s m => s.send (s.packetTo c .drain m)).drainCheck j)

/-- A copy of a DRAIN (R331, R437). -/
def State.drainIn (s : State) (j src : Nat) (p : Packet) : State :=
  (s.modJob j fun c =>
    match c.drains.find? (·.1 = src) with
    | none => { c with drains := c.drains ++ [(src, p.nblk.toNat, 1)] }
    | some _ => { c with drains := c.drains.map fun x => if x.1 = src then (src, p.nblk.toNat, x.2.2 + 1) else x }).drainCheck j

/-- PEERTO has passed since CO.DRAIN issued (R331). -/
def execDrainForced (j : Fin 64) (s : State) : Host.Outcome State Fault Refusal :=
  waitRecall s <|
  let c := s.job j
  if c.state = 2 && c.drainer.isSome && !c.drained then
    .next ((s.modJob j fun c => { c with drainLate := true }).drainCheck j)
  else .next s

/-! ### Rows on the wire -/

/-- Bytes of the data, and of data and scales, of a row of a view as it travels: its codes, then its scale codes (the manual gives
no form; log entry 45). -/
def Desc.rowData (x : Desc) : Nat := runBytes x.fmt x.cols
def Desc.rowLen (x : Desc) : Nat := x.rowData + (if isMx x.fmt then (x.cols + 31) / 32 else 0)
/-- Pieces of a row (R332). -/
def Desc.rowPieces (x : Desc) : Nat := (x.rowLen + 4095) / 4096

/-- A row as it travels. -/
def State.rowBytes (s : State) (x : Desc) (r : Nat) : List Byte :=
  (if x.fmt = 4 then (List.range x.rowData).map fun k =>
      BitVec.ofNat 8 (s.code x r (2 * k) + 16 * (if 2 * k + 1 < x.cols then s.code x r (2 * k + 1) else 0))
    else (List.range x.cols).flatMap fun c => leBytes (s.code x r c) (fmtBits x.fmt / 8)) ++
  (if isMx x.fmt then (List.range ((x.cols + 31) / 32)).map fun k => BitVec.ofNat 8 (s.scaleCode x r (32 * k)) else [])

/-- The code of column `c` in the bytes of a row from byte `off` on; none where they do not hold it. -/
def rowCode (x : Desc) (off : Nat) (l : List Byte) (c : Nat) : Option Nat :=
  let at' := c * fmtBits x.fmt / 8
  let n := (fmtBits x.fmt + 7) / 8
  if at' < off || off + l.length < at' + n then none
  else
    let v := leNat ((l.drop (at' - off)).take n)
    some (if x.fmt = 4 then bits v (4 * (c % 2)) 4 else v)

/-- The scale code of block column `bc` in them. -/
def rowScale (x : Desc) (off : Nat) (l : List Byte) (bc : Nat) : Option Nat :=
  let at' := x.rowData + bc
  if at' < off then none else (l[at' - off]?).map BitVec.toNat

/-- Write the bytes of a row, from byte `off` on, into a row of a view. -/
def State.putRow (s : State) (x : Desc) (r off : Nat) (l : List Byte) : State :=
  let s := s.forWrite (x.blockSpans r (r + 1) 0 x.cols) .collective
  s.writeView x r (r + 1) 0 x.cols (fun _ c => rowCode x off l c) fun _ bc => rowScale x off l bc

/-- Write code 0 into a row. -/
def State.zeroRow (s : State) (x : Desc) (r : Nat) : State :=
  let s := s.forWrite (x.blockSpans r (r + 1) 0 x.cols) .collective
  s.writeView x r (r + 1) 0 x.cols (fun _ _ => some 0) fun _ _ => some 0x7F

/-- The pieces of a row's bytes with their offsets. -/
def rowCut (l : List Byte) : List (Nat × List Byte) :=
  (List.range ((l.length + 4095) / 4096)).map fun k => (4096 * k, (l.drop (4096 * k)).take 4096)

/-! ### CO.DISPATCH (R267, R353 to R356) -/

/-- A packet of expert traffic (R332). -/
def State.rowPacket (s : State) (c : JobCtx) (kind : Kind) (m seq expert slot : Nat) (last : Bool) (piece : Nat × List Byte) : Packet :=
  { s.packetTo c kind m with
    flags := BitVec.ofNat 8 (16 * c.attempt + (if last then 2 else 0)), seq := BitVec.ofNat 16 seq,
    bucket := BitVec.ofNat 32 (slot + 0x10000 * expert), first := BitVec.ofNat 32 piece.1, nblk := 1, payload := piece.2 }

/-- A dispatch in flight or kept, by its SEQ word. -/
def JobCtx.disp (c : JobCtx) (seq : Nat) : Option Disp := c.disps.find? (·.seq = seq)

/-- Change a dispatch. -/
def State.modDisp (s : State) (j : Nat) (x : Disp) (f : Disp → Disp) : State :=
  s.modJob j fun c => { c with disps := c.disps.map fun y => if y.ins = x.ins then f y else y }

/-- The receive-view row of a slot (R354). -/
def recvRow (p cap expert src slot : Nat) : Nat := (expert * p + src) * cap + slot

/-- A row of a dispatch has landed in every piece. -/
def Disp.has (x : Disp) (n src expert slot : Nat) : Bool :=
  (List.range n).all fun k => x.got.contains (src, expert, slot, k)

/-- A CO.DISPATCH completes when its rows are sent and every member's announced rows have landed (R355). -/
def State.dispCheck (s : State) (j seq : Nat) : State :=
  let c := s.job j
  match c.disp seq with
  | none => s
  | some x =>
    let n := (Desc.ofWords x.recv).rowPieces
    if x.complete || !x.started || x.ends.length ≠ c.members.length then s
    else if x.ends.all fun en => ((List.range en.2.length).all fun ex => (List.range (en.2.getD ex 0)).all fun k => x.has n en.1 ex k) then
      (s.modDisp j x fun y => { y with complete := true }).finishRef x.ins
    else s

/-- A piece of a row lands in its fixed place (R354). -/
def State.dispLand (s : State) (j seq src expert slot : Nat) (piece : Nat × List Byte) : State :=
  let c := s.job j
  match c.disp seq with
  | none => s
  | some x =>
    let v := Desc.ofWords x.recv
    let row := recvRow c.members.length x.cap expert src slot
    let fits := expert < c.jr.experts && slot < x.cap && piece.1 % 4096 = 0 && piece.1 < v.rowLen &&
      piece.2.length = min 4096 (v.rowLen - piece.1) && !x.got.contains (src, expert, slot, piece.1 / 4096) &&
      x.ends.all fun en => en.1 ≠ src || slot < en.2.getD expert 0
    if !fits then s.seqMismatch j 0 else
    let s := s.modDisp j x fun y => { y with got := y.got ++ [(src, expert, slot, piece.1 / 4096)] }
    let s := if row < v.rows then s.putRow v row piece.1 piece.2 else if piece.1 = 0 then s.occ 46 18 else s
    s.dispCheck j seq

/-- What a DISPATCH_END carries (R355): the rows sent to each expert, the capacity, COLS and the format (log entry 45). -/
def endBytes (counts : List Nat) (cap : Nat) (v : Desc) : List Byte :=
  counts.flatMap (leBytes · 2) ++ leBytes cap 2 ++ leBytes v.cols 4 ++ leBytes v.fmt 1

/-- A source's end announces its rows; code 0 goes into the rest of its range (R355). -/
def State.dispEnd (s : State) (j seq src : Nat) (l : List Byte) : State :=
  let c := s.job j
  match c.disp seq with
  | none => s
  | some x =>
    let v := Desc.ofWords x.recv
    let n := c.jr.experts
    let counts := (List.range n).map fun k => leNat ((l.drop (2 * k)).take 2)
    if l ≠ endBytes counts x.cap v || counts.any (x.cap < ·) || x.ends.any (·.1 = src) ||
      x.got.any (fun g => g.1 = src && counts.getD g.2.1 0 ≤ g.2.2.1) then s.seqMismatch j 0 else
    let s := s.modDisp j x fun y => { y with ends := y.ends ++ [(src, counts)] }
    let s := s.each (List.range n) fun s ex =>
      let k := counts.getD ex 0
      s.each (List.range (x.cap - k)) fun s i =>
        let row := recvRow c.members.length x.cap ex src (k + i)
        if row < v.rows then s.zeroRow v row else s
    s.dispCheck j seq

/-- The routes of a dispatch (R353, R354): kept ones, invalid items, and items beyond the capacity. -/
def routesOf (c : JobCtx) (cap kr : Nat) (items : List Nat) : List Route × Nat × Nat :=
  ((List.range items.length).zip items).foldl (fun (acc : (List Route × Nat × Nat) × List (Nat × Nat)) p =>
    let w := p.2
    if bits w 31 1 = 1 then acc else
    match c.index (bits w 0 16) with
    | none => ((acc.1.1, acc.1.2.1 + 1, acc.1.2.2), acc.2)
    | some m =>
      let ex := bits w 16 8
      if c.jr.experts ≤ ex then ((acc.1.1, acc.1.2.1 + 1, acc.1.2.2), acc.2)
      else
        let slot := Sparse.get 0 acc.2 (256 * m + ex)
        let seen := Sparse.put 0 acc.2 (256 * m + ex) (slot + 1)
        if cap ≤ slot then ((acc.1.1, acc.1.2.1, acc.1.2.2 + 1), seen)
        else ((acc.1.1 ++ [{ row := p.1 / kr, k := p.1 % kr, member := m, expert := ex, slot }], acc.1.2.1, acc.1.2.2), seen))
    (([], 0, 0), []) |>.1

/-- Valid routes that the expert state holds, those beyond the capacity included (R325, R356). -/
def State.routesHeld (s : State) : Nat :=
  (s.jobs.toList.map fun c => (c.disps.map (·.kept)).sum).sum

/-- A dispatch takes its expert state, sends its rows and its ends (R353 to R356); without space it waits. -/
def State.dispStart (s : State) (j seq : Nat) : State :=
  let c := s.job j
  match c.disp seq with
  | none => s
  | some x =>
    let v := Desc.ofWords x.rows
    let run := Desc.ofWords x.run
    let items := (List.range (v.rows * x.kr)).map fun k => s.readNat (run.base + 4 * k) 4
    let (routes, bad, ovf) := routesOf c x.cap x.kr items
    if x.started || 0x100000 < s.routesHeld + (routes.length + ovf) then s else
    let s := s.modDisp j x fun y => { y with started := true, routes, kept := routes.length + ovf }
    let s := ((s.occ 46 16 bad).occ 46 17 ovf)
    let s := if ovf = 0 then s else s.raiseOnce 0 0x307 46 c.d0
    let s := s.each routes fun s r =>
      let l := rowCut (s.rowBytes v r.row)
      let final := (routes.filter (·.member = r.member)).getLast? = some r
      s.each l fun s pc =>
        if r.member = c.self then s.dispLand j seq c.self r.expert r.slot pc
        else s.send (s.rowPacket c .dispatch r.member seq r.expert r.slot (final && pc.1 + 4096 ≥ v.rowLen) pc)
    s.each (List.range c.members.length) fun s m =>
      let counts := (List.range c.jr.experts).map fun ex => (routes.filter fun r => r.member = m && r.expert = ex).length
      let l := endBytes counts x.cap v
      if m = c.self then s.dispEnd j seq c.self l
      else s.send { s.packetTo c .dispatchEnd m with seq := BitVec.ofNat 16 seq, drops := BitVec.ofNat 32 counts.sum, payload := l }

/-- Dispatches that wait for expert state try again. -/
def State.dispResume (s : State) : State :=
  s.each (List.range 64) fun s j => s.each ((s.job j).disps.filter (!·.started)) fun s x => s.dispStart j x.seq

/-- A received DISPATCH or DISPATCH_END that passed checks 1 to 8. -/
def State.dispIn (s : State) (j src : Nat) (p : Packet) : State :=
  let c := s.job j
  match c.disp p.seq.toNat with
  | none => if c.future p.seq.toNat then s.modJob j fun c => { c with early := c.early ++ [p] } else s.seqMismatch j 0
  | some _ =>
    if p.kind == Kind.dispatchEnd.code then s.dispEnd j p.seq.toNat src p.payload
    else s.dispLand j p.seq.toNat src (bits p.bucket.toNat 16 8) (bits p.bucket.toNat 0 16) (p.first.toNat, p.payload)

/-- A format of the expert wire (R103). -/
def wireFmt (f : Nat) : Bool := f ≤ 7

/-- The capacity of a dispatch or combine (R354). -/
def QEntry.cap (e : QEntry) (r : JobRec) : Nat := if e.hi 0 16 = 0 then r.capacity else e.hi 0 16

/-- CO.DISPATCH (R268, R355). -/
def coDispatch (d : TrussId) (s : State) : Host.Outcome State Fault Refusal :=
  match s.ready d 7 0x63 with
  | none => .next s
  | some e =>
    let s := s.issue d 7 e
    if s.inert then .next (s.finish d e.seq) else
    let x := s.desc d e.db
    let run := s.desc d (descIdx (e.db + 1))
    let v := s.desc d (descIdx (e.db + 2))
    let kr := bits e.mod 0 3 + 1
    match firstTrap [x.check wireFmt, run.checkRun, v.check wireFmt,
        if x.fmt ≠ v.fmt ∨ x.cols ≠ v.cols then some .descFormat else none, if (s.jobAt e).isNone then some .jobState else none] with
    | some c => .next (s.issueTrap d 7 e c)
    | none =>
      let j := (s.jobAt e).getD 0
      let (s, seq) := s.takeOrd j .dispatch d
      let (s, trap) := s.access .collective coPlace ({ a := run.base, n := 4 * x.rows * kr } :: x.all) (v.blockSpans 0 v.rows 0 v.cols)
      if trap.isSome then .next (s.finish d e.seq trap) else
      let w (k : Nat) : List Word64 := (s.tr d).descWords (descIdx (e.db + k))
      let y : Disp := { ins := e.ref d, seq, cap := e.cap (s.job j).jr, kr, rows := w 0, run := w 1, recv := w 2 }
      .next (((s.modJob j fun c => { c with disps := c.disps ++ [y] }).dispStart j seq).takeEarly j [.dispatch, .dispatchEnd] seq
        fun s i p => s.dispIn j i p)

/-- CO.DISPATCH, where the host holds no line of it. -/
def execCoDispatch (d : TrussId) (s : State) : Host.Outcome State Fault Refusal := waitRecall s (coDispatch d s)

/-! ### CO.COMBINE (R268, R357) -/

/-- A combine in flight, by its SEQ word. -/
def JobCtx.comb (c : JobCtx) (seq : Nat) : Option Comb := c.combs.find? (·.seq = seq)

/-- Change a combine. -/
def State.modComb (s : State) (j : Nat) (x : Comb) (f : Comb → Comb) : State :=
  s.modJob j fun c => { c with combs := c.combs.map fun y => if y.ins = x.ins then f y else y }

/-- The row that came back along a route, as its bytes; none where a piece is missing. -/
def Comb.row (x : Comb) (r k : Nat) : Option (List Byte) :=
  let l := x.back.filter fun p => p.1 = r && p.2.1 = k
  let n := (Desc.ofWords x.out).rowPieces
  if l.length = n then some ((List.range n).flatMap fun i => ((l.find? fun p => p.2.2.1 = i).map (·.2.2.2)).getD []) else none

/-- The value of a column of a row that came back. -/
def rowValue (x : Desc) (l : List Byte) (c : Nat) : Num :=
  decodeElem x.fmt x.sexp ((rowScale x 0 l (c / 32)).getD 0) ((rowCode x 0 l c).getD 0)

/-- The gate of row `r` and route `k` (R268): 1 without a gate view; an element outside the view is a free value, cut from `f`. -/
def State.gateOf (s : State) (g : Desc) (f r k : Nat) : Num :=
  if !g.valid then Num.one
  else if r < g.rows && k < g.cols then s.value g r k
  else Layout.binary32.decode (bits f (32 * (8 * r + k)) 32)

/-- The value of column `col`, of `cols`, of the row that came back along route `k` of row `r`; a column that the returned row does not
have is a free value, cut from `f`: no rule relates the COLS of the two views. -/
def returned (out : Desc) (l : List Byte) (f cols r k col : Nat) : Num :=
  if col < out.cols then rowValue out l col else Layout.binary32.decode (bits f (32 * ((8 * r + k) * cols + col)) 32)

/-- Write one destination row by RNE in its format; an MX row takes the scales of R93. -/
def State.putValues (s : State) (x : Desc) (r : Nat) (v : Nat → Num) : State :=
  let s := s.forWrite (x.blockSpans r (r + 1) 0 x.cols) .collective
  let sc (bc : Nat) : Nat := mxScale x ((List.range (min 32 (x.cols - 32 * bc))).map fun k => v (32 * bc + k))
  s.writeView x r (r + 1) 0 x.cols
    (fun _ c => some (if isMx x.fmt then (mxElem x (sc (c / 32)) .rne (v c)).code else (convertTo x x.sexp .rne (v c)).code))
    fun _ bc => some (sc bc)

/-- A CO.COMBINE folds and completes once every member's announced rows are back (R357, R268). -/
def State.combCheck (s : State) (j seq : Nat) : State :=
  let c := s.job j
  match c.comb seq with
  | none => s
  | some x =>
    match c.disps.find? (·.seq = x.pair) with
    | none => s
    | some y =>
      let back (r : Route) : Bool := (x.row r.row r.k).isSome
      if x.ends.length ≠ c.members.length ||
         !(x.ends.all fun en => (y.routes.filter fun r => r.member = en.1 && back r).length = en.2) then s else
      let dst := Desc.ofWords x.dst
      let out := Desc.ofWords x.out
      let gate := Desc.ofWords x.gate
      let (f, s) := if gate.valid then s.drawFree else (0, s)
      let (h, s) := if out.cols < dst.cols then s.drawFree else (0, s)
      let s := s.each (List.range dst.rows) fun s r =>
        let ks := (y.routes.filter (·.row = r)).map (·.k)
        let terms := ks.filterMap fun k => (x.row r k).map fun l => (k, l)
        if terms.isEmpty && x.acc then s else
        s.putValues dst r fun col =>
          let prods := terms.map fun p => rneZ40 (Num.mul (rneZ40 (returned out p.2 h dst.cols r p.1 col)) (rneZ40 (s.gateOf gate f r p.1)))
          if x.acc then prods.foldl (fun a b => rneZ40 (Num.add a b)) (s.widen dst r col)
          else
            match prods with
            | [] => Num.zero
            | p :: ps => ps.foldl (fun a b => rneZ40 (Num.add a b)) p
      ((s.modJob j fun c => { c with combs := c.combs.filter (·.ins ≠ x.ins), disps := c.disps.filter (·.seq ≠ x.pair) }).finishRef
        x.ins).dispResume

/-- A piece of a returned row comes (R357). -/
def State.combLand (s : State) (j seq src expert slot : Nat) (piece : Nat × List Byte) : State :=
  let c := s.job j
  match c.comb seq with
  | none => s
  | some x =>
    let out := Desc.ofWords x.out
    match (c.disps.find? (·.seq = x.pair)).bind fun y => y.routes.find? fun r => r.member = src && r.expert = expert && r.slot = slot with
    | none => s.seqMismatch j 0
    | some r =>
      if piece.1 % 4096 ≠ 0 || out.rowLen ≤ piece.1 || piece.2.length ≠ min 4096 (out.rowLen - piece.1) ||
         x.back.any (fun p => p.1 = r.row && p.2.1 = r.k && p.2.2.1 = piece.1 / 4096) then s.seqMismatch j 0
      else (s.modComb j x fun y => { y with back := y.back ++ [(r.row, r.k, piece.1 / 4096, piece.2)] }).combCheck j seq

/-- A member's COMBINE_END comes (R357). -/
def State.combEnd (s : State) (j seq src n : Nat) : State :=
  match (s.job j).comb seq with
  | none => s
  | some x =>
    if x.ends.any (·.1 = src) then s.seqMismatch j 0
    else (s.modComb j x fun y => { y with ends := y.ends ++ [(src, n)] }).combCheck j seq

/-- Return the rows that the paired dispatch brought (R357). -/
def State.combSend (s : State) (j seq : Nat) (x : Comb) (y : Disp) : State :=
  let c := s.job j
  let out := Desc.ofWords x.out
  let v := Desc.ofWords y.recv
  s.each y.ends fun s en =>
    let rows := (List.range en.2.length).flatMap fun ex => (List.range (en.2.getD ex 0)).filterMap fun k =>
      let r := recvRow c.members.length y.cap ex en.1 k
      if r < v.rows && r < out.rows then some (ex, k, r) else none
    let s := s.each rows fun s p => s.each (rowCut (s.rowBytes out p.2.2)) fun s pc =>
      if en.1 = c.self then s.combLand j seq c.self p.1 p.2.1 pc
      else s.send (s.rowPacket c .combine en.1 seq p.1 p.2.1 (some p = rows.getLast? && pc.1 + 4096 ≥ out.rowLen) pc)
    if en.1 = c.self then s.combEnd j seq c.self rows.length
    else s.send { s.packetTo c .combineEnd en.1 with seq := BitVec.ofNat 16 seq, drops := BitVec.ofNat 32 rows.length }

/-- A received COMBINE or COMBINE_END that passed checks 1 to 8. -/
def State.combIn (s : State) (j src : Nat) (p : Packet) : State :=
  let c := s.job j
  match c.comb p.seq.toNat with
  | none => if c.future p.seq.toNat then s.modJob j fun c => { c with early := c.early ++ [p] } else s.seqMismatch j 0
  | some _ =>
    if p.kind == Kind.combineEnd.code then s.combEnd j p.seq.toNat src p.drops.toNat
    else s.combLand j p.seq.toNat src (bits p.bucket.toNat 16 8) (bits p.bucket.toNat 0 16) (p.first.toNat, p.payload)

/-- CO.COMBINE (R268, R356, R357). -/
def coCombine (d : TrussId) (s : State) : Host.Outcome State Fault Refusal :=
  match s.ready d 7 0x64 with
  | none => .next s
  | some e =>
    let s := s.issue d 7 e
    if s.inert then .next (s.finish d e.seq) else
    let out := s.desc d e.db
    let dst := s.desc d (descIdx (e.db + 2))
    let gate := s.desc d (descIdx (e.db + 3))
    let pair := (s.jobAt e).bind fun j => (((s.job j).disps.filter fun y => y.complete && y.ins.d = d).getLast?).map fun y => (j, y)
    match firstTrap [out.check wireFmt, dst.check fmtOk, if gate.valid then gate.check (· = 7) else none,
        if pair.isNone then some .jobState else none], pair with
    | some c, _ => .next (s.issueTrap d 7 e c)
    | none, none => .next s
    | none, some (j, y) =>
      let (s, seq) := s.takeOrd j .combine d
      let w (k : Nat) : List Word64 := (s.tr d).descWords (descIdx (e.db + k))
      let (s, trap) := s.access .collective coPlace (out.all ++ (if gate.valid then gate.all else []) ++ (if e.m 3 then dst.all else []))
        (dst.blockSpans 0 dst.rows 0 dst.cols)
      if trap.isSome then .next (s.finish d e.seq trap) else
      let x : Comb := { ins := e.ref d, seq, acc := e.m 3, pair := y.seq, out := w 0, dst := w 2,
                        gate := if gate.valid then w 3 else [] }
      .next (((s.modJob j fun c => { c with combs := c.combs ++ [x] }).combSend j seq x y).takeEarly j [.combine, .combineEnd] seq
        fun s i p => s.combIn j i p)

/-- CO.COMBINE, where the host holds no line of it. -/
def execCoCombine (d : TrussId) (s : State) : Host.Outcome State Fault Refusal := waitRecall s (coCombine d s)

/-! ### PEERTO (R350) -/

/-- A piece of work of a pass waits for packets: for a bucket of its range that this device has contributed to in full and that has not
landed (R365). -/
def State.workAwaits (s : State) (c : JobCtx) (w : Work) : Bool :=
  let lo := s.gOff w.group + w.first
  !w.started && s.gJob w.group = c.job && c.buckets.any fun p =>
    lo / c.jr.perBucket ≤ p.1 && p.1 * c.jr.perBucket < lo + w.len &&
    match p.2 with | some k => k.count ≠ 0 && k.count = c.jr.elems p.1 && !k.isLanded | none => false

/-- Does a CO or UP instruction of the job wait on packets: answers to a JOIN, DRAINs, a reduction, expert traffic, a bucket in the
ranges of a pass, the mirror fence, or votes and the outcome? -/
def State.waitsPackets (s : State) (j : Nat) : Bool :=
  let c := s.job j
  c.state ≠ 0 && (!c.joiners.isEmpty || (c.drainer.isSome && !c.drained) || !c.reds.isEmpty || !c.combs.isEmpty || c.disps.any (fun y => y.started && !y.complete) ||
    s.passes.any (fun p => !p.stopped && p.work.any (s.workAwaits c)) ||
    (s.commit.cjob = some j && (s.commit.ins.isSome || (!s.fence && s.passes.any (·.b)))))

/-- No packet of a waiting job came for PEERTO (R350). -/
def execPeerTimeout (j : Fin 64) (s : State) : Host.Outcome State Fault Refusal :=
  waitRecall s <|
  if s.waitsPackets j && !s.commit.abandoned then .next ((s.occ 46 14).failAttempt 7) else .next s

end Sys2Proof.Machine
end

