-- ==== Sys2Proof/Machine/Passes.lean ====
section
/-! DEFINITION. The parameter update (11): group and row-step entries (R362, R363, R374), UP.IMM, UP.PASSA, UP.PASSB and
UP.COMMIT (R271 to R275), partial records and norm slots (R367, R368), arming (R370), lazy rows (R375), landed buckets,
ROLLBACK and REPUB (R390). -/
namespace Sys2Proof.Machine

/-! ### Group entries -/

def State.gLen (s : State) (n : Nat) : Nat := bits (s.gw n 2) 0 40
def State.gSsize (s : State) (n : Nat) : Nat := bits (s.gw n 5) 0 40
/-- The address of the pass-A or pass-B program; 0 for none (R397). -/
def State.gProg (s : State) (n : Nat) (b : Bool) : Nat := 256 * bits (s.gw n 6) (if b then 32 else 0) 32
def State.gNrec (s : State) (n : Nat) : Nat := bits (s.gw n 7) 0 48
def State.gNormv (s : State) (n : Nat) : Nat := bits (s.gw n 8) 0 48
def State.gNfok (s : State) (n : Nat) : Bool := bits (s.gw n 0) 3 1 = 1
def State.gNfmt (s : State) (n : Nat) : Bool := bits (s.gw n 0) 4 1 = 1
def State.gNslot (s : State) (n : Nat) : Nat := bits (s.gw n 0) 20 10
def State.gAux (s : State) (n : Nat) : Nat := bits (s.gw n 0) 48 12
def State.gPadone (s : State) (n : Nat) : Bool := bits (s.gw n 0) 34 1 = 1

/-- A row-step entry (R374). -/
structure RowStep where
  valid    : Bool
  group    : Nat
  cols     : Nat
  rows     : Nat
  stateOff : Nat
  rowBytes : Nat
  cntOff   : Nat
deriving DecidableEq, Repr

/-- The entry that four words spell. -/
def RowStep.ofWords (w0 w1 w2 w3 : Nat) : RowStep :=
  { valid := bits w0 0 1 = 1, group := bits w0 1 12, cols := bits w1 0 32, rows := bits w1 32 32, stateOff := bits w2 0 40,
    rowBytes := bits w2 40 24, cntOff := bits w3 0 40 }

def State.rowStep (s : State) (j : Nat) : RowStep :=
  RowStep.ofWords (s.tword (rKey j 0)) (s.tword (rKey j 1)) (s.tword (rKey j 2)) (s.tword (rKey j 3))

/-! ### Registration (R363, R374) -/

/-- The fields of word 0 that software owns. -/
def groupSw (w : Nat) : Nat := bits w 0 5 + bits w 8 22 * 2 ^ 8 + bits w 40 20 * 2 ^ 40

/-- Bits of words 1 to 11 that hold a field. -/
def groupWidth (w : Nat) : Nat :=
  match w with
  | 1 | 2 | 5 | 10 | 11 => 40
  | 6 => 64
  | _ => 48

/-- Does a range lie wholly in HBM or in the Loft scratchpad window? -/
def State.inBuffer (s : State) (a n : Nat) : Bool := inHbm a n || s.inScratch a n

/-- Do two ranges meet? -/
def overlap (a n b m : Nat) : Bool := n ≠ 0 && m ≠ 0 && a < b + m && b < a + n

/-- The checks of R363 step 2 on entry `n` whose word 0 is to be `w`. A LEN or SSIZE of 0 and a buffer or SSIZE off a multiple of 256
are refused too (log entry 47). -/
def State.groupOk (s : State) (n w : Nat) : Bool :=
  let st0 := bits (s.gw n 3) 0 48
  let st1 := bits (s.gw n 4) 0 48
  let size := s.gSsize n
  let len := s.gLen n
  let pub := bits (s.gw n 11) 0 40
  let dst := bits (s.gw n 9) 0 48
  let rse := bits w 40 8
  let r := s.rowStep rse
  len ≠ 0 && size ≠ 0 && size % 256 = 0 && st0 % 256 = 0 && st1 % 256 = 0 &&
    s.inBuffer st0 size && s.inBuffer st1 size && !overlap st0 size st1 size &&
    s.gOff n + len ≤ 2 ^ 40 && bits (s.gw n 10) 0 40 + pub ≤ size &&
    (pub = 0 || (s.inBuffer dst pub && !overlap dst pub st0 size && !overlap dst pub st1 size)) &&
    (rse = 0 || (r.valid && r.group = n && r.rows * r.cols = len)) &&
    s.coRange (s.gNrec n) (32 * ((len + 2 ^ 18 - 1) / 2 ^ 18 + 1)) &&
    (s.gProg n false = 0 || s.coRange (s.gNormv n) (if bits w 4 1 = 1 then 4096 else 8192))

/-- Does an incomplete pass instruction name the group? A CO.BUCKET that waits does not count. -/
def State.inPass (s : State) (n : Nat) : Bool := s.passes.any (·.groups.contains n)

/-- Software writes word 0 of group `n` (R363). -/
def State.writeGroup0 (s : State) (n v : Nat) : State :=
  let old := s.gw n 0
  if s.gValid n then
    if bits v 0 1 = 0 then
      if !s.gArmed n && !s.inPass n then s.setTable (gKey n 0) (groupSw v + bits old 32 3 * 2 ^ 32) else s.occ 46 21
    else
      let t := (s.setTableBits (gKey n 0) 1 1 (bits v 1 1)).setTableBits (gKey n 0) 3 1 (bits v 3 1)
      if groupSw (t.gw n 0) = groupSw v then t else t.occ 46 21
  else if bits v 0 1 = 0 then s.setTable (gKey n 0) (groupSw v + bits old 32 3 * 2 ^ 32)
  else if s.groupOk n v then
    (((s.setTable (gKey n 0) (groupSw v)).setTable (gKey n 12) 0).setTable (gKey n 13) 0).setTable (gKey n 14) 0
      |>.setTable (gKey n 15) 0
  else (s.setTable (gKey n 0) (groupSw v - 1 + bits old 32 3 * 2 ^ 32)).occ 46 20

/-- Software writes word `w` of group `n`. -/
def State.writeGroup (s : State) (n w v : Nat) : State :=
  if w = 0 then s.writeGroup0 n v
  else if 12 ≤ w then s
  else if s.gValid n then s.occ 46 21
  else s.setTable (gKey n w) (bits v 0 (groupWidth w))

/-- The check of a row-step entry at its own registration (R374). -/
def RowStep.ok (r : RowStep) : Bool :=
  1 ≤ r.cols && 1 ≤ r.rows && r.rowBytes ≠ 0 && r.rowBytes % 8 = 0 && r.cntOff % 4 = 0

/-- Software writes word 0 of row-step entry `j` (R374). -/
def State.writeRow0 (s : State) (j v : Nat) : State :=
  if (s.rowStep j).valid then
    if bits v 0 1 = 0 && !(s.groups.any fun n => s.gRse n = j) then s.setTable (rKey j 0) (bits v 0 13) else s.occ 46 21
  else if bits v 0 1 = 0 then s.setTable (rKey j 0) (bits v 0 13)
  else if j ≠ 0 && (s.rowStep j).ok then s.setTable (rKey j 0) (bits v 0 13)
  else (s.setTable (rKey j 0) (bits v 0 13 - 1)).occ 46 20

/-- Software writes word `w` of row-step entry `j`. -/
def State.writeRow (s : State) (j w v : Nat) : State :=
  if w = 0 then s.writeRow0 j v
  else if (s.rowStep j).valid then s.occ 46 21
  else s.setTable (rKey j w) (bits v 0 (if w = 3 then 40 else 64))

/-- Word 0 of a group entry is written with VALID = 1 (R363). -/
def execGroupRegister (n : Fin 4096) (w : Word64) (s : State) : Host.Outcome State Fault Refusal :=
  .next (s.tableWrite (gKey n 0) fun s => s.writeGroup0 n (w.toNat / 2 * 2 + 1))

/-- Word 0 of a group entry is written with VALID = 0 (R363 step 7). -/
def execGroupDeregister (n : Fin 4096) (w : Word64) (s : State) : Host.Outcome State Fault Refusal :=
  .next (s.tableWrite (gKey n 0) fun s => s.writeGroup0 n (w.toNat / 2 * 2))

/-- Word 0 of a row-step entry is written with VALID = 1 (R374). -/
def execRowStepRegister (n : Fin 256) (w : Word64) (s : State) : Host.Outcome State Fault Refusal :=
  .next (s.tableWrite (rKey n 0) fun s => s.writeRow0 n (w.toNat / 2 * 2 + 1))

/-- Word 0 of a row-step entry is written with VALID = 0 (R374). -/
def execRowStepDeregister (n : Fin 256) (w : Word64) (s : State) : Host.Outcome State Fault Refusal :=
  .next (s.tableWrite (rKey n 0) fun s => s.writeRow0 n (w.toNat / 2 * 2))

/-! ### Landed gradients -/

/-- The value of gradient-space element `e` as its bucket landed it (R101, R345). -/
def State.gradAt (s : State) (c : JobCtx) (e : Nat) : Num :=
  let b := e / c.jr.perBucket
  let k := e % c.jr.perBucket
  let a := c.jr.slot b (k / 32)
  let head := s.readNat a 1
  if bits head 7 1 = 1 then .nan
  else
    let v := if bits head 6 1 = 1 then signedOf (s.readNat (a + 1 + 2 * (k % 32)) 2) 16
      else signedOf (s.readNat (a + 1 + k % 32) 1) 8
    Num.ofInt v ((c.bucket b).eb.getD 0) false

/-- The bytes that hold the element. -/
def State.gradSpans (s : State) (c : JobCtx) (e : Nat) : List Span :=
  let k := e % c.jr.perBucket
  let a := c.jr.slot (e / c.jr.perBucket) (k / 32)
  [{ a, n := 1 }, if bits (s.readNat a 1) 6 1 = 1 then { a := a + 1 + 2 * (k % 32), n := 2 } else { a := a + 1 + k % 32, n := 1 }]

/-- Has every bucket that holds an element of [lo, hi) landed (R365, R375)? Elements beyond SPACE_LEN never land (R363). -/
def JobCtx.landedTo (c : JobCtx) (lo hi : Nat) : Bool :=
  hi ≤ c.jr.spaceLen &&
    (List.range ((hi - 1) / c.jr.perBucket + 1 - lo / c.jr.perBucket)).all fun i => (c.bucket (lo / c.jr.perBucket + i)).isLanded

/-- The context of a group's job. -/
def State.groupCtx (s : State) (n : Nat) : JobCtx := ((s.ctxOf (s.gJob n)).map s.job).getD {}

/-- May this piece of work begin (R365, R375)? -/
def State.workReady (s : State) (p : Pass) (w : Work) : Bool :=
  !w.started && !p.stopped && (!p.b || s.fence) &&
    (s.groupCtx w.group).landedTo (s.gOff w.group + w.first) (s.gOff w.group + w.first + w.len)

/-! ### The ranges and rows of a pass (R365, R375) -/

/-- The ranges of a group. -/
def State.rangesOf (s : State) (n : Nat) : List Work :=
  let per := (s.groupCtx n).jr.perBucket
  let off := s.gOff n
  let len := s.gLen n
  (List.range ((off + len - 1) / per + 1 - off / per)).map fun k =>
    let b := off / per + k
    let lo := max off (b * per)
    { group := n, k, bucket := b, first := lo - off, len := min (off + len) ((b + 1) * per) - lo }

/-- The rows of an embedding group. -/
def State.rowsOf (s : State) (n : Nat) : List Work :=
  let r := s.rowStep (s.gRse n)
  (List.range r.rows).map fun k =>
    { group := n, k, bucket := (s.gOff n + k * r.cols) / (s.groupCtx n).jr.perBucket, first := k * r.cols, len := r.cols, row := some k }

/-! ### The end of a group's pass -/

/-- Write the norm element of a slot once the last of its groups sets PADONE (R368). -/
def State.normSlot (s : State) (n : Nat) : State :=
  let l := s.groups.filter fun m => s.gJob m = s.gJob n && s.gNslot m = s.gNslot n && s.gProg m false ≠ 0 && !s.gFrozen m
  if !l.contains n || !l.all s.gPadone then s else
  let v := l.foldl (fun a m => rneZ40 (Num.add a (ofContainer (BitVec.ofNat 64 (s.gw m 12))))) Num.zero
  let low := l.headD n
  let (a, bs) := if s.gNfmt low then (s.gNormv low + 4 * s.gNslot n, leBytes (toB32 v) 4)
    else (s.gNormv low + 8 * s.gNslot n, leBytes (toContainer v).toNat 8)
  s.store a bs

/-- Pass A of a group is complete (R367): GSUM0, GSUM1 and GNF are formed from the `k` partial records, and PADONE is set; the NFOK that
its instruction read at issue goes with the GNF (R364, R369). -/
def State.passAEnd (s : State) (n k : Nat) (nfok : Bool) : State :=
  let at' (i o : Nat) : Num := ofContainer (BitVec.ofNat 64 (s.readNat (s.gNrec n + 32 * i + o) 8))
  let fold (o : Nat) : Num := (List.range k).foldl (fun a i => rneZ40 (Num.add a (at' i o))) Num.zero
  let nf := (List.range k).foldl (fun a i => satAdd a (s.readNat (s.gNrec n + 32 * i + 16) 6)) 0
  let s0 := fold 0
  let s1 := fold 8
  let s := ((s.setTable (gKey n 12) (toContainer s0).toNat).setTable (gKey n 13) (toContainer s1).toNat).setTable (gKey n 14) nf
  let s := s.setTableBits (gKey n 0) 34 1 1
  let s := s.modCommit fun c => { c with nfok := if nfok then n :: c.nfok.filter (· ≠ n) else c.nfok.filter (· ≠ n) }
  if k = 0 then s else s.normSlot n

/-- A pass takes a trap at its completion, unless it has one; where it is stopped, it starts no further program run (R417). -/
def State.passTrap (s : State) (ins : InsRef) (stop : Bool) (cause : TrapCause) : State :=
  { s with passes := s.passes.map fun p =>
      if p.ins = ins then { p with stopped := p.stopped || stop, trap := some (p.trap.getD cause) } else p }

/-- The partial records of a group are read: an uncorrectable unit takes DATA_ERROR at the completion of the pass (R285, R290), and the
group's fields are not formed. -/
def State.recordsBad (s : State) (ins : InsRef) (n k : Nat) : State × Bool :=
  let bad := s.badUnits [{ a := s.gNrec n, n := 32 * k }]
  if bad.isEmpty then (s, false) else ((s.each bad State.memUncorr).passTrap ins false .dataError, true)

/-- One piece of work of a pass is finished; the last of a group's completes the group (R367, R370). -/
def State.workDone (s : State) (ins : InsRef) (w : Work) : State :=
  match s.passes.find? (·.ins = ins) with
  | none => s
  | some p =>
    let work := p.work.map fun x => if x.group = w.group && x.k = w.k then { x with started := true, finished := true } else x
    let s : State := { s with passes := s.passes.map fun x => if x.ins = ins then { x with work } else x }
    let mine := work.filter (·.group = w.group)
    let s :=
      if !mine.all (·.finished) then s
      else if p.b then s.setTableBits (gKey w.group 0) 33 1 1
      else
        let (s, bad) := (s.forRead [{ a := s.gNrec w.group, n := 32 * mine.length }]).recordsBad ins w.group mine.length
        if bad then s else s.passAEnd w.group mine.length (p.nfok.contains w.group)
    s.passEnd

/-- A pass begins to write inactive buffers: ROLLREADY clears (R390). -/
def State.inactiveWritten (s : State) : State := s.modCommit fun c => { c with rollReady := false }

/-! ### Lazy rows (R375) -/

/-- The count of a row in the active or the inactive buffer. -/
def State.rowCountAt (s : State) (n r : Nat) (active : Bool) : Nat :=
  (if active then s.gActive n else s.gInactive n) + (s.rowStep (s.gRse n)).cntOff + 4 * r

/-- Is a row touched in this ticket? -/
def State.touched (s : State) (w : Work) : Bool :=
  let c := s.groupCtx w.group
  (List.range w.len).any fun i =>
    match s.gradAt c (s.gOff w.group + w.first + i) with
    | .fin _ m _ => m ≠ 0
    | _ => true

/-- The Gutter reads the count of a row in the active buffer: it passes the Loft slice and waits as any access does (R293, R297, R456); an
uncorrectable unit stops the pass, which takes DATA_ERROR (R285, R290). The flag says so. -/
def State.readCount (s : State) (ins : InsRef) (n r : Nat) : State × Nat × Bool :=
  let a := s.rowCountAt n r true
  let s := s.forRead [{ a, n := 4 }]
  let bad := s.badUnits [{ a, n := 4 }]
  if bad.isEmpty then (s, s.readNat a 4, false) else (((s.each bad State.memUncorr).passTrap ins true .dataError).passEnd, 0, true)

/-- A ready row that is not touched is handled without a program. -/
def State.skipRow (s : State) (ins : InsRef) (w : Work) (r : Nat) : State :=
  let n := w.group
  let e := s.rowStep (s.gRse n)
  let (s, cnt, bad) := s.readCount ins n r
  if bad then s else
  let s :=
    if (cnt + 1) % 2 ^ 32 = s.ticket.toNat % 2 ^ 32 then
      let o := e.stateOff + r * e.rowBytes
      ((s.copyMem (s.gActive n + o) (s.gInactive n + o) e.rowBytes).copyMem (s.rowCountAt n r true) (s.rowCountAt n r false)
        4).inactiveWritten
    else s
  s.workDone ins w

/-- Handle every ready row that is not touched. -/
def State.scanRows (s : State) : State :=
  s.each s.passes fun s p =>
    if !p.b then s else
    s.each (p.work.filter fun w => w.row.isSome && s.workReady p w && !s.touched w) fun s w =>
      s.skipRow p.ins w (w.row.getD 0)

/-! ### UP.IMM, UP.PASSA, UP.PASSB (R271 to R273) -/

/-- UP.IMM (R271): it writes half of an immediate word. -/
def execUpImm (d : TrussId) (s : State) : Host.Outcome State Fault Refusal :=
  match s.ready d 7 0x80 with
  | none => .next s
  | some e =>
    let s := s.issue d 7 e
    if s.inert then .next (s.finish d e.seq) else
    let v := BitVec.ofNat 32 (bits e.w0.toNat 6 16)
    let k := bits e.cr 0 5
    let old := vget (s.tr d).imm k 0
    let x : Word32 := if e.m 0 then (old &&& 0xFFFF) ||| (v <<< 16) else (old &&& 0xFFFF0000) ||| v
    .next ((s.setImm d k x).finish d e.seq)

/-- The seed, TICKMIX and LIMIT of a slice (chapter 12, Registers). -/
def State.gutterSeed (s : State) (q : Nat) : Word64 × Bool × Nat :=
  let r (k : Nat) : Nat := (s.regRaw (46 + q) (0x508 + 4 * k)).toNat
  (BitVec.ofNat 64 (r 0 + 2 ^ 16 * r 1 + 2 ^ 32 * r 2 + 2 ^ 48 * r 3), (s.cfg (46 + q) 0x504).getLsbD 0, s.cfgBits (46 + q) 0x504 1 4)

/-- A pass instruction issues (R256, R272, R273, R364, R367, R370). A group that is not valid names no job. -/
def upPass (d : TrussId) (b : Bool) (s : State) : Host.Outcome State Fault Refusal :=
  match s.ready d 7 (if b then 0x82 else 0x81) with
  | none => .next s
  | some e =>
    let s := s.issue d 7 e
    if s.inert then .next (s.finish d e.seq) else
    let l := (List.range (e.db + 1)).map (e.da + ·)
    match firstTrap [if l.any fun n => 4096 ≤ n || !s.gValid n then some .groupInvalid else none,
        if l.any fun n => s.gValid n && (s.openJob (s.gJob n)).isNone then some .jobState else none] with
    | some c => .next (s.issueTrap d 7 e c)
    | none =>
      let frozen := l.filter s.gFrozen
      let s := s.occ 46 19 frozen.length
      let run := l.filter fun n => !s.gFrozen n
      let none' := run.filter fun n => s.gProg n b = 0
      let s := if b then s else s.each none' fun s n => s.passAEnd n 0 false
      let prog := run.filter fun n => s.gProg n b ≠ 0
      let work := prog.flatMap fun n => if b && s.gRse n ≠ 0 then s.rowsOf n else s.rangesOf n
      let slices := if e.hi 0 4 = 0 then 15 else e.hi 0 4
      let p : Pass := { ins := e.ref d, b, slices, imm := (s.tr d).imm.toList, groups := l, noprog := if b then none' else [],
                        nfok := l.filter s.gNfok, work, seeds := (List.range 4).map s.gutterSeed }
      let written := if s.passes.isEmpty then [] else s.written
      .next ((({ s with passes := s.passes ++ [p], written } : State).armFree.scanRows).passEnd)

/-- UP.PASSA. -/
def execUpPassa (d : TrussId) (s : State) : Host.Outcome State Fault Refusal := waitRecall s (upPass d false s)

/-- UP.PASSB. -/
def execUpPassb (d : TrussId) (s : State) : Host.Outcome State Fault Refusal := waitRecall s (upPass d true s)

/-! ### UP.COMMIT (R274 to R276, R376, R377, R568) -/

/-- CONFIRM was formed here: what waits for the fence goes on. -/
def State.fenceMoved (s : State) : State := (s.armFree.scanRows).tryCast

/-- UP.COMMIT. -/
def upCommit (d : TrussId) (s : State) : Host.Outcome State Fault Refusal :=
  match s.ready d 7 0x83 with
  | none => .next s
  | some e =>
    let s := s.issue d 7 e
    match s.jobAt e with
    | none => .next (s.issueTrap d 7 e .jobState)
    | some j =>
      let c := s.job j
      if c.home ≠ d || (s.commit.cjob.isSome && s.commit.cjob ≠ some j) then .next (s.issueTrap d 7 e .jobState)
      else if s.commit.ins.isSome then .next (s.issueTrap d 7 e .commitTwice)
      else
        let expert := s.level 46 0x400
        let skip := (s.cfg 46 0x404).getLsbD 0
        let s := s.modCommit fun m => { m with expert, skipConf := skip, cjob := some j, cmjob := BitVec.ofNat 16 c.d0 }
        if s.commit.owed then .next (((s.modCommit fun m => { m with owed := false }).finish d e.seq).sendMirrored.fenceMoved)
        else .next ((s.modCommit fun m => { m with ins := some (e.ref d), yesBit := e.m 0 }).sendMirrored.fenceMoved)

/-- UP.COMMIT; a publish that meets lines of the host waits for their recall. -/
def execUpCommit (d : TrussId) (s : State) : Host.Outcome State Fault Refusal := waitRecall s (upCommit d s)

/-! ### Landed buckets (R345) -/

/-- Every slot of a bucket is landed. -/
def execBucketLanded (j : Fin 64) (b : Nat) (s : State) : Host.Outcome State Fault Refusal :=
  waitRecall s (.next (s.bucketLanded j b).scanRows)

/-! ### ROLLBACK and REPUB (R390) -/

/-- ROLLBACK acts. -/
def State.rollback (s : State) : State :=
  let back := s.groups.filter fun n => bits (s.gw n 15) 0 48 ≠ 0 && bits (s.gw n 15) 0 48 + 1 = s.ticket.toNat
  let s := s.each back fun s n =>
    let s := (s.setTableBits (gKey n 0) 32 1 (1 - s.gEpoch n)).setTable (gKey n 15) 0
    s.publish n (s.gActive n)
  let s := if s.ticket = 0 then s else s.setTicket (s.ticket - 1)
  let s := s.modCommit fun c => { c with rollReady := false, mstate := 0, sending := none }
  (s.occ 46 24).raise 0x343 46 s.ticket.toNat

/-- A write of 1 to CMCTL.ROLLBACK (R390). -/
def State.writeRollback (s : State) : State := if s.commit.rollReady && !s.jobActive then s.rollback else s.orReg 46 0x40C 2

/-- A write of 1 to CMCTL.REPUB (R390). -/
def State.writeRepub (s : State) : State :=
  if s.jobActive then s else (s.each s.groups fun s n => s.publish n (s.gActive n)).occ 46 25

/-- A write of 1 to CMCTL.ROLLBACK. -/
def execRollback (r : Requester) (s : State) : Host.Outcome State Fault Refusal :=
  waitRecall s <|
  let (s, ok) := s.reachBy r 46 0x418
  .next (if ok then s.writeRollback else s)

/-- A write of 1 to CMCTL.REPUB. -/
def execRepub (r : Requester) (s : State) : Host.Outcome State Fault Refusal :=
  waitRecall s <|
  let (s, ok) := s.reachBy r 46 0x418
  .next (if ok then s.writeRepub else s)

end Sys2Proof.Machine
end

