-- ==== Sys2Proof/Machine/Packets.lean ====
section
/-! DEFINITION. Receiving Gutter packets: the checks of R334 with the hold of R335, what each kind does (R330 to R357), the commit
packets at their receivers (R378 to R381, R388), and relays (R439). -/
namespace Sys2Proof.Machine

/-! ### The checks (R334) -/

/-- The bucket that an event of a packet names (R361); 0 for the kinds without one. -/
def bucketNo (p : Packet) : Nat :=
  if p.kind == Kind.bucketRs.code || p.kind == Kind.bucketAg.code then p.bucket.toNat else 0

/-- The phase of a COMMIT packet (R381). -/
def phaseOf (p : Packet) : Nat := bits p.bucket.toNat 0 8

/-- Check 1: the kind is reserved, or a COMMIT packet names no phase of R381. -/
def badKind (p : Packet) : Bool :=
  match Kind.ofCode p.kind with
  | none => true
  | some .commit => phaseOf p = 0 || 4 < phaseOf p
  | some _ => false

/-- How (TICKET, ATTEMPT) of a packet stands to the receiver's attempt (check 6). -/
inductive Age where
  | current | successor | stale | skew
deriving DecidableEq, Repr

/-- Check 6. -/
def ageOf (t a : Nat) (p : Packet) : Age :=
  let pt := p.ticket.toNat
  let pa := p.attempt
  if pt = t ∧ pa = a then .current
  else if (pt = t + 1 ∧ pa = 0) ∨ (pt = t ∧ pa = (a + 1) % 16) then .successor
  else if pt + 1 = t ∨ (pt = t ∧ 1 ≤ (a + 16 - pa) % 16 ∧ (a + 16 - pa) % 16 ≤ 7) then .stale
  else .skew

/-- What the checks of R334 decide: the count of a drop, a hold, a failure of check 6, 8 or 9, or that the packet lands. -/
inductive Verdict where
  | badKind | noJob | oldGen | notMember
  | held
  | stale (j : Nat)
  | ticketSkew (j : Nat)
  | dropped (j : Nat)
  | scaleSkew (j : Nat)
  | lands (j src : Nat)
deriving DecidableEq, Repr

/-- The kinds whose packets skip checks 6 to 9 here: JOIN_ACK and DRAIN (R334 order 5). -/
def skipsAge (p : Packet) : Bool := p.kind == Kind.joinAck.code || p.kind == Kind.drain.code

/-- Check 8, for a bucket packet (R334). -/
def State.checkScale (s : State) (j src : Nat) (p : Packet) : Verdict :=
  let c := s.job j
  let b := p.bucket.toNat
  if (p.kind == Kind.bucketRs.code || p.kind == Kind.bucketAg.code) && b < c.jr.nBuckets then
    match (c.bucket b).eb with
    | none => .held
    | some eb => if p.eb = BitVec.ofInt 16 eb then .lands j src else .scaleSkew j
  else .lands j src

/-- Checks 1 to 8 (R334) of a packet that is no JOIN. COMMIT packets skip check 7: an abandoned attempt ends when OUTCOME is received
(R348, R380, R568), and the root that abandoned after its cast goes on taking votes (R379; log entry 46). -/
def State.verdict (s : State) (p : Packet) : Verdict :=
  if badKind p then .badKind else
  match s.ctxOf p.job.toNat with
  | none => .noJob
  | some j =>
    let c := s.job j
    if c.gen ≠ p.gen.toNat then .oldGen else
    match c.index p.src.toNat with
    | none => .notMember
    | some src =>
      if skipsAge p then .lands j src else
      match ageOf s.ticket.toNat c.attempt p with
      | .successor => .held
      | .stale => .stale j
      | .skew => .ticketSkew j
      | .current =>
        if s.commit.abandoned && p.kind != Kind.commit.code then .dropped j else s.checkScale j src p

/-! ### The effect of each kind -/

/-- The blocks of a bucket packet with the values that travel with them (R344): every block takes the packet's MAXQ, the first one
its DROPS. -/
def packetBlocks (p : Packet) : Option (List Block) :=
  (blocksOf p.nblk.toNat p.payload).map fun l =>
    ((List.range l.length).zip l).map fun x =>
      { x.2 with maxq := if x.2.poison then 0 else p.maxq.toNat, drops := if x.1 = 0 then p.drops.toNat else 0 }

/-- Is block `blk` of bucket `b` expected from `src` (check 9, R341, R342)? `ag`: in the all-gather; `k`: the index of its ring. The
answer is the phase number of `Bucket.got`. -/
def JobCtx.expects (c : JobCtx) (ag : Bool) (k src b blk : Nat) : Option Nat :=
  let seg := c.segs b blk
  match c.rings[k]?, c.rings.head? with
  | some r, some r0 =>
    let sg := if k = 0 then seg.1 else seg.2
    let start := if ag then sg else (sg + 1) % r.size
    let ph := if ag then 3 - k else k
    if r.prev = src && r.pos ≠ start && (k = 0 || r0.pos = seg.1) && !(c.bucket b).got.contains (ph, blk) then some ph else none
  | _, _ => none

/-- One expected block comes (R341, R342). -/
def State.takeBlock (s : State) (j b blk ph : Nat) (x : Block) : State :=
  let s := s.modBucket j b fun k => { k with got := k.got ++ [(ph, blk)] }
  let c := s.job j
  match ph with
  | 0 =>
    if (c.bucket b).own.any (·.1 = blk) then s.reduce1 j b blk (some x)
    else s.modBucket j b fun k => { k with arr := k.arr ++ [(blk, x)] }
  | 1 =>
    match (c.bucket b).mid.find? (·.1 = blk) with
    | some (_, own) => s.reduce2 j b blk (some x) own
    | none => s.modBucket j b fun k => { k with wait := k.wait ++ [(blk, x)] }
  | 2 => s.total j b blk x
  | _ =>
    let s := s.land j b blk x
    match c.rings with
    | r :: _ => s.passOn j r (c.segs b blk).1 b blk x
    | [] => s

/-- BUCKET_RS and BUCKET_AG (check 9 of R334, R341, R342). -/
def State.bucketIn (s : State) (j src : Nat) (p : Packet) : State :=
  let c := s.job j
  let q := sliceOf p
  let b := p.bucket.toNat
  let u := bits p.first.toNat 0 30
  let k := levelOf p - 1
  let level := (c.rings[k]?).map (·.lvl)
  match packetBlocks p with
  | none => s.seqMismatch j q b
  | some l =>
    let ag := p.kind == Kind.bucketAg.code
    let at' (i : Nat) : Option Nat := if u + i < quarter (c.jr.blocks b) q then c.expects ag k src b (4 * (u + i) + q) else none
    if c.jr.nBuckets ≤ b || level ≠ some (levelOf p) || l.isEmpty || (List.range l.length).any fun i => (at' i).isNone then
      s.seqMismatch j q b
    else
      s.each ((List.range l.length).zip l) fun s x =>
        if s.commit.abandoned then s else s.takeBlock j b (4 * (u + x.1) + q) (if ag then 3 - k else k) x.2

/-- AGREE (R339, R352); one of a bucket beyond the job's count, or one that this member does not expect, is dropped (log entry
45). -/
def State.agreeIn (s : State) (j src : Nat) (p : Packet) : State :=
  let c := s.job j
  let b := p.bucket.toNat
  let v := ofContainer (BitVec.ofNat 64 (leNat (p.payload.take 8)))
  if c.jr.nBuckets ≤ b || p.payload.length ≠ 8 then s else
  match bits p.first.toNat 30 2 with
  | 0 =>
    if c.chainPos ≠ 0 && c.chain[c.chainPos - 1]? = some src && (c.bucket b).chain.isNone then
      (s.modBucket j b fun k => { k with chain := some v }).chainGo j b
    else s
  | 1 => if c.self = 0 then s.castB j b v else s
  | 2 => if c.self ≠ 0 then s.castB j b v else s
  | _ => s

/-- The commit function serves a job: it is the commit job, or none is set (R376, R568). -/
def State.commitOf (s : State) (j : Nat) : Bool := s.commit.cjob.isNone || s.commit.cjob = some j

/-- ABANDON (R348); at the root one with VOTED 0 decides no (R379), whether or not this device has abandoned already. -/
def State.abandonIn (s : State) (j : Nat) (p : Packet) : State :=
  let c := s.job j
  let t := s.ticket
  let s := if s.commit.abandoned then s.occ 46 9 else s.failAttempt 7
  if c.self = 0 && s.commit.cjob = some j && !p.bucket.getLsbD 0 && s.ticket = t && (s.job j).attempt = c.attempt then
    s.outcome (s.job j) false []
  else s

/-- A COMMIT VOTE (R378, R379): a direct no is for the root alone. -/
def State.voteIn (s : State) (j : Nat) (p : Packet) : State :=
  let c := s.job j
  if !s.commitOf j then s
  else if c.self = 0 && !p.first.getLsbD 0 then s.outcome c false []
  else if p.flags.getLsbD 1 then s
  else
    let (s, v) := s.foldIn c 1 (levelOf p - 1) ⟨p.first.getLsbD 0, p.drops.toNat, p.first.getLsbD 1⟩
    match v with
    | some v => if v.val && v.cnt = c.members.length then s.outcome c true [] else s
    | none => s

/-- What a COMMIT packet carries (R381). -/
def foldOf (p : Packet) : FoldVal := ⟨p.first.getLsbD 0, p.drops.toNat, p.first.getLsbD 1⟩

/-- A COMMIT OUTCOME (R380, R382). -/
def State.outcomeIn (s : State) (j : Nat) (p : Packet) : State :=
  let c := s.job j
  if s.commitOf j && c.self ≠ 0 then s.outcomeAs c (foldOf p) [] else s

/-- A MIRRORED partial (R388). -/
def State.mirroredIn (s : State) (j : Nat) (p : Packet) : State :=
  let c := s.job j
  if !s.commitOf j then s else
  let (s, v) := s.foldIn c 3 (levelOf p - 1) ⟨p.first.getLsbD 0, p.drops.toNat, p.first.getLsbD 1⟩
  match v with
  | some v => if v.cnt = c.members.length then (s.castOn c 4 v).confirmed else s
  | none => s

/-- CONFIRM (R388). -/
def State.confirmIn (s : State) (j : Nat) (p : Packet) : State :=
  let c := s.job j
  if !s.commitOf j || c.self = 0 || s.commit.conf then s else (s.castOn c 4 (foldOf p)).confirmed

/-- A packet that passed checks 1 to 8. -/
def State.landPacket (s : State) (j src : Nat) (p : Packet) : State :=
  match Kind.ofCode p.kind with
  | none | some .join => s
  | some .joinAck => s.joinAckIn j src p
  | some .bucketRs | some .bucketAg => s.bucketIn j src p
  | some .agree => s.agreeIn j src p
  | some .reduce => s.redIn j src .reduce p
  | some .vote => s.redIn j src .vote p
  | some .dispatch | some .dispatchEnd => s.dispIn j src p
  | some .combine | some .combineEnd => s.combIn j src p
  | some .drain => s.drainIn j src p
  | some .abandon => s.abandonIn j p
  | some .commit =>
    match phaseOf p with
    | 1 => s.voteIn j p
    | 2 => s.outcomeIn j p
    | 3 => s.mirroredIn j p
    | _ => s.confirmIn j p

/-- Where a packet came: the port and the stream of its path, none where it stood in no inbox. -/
abbrev Path := Option (Nat × Bool)

/-- What the checks decide is done (R334, R335, R347). -/
def State.apply (s : State) (path : Path) (p : Packet) : Verdict → State
  | .badKind => s.occ 46 5
  | .noJob => s.occ (46 + sliceOf p) 6
  | .oldGen => (s.orReg (46 + sliceOf p) 0xC 0x40).occ (46 + sliceOf p) 7
  | .notMember => s.occ (46 + sliceOf p) 8
  | .held => { s with held := s.held ++ [(p, path)] }
  | .stale j =>
    let q := 46 + sliceOf p
    let s := (s.orReg q 0xC 0x40).occ q 7
    if (s.cfg q 4).getLsbD 1 then s.raiseOnce 0 0x306 q (s.job j).d0 (bucketNo p) else s
  | .ticketSkew j =>
    let q := 46 + sliceOf p
    (((s.orReg q 0xC 1).occ q 10).raiseOnce 0 0x302 q (s.job j).d0 (bucketNo p)).failAttempt 6
  | .dropped j => if p.kind == Kind.abandon.code then s.abandonIn j p else s.occ (46 + sliceOf p) 9
  | .scaleSkew j =>
    let q := 46 + sliceOf p
    (((s.orReg q 0xC 2).occ q 11).raiseOnce 0 0x303 q (s.job j).d0 (bucketNo p)).failAttempt 6
  | .lands j src => s.landPacket j src p

/-- A packet of the same member on the same path is held: what comes behind it keeps its place (R335). -/
def State.behind (s : State) (path : Path) (p : Packet) : Bool := s.held.any fun h => h.1.src = p.src && h.2 = path

/-- What becomes of a packet that comes on a path: the checks decide, and one of a member behind a held one of that member and path is
held too, whatever checks 6 to 9 would say of it now (R334, R335; log entry 46). -/
def State.fate (s : State) (path : Path) (p : Packet) : Verdict :=
  let behind := s.behind path p && !skipsAge p
  match s.verdict p with
  | .badKind => .badKind
  | .noJob => .noJob
  | .oldGen => .oldGen
  | .notMember => .notMember
  | v => if behind then .held else v

/-- A packet is received (R334); a JOIN follows R330, whose answers stand for checks 2 and 3. -/
def State.receive (s : State) (path : Path) (p : Packet) : State :=
  if p.kind == Kind.join.code then s.joinIn p else s.apply path p (s.fate path p)

/-! ### The hold (R335) and the Wire part (R325) -/

/-- Held packets are checked again, in their order; `n` bounds the rounds. -/
def State.drainHeld (s : State) : Nat → State
  | 0 => s
  | n + 1 =>
    let l := s.held
    let s := ({ s with held := [] } : State).each l fun s h => s.receive h.2 h.1
    if s.held.length < l.length then s.drainHeld n else s

/-- What follows any change of the Gutter's state: held packets, drains, buckets and dispatches that wait, and passes that end. -/
def State.gutterSettle (s : State) : State :=
  let s := s.drainHeld s.held.length
  let s := s.each (List.range 64) fun s j => s.drainCheck j
  (s.bktResume.encodeResume.dispResume.armFree.scanRows).tryCast

/-- Bytes that a packet takes in the hold part. -/
def holdBytes (p : Packet) : Nat := 32 + p.payload.length

/-- Does the hold part of its slice have room for a packet: 256 KiB (R325, R335)? -/
def State.holdRoom (s : State) (p : Packet) : Bool :=
  ((s.held.filter fun h => sliceOf h.1 = sliceOf p).map fun h => holdBytes h.1).sum + holdBytes p ≤ 0x40000

/-- Must some block of a reduce-scatter packet wait in the Wire part: for this device's own block, or for its level-1 total? -/
def State.mustWait (s : State) (p : Packet) : Bool :=
  match s.ctxOf p.job.toNat with
  | none => false
  | some j =>
    let bk := (s.job j).bucket p.bucket.toNat
    p.kind == Kind.bucketRs.code && (List.range p.nblk.toNat).any fun i =>
      let blk := 4 * (bits p.first.toNat 0 30 + i) + sliceOf p
      if levelOf p = 2 then !bk.mid.any (·.1 = blk) else !bk.own.any (·.1 = blk)

/-- Has the Gutter no room for a packet: in the hold part where it must be held, in the Wire part where its blocks must wait? -/
def State.noRoom (s : State) (path : Path) (p : Packet) : Bool :=
  if p.kind != Kind.join.code && s.fate path p = .held then !s.holdRoom p
  else s.mustWait p && !s.wireRoom (sliceOf p) p.payload.length

/-- Cells of a packet (R421, R422). -/
def cellsOf (p : Packet) : Nat := (36 + p.payload.length + 251) / 252

/-- A packet stands in an inbox behind another of its stream: a stream is handed on in order (R427). -/
def State.notHead (s : State) (path : Path) (p : Packet) : Bool :=
  match path with
  | none => false
  | some (k, stream) => ((s.port k).inbox.find? (·.1 = stream)).map (·.2) != some p

/-- The path of a packet: the first port inbox that holds it, and its stream there. -/
def State.pathOf (s : State) (p : Packet) : Path :=
  (List.range 22).findSome? fun k => ((s.port k).inbox.find? (·.2 = p)).map fun x => (k, x.1)

/-- Take a packet out of the inbox of its path; its cells return as credits (R426). -/
def State.takeInbox (s : State) (path : Path) (p : Packet) : State :=
  match path with
  | none => s
  | some (k, stream) =>
    (s.modPort k fun q =>
      { q with inbox := q.inbox.erase (stream, p)
               retBulk := if stream then q.retBulk else q.retBulk + cellsOf p
               retCtrl := if stream then q.retCtrl + cellsOf p else q.retCtrl }).pump k 2

/-- A packet reaches the Gutter: one for this device (R439), and of an inbox only the first of its stream (R427); one that stands in no
inbox has come whole (log entry 80). One that finds no room stays where it is (R325, R335). -/
def State.packetIn (s : State) (p : Packet) : State :=
  if !s.isLive 46 || !s.pins.resetN || p.dest ≠ s.coord.inForce then s else
  let s := s.gutterSettle
  let path := s.pathOf p
  if s.noRoom path p || s.notHead path p then s else ((s.takeInbox path p).receive path p).gutterSettle

/-- The packet as one of a kind. -/
def ofKind (k : Kind) (p : Packet) : Packet := { p with kind := k.code }

/-- The packet as a COMMIT packet of a phase (R381). -/
def ofPhase (n : Nat) (p : Packet) : Packet :=
  { p with kind := Kind.commit.code, bucket := p.bucket - BitVec.ofNat 32 (bits p.bucket.toNat 0 8) + BitVec.ofNat 32 n }

def execJoin (p : Packet) (s : State) : Host.Outcome State Fault Refusal := waitRecall s (.next (s.packetIn (ofKind .join p)))
def execJoinAck (p : Packet) (s : State) : Host.Outcome State Fault Refusal := waitRecall s (.next (s.packetIn (ofKind .joinAck p)))
def execBucketRs (p : Packet) (s : State) : Host.Outcome State Fault Refusal := waitRecall s (.next (s.packetIn (ofKind .bucketRs p)))
def execBucketAg (p : Packet) (s : State) : Host.Outcome State Fault Refusal := waitRecall s (.next (s.packetIn (ofKind .bucketAg p)))
def execAgree (p : Packet) (s : State) : Host.Outcome State Fault Refusal := waitRecall s (.next (s.packetIn (ofKind .agree p)))
def execReduce (p : Packet) (s : State) : Host.Outcome State Fault Refusal := waitRecall s (.next (s.packetIn (ofKind .reduce p)))
def execDispatch (p : Packet) (s : State) : Host.Outcome State Fault Refusal := waitRecall s (.next (s.packetIn (ofKind .dispatch p)))
def execDispatchEnd (p : Packet) (s : State) : Host.Outcome State Fault Refusal :=
  waitRecall s (.next (s.packetIn (ofKind .dispatchEnd p)))
def execCombine (p : Packet) (s : State) : Host.Outcome State Fault Refusal := waitRecall s (.next (s.packetIn (ofKind .combine p)))
def execCombineEnd (p : Packet) (s : State) : Host.Outcome State Fault Refusal :=
  waitRecall s (.next (s.packetIn (ofKind .combineEnd p)))
def execVote (p : Packet) (s : State) : Host.Outcome State Fault Refusal := waitRecall s (.next (s.packetIn (ofKind .vote p)))
def execDrain (p : Packet) (s : State) : Host.Outcome State Fault Refusal := waitRecall s (.next (s.packetIn (ofKind .drain p)))
def execAbandon (p : Packet) (s : State) : Host.Outcome State Fault Refusal := waitRecall s (.next (s.packetIn (ofKind .abandon p)))
def execCommitVote (p : Packet) (s : State) : Host.Outcome State Fault Refusal := waitRecall s (.next (s.packetIn (ofPhase 1 p)))
def execOutcome (p : Packet) (s : State) : Host.Outcome State Fault Refusal := waitRecall s (.next (s.packetIn (ofPhase 2 p)))
def execMirrored (p : Packet) (s : State) : Host.Outcome State Fault Refusal := waitRecall s (.next (s.packetIn (ofPhase 3 p)))
def execConfirm (p : Packet) (s : State) : Host.Outcome State Fault Refusal := waitRecall s (.next (s.packetIn (ofPhase 4 p)))

/-! ### Relays (R439) -/

/-- A relayed packet is dropped: RELAY_DROP at a port, and EV_RELAY_DROP once per ticket of the packet. -/
def State.relayDrop (s : State) (port : Nat) (p : Packet) : State :=
  let s := s.occPort port 12
  if s.once.contains (0x3C3, 0, p.ticket) then s
  else ({ s with once := (0x3C3, 0, p.ticket) :: s.once }).raise 0x3C3 (portDom port) port (s.port port).peer.toNat

/-- Take a packet out of the inbox of one port. -/
def State.takeRelay (s : State) (port : Nat) (stream : Bool) (p : Packet) : State :=
  if (s.port port).inbox.contains (stream, p) then
    (s.modPort port fun q =>
      { q with inbox := q.inbox.erase (stream, p)
               retBulk := if stream then q.retBulk else q.retBulk + cellsOf p
               retCtrl := if stream then q.retCtrl + cellsOf p else q.retCtrl }).pump port 2
  else s

/-- A packet for another coordinate is relayed (R439). -/
def execPacketRelay (port : PortId) (stream : Bool) (p : Packet) (s : State) : Host.Outcome State Fault Refusal :=
  if p.dest = s.coord.inForce || ((s.port port).inbox.contains (stream, p) && s.notHead (some (port, stream)) p) then .next s else
  let s := s.takeRelay port stream p
  let out := (s.pathEntry p.dest.toNat p.job.toNat).bind fun e => (s.eligible e p.plevel.toNat).head?
  match if 6 ≤ p.hops.toNat then none else out with
  | none => .next (s.relayDrop port p)
  | some k => .next ((s.occPort port 11).emit k stream { p with hops := p.hops + 1 } false)

/-! ### Deadlines of the commit (R379, R380) -/

/-- VDEAD passes at the root since its cast. -/
def execVoteDeadline (s : State) : Host.Outcome State Fault Refusal :=
  waitRecall s <|
  match s.commitJob with
  | some c => if c.self = 0 && c.state ≠ 0 && s.commit.cast.isSome then .next ((s.outcome c false [10]).gutterSettle) else .next s
  | none => .next s

/-- No OUTCOME within VDEAD + PEERTO of the cast. -/
def execOutcomeTimeout (s : State) : Host.Outcome State Fault Refusal :=
  waitRecall s <|
  match s.commitJob with
  | some c =>
    if c.self ≠ 0 && c.state ≠ 0 && s.commit.cast.isSome then
      let carry := s.commit.trapNext
      let s := (((s.orReg 46 0x40C 1).raise 0x340 46 s.commitD0).applyOutcome false [11]).sendMirrored
      .next ((if carry then (s.forceNo 2).abandonActs 2 else s).gutterSettle)
    else .next s
  | none => .next s

end Sys2Proof.Machine
end

