-- ==== Sys2Proof/Machine/Fabric.lean ====
section
/-! DEFINITION. The ports (13): frames received (R424 to R427), training and the states of a port (R428 to R430), coordinates (R434),
losing a link (R440), the twin link with the mirror that it brings (R385, R386, R441 to R443). -/
namespace Sys2Proof.Machine

/-- Offset of a port's registers in its window (chapter 13, Registers). -/
def portReg (k off : Nat) : Nat := 0x100 + 0x40 * portIdx k + off

/-- Set bits of PERR. -/
def State.perr (s : State) (k : Nat) (m : Half) : State := s.orReg (portDom k) (portReg k 8) m

/-- Is the port one of the twin link? -/
def isTwin (k : Nat) : Bool := 20 ≤ k

/-! ### Entering a state (R428, R444) -/

/-- A port without a link. -/
def Port.quiet (q : Port) (st : PState) : Port :=
  { q with state := st, nlevel := 0, half := false, fseq := 0, replay := [], waiting := [], credBulk := 0, credCtrl := 0, replays := 0,
           rxSeq := 0, discard := false, nakDue := false, retBulk := 0, retCtrl := 0, partBulk := [], partCtrl := [],
           grantBulk := 0, grantCtrl := 0, line := 0 }

/-- Enter TRAINING: the settings in force are read (R444). -/
def State.enterTraining (s : State) (k : Nat) : State :=
  let x (lo w : Nat) : Nat := s.cfgBits (portDom k) 4 lo w
  s.modPort k fun q =>
    { q.quiet .training with replayMax := x 0 4, maxRetrains := x 4 2, degrade := x 6 1 = 1,
                             advert := min s.keeper.toplevel (x 7 4) }

/-! ### Losing a link (R440, R442, R443) -/

/-- Does the packet belong to its job's current attempt? JOIN and JOIN_ACK belong to none. -/
def State.ofAttempt (s : State) (p : Packet) : Bool :=
  p.kind != Kind.join.code && p.kind != Kind.joinAck.code &&
    match s.ctxOf p.job.toNat with
    | none => false
    | some j => (s.job j).gen = p.gen.toNat && ageOf s.ticket.toNat (s.job j).attempt p = .current

/-- A packet that was not yet in a replay buffer is looked up again (R438, R439). -/
def State.lookupAgain (s : State) (k : Nat) (o : OutPkt) : State :=
  let p := o.pkt
  let low := (s.pathEntry p.dest.toNat p.job.toNat).bind fun e => (s.eligible e p.plevel.toNat).head?
  if !o.own then
    match low with
    | some x => s.emit x o.stream p false
    | none => s.relayDrop k p
  else if p.kind == Kind.drain.code then
    match low with
    | some x => s.emit x o.stream p true
    | none => if s.ofAttempt p then s.noPath else s
  else
    let (s, ok) := s.sendRaw p
    if ok || !s.ofAttempt p then s else s.noPath

/-- The device has lost its partner (R443): the mirror under way fails. -/
def State.partnerCheck (s : State) (k : Nat) (before : Option Nat) : State :=
  match before with
  | none => s
  | some a =>
    if s.partner = some a then s else
    let s := s.raise 0x3C4 45 k a
    if s.commit.sending.isSome then s.mirrorLost.sendMirrored.fenceMoved else s

/-- The packets lost on a fabric port: LINK_LOSS for every job of this device's packets, RELAY_DROP for the others. -/
def State.fabricLoss (s : State) (k : Nat) (lost : List PktTag) : State :=
  let mine := (lost.filter (·.own)).map (·.pkt)
  let s := s.occPort k 9 ((mine.map (·.job)).eraseDups).length
  let s := s.each (lost.filter (!·.own)) fun s x => s.relayDrop k x.pkt
  if mine.any s.ofAttempt then s.failAttempt 0xC else s

/-- The packets lost on a twin port go again over the other one; a mirror that is being sent continues at half rate, which is counted
(R443). -/
def State.twinLoss (s : State) (k : Nat) (l : List Packet) : State :=
  if s.twinUp.isEmpty || !s.pins.twin then s else
  let s := s.each l fun s p => s.sendTwin 0 p
  if s.commit.sending.isSome then s.occPort k 13 else s

/-- With the last twin port down, nothing of the partner's mirror is on its way: the next piece that comes begins another one. -/
def State.mirrorCut (s : State) : State :=
  if s.twinUp.isEmpty then s.modCommit fun c => { c with receiving := none, mirrorDone := none } else s

/-- An UP port leaves UP with a cause (R428, R440). -/
def State.leaveUp (s : State) (k cause : Nat) (st : PState) : State :=
  let q := s.port k
  let lost := ((q.replay.flatMap (·.2)) ++ (q.waiting.filter (·.started)).map fun o =>
    { pkt := o.pkt, stream := o.stream, own := o.own : PktTag }).eraseDups
  let again := q.waiting.filter fun o => !o.started
  let before := s.partner
  let s := if st = .training then s.enterTraining k else s.modPort k fun q => q.quiet st
  let s := if st = .down then s.occPort k 8 else s
  let s := s.raise 0x3C0 (portDom k) (k + 256 * cause) q.peer.toNat
  let s := if lost.isEmpty then s else s.perr k 0x40
  if isTwin k then ((s.twinLoss k ((lost.map (·.pkt)) ++ again.map (·.pkt))).partnerCheck k before).mirrorCut
  else s.each again (fun s o => s.lookupAgain k o) |>.fabricLoss k lost

/-! ### The mirror that a partner sends (R385, R386) -/

/-- The mirror area: the start and the length of a slot. -/
def State.mirrorSlot (s : State) (n : Nat) : Nat × Nat :=
  let r (o : Nat) : Nat := (s.regRaw 45 o).toNat
  let len := r 0x410 * 0x200000
  (r 0x408 * 0x200000 + bits (r 0x40C) 0 11 * 0x2000000000 + n * len, len)

/-- A piece of the partner's mirror comes (log entry 44). A mirror that exceeds the slot is refused (R387), and pieces of a
mirror already answered, which a lost port may send twice (R443), change nothing. -/
def State.mirrorPieceIn (s : State) (p : Packet) : State :=
  let off := p.bucket.toNat + p.first.toNat * 2 ^ 32
  let size := p.drops.toNat + p.maxq.toNat * 2 ^ 32 + p.eb.toNat * 2 ^ 48
  let n := p.ticket.toNat
  let no := p.seq.toNat
  let (base, len) := s.mirrorSlot (n % 2)
  let data := p.payload.drop 8
  let going := s.commit.receiving.any fun m => m.no = no && m.ticket = n
  if off % 2048 ≠ 0 || size < off + data.length || (!going && s.commit.mirrorDone = some (n, no)) then s
  else if len = 0 || len < size || !inHbm base len then
    let s := (s.orReg 45 0x414 4).modCommit fun c => { c with receiving := none, mirrorDone := some (n, no) }
    s.sendTwin 0 { s.twinPacket mirrorAckKind n with seq := p.seq, flags := 1 }
  else
    let s := s.want (s.snooped [{ a := base + off, n := data.length }, { a := base + 10, n := 1 }] true)
    let s :=
      if going then s
      else (s.store (base + 10) [0]).modCommit fun c => { c with receiving := some { slot := n % 2, ticket := n, no, size } }
    let mask := leNat (p.payload.take 8)
    let s := (s.store (base + off) data).each ((List.range 64).filter fun u => mask / 2 ^ u % 2 = 1) fun s u =>
      if 32 * u < data.length then s.mark (base + off + 32 * u) true else s
    s.modCommit fun c => { c with receiving := c.receiving.map fun m =>
      { m with got := if m.got.contains (off / 2048) then m.got else m.got ++ [off / 2048] } }

/-- The receiver has written every other byte of a slot: it sets COMPLETE and acknowledges (R386). -/
def execMirrorComplete (s : State) : Host.Outcome State Fault Refusal :=
  waitRecall s <|
  match s.commit.receiving with
  | none => .next s
  | some m =>
    if m.size ≤ 2048 * m.got.length then
      let a := (s.mirrorSlot m.slot).1 + 10
      let s := s.store a [1]
      let s := s.modCommit fun c => { c with receiving := none, mirrorDone := some (m.ticket, m.no) }
      .next (s.sendTwin 0 { s.twinPacket mirrorAckKind m.ticket with seq := BitVec.ofNat 16 m.no })
    else .next s

/-- The acknowledgement comes (R386): the mirror state becomes SENT; a refusal leaves the ticket unprotected (R387). -/
def execMirrorAck (s : State) : Host.Outcome State Fault Refusal :=
  waitRecall s <|
  let acks := ([20, 21].flatMap fun k => (s.port k).inbox.map (·.2)).filter fun p => p.kind == mirrorAckKind
  let s := s.each [20, 21] fun s k => s.modPort k fun q => { q with inbox := q.inbox.filter fun x => x.2.kind != mirrorAckKind }
  match s.commit.sending with
  | none => .next s
  | some n =>
    let refused := acks.any fun p => p.ticket.toNat = n && p.seq.toNat = s.commit.mirrorNo && p.flags.getLsbD 0
    let s := if refused then s.mirrorLost else s.modCommit fun c => { c with mstate := 2, sending := none }
    .next (s.sendMirrored.fenceMoved)

/-! ### Receiving frames (R424 to R426) -/

/-- Return cells of a stream as credits. -/
def Port.giveBack (q : Port) (stream : Bool) (n : Nat) : Port :=
  if stream then { q with retCtrl := q.retCtrl + n } else { q with retBulk := q.retBulk + n }

/-- A packet is complete at a port: it waits there for the Gutter or the relay; a reserved kind is counted and dropped (R334); a
twin port takes the mirror alone (R441). -/
def State.packetDone (s : State) (k : Nat) (stream : Bool) (l : List Byte) : State :=
  let n := (l.length + 251) / 252
  match Packet.ofWire l with
  | none => s.modPort k fun q => q.giveBack stream n
  | some p =>
    if isTwin k then
      let s := s.modPort k fun q => q.giveBack stream n
      if p.kind == mirrorData then s.mirrorPieceIn p
      else if p.kind == mirrorAckKind then s.modPort k fun q => { q with inbox := q.inbox ++ [(stream, p)] }
      else s
    else if p.dest = s.coord.inForce && badKind p then (s.modPort k fun q => q.giveBack stream n).occ 46 5
    else s.modPort k fun q => { q with inbox := q.inbox ++ [(stream, p)] }

/-- May the peer send a cell of a stream: is there input space that training granted, or that was returned since (R426)? -/
def Port.granted (q : Port) (stream : Bool) : Bool := if stream then q.grantCtrl ≠ 0 else q.grantBulk ≠ 0

/-- A used cell of an accepted frame takes the input space granted for it (R426). One that comes without a grant finds no space and is lost
(DESIGN CHOICE, log entry 82). -/
def State.cellIn (s : State) (k : Nat) (c : Cell) : State :=
  if !c.used then s else
  let s := (s.modPort k fun q => { q with rx := q.rx + c.len.toNat }).occPort k 2
  let q := s.port k
  if !q.granted c.stream then s else
  let old := if c.stream then q.partCtrl else q.partBulk
  let l := (if c.first then [] else old) ++ c.bytes.take c.len.toNat
  let keep := if c.last then [] else l
  let s := (s.modPort k fun q =>
    { q with partBulk := if c.stream then q.partBulk else keep, partCtrl := if c.stream then keep else q.partCtrl,
             grantBulk := if c.stream then q.grantBulk else q.grantBulk - 1,
             grantCtrl := if c.stream then q.grantCtrl - 1 else q.grantCtrl })
  if c.last then s.packetDone k c.stream l else s

/-- An acknowledgement: the frames up to ASEQ leave the replay buffer (R425). -/
def Port.acked (q : Port) (aseq : BitVec 12) : Port :=
  match q.replay.findIdx? (·.1.fseq == aseq) with
  | none => q
  | some i => { q with replay := q.replay.drop (i + 1), replays := 0 }

/-- The used cells of the frames in the replay buffer. -/
def Port.replayCells (q : Port) : List Cell := q.replay.flatMap fun x => x.1.cells.filter (·.used)

/-- A NAK: every buffered frame goes again, with its used cells and their bytes (R518, R527); at the replay limit the port goes DOWN
(R425). -/
def State.nakIn (s : State) (k : Nat) : State :=
  let q := s.port k
  if q.replay.isEmpty then s
  else if q.replayMax ≤ q.replays then (s.perr k 4).leaveUp k 0 .down
  else
    let s := s.modPort k fun q => { q with replays := q.replays + 1, tx := q.tx + (q.replayCells.map fun c => c.len.toNat).sum }
    ((s.occPort k 6).occPort k 0 q.replay.length).occPort k 2 q.replayCells.length

/-- A frame is discarded (R424): the first of a run sends NAK, and so does a failure of the frame that the replay begins with. -/
def State.discardFrame (s : State) (k : Nat) (f : Frame) : State :=
  let s := s.occPort k 4
  s.modPort k fun q => { q with discard := true, nakDue := q.nakDue || !q.discard || f.fseq == q.rxSeq }

/-- A frame reaches an UP port. -/
def State.frameIn (s : State) (k : Nat) (fec : Fec) (f : Frame) : State :=
  let s := (s.occPort k 1).occPort k 3 fec.corrected
  let crcBad := f.cells.any fun c => c.used && decide (c.crcOf ≠ c.crc.toNat)
  if fec.uncorr then ((s.perr k 1).discardFrame k f).pump k 2
  else if crcBad then (((s.perr k 2).occPort k 5).discardFrame k f).pump k 2
  else if f.fseq ≠ (s.port k).rxSeq then (s.discardFrame k f).pump k 2
  else
    let s := s.modPort k fun q =>
      { q.acked f.aseq with rxSeq := q.rxSeq + 1, discard := false, credBulk := q.credBulk + f.bcred.toNat,
                            credCtrl := q.credCtrl + f.ccred.toNat }
    let s := s.each f.cells fun s c => s.cellIn k c
    let s := if f.nak then s.nakIn k else s
    s.pump k (s.port k).frames

/-- FRAME. A frame that has not five cells of 252 bytes cannot be carried by the lanes (R420). -/
def execFrame (port : PortId) (fec : Fec) (f : Frame) (s : State) : Host.Outcome State Fault Refusal :=
  if !f.wf then .fault .malformed
  else if (s.port port).state ≠ .up || !s.isLive (portDom port) then .next s
  else waitRecall s (.next (s.frameIn port fec f))

/-! ### Training (R428 to R430) -/

/-- A port in TRAINING fails it. -/
def State.trainFail (s : State) (k : Nat) : State := ((s.modPort k fun q => q.quiet .down).perr k 0x10).occPort k 8

/-- Cells that a port's inbox still takes from its input space (R426). -/
def Port.inboxCells (q : Port) (stream : Bool) : Nat := ((q.inbox.filter (·.1 == stream)).map fun x => cellsOf x.2).sum

/-- May the port come up with these lanes (R429)? -/
def lanesOk (degrade : Bool) (bad : BitVec 8) : Bool := bad = 0 || (degrade && (bad &&& 0xF0 = 0 || bad &&& 0x0F = 0))

/-- Two UP twin ports report different peers (R442). -/
def State.mispaired (s : State) : Bool :=
  (s.port 20).state = .up && (s.port 21).state = .up && decide ((s.port 20).peer ≠ (s.port 21).peer)

/-- A training exchange completes (R429, R430); it shows that REFCLK1 is there (DESIGN CHOICE, log entry 50). -/
def State.trained (s : State) (k : Nat) (t : TrainInfo) : State :=
  let q := s.port k
  let s := s.modPort k fun q => { q with laneBad := t.laneBad }
  if t.peerTwin ≠ isTwin k || q.advert = 0 || t.peerLevel = 0 || !lanesOk q.degrade t.laneBad then s.trainFail k
  else
    let before := s.partner
    let was := s.mispaired
    let half := t.laneBad ≠ 0
    let s := (s.modPins fun p => { p with ref1 := true }).modPort k fun q =>
      { q with state := .up, nlevel := min q.advert t.peerLevel.toNat, half, peer := t.peerCoord, peerSeen := true, retrains := 0,
               credBulk := t.credBulk, credCtrl := t.credCtrl,
               grantBulk := 448 - q.inboxCells false, grantCtrl := 64 - q.inboxCells true }
    let s := if q.peerSeen && q.peer ≠ t.peerCoord then s.perr k 0x20 else s
    let s := if half then s.raise 0x3C1 (portDom k) k t.peerCoord.toNat else s
    let s := if !was && s.mispaired then (s.orReg 45 0x10 2).raise 0x3C5 45 k t.peerCoord.toNat else s
    s.partnerCheck k before

/-- Does a port's FSTAT show a valid coordinate (R428)? A PORTQ that an island reset took it from waits for the next write (R529). -/
def State.coordAt (s : State) (k : Nat) : Bool := s.coord.valid && !(vget s.coord.gone (k / 4) false)

/-- TRAINING_DONE: the exchange of a port in TRAINING completes; on an UP port it shows that the peer retrains, which sends the port
DOWN with cause PEER (R428, R440). -/
def execTrainingDone (port : PortId) (t : TrainInfo) (s : State) : Host.Outcome State Fault Refusal :=
  if !s.coordAt port || !s.isLive (portDom port) then .next s else
  match (s.port port).state with
  | .training => waitRecall s (.next (s.trained port t))
  | .up => waitRecall s (.next (s.leaveUp port 3 .down))
  | _ => .next s

/-- No exchange within 200 ms, counted from the coordinate write where that is later (R428). -/
def execTrainingTimeout (port : PortId) (s : State) : Host.Outcome State Fault Refusal :=
  if (s.port port).state = .training && s.coordAt port && s.isLive (portDom port) then .next (s.trainFail port) else .next s

/-- An UP port leaves it for want of frames or lanes. -/
def linkLost (port : PortId) (cause : Nat) (s : State) : Host.Outcome State Fault Refusal :=
  if (s.port port).state = .up && s.isLive (portDom port) then waitRecall s (.next ((s.perr port 8).leaveUp port cause .down)) else .next s

def execFrameSilence (port : PortId) (s : State) : Host.Outcome State Fault Refusal := linkLost port 1 s
def execLaneLockLoss (port : PortId) (s : State) : Host.Outcome State Fault Refusal := linkLost port 2 s

/-- 1 ms after DOWN (R428). -/
def execDownRetrain (port : PortId) (s : State) : Host.Outcome State Fault Refusal :=
  let q := s.port port
  if q.state = .down && q.retrains < q.maxRetrains && s.isLive (portDom port) then
    .next ((s.enterTraining port).modPort port fun q => { q with retrains := q.retrains + 1 })
  else .next s

/-! ### PCTL and TWIN_PRESENT_N (R428, R554) -/

/-- A port becomes DISABLED. -/
def State.disablePort (s : State) (k : Nat) : State :=
  if (s.port k).state = .up then s.leaveUp k 4 .disabled else s.modPort k fun q => q.quiet .disabled

/-- A port leaves DISABLED where nothing keeps it there. -/
def State.enablePort (s : State) (k : Nat) : State :=
  if (s.port k).state = .disabled && !(s.port k).disable && (!isTwin k || s.pins.twin) then s.enterTraining k else s

/-- PCTL.RETRAIN. -/
def State.retrainPort (s : State) (k : Nat) : State :=
  match (s.port k).state with
  | .disabled => s
  | .up => s.leaveUp k 5 .training
  | _ => s.enterTraining k

/-- PCTL.DISABLE is written. -/
def State.setDisable (s : State) (k : Nat) (on : Bool) : State :=
  let s := (s.setField (portDom k) (portReg k 0xC) 0 1 (if on then 1 else 0)).modPort k fun q => { q with disable := on }
  if on then s.disablePort k else s.enablePort k

def execPctlDisable (port : PortId) (r : Requester) (s : State) : Host.Outcome State Fault Refusal :=
  waitRecall s <|
  let (s, ok) := s.reachBy r (portDom port) (portReg port 0xC)
  .next (if ok then s.setDisable port true else s)

def execPctlEnable (port : PortId) (r : Requester) (s : State) : Host.Outcome State Fault Refusal :=
  waitRecall s <|
  let (s, ok) := s.reachBy r (portDom port) (portReg port 0xC)
  .next (if ok then s.setDisable port false else s)

def execPctlRetrain (port : PortId) (r : Requester) (s : State) : Host.Outcome State Fault Refusal :=
  waitRecall s <|
  let (s, ok) := s.reachBy r (portDom port) (portReg port 0xC)
  .next (if ok then s.retrainPort port else s)

/-- TWIN_PRESENT_N has held a new level for 1 ms (R554). -/
def State.twinPresent (s : State) (present : Bool) : State :=
  let before := s.partner
  let s := s.modPins fun p => { p with twin := present }
  if !s.isLive 45 then s
  else if present then s.each [20, 21] State.enablePort
  else (s.each [20, 21] State.disablePort).partnerCheck 20 before

def execTwinPresentChange (present : Bool) (s : State) : Host.Outcome State Fault Refusal :=
  waitRecall s (.next (s.twinPresent present))

/-! ### Coordinates (R433, R434) -/

/-- A coordinate takes effect: every UP or TRAINING port retrains. -/
def State.putCoord (s : State) (c : BitVec 16) : State :=
  let s : State := { s with coord := { valid := true, inForce := c, pending := none } }
  s.each (List.range 22) fun s k =>
    match (s.port k).state with
    | .up => s.leaveUp k 5 .training
    | .training => s.enterTraining k
    | _ => s

/-- A pending coordinate takes effect once no job is OPEN or DRAINING. -/
def execCoordApply (s : State) : Host.Outcome State Fault Refusal :=
  match s.coord.pending with
  | some c => if s.jobActive then .next s else waitRecall s (.next (s.putCoord c))
  | none => .next s

end Sys2Proof.Machine
end

