-- ==== Sys2Proof/Machine/Flags.lean ====
section
/-! DEFINITION. The stall causes of R69, R205, R315 and R358, the register fields that hardware owns (R497, type ro), and the value
that a register reads. Causes are those of a cycle in which no command comes (log entry 49). -/
namespace Sys2Proof.Machine

/-- A Bool as a field value. -/
def flag (b : Bool) : Nat := if b then 1 else 0

/-! ### Causes of the great arrays (R69) -/

/-- The cause of the array: the highest-ranked one among its courses that hold work; where none does, RECUT while it waits for a drain
boundary or a recut (R54). -/
def Ga.cause (g : Ga) (bubble : Bool) : Nat :=
  match (g.all.map (g.courseCause bubble)).foldl min 9 with
  | 9 => if g.recut || g.pending then 3 else 9
  | x => x

/-! ### Causes of a Truss (R205) -/

/-- The cause of a wait on an instruction of a queue. -/
def classCause (q : Nat) : Nat :=
  match q with | 1 | 2 => 7 | 3 | 4 => 8 | 5 => 9 | 6 => 0xA | _ => 0xB

/-- The cause of a wait on a spar: by its signaller, the oldest decoded, incomplete instruction that signals it. An in-line instruction that
holds decode has no class there and is passed over (DESIGN CHOICE, log entry 74). -/
def State.sparCause (s : State) (d spar : Nat) : Nat :=
  let t := s.tr d
  let all : List (Nat × QEntry) :=
    (List.range 8).flatMap (fun q => (vget t.queues q []).map fun e => (q, e)) ++ t.issued.map (fun i => (i.q, i.e)) ++
      t.valley.map fun v => (8, v.e)
  match oldestOf (all.filter fun p => p.2.sg = spar) with
  | some (q, _) => if q = 8 then 0xC else classCause q
  | none => if 56 ≤ spar then 0xD else 0xE

/-- The cause of an instruction whose waits the counts of `t` do not satisfy: spar A decides first. -/
def State.waitCause (s : State) (d : Nat) (t : Truss) (e : QEntry) : Nat :=
  let need := if e.wa = e.wb then 2 else 1
  s.sparCause d (if e.wa ≠ 0 && t.spar e.wa < need then e.wa else e.wb)

/-- The cause of a queue head in a cycle: ISSUE where it could issue (log entry 49), ENGINE_BUSY where its engine does not accept it. -/
def State.queueCause (s : State) (d q : Nat) : Nat :=
  let t := s.tr d
  let left := s.leftFor d q
  match vget t.queues q [] with
  | [] => 1
  | e :: _ =>
    if t.trapped || t.aborting then 2
    else if !left.waitsOk e.wa e.wb then s.waitCause d left e
    else if s.accepts d q e then 0 else 0xF

/-- The class of a queue among the causes that decode waits for: the oldest incomplete instruction of the queues that an SY.FENCE
awaits (R229). -/
def Truss.fenceCause (t : Truss) (e : QEntry) : Nat :=
  let l := ((List.range 8).flatMap fun q => (vget t.queues q []).map fun x => (q, x)) ++ t.issued.map fun i => (i.q, i.e)
  match oldestOf (l.filter fun p => p.1 ≠ 0 && e.mod / 2 ^ (p.1 - 1) % 2 = 1) with
  | some (q, _) => classCause q
  | none => 0

/-- The cause of decode while an in-line instruction that has issued holds it: stages 2 and 3 of SY.DLOAD (R193), MM.DEFER on a full
queue and MM.VQDRAIN (R156), SY.FENCE (R229). -/
def Truss.holdCause (t : Truss) (e : QEntry) : Nat :=
  match e.op with
  | 0x01 => 5 | 0x13 => 6 | 0x14 => 0xC | 0x03 => t.fenceCause e | _ => 0

/-- The cause of decode: DECODE where an instruction could decode (log entry 49). An in-line instruction that has issued and holds decode
is charged by its own cause before STOPPED and TRAPPED (DESIGN CHOICE, log entry 75). -/
def State.decodeCause (s : State) (d : Nat) : Nat :=
  let t := s.tr d
  match t.decTaken with
  | some e => t.holdCause e
  | none =>
    if !t.run then 1 else if t.trapped || t.aborting then 2 else
    match t.atDecode (s.level (16 + d) 4) with
    | .nothing =>
      let line := if (t.wordAt 0).isNone then 0 else (t.word + 1) / 32
      if line < t.avail then 4 else 3
    | .ins e =>
      match s.claim d 0 with
      | some e =>
        let left := s.leftFor d 0
        if left.waitsOk e.wa e.wb then 0 else s.waitCause d left e
      | none =>
        match decodeWord (s.level (16 + d) 4) e with
        | .error _ => 0
        | .ok i => if 16 ≤ (vget t.queues (queueOf i e) []).length then s.queueCause d (queueOf i e) else 0

/-! ### Causes of a tier engine (R315) -/

/-- The bytes that an instruction of the tier engine moves: its views, or the home and the upper copy of its object. -/
def State.tierSpans (s : State) (d : Nat) (e : QEntry) : List Span :=
  if e.op = 0x3A then (s.desc d e.da).all ++ (s.desc d e.db).runSpan :: (s.desc d (descIdx (e.db + 1))).all
  else if e.op = 0x38 || e.op = 0x39 then (s.desc d e.da).all ++ (s.desc d e.db).all
  else
    let o := s.obj (e.da + 0x1000 * bits e.cr 0 4)
    { a := o.homeDpa, n := o.size } :: (if o.up = 3 then [] else [{ a := o.upDpa, n := o.size }])

/-- The regions of those bytes, a stash page being where its range leads. -/
def State.tierRegions (s : State) (d : Nat) (e : QEntry) : List Region :=
  (((s.tierSpans d e).flatMap fun p => [p.a, p.a + p.n - 1]).map fun a =>
    (placeOf (((s.tr d).stash.route a).getD a)).region).eraseDups

/-- Does an instruction of the tier engine wait for lines that the host is giving back (R456)? -/
def State.tierRecalled (s : State) (d : Nat) (e : QEntry) : Bool :=
  s.mcl.snoop.any fun x => x.recalling && (s.tierSpans d e).any fun p => p.a < 64 * x.line + 64 && 64 * x.line < p.a + p.n

/-- What keeps an instruction's regions from moving lines, by rank: a stack slowed by its temperature (R289, R485) or in hold (R486), a
slice that changes its mode (R297), a slice or a store that is being cleared (R300). -/
def State.regionCauses (s : State) (l : List Region) : List Nat :=
  let slice (k : Nat) : Loft := s.loftAt k
  (if l.any fun r => match r with | .hbm k => s.pwrc.hold || vget s.pwrc.thermal k 0 ≠ 0 | _ => false then [1] else []) ++
  (if l.any fun r => match r with | .hbm k | .loft k => (slice k).reconf | _ => false then [5] else []) ++
  (if l.any fun r => match r with
      | .hbm k | .loft k => (slice k).clearing
      | .array _ | .ridge _ | .gutter _ => s.clearing
      | _ => false then [6] else [])

/-- The causes for which an instruction of the tier engine in flight does not move (R315): its regions keep an object copy under way, a
move having its device bytes at issue; the others are what it waits for. Those of busy paths, 8 to 12, are matters of
timing (log entry 5). -/
def State.insCauses (s : State) (d : Nat) (i : Issued) : List Nat :=
  let mine (r : InsRef) : Bool := r.d.val = d && r.seq = i.e.seq
  (if s.obreqs.any fun r => mine r.ins && s.inCopy r then s.regionCauses (s.tierRegions d i.e) else []) ++
  (if (s.tr d).stash.stalled.any fun x => mine x.ins then [2] else []) ++
  (if s.obreqs.any fun r => mine r.ins && r.kind = 1 && (s.obj r.obj).pending then [3] else []) ++
  (if s.mcl.uw.any (fun r => mine r.ins) || (s.obreqs.any (fun r => mine r.ins && s.inCopy r) && s.tierRecalled d i.e) then [7] else [])

/-- The causes for which the head of Q_TIER, its waits satisfied, stalls at the tier engine: the object directory is full (R310), or
its first access waits. -/
def State.headCauses (s : State) (d : Nat) : List Nat :=
  let t := s.tr d
  match vget t.queues 6 [] with
  | [] => []
  | e :: _ =>
    if t.trapped || t.aborting || !t.waitsOk e.wa e.wb || 8 ≤ t.atWork 6 then []
    else if 0x90 ≤ e.op then (if 256 ≤ s.obreqs.length then [4] else [])
    else ((s.regionCauses (s.tierRegions d e)).filter fun c => c = 5 || c = 6 || s.pwrc.hold) ++
      (if s.tierRecalled d e then [7] else [])

/-- The cause of the tier engine (R315): the highest-ranked among its instructions that do not move; IDLE where it has none. -/
def State.tierCause (s : State) (d : Nat) : Nat :=
  let flight := (s.tr d).issued.filter (·.q = 6)
  match (flight.filter (!·.done)).flatMap (s.insCauses d) ++ s.headCauses d with
  | [] => if flight.isEmpty then 0xD else 0
  | x :: l => l.foldl min x

/-- Does some queue head or decode of the Truss wait on the signal of a tier-engine instruction in flight (R316)? One whose work has ended
is in flight until it completes in its order (R184). -/
def State.tierAwaited (s : State) (d : Nat) : Bool :=
  (s.tr d).issued.any fun i => i.q = 6 && s.awaited d i.e.sg

/-! ### Causes of a Gutter slice (R358) -/

/-- Does slice `q` hold blocks of a bucket? -/
def JobCtx.serves (c : JobCtx) (b q : Nat) : Bool := quarter (c.jr.blocks b) q ≠ 0

/-- Blocks of quarter `q` of a bucket that are not landed. -/
def Bucket.toLand (k : Bucket) (n q : Nat) : Bool := quarter n q ≠ (k.landed.filter fun p => p.1 % 4 = q).length

/-- An UP port of which the neighbour has acknowledged every frame with a cell. -/
def Port.keptBack (p : Port) : Bool := p.state = .up && p.replay.all (·.2.isEmpty)

/-- A packet of this device waits for a credit of its stream (R426). -/
def Port.noCredit (p : Port) (o : OutPkt) : Bool := o.own && !o.cells.isEmpty && (if o.stream then p.credCtrl else p.credBulk) = 0

/-- What the instructions that slice `q` serves wait for, by rank: the buckets of its quarter and the passes that it may run, and on
GUTTER[0] what belongs to no slice (log entry 49). A packet that waits for credits alone shows PEER_BEHIND where the neighbour has acknowledged every
frame, so that the credits are what it keeps back (R335), else PORT_BUSY (log entry 49). ADDER_BUSY is time alone (NOTES, Scope). -/
def State.gutterWaits (s : State) (q : Nat) : List (Nat × Bool) :=
  let jobs := s.jobs.toList
  let first := q = 0
  let buckets := jobs.flatMap fun c => (c.buckets.filter fun p => c.serves p.1 q).filterMap fun p => p.2.map fun b => (c, p.1, b)
  let mine := s.passes.filter fun p => bits p.slices q 1 = 1
  [ (1, s.bktWait.any (fun w => w.todo.any fun b => (s.job w.ctx).serves b q) ||
      (first && jobs.any (·.disps.any fun x => !x.started)) || buckets.any fun x => x.2.2.eb.isSome && x.2.2.own.length < x.1.jr.blocks x.2.1),
    (2, buckets.any fun x => x.2.2.count ≠ 0 && x.2.2.count ≠ x.1.jr.elems x.2.1),
    (3, buckets.any fun x => x.2.2.count = x.1.jr.elems x.2.1 && x.2.2.eb.isNone),
    (4, buckets.any (fun x => x.2.2.eb.isSome && x.2.2.toLand (x.1.jr.blocks x.2.1) q) ||
      (first && jobs.any fun c => c.reds.any (!·.isVote) || c.disps.any (fun x => x.started && !x.complete) || !c.combs.isEmpty)),
    (5, s.ports.toList.any fun p => p.keptBack && p.waiting.any fun o => p.noCredit o && sliceOf o.pkt = q),
    (6, s.ports.toList.any fun p => p.waiting.any fun o => o.own && !o.cells.isEmpty && sliceOf o.pkt = q),
    (8, mine.any fun p => p.work.any fun w => s.workReady p w),
    (9, mine.any fun p => p.work.any fun w => !w.started && !s.workReady p w && (!p.b || s.fence)),
    (10, !s.fence && (mine.any (·.b) || (first && s.commit.ins.isSome && s.commit.cast.isNone))),
    (11, first && (s.commit.cast.isSome && s.commit.ins.isSome || jobs.any fun c => c.reds.any Red.isVote)),
    (12, first && jobs.any fun c => !c.joiners.isEmpty),
    (13, first && jobs.any fun c => c.drainer.isSome)]

/-- Does slice `q` serve an instruction? -/
def State.gutterBusy (s : State) (q : Nat) : Bool :=
  (s.gutterWaits q).any (·.2) || (List.range 16).any (fun k => (s.core (16 * q + k)).inst.isSome) ||
    (q = 0 && s.truss.toList.any fun t => t.issued.any fun i => i.q = 7 && !i.done)

/-- The cause of slice `q`: PROGRESS where nothing it serves waits, IDLE where it serves nothing, else the highest-ranked wait. -/
def State.gutterCause (s : State) (q : Nat) : Nat :=
  if !s.gutterBusy q then 0xE else (((s.gutterWaits q).find? (·.2)).map (·.1)).getD 0

/-! ### Fields that hardware owns -/

/-- The hottest of a list of temperatures, and the lowest number that has it. -/
def hottest (l : List (BitVec 8)) : Nat × Nat :=
  ((List.range l.length).zip l).foldl (fun (b : Nat × Nat) p => if b.1 < p.2.toNat then (p.2.toNat, p.1) else b) (0, 0)

/-- The effective cap (R471). -/
def Pwrc.cap (p : Pwrc) : Nat := max 700 (min p.mcCap p.hostCap - p.tred)

/-- Measurement mode, entered by divergence or held by MEASONLY (R480). -/
def Pwrc.byMeas (p : Pwrc) : Bool := p.measMode || p.measOnly

/-- Sixteen bits of a larger number. -/
def part16 (x k : Nat) : Nat := bits x (16 * k) 16

/-- A mask of domains. -/
def maskOf (l : List Nat) : Nat := (l.map (2 ^ ·)).sum

/-- A port state's code (PSTAT). -/
def PState.code : PState → Nat
  | .disabled => 0 | .training => 1 | .up => 2 | .down => 3

/-- The fields of port `k` at an offset within its four registers. -/
def State.portFields (s : State) (k off : Nat) : List (Nat × Nat × Nat) :=
  let q := s.port k
  match off with
  | 0 => [(0, 2, q.state.code), (2, 4, q.nlevel), (6, 1, flag q.half), (8, 8, q.laneBad.toNat)]
  | 4 => [(0, 16, q.peer.toNat)]
  | 0xC => [(0, 1, flag q.disable)]
  | _ => []

/-- The fields of a register that mirror the state: low bit, width, value. -/
def State.hwFields (s : State) (dom off : Nat) : List (Nat × Nat × Nat) :=
  let p := s.pwrc
  match blockOf dom with
  | .ga =>
    let g := s.gaAt dom
    if off = 8 then [(0, 2, g.cut), (3, 1, flag (g.courses.toList.any fun k => k.load.any (·.began))), (4, 1, flag g.pending),
      (5, 1, flag g.rollout), (8, 4, g.last)] else []
  | .truss =>
    let d := dom - 16
    let t := s.tr d
    if off = 0 then [(0, 1, flag t.run)]
    else if off = 0x10 then [(0, 1, flag t.decoding), (1, 1, flag t.trapped), (2, 1, flag t.aborting), (3, 1, flag t.multi),
      (4, 4, t.lastDec)]
    else if off = 0x24 then [(0, 16, t.head)]
    else if off = 0x28 then [(0, 16, t.avail)]
    else if off = 0x40 then [(0, 8, t.trap.cause.toNat), (8, 3, t.trap.queue.toNat)]
    else if off = 0x44 then [(0, 16, t.trap.line.toNat)]
    else if off = 0x48 then [(0, 5, t.trap.word.toNat), (5, 6, t.trap.spar.toNat), (11, 1, flag t.trap.skipped)]
    else if 0x100 ≤ off && off < 0x200 then [(0, 16, t.spar ((off - 0x100) / 4))]
    else if off = 0x208 then [(0, 7, t.valley.length), (7, 1, flag (t.valley.any (·.visiting.isSome))),
      (8, 1, flag (t.valley.any fun v => v.urgent && (v.opened || v.visiting.isSome))), (9, 1, flag t.vqFull)]
    else if off = 0x32C then [(0, 16, (t.stash.map.filter fun x => match x.2 with | .pool _ => true | _ => false).length)]
    else if off = 0x330 then [(0, 16, (t.stash.map.filter fun x => match x.2 with | .spill _ => true | _ => false).length)]
    else if off = 0x334 then [(0, 1, flag (!t.stash.stalled.isEmpty))]
    else []
  | .ridge =>
    let busy := (s.tr (dom - 20)).atWork 5 ≠ 0
    if off = 8 then [(0, 1, flag busy), (1, 1, flag (busy && (s.tr (dom - 20)).rowBuf))] else []
  | .hbmc => if off = 0x18 then (let x := vget p.shown (dom - 24) (0, 0); [(0, 8, x.1.toNat), (8, 2, x.2)]) else []
  | .loft =>
    let l := s.loftAt (dom - 32)
    if off = 8 then [(0, 2, l.mode), (2, 1, flag l.reconf), (3, 1, flag l.clearing)] else []
  | .portq =>
    let has := !(vget s.coord.gone (dom - 40) false)
    if off = 0x10 then [(0, 16, if has then (s.coord.pending.getD s.coord.inForce).toNat else 0)]
    else if off = 0x14 then [(0, 1, flag (has && s.coord.valid)), (1, 1, flag (has && s.coord.pending.isSome)), (2, 4, s.keeper.toplevel),
      (6, 4, s.pins.slotId.toNat), (10, 1, flag s.pins.twin)]
    else if 0x100 ≤ off && off < 0x200 then s.portFields (4 * (dom - 40) + (off - 0x100) / 0x40) (off % 0x40)
    else []
  | .twin =>
    if off = 0x10 then [(0, 1, flag s.partner.isSome)]
    else if off = 0x14 then [(0, 16, s.partner.getD 0)]
    else if 0x100 ≤ off && off < 0x180 then s.portFields (20 + (off - 0x100) / 0x40) (off % 0x40)
    else if off = 0x414 then [(0, 1, flag s.commit.sending.isSome), (1, 1, flag s.commit.receiving.isSome)]
    else []
  | .gutter =>
    let c := s.commit
    if off = 8 then [(0, 7, (s.jobs.toList.filter (·.state ≠ 0)).length),
      (7, 1, flag (s.gutterBusy (dom - 46))), (8, 4, vget s.gcause (dom - 46) 0xE)]
    else if 0x100 ≤ off && off < 0x300 then
      let j := s.job ((off - 0x100) / 8)
      if off % 8 = 0 then [(0, 12, j.job), (12, 4, j.gen)]
      else [(0, 2, j.state), (2, 1, flag j.failed), (3, 4, j.attempt), (7, 2, j.home)]
    else if off = 0x408 then [(0, 1, flag c.cjob.isSome), (1, 1, flag c.cast.isSome), (2, 1, flag c.lastYes),
      (3, 1, flag c.rollReady), (4, 2, c.mstate), (6, 1, flag c.conf), (7, 1, flag c.unprot), (8, 1, flag c.owed)]
    else if off = 0x410 then [(0, 16, c.cmjob.toNat)]
    else if off = 0x414 then [(0, 4, c.cmno)]
    else if off = 0x52C then
      [(0, 5, ((List.range 16).filter fun k => (s.core (16 * (dom - 46) + k)).inst.isSome).length)]
    else []
  | .mcl =>
    let m := s.mcl
    if off = 8 then [(0, 2, m.link), (2, 1, flag m.half), (3, 1, flag m.recalling)]
    else if off = 0x68 then [(0, 16, m.prod)]
    else if off = 0x74 then [(0, 1, flag m.mbox.isSome)]
    else []
  | .keeper =>
    let k := s.keeper
    if off = 0 then [(0, 3, k.bstate), (3, 1, flag k.slot), (4, 1, flag k.fallback), (5, 1, flag k.iderr), (6, 1, flag k.bootbist),
      (7, 1, flag k.spirel)]
    else if off = 4 then [(0, 6, k.fuseMin), (6, 6, k.running)]
    else if off = 8 then [(0, 2, k.rcause)]
    else if off = 0xC then [(0, 9, k.held.length)]
    else if off = 0x104 then [(0, 1, flag s.ctr.frzBusy), (1, 1, flag s.ctr.snapBusy)]
    else []
  | .pwrc =>
    if off = 0x18 then [(0, 16, p.cap)]
    else if off = 0x1C then [(0, 6, p.grant), (6, 1, 0)]
    else if off = 0x20 then [(0, 6, p.gnow)]
    else if off = 0x24 then [(0, 1, flag p.capUnr), (1, 1, flag p.byMeas), (2, 1, flag p.bhigh), (3, 1, flag (p.tred ≠ 0)),
      (4, 1, flag p.hold), (5, 1, flag p.ramp.isSome), (6, 1, flag p.gpend.isSome)]
    else if off = 0x2C then [(0, 8, p.arr)]
    else if off = 0x30 then [(0, 8, p.bratio)]
    else if off = 0x34 then [(0, 6, p.grec)]
    else if off = 0x38 then [(0, 16, p.est)]
    else if off = 0x3C then [(0, 16, p.meas)]
    else if off = 0x40 then (let h := hottest p.tisland.toList; [(0, 8, h.1), (8, 6, h.2)])
    else if off = 0x44 then (let h := hottest p.tstack.toList; [(0, 8, h.1), (8, 3, h.2)])
    else []
  | .bistc =>
    let b := s.bist
    if off = 0x1C then [(0, 1, flag b.busy), (1, 1, flag b.pass), (4, 6, b.cur)]
    else if 0x20 ≤ off && off < 0x30 then [(0, 16, part16 b.agg.toNat ((off - 0x20) / 4))]
    else if 0x30 ≤ off && off < 0x40 then [(0, 16, part16 (maskOf b.failed) ((off - 0x30) / 4))]
    else if 0x40 ≤ off && off < 0x400 then [(0, 16, part16 (vget b.sigs ((off - 0x40) / 16) 0).toNat ((off - 0x40) % 16 / 4))]
    else []
  | .dbg => if off = 0 then [(0, 1, flag (s.tap.ir ≠ 0)), (1, 1, flag s.tap.extest)] else []
  | .hubnoc =>
    if off = 0 then [(1, 1, flag s.ticketEnd)]
    else if 0x10 ≤ off && off < 0x20 then
      [(0, 16, part16 (maskOf ((List.range 60).filter fun n => vget s.live n false)) ((off - 0x10) / 4))]
    else if off = 0x20 then [(0, 11, s.evq.length)]
    else []
  | .fd | .lath => []

/-- What a register reads (R496): its stored value with the fields that hardware owns; SPUSH reads 0 (chapter 6, Registers), and
NCAP, pulses and reserved bits read as their tables say. -/
def State.regRead (s : State) (dom off : Nat) : Half :=
  (s.hwFields dom off).foldl (fun x f => Field.set { lo := f.1, w := f.2.1, ty := .ro } x f.2.2) (s.cfg dom off)

end Sys2Proof.Machine
end

