-- ==== Sys2Proof/Machine/Tick.lean ====
section
/-! DEFINITION. What one D51 cycle (2 ns, R25) does when no command waits (log entries 1, 2, 49): the Keeper stamp (R41), the cycle
counters (R513), the charges of R517, the slots of R525, the valley entries that become urgent (R156), and held packets that may now
pass (R335). -/
namespace Sys2Proof.Machine

/-- The clock of a domain in MHz (R25, R467). -/
def State.mhz (s : State) (dom : Nat) : Nat :=
  match blockOf dom with
  | .ga | .fd | .truss | .ridge => 600 + 25 * s.pwrc.freq
  | .hbmc => 1600 | .loft => 2000 | .portq | .twin => 1400 | .gutter => 2000 | .mcl => 1000
  | .keeper | .pwrc | .bistc => 500 | .lath => 2400 | .dbg => 250 | .hubnoc => 2400

/-- The fall of n reaches the arrays by 16 in a microsecond, which is 500 D51 cycles (R474). -/
def Pwrc.settleFall (p : Pwrc) : Pwrc :=
  if p.arr ≤ p.n then { p with fall := 0 }
  else if p.fall + 16 < 500 then { p with fall := p.fall + 16 }
  else { p with fall := p.fall + 16 - 500, arr := p.arr - 1 }

/-- One cycle of GA[i] without a beat: its cause (R69) and its 576 slots (R525). -/
def State.arrayCycle (s : State) (i : Nat) : State :=
  let g := s.gaAt i
  let bubble := s.pwrc.bubbleAt g.place.toNat
  let per := (edgeOf g.cut / 32) * (edgeOf g.cut / 32)
  let back := (g.all.filter fun c => let x := g.courseCause bubble c; x = 1 || x = 2 || x = 8).length * per
  s.arrayCycles i (g.cause bubble) 1 (0, 0, 576 - back, back)

/-- The charges of decode (0) or of a queue of a Truss in `n` cycles (R205): cycles in which it decoded or issued since the last charge,
then cycles of its cause now; DCAUSE shows the last of them. -/
def State.chargeTruss (s : State) (d q n : Nat) : State :=
  let did := min n (vget (s.tr d).acts q 0)
  let c := if q = 0 then s.decodeCause d else s.queueCause d q
  let s := if q = 0 then s.modTr d fun t => { t with lastDec := if did = n then 0 else c } else s
  (s.charge (16 + d) q 0 did).charge (16 + d) q c (n - did)

/-- The charges of an island other than a great array in `n` cycles (R517). The refresh operations of a stack in a cycle (R518) are a free value,
drawn where a counter selects them: no rule gives their rate. -/
def State.chargeIsland (s : State) (dom n : Nat) : State :=
  match blockOf dom with
  | .truss =>
    let d := dom - 16
    let s := s.each (List.range 8) fun s k => s.chargeTruss d k n
    let s := s.modTr d fun t => { t with acts := t.acts.map (· - n), turn := none }
    let s := s.charge dom 8 (s.tierCause d) n
    s.charge dom 9 (s.tierCause d) (if s.tierAwaited d then n else 0)
  | .gutter =>
    let c := s.gutterCause (dom - 46)
    ({ s with gcause := vmod s.gcause (dom - 46) fun _ => c } : State).charge dom 0 c n
  | .hbmc => if (s.selecting dom 1 3).isEmpty then s else let (x, s) := s.drawFree; s.occ dom 3 x
  | _ => s

/-- The whole cycles of an island in one D51 cycle; the fraction stays for later. A stretched cycle lasts two nominal ones (R481), that of
D51 too: the stamp then steps once while the other islands run for twice as long (R43). -/
def State.islandCycles (s : State) (dom : Nat) : State :=
  let half := s.mhz dom * (if s.stretched dom then 1 else 2)
  let p := vget s.ctr.phase dom 0 + half * (if s.stretched 51 then 2 else 1)
  let n := p / 1000
  let s := s.modCtr fun c => { c with phase := vmod c.phase dom fun _ => p % 1000 }
  if n = 0 then s
  else if dom < 8 then s.each (List.range n) fun s _ => s.arrayCycle dom
  else
    let s := (if s.stretched dom then s.common dom 0 n else s).chargeIsland dom n
    if s.ctr.frozen then s else s.tally (keyCyc dom) n

/-- The links that are UP keep alive (R428, R448). -/
def State.keepAlives (s : State) : State :=
  if s.pins.resetN then (s.each (List.range 22) State.keepAlive).mclKeepAlive else s

/-- One D51 cycle. Nothing runs while PWROK is low; while RESET_N is asserted only the Keeper does (R530). -/
def State.tick (s : State) : State :=
  if !s.pins.pwrok then s else
  let s := { s with stamp := s.stamp + 1 }.modPwrc Pwrc.settleFall
  let s := (s.each (List.range 4) State.markUrgent).keepAlives
  let s := s.each ((List.range 60).filter fun n => s.isLive n && (s.pins.resetN || n = 51)) State.islandCycles
  if !s.isLive 46 || !s.pins.resetN then s else
  let t := s.gutterSettle
  if t.mcl.wanted.isEmpty then t else s.recall t.mcl.wanted

end Sys2Proof.Machine
end

