-- ==== Sys2Proof/Machine/Mcl.lean ====
section
/-! DEFINITION. The Maelzar Coherent Link (14): doorbells (R459), the link's states and its failure (R448, R463 to R465), flits received
(R447), host access to device memory with the snoop filter (R452 to R456), completions of Underlay requests (R457), the event ring (R458 to
R460), the mailbox's request (R462). -/
namespace Sys2Proof.Machine

/-! ### Doorbells (R459, R462) -/

/-- A doorbell address in four registers from `off`: bits [17:2], [33:18], [49:34] and [51:50]. -/
def State.dbAddr (s : State) (off : Nat) : Nat :=
  let r (k : Nat) : Nat := (s.regRaw 50 (off + 4 * k)).toNat
  r 0 * 2 ^ 2 + r 1 * 2 ^ 18 + r 2 * 2 ^ 34 + r 3 * 2 ^ 50

/-- A host address in three registers from `off`: bits [27:12], [43:28] and [51:44]. -/
def State.hostReg (s : State) (off : Nat) : Nat :=
  let r (k : Nat) : Nat := (s.regRaw 50 (off + 4 * k)).toNat
  r 0 * 2 ^ 12 + r 1 * 2 ^ 28 + r 2 * 2 ^ 44

/-- Send a DB message: its four data bytes carry the value (log entry 51). -/
def State.doorbell (s : State) (a v : Nat) : State :=
  (s.modMcl fun m => { m with nextTag := m.nextTag + 1, dbs := m.dbs ++ [m.nextTag % 65536] }).toHost
    { type := .db, ch := 2, poison := false, status := 0, tag := BitVec.ofNat 16 s.mcl.nextTag, len := 4, addr := BitVec.ofNat 52 a,
      data := leBytes v 4 }

/-- The EVPROD that a doorbell may announce: up to the first entry whose write is not complete. -/
def Mcl.visible (m : Mcl) : Nat :=
  (m.own.findSome? fun p => match p.2 with | .event k => some k | .mailbox => none).getD m.prod

/-- Ring the event doorbell. -/
def State.ring (s : State) : State := s.doorbell (s.dbAddr 0x40) s.mcl.visible

/-- An entry has become visible: a doorbell at once, or one that is owed (R459). -/
def State.entryVisible (s : State) : State :=
  if s.cfgBits 50 4 5 8 = 0 then s.ring
  else if s.mcl.dbWait then s.modMcl fun m => { m with dbOwed := true }
  else (s.ring).modMcl fun m => { m with dbWait := true }

/-- The coalescing interval ends. -/
def execDoorbellTimer (s : State) : Host.Outcome State Fault Refusal :=
  if !s.mclUp || !s.mcl.dbWait then .next s
  else if s.mcl.dbOwed then .next ((s.modMcl fun m => { m with dbOwed := false }).ring.mclPump)
  else .next (s.modMcl fun m => { m with dbWait := false })

/-- Every piece of a mailbox response is visible: the DB carries its TAG, and BUSY ends (R462). -/
def State.mailboxSettle (s : State) : State :=
  match s.mcl.mbAns with
  | none => s
  | some tag =>
    if s.mcl.own.any (fun p => p.2 = .mailbox) then s
    else (s.doorbell (s.dbAddr 0x50) tag.toNat).modMcl fun m => { m with mbox := none, mbAns := none }

/-! ### Recalls (R456) -/

/-- The settings that the registers ask for: PROFILE and the windows as (first byte, bytes). -/
def State.windowRegs (s : State) : Bool × List (Nat × Nat) :=
  ((s.regRaw 50 0).getLsbD 1, (List.range 8).map fun k =>
    let r (o : Nat) : Nat := (s.regRaw 50 (0x80 + 16 * k + o)).toNat
    (r 0 * 0x200000 + bits (r 4) 0 11 * 0x2000000000, r 8 * 0x200000))

/-- Does a line lie in a window that operates (R455)? A window whose pages do not all lie in HBM does not. -/
def inWindows (shared : Bool) (w : List (Nat × Nat)) (line : Nat) : Bool :=
  shared && w.any fun p => p.1 + p.2 ≤ 0x8000000000 && p.1 ≤ 64 * line && 64 * line < p.1 + p.2

/-- Host-held lines that the settings asked for no longer cover. -/
def State.uncovered (s : State) : List Nat :=
  (s.mcl.snoop.map (·.line)).filter fun n => !inWindows s.windowRegs.1 s.windowRegs.2 n

/-- A change of PROFILE or of a window takes effect once every affected line is recalled, also one granted since. -/
def State.windowSettle (s : State) : State :=
  if !s.mcl.recalling then s
  else if !s.uncovered.isEmpty then s.recall s.uncovered
  else s.modMcl fun m => { m with recalling := false, shared := s.windowRegs.1, windows := s.windowRegs.2 }

/-- The registers ask for other settings (R456). -/
def State.windowsChanged (s : State) : State := (s.modMcl fun m => { m with recalling := true }).windowSettle

/-- MCL.CFG or a shared-window register is written. -/
def execSharedWindowChange (r : Requester) (off data mask : Half) (s : State) : Host.Outcome State Fault Refusal :=
  let o := decodeOff 50 off.toNat
  let (s, ok) := s.reachBy r 50 off.toNat
  if ok && (o = 0 || (0x80 ≤ o && o < 0x100)) then
    if (findReg 50 o).isNone then .next s.badCsr else .next ((s.regWrite r 50 o data mask).windowsChanged.mclPump)
  else .next s

/-! ### The link leaves UP (R464) -/

/-- A device read that fails leaves its destination poisoned. -/
def State.uwLost (s : State) (r : UwReq) : State :=
  let s := match r.kind with
    | .write => s
    | .read dst _ => s.each (touchedUnits dst r.len) fun s u => s.mark u true
  s.uwFail r.ins

/-- The link without a connection. -/
def Mcl.quiet (m : Mcl) (link : Nat) : Mcl :=
  { m with link, half := false, fseq := 0, replay := [], replays := 0, rxSeq := 0, discard := false, nakDue := false,
           credCoh := 0, credBulk := 0, credDb := 0, rxBytes := [], inbox := [], out := [], txRest := [], turn := false,
           retCoh := 0, retBulk := 0, retDb := 0, own := [], dbWait := false, dbOwed := false, snoop := [], uw := [], dbs := [], lastReq := 0,
           mbox := none, mbAns := none }

/-- The mailbox abandons its request (R464): a self-test that it started runs on unanswered, a report asked for is not made. -/
def State.mailboxLost (s : State) : State :=
  (s.modBist fun b => { b with mb := none }).modKeeper fun k => { k with signing := k.signing.filter (·.2.isNone) }

/-- The lines that the host held modified get the poison marker (R464). -/
def State.linesLost (s : State) : State :=
  s.each ((s.mcl.snoop.filter (·.own)).map (·.line)) fun s n => s.each (touchedUnits (64 * n) 64) fun s u => s.mark u true

/-- The link leaves UP (R464). -/
def State.mclDown (s : State) : State :=
  let reqs := s.mcl.uw
  let s := (s.each reqs State.uwLost).linesLost
  let s := (s.modMcl (·.quiet 0)).windowSettle.mailboxLost
  let s := s.each ((reqs.map (·.ins)).eraseDups) fun s i => (s.moveDone i).freePages i
  (s.orReg 50 0xC 1).raise 0x400 50

/-- The link leaves whatever state it is in. -/
def State.mclLost (s : State) : State := if s.mcl.link = 2 then s.mclDown else s.modMcl (·.quiet 0)

/-- No flit for 10 µs, or loss of lane lock for 1 µs. -/
def mclFails (s : State) : Host.Outcome State Fault Refusal := if s.mclUp then waitRecall s (.next s.mclDown) else .next s
def execMclSilence (s : State) : Host.Outcome State Fault Refusal := mclFails s
def execMclLockLoss (s : State) : Host.Outcome State Fault Refusal := mclFails s

/-- Enter TRAINING: the settings in force are read. -/
def State.mclTrain (s : State) : State :=
  s.modMcl fun m => { m.quiet 1 with replayMax := s.cfgBits 50 4 0 4, degrade := s.cfgBits 50 4 4 1 = 1 }

/-- 1 ms after DOWN (R448); the Keeper starts the link at order 9 (R533). -/
def execMclRetrain (s : State) : Host.Outcome State Fault Refusal :=
  if s.mcl.link = 0 && 9 ≤ s.boot.order && s.isLive 50 && s.pins.resetN then .next s.mclTrain else .next s

/-- Training completes (R448, R465): UP on 32 lanes, UP on lanes 0 to 15, or DOWN. -/
def execMclTrainingEnd (laneBad : BitVec 32) (s : State) : Host.Outcome State Fault Refusal :=
  if s.mcl.link ≠ 1 || !s.isLive 50 || !s.pins.resetN then .next s
  else
    let half := laneBad ≠ 0
    if half && !(s.mcl.degrade && laneBad &&& 0xFFFF = 0) then .next (s.modMcl (·.quiet 0))
    else
      let again := s.mcl.wasUp
      let s := s.modMcl fun m => { m with link := 2, half, wasUp := true, retCoh := 4096, retBulk := 4096, retDb := 4096 }
      let s := s.modPins fun p => { p with ref2 := true }
      let s := if again then s.raise 0x401 50 else s
      let s := if half then s.raise 0x404 50 else s
      .next s.mclPump

/-! ### Receiving flits (R447) -/

/-- The message at the front of the bytes received; none where it is not complete. Zero bytes are padding. -/
def parseMsg (l : List Byte) : Option (Msg × List Byte) :=
  let f (a n : Nat) : Nat := leNat ((l.drop a).take n)
  if l.length < 16 then none else
  match MsgType.ofCode (f 0 1) with
  | none => none
  | some type =>
    let n := if type.bare then 0 else f 4 2
    if l.length < 16 + n then none else
    some ({ type, ch := BitVec.ofNat 2 (f 1 1), poison := bits (f 1 1) 2 1 = 1, status := BitVec.ofNat 3 (f 1 1 / 8),
            tag := BitVec.ofNat 16 (f 2 2), len := BitVec.ofNat 16 (f 4 2), addr := BitVec.ofNat 52 (f 8 8),
            data := (l.drop 16).take n }, l.drop (16 + n))

/-- The complete messages at the front of the bytes received; a byte that begins no message is padding. -/
def parseAll : Nat → List Byte → List Msg × List Byte
  | 0, l => ([], l)
  | _, [] => ([], [])
  | n + 1, b :: l =>
    if (MsgType.ofCode b.toNat).isNone then parseAll n l
    else
      match parseMsg (b :: l) with
      | none => ([], b :: l)
      | some (m, rest) =>
        let (ms, rest) := parseAll n rest
        (m :: ms, rest)

/-- An acknowledgement. -/
def Mcl.acked (m : Mcl) (aseq : BitVec 12) : Mcl :=
  match m.replay.findIdx? (·.fseq == aseq) with
  | none => m
  | some i => { m with replay := m.replay.drop (i + 1), replays := 0 }

/-- A NAK: every flit held goes again; at the replay limit the link goes DOWN. -/
def State.mclNak (s : State) : State :=
  if s.mcl.replay.isEmpty then s
  else if s.mcl.replayMax ≤ s.mcl.replays then s.mclDown
  else (s.modMcl fun m => { m with replays := m.replays + 1 }).occ 50 3

/-- A flit is discarded: the first of a run sends NAK, and so does a failure of the flit that the replay begins with. -/
def State.discardFlit (s : State) (f : Flit) : State :=
  s.modMcl fun m => { m with discard := true, nakDue := m.nakDue || !m.discard || f.fseq == m.rxSeq }

/-- A flit reaches an UP link. -/
def State.flitIn (s : State) (f : Flit) : State :=
  if f.crcOf ≠ f.crc.toNat then ((s.orReg 50 0xC 2).discardFlit f).mclPump
  else if f.fseq ≠ s.mcl.rxSeq then (s.discardFlit f).mclPump
  else
    let l := s.mcl.rxBytes ++ f.msg
    let (ms, rest) := parseAll l.length l
    let s := s.modMcl fun m =>
      { m.acked f.aseq with rxSeq := m.rxSeq + 1, discard := false, credCoh := m.credCoh + f.cohCred.toNat,
                            credBulk := m.credBulk + f.bulkCred.toNat, credDb := m.credDb + f.dbCred.toNat,
                            rxBytes := rest, inbox := m.inbox ++ ms }
    (if f.nak then s.mclNak else s).mclPump

/-- FLIT. A flit without 240 message bytes cannot be carried (R446). -/
def execFlit (f : Flit) (s : State) : Host.Outcome State Fault Refusal :=
  if !f.wf then .fault .malformed
  else if !s.mclUp then .next s
  else waitRecall s (.next (s.flitIn f))

/-- The message that a command serves leaves the inbox, and its credit goes back. -/
def State.takeMsg (s : State) (type : MsgType) (tag : BitVec 16) (addr : Option Nat) : State :=
  match s.mcl.inbox.find? fun m =>
      m.type = type && (m.tag = tag || type = .recallAck) && (match addr with | some a => m.addr.toNat = a | none => true) with
  | none => s
  | some x => s.modMcl fun m =>
    { m with inbox := m.inbox.erase x, retCoh := if x.ch = 0 then m.retCoh + 1 else m.retCoh,
             retBulk := if x.ch = 1 then m.retBulk + 1 else m.retBulk,
             retDb := if x.ch = 0 || x.ch = 1 then m.retDb else m.retDb + 1 }

/-! ### Host access to device memory (R452, R453, R463) -/

/-- What a host access to some bytes meets. -/
inductive HostPlace where
  | served | unmapped
  | dark (dom : Nat)
deriving DecidableEq, Repr

/-- What stands at one byte. HBM is behind the Loft slice of its stack (R293). -/
def State.hostByte (s : State) (a : Nat) : HostPlace :=
  let r := (placeOf a).region
  if !r.isMem then .unmapped
  else if !s.isLive r.dom then .dark r.dom
  else if let .hbm k := r then (if s.isLive (32 + k) then .served else .dark (32 + k))
  else if s.memOk a then .served
  else .unmapped

/-- The plain bytes that a host access of `n` bytes at an address reaches: through the rotate view the one aligned word (R303). -/
def viaSpan (a n : Nat) : Span :=
  let p := placeOf a
  if p.twist = 3 then { a := p.plain / 8 * 8, n := 8 } else { a := p.plain, n }

/-- What stands at a range: UNMAPPED where some byte is. -/
def State.hostRange (s : State) (a n : Nat) : HostPlace :=
  match s.hostByte a, s.hostByte (if (placeOf a).twist = 3 then a else a + (n - 1)) with
  | .unmapped, _ | _, .unmapped => .unmapped
  | .dark d, _ | _, .dark d => .dark d
  | _, _ => .served

/-- An access answered UNMAPPED (R452). -/
def State.unmapped (s : State) (ch : Nat) (tag : BitVec 16) : State := ((s.orReg 50 0xC 8).occ 50 0).complete ch 1 tag []

/-- A host access waits where its bytes are shut: HBM while the device is in hold (R486), a slice that changes its mode (R297). -/
def State.holdWait (s : State) (a n : Nat) : State := s.want (s.shut [viaSpan a n])

/-- Read device bytes for the host: poisoned units are reported and travel with POISON (R290, R463). -/
def State.hostRead (s : State) (ch : Nat) (tag : BitVec 16) (a n : Nat) : State :=
  match s.hostRange a n with
  | .unmapped => s.unmapped ch tag
  | .dark d => (s.darkAccess .host d 0).complete ch 0 tag (List.replicate n 0)
  | .served =>
    let s := s.holdWait a n
    let bad := s.badUnits [viaSpan a n]
    ((s.each bad State.memUncorr).touch .hub [viaSpan a n] false true).complete ch 0 tag (s.readVia a n) (!bad.isEmpty)

/-- Write device bytes for the host, poison included. -/
def State.hostStore (s : State) (a : Nat) (poison : Bool) (data : List Byte) : State :=
  match s.hostRange a data.length with
  | .served =>
    let x := viaSpan a data.length
    let s := (s.holdWait a data.length).writeVia a data
    let s := if poison then s.each (touchedUnits x.a x.n) fun s u => s.mark u true else s
    s.touch .hub [x] true true
  | .dark d => s.darkAccess .host d 0
  | .unmapped => s

/-- A write with its completion. -/
def State.hostWrite (s : State) (ch : Nat) (tag : BitVec 16) (a : Nat) (poison : Bool) (data : List Byte) : State :=
  let s := s.notePoison poison
  if s.hostRange a data.length = .unmapped then s.unmapped ch tag else (s.hostStore a poison data).complete ch 0 tag []

/-- RD. -/
def execRd (tag : BitVec 16) (dpa : Word48) (len : Nat) (s : State) : Host.Outcome State Fault Refusal :=
  if 256 < len then .fault .malformed
  else if !s.mclUp then .next s
  else waitRecall s (.next (((s.takeMsg .rd tag (some dpa.toNat)).hostRead 1 tag dpa.toNat len).mclPump))

/-- WR. -/
def execWr (tag : BitVec 16) (dpa : Word48) (poison : Bool) (data : List Byte) (s : State) : Host.Outcome State Fault Refusal :=
  if !dataWf data then .fault .malformed
  else if !s.mclUp then .next s
  else waitRecall s (.next (((s.takeMsg .wr tag (some dpa.toNat)).hostWrite 1 tag dpa.toNat poison data).mclPump))

/-! ### Host caching (R455, R456) -/

/-- Entries of the snoop filter (R456). -/
def snoopMax : Nat := 262144

/-- RDSHARED and RDOWN: inside an operating window the line is tracked; outside, its data come with a non-cacheable grant. -/
def hostCache (own : Bool) (tag : BitVec 16) (dpa : Word48) (s : State) : State :=
  let a := dpa.toNat / 64 * 64
  let n := a / 64
  let m := s.mcl
  if s.hostRange a 64 ≠ .served then s.hostRead 0 tag a 64
  else if !inWindows m.shared m.windows n then (s.occ 50 1).hostRead 0 tag a 64
  else if m.snoop.any (·.line = n) then
    (s.modMcl fun m => { m with snoop := m.snoop.map fun x => if x.line = n then { x with own := x.own || own } else x }).hostRead
      0 tag a 64
  else if m.snoop.length < snoopMax then
    ((s.modMcl fun m => { m with snoop := m.snoop ++ [{ line := n, own }] }).hostRead 0 tag a 64).windowSettle
  else s.want ((m.snoop.head?.map (·.line)).toList)

/-- A full filter recalls the line entered longest ago, and the request waits for it (R456). -/
def execRdshared (tag : BitVec 16) (dpa : Word48) (s : State) : Host.Outcome State Fault Refusal :=
  if !s.mclUp then .next s
  else waitRecall s (.next (hostCache false tag dpa (s.takeMsg .rdShared tag (some dpa.toNat))).mclPump)

def execRdown (tag : BitVec 16) (dpa : Word48) (s : State) : Host.Outcome State Fault Refusal :=
  if !s.mclUp then .next s
  else waitRecall s (.next (hostCache true tag dpa (s.takeMsg .rdOwn tag (some dpa.toNat))).mclPump)

/-- The host no longer holds a line. -/
def State.dropLine (s : State) (n : Nat) : State :=
  (s.modMcl fun m => { m with snoop := m.snoop.filter (·.line ≠ n) }).windowSettle

/-- WB: the line's data come home, and the host no longer holds it. -/
def execWb (tag : BitVec 16) (dpa : Word48) (poison : Bool) (data : List Byte) (s : State) : Host.Outcome State Fault Refusal :=
  if !dataWf data then .fault .malformed
  else if !s.mclUp then .next s
  else
    waitRecall s (.next ((((s.takeMsg .wb tag (some dpa.toNat)).hostWrite 0 tag dpa.toNat poison data).dropLine
      (dpa.toNat / 64)).mclPump))

/-- RECALL_ACK: the data of a modified line are used, and the host's copy is gone. -/
def execRecallAck (dpa : Word48) (dirty poison : Bool) (data : List Byte) (s : State) : Host.Outcome State Fault Refusal :=
  if !dataWf data then .fault .malformed
  else if !s.mclUp then .next s
  else
    let n := dpa.toNat / 64
    let s := s.takeMsg .recallAck 0 (some dpa.toNat)
    if s.mcl.snoop.any (·.line = n) then
      let s := s.notePoison (dirty && poison)
      .next (((if dirty then s.hostStore (64 * n) poison (data.take 64) else s).modMcl fun m => { m with wanted := [] }).dropLine
        n).mclPump
    else .next s.mclPump

/-! ### Completions of device requests (R457, R462, R463) -/

/-- The data of a device read arrive; poison and errors leave the destination poisoned. -/
def State.uwDone (s : State) (r : UwReq) (good : Bool) (data : List Byte) : State :=
  let s := s.modMcl fun m => { m with uw := m.uw.erase r }
  let s :=
    if !good then s.uwLost r else
    match r.kind with
    | .write => s
    | .read dst half => (s.want (s.snooped [{ a := dst, n := r.len }] true)).putPiece dst data half
  (s.moveDone r.ins).freePages r.ins

/-- A write of MCL's own completes. -/
def State.ownDone (s : State) (tag : Nat) (what : OwnReq) : State :=
  let s := s.modMcl fun m => { m with own := m.own.eraseP (·.1 = tag) }
  match what with
  | .event _ => s.entryVisible
  | .mailbox => s.mailboxSettle

/-- CPL. -/
def execCpl (tag : BitVec 16) (status : BitVec 3) (poison : Bool) (data : List Byte) (s : State) :
    Host.Outcome State Fault Refusal :=
  if !dataWf data then .fault .malformed
  else if !s.mclUp then .next s
  else
    let s' := (s.takeMsg .cpl tag none).notePoison poison
    match s'.mcl.uw.find? (·.tag = tag.toNat) with
    | some r =>
      let good := status = 0 && !poison && (r.kind = .write || data.length = r.len)
      waitRecall s (.next (s'.uwDone r good data).mclPump)
    | none =>
      match s'.mcl.own.find? (·.1 = tag.toNat) with
      | some (t, what) => .next (s'.ownDone t what).mclPump
      | none => .next (s'.modMcl fun m => { m with dbs := m.dbs.erase tag.toNat }).mclPump

/-! ### The event ring (R458 to R460, R507) -/

/-- The eight words of a ring entry. -/
def Event.words (e : Event) (phase : Bool) : List Nat :=
  [e.code.toNat + 2 ^ 16 * e.domain.toNat + 2 ^ 32 * e.seq.toNat, e.ticket.toNat, e.stamp.toNat, e.data0.toNat, e.data1.toNat,
   e.data2.toNat, 0, flag phase]

/-- The 64 bytes of a ring entry. -/
def Event.bytes (e : Event) (phase : Bool) : List Byte := (e.words phase).flatMap fun w => leBytes w 8

/-- Write an entry at EVPROD, and advance it. -/
def State.writeEntry (s : State) (e : Event) : State :=
  let m := s.mcl
  let next := (m.prod + 1) % m.evSize
  (s.ownWrite (m.evBase + 64 * m.prod) (e.bytes m.phase) (.event m.prod)).modMcl fun m =>
    { m with prod := next, phase := if next = 0 then !m.phase else m.phase }

/-- The record of lost events, written first where an entry can be written again (R460). It takes the next SEQ. -/
def State.writeOverflow (s : State) : State :=
  if s.mcl.lost = 0 || s.ringRoom = 0 then s else
  let e := { s.mkEvent 0x402 50 s.mcl.lost 0 0 with seq := BitVec.ofNat 32 s.mcl.seq }
  let s := (({ s with keeper := s.keeper.hold e }).writeEntry e).modMcl fun m => { m with lost := 0, seq := (m.seq + 1) % 2 ^ 32 }
  s.occ 59 2

/-- EVENT_WRITE: the oldest queued event goes to the ring; the record of lost events after those that came before them. -/
def execEventWrite (s : State) : Host.Outcome State Fault Refusal :=
  if !s.mclUp || !s.evEnabled then .next s else
  let s := if s.mcl.lostAfter = 0 then s.writeOverflow else s
  match s.evq with
  | [] => .next s.mclPump
  | e :: rest =>
    if s.ringRoom = 0 then .next s.mclPump
    else .next ((({ s with evq := rest } : State).modMcl fun m => { m with lostAfter := m.lostAfter - 1 }).writeEntry e).mclPump

/-- A write of 1 to EVCFG.EN (R460): base and size take effect, both indices are zeroed. -/
def State.enableRing (s : State) : State :=
  (s.setRegRaw 50 0x6C 0).modMcl fun m =>
    { m with evBase := s.hostReg 0x20, evSize := 2 ^ bits (s.regRaw 50 0x64).toNat 1 5, prod := 0, phase := true, seq := 0 }

/-- EV_BOOT_FALLBACK is raised once the ring is written (R537): the slot booted, and the slot that failed. -/
def State.fallbackSettle (s : State) : State :=
  if s.keeper.fbOwed && s.evEnabled && s.mcl.link = 2 then
    (s.modKeeper fun k => { k with fbOwed := false }).raise 0x480 51 (if s.keeper.slot then 1 else 2)
  else s

/-- A write of EVCFG. -/
def State.writeEvcfg (s : State) (r : Requester) (data mask : Half) : State :=
  let s := s.regWrite r 50 0x64 data mask
  if mask.getLsbD 0 && data.getLsbD 0 then s.enableRing.fallbackSettle else s

def execEvcfgEnable (r : Requester) (data mask : Half) (s : State) : Host.Outcome State Fault Refusal :=
  let (s, ok) := s.reachBy r 50 0x64
  .next (if ok then s.writeEvcfg r data mask else s)

def execEvconsWrite (r : Requester) (data mask : Half) (s : State) : Host.Outcome State Fault Refusal :=
  let (s, ok) := s.reachBy r 50 0x6C
  .next (if ok then s.regWrite r 50 0x6C data mask else s)

/-- A write of 1 to MBCTL.GO (R462): the Keeper reads the request, its first 16 bytes and then its payload. -/
def State.mailboxGo (s : State) : State :=
  if s.mcl.mbox.isSome then s.occ 50 5
  else ((s.modMcl fun m => { m with mbox := some (s.hostReg 0x30) }).askHost 8 (s.hostReg 0x30) 16).occ 51 2

def execMailboxGo (r : Requester) (s : State) : Host.Outcome State Fault Refusal :=
  let (s, ok) := s.reachBy r 50 0x70
  .next (if ok then s.mailboxGo.mclPump else s)

end Sys2Proof.Machine
end

