-- ==== Sys2Proof/Machine/Boot.lean ====
section
/-! DEFINITION. Resets, pins and the boot sequence: what a reset keeps and clears (R529 to R532), the sequence of R533 and R534, images
and their checks (R535 to R537), the identity certificate (R538, R539), outputs and losses of supply (R551, R552, R557, R558). -/
namespace Sys2Proof.Machine

/-! ### Outputs (R551, R552) -/

/-- The pads of R551 but the reference clocks, which the boundary-scan chain covers (R563), in the order of its table. -/
inductive Pad where
  | pwrok | resetN | ready | alertN | thermtripN | twinPresentN | slotId (k : Fin 4) | i3cScl | i3cSda | spiClk | spiCsN | spiIo (k : Fin 4)
  | tck | tms | tdi | tdo | trstN
deriving DecidableEq, Repr

/-- A pad's place in the chain (DESIGN CHOICE, log entry 85). -/
def Pad.cell : Pad → Nat
  | .pwrok => 0 | .resetN => 1 | .ready => 2 | .alertN => 3 | .thermtripN => 4 | .twinPresentN => 5 | .slotId k => 6 + k
  | .i3cScl => 10 | .i3cSda => 11 | .spiClk => 12 | .spiCsN => 13 | .spiIo k => 14 + k
  | .tck => 18 | .tms => 19 | .tdi => 20 | .tdo => 21 | .trstN => 22

/-- Is the ZL-8 without power or held in reset (R551)? -/
def State.heldOff (s : State) : Bool := !s.pins.pwrok || !s.pins.resetN

/-- READY is driven: by EXTEST from its cell (R547), else as the machine asserts it. -/
def State.readyPin (s : State) : Bool := if s.tap.extest then s.tap.cells.getLsbD Pad.ready.cell else s.pins.ready && !s.pins.released
/-- ALERT_N is driven low. -/
def State.alertPin (s : State) : Bool := if s.tap.extest then !s.tap.cells.getLsbD Pad.alertN.cell else s.alertN && !s.pins.released
/-- THERMTRIP_N is driven low. -/
def State.tripPin (s : State) : Bool := if s.tap.extest then !s.tap.cells.getLsbD Pad.thermtripN.cell else s.pins.trip && !s.pins.released

/-- Is a pad that the ZL-8 may drive released (R551, R552, R562)? The I3C pads stay in use while RESET_N is asserted, when the Keeper answers
(R530); EXTEST drives the outputs of the chain (R547). -/
def State.padReleased (s : State) : Pad → Bool
  | .ready | .alertN | .thermtripN => s.pins.released && !s.tap.extest
  | .i3cScl | .i3cSda => !s.pins.pwrok
  | .spiClk | .spiCsN | .spiIo _ => (s.heldOff && !s.tap.extest) || s.keeper.spirel
  | .tdo => s.heldOff && !s.tap.extest
  | .pwrok | .resetN | .twinPresentN | .slotId _ | .tck | .tms | .tdi | .trstN => true

/-! ### The boot flash (R535, R539, R546) -/

/-- A byte of the flash: an erased sector reads 0xFF, and programming clears bits (PRESUMED: serial NOR; log entry 52). -/
def flashAt : List FlashOp → Nat → Byte
  | [], a => Config.flashByte a
  | .erase off :: l, a => if off ≤ a && a < off + 0x10000 then 0xFF else flashAt l a
  | .write off bytes :: l, a => if off ≤ a && a < off + bytes.length then bytes.getD (a - off) 0 &&& flashAt l a else flashAt l a

/-- Bytes of the flash. -/
def State.flash (s : State) (a n : Nat) : List Byte := (List.range n).map fun k => flashAt s.keeper.flash (a + k)

/-- The flash offset of a slot: A (false) or B. -/
def slotAt (b : Bool) : Nat := if b then 0x1000000 else 0

/-- A little-endian field of bytes. -/
def fieldOf (l : List Byte) (a n : Nat) : Nat := leNat ((l.drop a).take n)

/-- SECVER as it compares (R536). -/
def secverOf (h : List Byte) : Nat := min 63 (fieldOf h 8 4)

/-- Is the header of a slot valid (R536)? -/
def State.headerOk (s : State) (b : Bool) : Bool :=
  let h := s.flash (slotAt b) 256
  let len := fieldOf h 16 4
  let sig := fieldOf h 20 2
  fieldOf h 0 4 = 0x5A4C3846 && fieldOf h 4 2 = 1 && 1 ≤ len && len ≤ 8388608 && 1 ≤ sig && sig ≤ 1280 &&
    Config.falconVerify (shake256 h) (s.flash (slotAt b + 256) sig) && decide (s.keeper.fuseMin ≤ secverOf h)

/-- Does the body of a slot match its DIGEST (R537)? -/
def State.bodyOk (s : State) (b : Bool) : Bool :=
  let h := s.flash (slotAt b) 256
  shake256 (s.flash (slotAt b + 4096) (fieldOf h 16 4)) = (h.drop 32).take 32

/-- TOPLEVEL of a header (R536). -/
def toplevelOf (h : List Byte) : Nat := max 1 (min 2 (fieldOf h 6 1))

/-- The identity certificate (R539). -/
def State.cert (s : State) : List Byte := s.flash 0x2000000 3200

/-- Does the certificate hold this device's key, under a good signature (R539)? -/
def State.certOk (s : State) : Bool :=
  let c := s.cert
  (c.drop 64).take 1793 = identityKey &&
    Config.falconVerify (shake256 (c.take 1920)) ((c.drop 1920).take (fieldOf c 6 2))

/-! ### Resets (R529) -/

/-- The device after a rising edge of PWROK: State.reset but for what no reset touches (the flash, the fuses, the level of the pins)
and the model's own fields. -/
def State.coldReset (s : State) : State :=
  { State.reset with
    pending := s.pending, free := s.free
    keeper := { flash := s.keeper.flash, fuseMin := s.keeper.fuseMin, bstate := if s.pins.resetN then 0 else 4 }
    pins := { resetN := s.pins.resetN, twin := s.pins.twin, released := !s.pins.resetN } }

/-- The registers that a warm reset keeps: LOFT.CFG and LOFT.XCFG (R298). -/
def warmKeeps (key : Nat) : Bool := let dom := key / 0x10000; 32 ≤ dom && dom ≤ 39 && key % 0x10000 ≤ 4

/-- A warm reset (R529). The sequence starts over from order 1 (R531): the cold one where it had not ended. A slice that was changing its
mode has changed it, so that its registers show what is in force (R298). The link leaves UP: the lines that the host holds modified are
poisoned (R464). -/
def State.warmReset (s : State) (cause bstate : Nat) : State :=
  let s := s.linesLost.each ((List.range 8).filter fun k => (s.loftAt k).reconf) State.loftApply
  { State.reset with
    pending := s.pending, free := s.free, ticket := s.ticket, stamp := s.stamp, mem := s.mem, clearing := s.clearing, poison := s.poison
    table := s.table, live := s.live, loft := s.loft.map fun l => { l with reconf := false }, lastGen := s.lastGen
    regs := s.regs.filter fun p => warmKeeps p.1
    truss := s.truss.map fun t => { desc := t.desc, imm := t.imm }
    keeper := { flash := s.keeper.flash, fuseMin := s.keeper.fuseMin, i3cAddr := s.keeper.i3cAddr, rcause := cause, bstate }
    boot := { warm := s.boot.warm || s.boot.order = 10 }
    tap := s.tap
    pins := { s.pins with ready := false, trip := false } }

/-- A warm reset that comes while the thermal-trip latch is set is ignored and counted (R531). -/
def State.resetIgnored (s : State) : State := (s.modKeeper fun k => { k with rcause := 3 }).occ 51 7

/-- PWROK rises (R529, R557). The SLOT_ID straps are sampled (R554): what the board straps then is a free value. -/
def execPwrokRise (s : State) : Host.Outcome State Fault Refusal :=
  if s.pins.pwrok then .next s else
  let (x, s) := s.drawFree
  .next (s.coldReset.modPins fun p => { p with slotId := BitVec.ofNat 4 x })

/-- PWROK falls (R552, R557): outputs are released, clocks stop, the regulators go off. -/
def execPwrokFall (s : State) : Host.Outcome State Fault Refusal :=
  if !s.pins.pwrok then .next s else
  let t := s.coldReset
  .next { t with pins := { t.pins with pwrok := false, released := true }, tap := {} }

/-- RESET_N has been asserted for 10 µs (R529 to R531, R552). -/
def execResetNAssert (s : State) : Host.Outcome State Fault Refusal :=
  if !s.pins.resetN then .next s
  else if !s.pins.pwrok then .next (s.modPins fun p => { p with resetN := false })
  else if s.pwrc.trip then .next (s.resetIgnored.modPins fun p => { p with resetN := false })
  else .next ((s.warmReset 1 4).modPins fun p => { p with resetN := false, released := true })

/-- RESET_N is deasserted (R534): the sequence runs, and reads the flash over the SPI pads again (R562). EXTEST drives no longer (R547). -/
def execResetNRelease (s : State) : Host.Outcome State Fault Refusal :=
  if s.pins.resetN then .next s
  else
    let s := s.modPins fun p => { p with resetN := true, released := !s.pins.pwrok }
    let s : State := ({ s with tap := { s.tap with extest := false } } : State).modKeeper fun k => { k with spirel := false }
    .next (if s.pwrc.trip then s else s.modKeeper fun k => if k.bstate = 4 then { k with bstate := 0 } else k)

/-- P3V3A falls below 3.0 V (R552). -/
def execP3v3aLow (s : State) : Host.Outcome State Fault Refusal := .next (s.modPins fun p => { p with released := true })

/-! ### Losses of supply and clock (R488, R558) -/

/-- Every island but D51 and D52 goes dark: MCL leaves UP, and what the islands held is gone (log entry 50). -/
def State.goDark (s : State) : State :=
  let s := s.mclLost
  { s with
    live := Vector.ofFn fun n => n.val = 51 || n.val = 52
    truss := State.reset.truss, spars := [], ga := State.reset.ga, loft := State.reset.loft, obreqs := [], jobs := State.reset.jobs
    joins := [], held := [], commit := {}, bktWait := [], passes := [], cores := State.reset.cores, gcause := State.reset.gcause, codes := State.reset.codes, written := [], clearing := false, ports := State.reset.ports
    evq := [], bist := {}, pins := { s.pins with ready := false }, mcl := { s.mcl with wanted := [] } }

/-- P12V is below 10.8 V for 10 µs. -/
def execP12vLoss (s : State) : Host.Outcome State Fault Refusal :=
  if !s.pins.pwrok then .next s else .next (s.goDark.modPins fun p => { p with p12v := false })

/-- REFCLK0 is absent for 10 µs. -/
def execRefclk0Loss (s : State) : Host.Outcome State Fault Refusal :=
  if !s.pins.pwrok then .next s else .next (s.goDark.modPins fun p => { p with ref0 := false })

/-- A port loses its clock (R440, R558). -/
def State.portClockLost (s : State) (k : Nat) : State :=
  match (s.port k).state with
  | .up => (s.perr k 8).leaveUp k 2 .down
  | .training => s.modPort k fun q => q.quiet .down
  | _ => s

/-- REFCLK1 is absent. -/
def execRefclk1Loss (s : State) : Host.Outcome State Fault Refusal :=
  if !s.pins.pwrok then .next s
  else waitRecall s (.next ((s.each (List.range 22) State.portClockLost).modPins fun p => { p with ref1 := false }))

/-- REFCLK2 is absent. -/
def execRefclk2Loss (s : State) : Host.Outcome State Fault Refusal :=
  if !s.pins.pwrok then .next s else waitRecall s (.next (s.mclLost.modPins fun p => { p with ref2 := false }))

/-! ### The sequence (R533, R534) -/

/-- May a step of the sequence run: the device is booting, and the step before it is done? From order 4 on the main supply and its
clock are needed (R558). -/
def State.bootAt (s : State) (cold warm : Option Nat) : Bool :=
  s.pins.pwrok && s.pins.resetN && s.keeper.bstate = 0 && (s.boot.order < 3 || (s.pins.p12v && s.pins.ref0)) &&
    some s.boot.order = (if s.boot.warm then warm else cold)

/-- The order that a step completes. -/
def State.bootTo (s : State) (n : Nat) : State := { s with boot := { s.boot with order := n } }

/-- Can the Keeper read the flash? Not over released pads (R562): what it then checks fails (DESIGN CHOICE, log entry 86). -/
def State.reads (s : State) : Bool := !s.keeper.spirel

/-- Order 2: both headers are read and checked. -/
def execBootHeaderCheck (s : State) : Host.Outcome State Fault Refusal :=
  if !s.bootAt (some 1) (some 1) then .next s
  else .next { s with boot := { s.boot with order := 2, hdrA := s.reads && s.headerOk false, hdrB := s.reads && s.headerOk true } }

/-- The slot to read first (R537). -/
def State.firstSlot (s : State) : Bool :=
  let seq (b : Bool) : Nat := fieldOf (s.flash (slotAt b) 256) 12 4
  if s.boot.hdrA && s.boot.hdrB then decide (seq false < seq true) else s.boot.hdrB

/-- Is the header of a slot valid, as checked? -/
def State.hdr (s : State) (b : Bool) : Bool := if b then s.boot.hdrB else s.boot.hdrA

/-- The image of a slot runs. -/
def State.runImage (s : State) (b fallback : Bool) : State :=
  let h := s.flash (slotAt b) 256
  (s.modKeeper fun k => { k with slot := b, fallback, fbOwed := fallback, header := h, running := secverOf h }).bootTo 3

/-- Order 3: the chosen body, with one fallback; without a valid image the sequence stops (R535). -/
def execBootBodyCheck (s : State) : Host.Outcome State Fault Refusal :=
  if !s.bootAt (some 2) (some 2) then .next s else
  let first := s.firstSlot
  if s.reads && s.hdr first && s.bodyOk first then .next (s.runImage first false)
  else if s.reads && s.hdr (!first) && s.bodyOk (!first) then .next (s.runImage (!first) true)
  else .next (s.modKeeper fun k => { k with bstate := 2 })

/-- Order 4: the islands are powered, in ascending domain; the LOFT slices and the stores begin their clear (R298, R300). -/
def execIslandPowerUp (s : State) : Host.Outcome State Fault Refusal :=
  if !s.bootAt (some 3) none then .next s
  else .next (({ s with live := Vector.replicate 60 true, clearing := true, loft := s.loft.map fun l => { l with clearing := true } } : State).bootTo 4)

/-- BOOTBIST of the running image. -/
def State.wantsBist (s : State) : Bool := fieldOf s.keeper.header 7 1 % 2 = 1

/-- Order 5: boot BIST of all 60 islands, where the image asks for it. -/
def execBootBist (s : State) : Host.Outcome State Fault Refusal :=
  if !s.bootAt (some 4) none || s.bist.busy then .next s
  else if !s.wantsBist then .next (s.bootTo 5)
  else
    .next { s with keeper := { s.keeper with bootbist := true }
                   bist := { busy := true, boot := true, todo := (List.range 59).map (· + 1), kind := 3, cur := 0 } }

/-- Order 6: the stacks are trained. A warm reset comes here from order 3. -/
def execHbmTraining (s : State) : Host.Outcome State Fault Refusal :=
  if s.bootAt (some 5) (some 3) || (s.bootAt (some 4) none && !s.wantsBist) then .next (s.bootTo 6) else .next s

/-- Order 7: HBM, Loft and stores read zero, without markers (R298, R300, R533). -/
def execMemoryClear (s : State) : Host.Outcome State Fault Refusal :=
  if !s.bootAt (some 6) none then .next s
  else
    .next (({ s with mem := [], poison := [], clearing := false
                     loft := s.loft.map fun l => { l with clearing := false, lines := [] } } : State).bootTo 7)

/-- Order 8: the derived key is compared with the certificate (R539). -/
def execIdentityCheck (s : State) : Host.Outcome State Fault Refusal :=
  if !s.bootAt (some 7) (some 6) then .next s
  else
    let s := s.bootTo 8
    .next (if s.reads && s.certOk then s else (s.modKeeper fun k => { k with iderr := true }).raise 0x483 51)

/-- Order 9: TOPLEVEL is set, MCL and the ports enter TRAINING (R428, R533). -/
def execLinkStart (s : State) : Host.Outcome State Fault Refusal :=
  if !s.bootAt (some 8) (some 8) then .next s
  else
    let s := (s.modKeeper fun k => { k with toplevel := toplevelOf k.header }).bootTo 9
    .next ((s.each (List.range 22) fun s k =>
      if isTwin k && !s.pins.twin then s.modPort k fun q => q.quiet .disabled else s.enterTraining k).mclTrain)

/-- Order 10: READY. -/
def execReadyAssert (s : State) : Host.Outcome State Fault Refusal :=
  if !s.bootAt (some 9) (some 9) then .next s
  else .next (((s.modKeeper fun k => { k with bstate := 1 }).modPins fun p => { p with ready := true }).bootTo 10)

end Sys2Proof.Machine
end

