-- ==== Sys2Proof/Machine/Cores.lean ====
section
/-! DEFINITION. The Gutter cores (12): program images (R397 to R399), starting a program run (R392, R395), encodings (R400, R401),
registers (R393, R394), faults (R417), and what every instruction of a core shares. -/
namespace Sys2Proof.Machine

/-! ### Values (R394, R410) -/

/-- The value of a word: a Z40 container, or binary32 in bits [63:32]. -/
def coreValue (b32 : Bool) (w : Word64) : Num := if b32 then ofB32 (w.toNat / 2 ^ 32) else ofContainer w

/-- A value rounded once to the type, as a word; a NaN is the canonical one. -/
def coreWord (b32 : Bool) (x : Num) : Word64 := if b32 then BitVec.ofNat 64 (toB32 x * 2 ^ 32) else toContainer x

/-! ### Registers (R393) -/

def GCore.sr (c : GCore) (k : Nat) : Word64 := vget c.s k 0
def GCore.vr (c : GCore) (k j : Nat) : Word64 := vget (vget c.v k (Vector.replicate 16 0)) j 0
/-- A predicate; p0 reads all ones. -/
def GCore.pr (c : GCore) (k : Nat) : Half := if k = 0 then 0xFFFF else vget c.p k 0
/-- Write a scalar; s0 ignores it. -/
def GCore.setS (c : GCore) (k : Nat) (x : Word64) : GCore := if k = 0 then c else { c with s := vmod c.s k fun _ => x }
/-- Write a predicate; p0 ignores it. -/
def GCore.setP (c : GCore) (k : Nat) (x : Half) : GCore := if k = 0 then c else { c with p := vmod c.p k fun _ => x }
/-- Write the lanes that a mask selects. -/
def GCore.setV (c : GCore) (k : Nat) (m : Half) (f : Nat → Word64) : GCore :=
  { c with v := vmod c.v k fun l => (List.range 16).foldl (fun l j => if m.getLsbD j then vmod l j fun _ => f j else l) l }
/-- A predicate from its lanes. -/
def predOf (f : Nat → Bool) : Half := BitVec.ofNat 16 ((List.range 16).foldl (fun x j => if f j then x + 2 ^ j else x) 0)

/-! ### Fields (R400, R401) -/

def gOp (w : Nat) : Nat := bits w 26 6
def gD (w : Nat) : Nat := bits w 21 5
def gA (w : Nat) : Nat := bits w 16 5
def gB (w : Nat) : Nat := bits w 11 5
def gP (w : Nat) : Nat := bits w 8 3
def gF (w : Nat) : Nat := bits w 5 3
def gC (w : Nat) : Nat := bits w 0 5
def gImm (w : Nat) : Nat := bits w 0 16
def gTy (w : Nat) : Bool := bits w 5 1 = 1
def gSb (w : Nat) : Bool := bits w 6 1 = 1
def gSc (w : Nat) : Bool := bits w 7 1 = 1
/-- Fields of form M. -/
def gW (w : Nat) : Nat := bits w 13 3
def gPl (w : Nat) : Nat := bits w 10 3
def gMp (w : Nat) : Nat := bits w 7 3
def gM5 (w : Nat) : Bool := bits w 5 1 = 1
def gM6 (w : Nat) : Bool := bits w 6 1 = 1

/-- The opcodes of the tables. -/
def gListed (op : Nat) : Bool :=
  op ≤ 5 || (7 ≤ op && op ≤ 0x1A) || (0x20 ≤ op && op ≤ 0x2D) || op = 0x30 || (0x38 ≤ op && op ≤ 0x3B)

/-- Masks of the fields of form R. -/
def mD : Nat := 0x3E00000
def mD3 : Nat := 0xE00000
def mA : Nat := 0x1F0000
def mA3 : Nat := 0x70000
def mB : Nat := 0xF800
def mB3 : Nat := 0x3800
def mP : Nat := 0x700
def mF : Nat := 0xE0
def mTy : Nat := 0x20
def mSc : Nat := 0x80

/-- The bits that an instruction uses below its opcode; none where its function is reserved (R400, R401). A bit of F whose meaning
does not apply, and an operand that the function does not name, count as unused (log entry 48). -/
def gUsed (w : Nat) : Option Nat :=
  let f := gF w
  let c := gC w
  let both := gSb w && gSc w
  match gOp w with
  | 0x00 | 0x01 => some 0
  | 0x02 => some (mA + mB + 0x1F)
  | 0x03 | 0x04 => some (mA + 0xFFFF)
  | 0x05 => some 0xFFFF
  | 0x07 => if f ≤ 2 then some (mD3 + mA3 + mB3 + mF) else if f = 3 then some (mD3 + mA3 + mF) else none
  | 0x08 | 0x09 => some (mD + mA + 0xFFFF)
  | 0x0A => some (mD + mA + mB + mF)
  | 0x0B => if f ≤ 5 then some (mD3 + mA + mB + mF) else none
  | 0x0C => some (mD + 0x1F)
  | 0x0D => if f ≤ 4 then some (mD + mF) else if f = 5 then some (mD + mA + mF) else none
  | 0x0E =>
    match f with
    | 0 => some (mD + mA + mF + 0xF)
    | 1 => some (mD + mA + mP + mF)
    | 2 => some (mD + mA3 + mF)
    | _ => none
  | 0x0F => some (mD3 + mA + mB)
  | 0x10 | 0x11 | 0x12 | 0x14 | 0x15 | 0x18 | 0x20 => if both then none else some (mD + mA + mB + mP + mF)
  | 0x13 => if both then none else some (mD + mA + mB + mP + mF + 0x1F)
  | 0x19 => if both || 6 ≤ c then none else some (if c = 5 then mD3 + mA + mP + mTy + mSc + 7 else mD3 + mA + mB + mP + mF + 7)
  | 0x1A => if 3 ≤ c then none else some (mD + mA + mP + mSc + 3)
  | 0x28 | 0x29 | 0x2A | 0x2B | 0x2C | 0x2D => some (mD + mA + mP + mTy + mSc + 0x1F)
  | 0x30 => some (mD + mA + mB + mP + mF + 1)
  | 0x38 => some (mD + mA + 0xFF80 + 0x20)
  | 0x39 => some (mD + mA + 0xFF80 + 0x60)
  | 0x3A => some (mD + mA + 0xFC00)
  | 0x3B => some (mD + mA + 0xFC00 + 0x60)
  | _ => some (mD + mA + mP + mTy + mSc)

/-- Does a word set no unused bit? -/
def gFieldsOk (w : Nat) : Bool :=
  match gUsed w with
  | none => false
  | some m => (w % 2 ^ 26) &&& m == w % 2 ^ 26

/-! ### Faults (R417) -/

/-- The program run of a core ends: what it wrote is from now on what another agent wrote (R409). -/
def State.ownNoMore (s : State) (k : Nat) : State :=
  { s with written := s.written.map fun w => if w.2.2 = k + 1 then (w.1, w.2.1, 0) else w }

/-- A fault ends the program run of core `k` (R417): `cause` by its code, `detail` the lanes or the FAULT code. -/
def State.coreFault (s : State) (k cause detail : Nat) : State :=
  let c := s.core k
  match c.inst with
  | none => s
  | some i =>
    let dom := 46 + k / 16
    let s :=
      if (s.regRaw dom 0x52C).getLsbD 5 then s
      else ((s.setRegRaw dom 0x520 (BitVec.ofNat 16 (cause + 16 * i.w.group))).setRegRaw dom 0x524
        (BitVec.ofNat 16 (c.pc % 4096 + 4096 * (k % 16)))).setRegRaw dom 0x528 (BitVec.ofNat 16 detail)
    let s := ((s.orReg dom 0x52C 0x20).occ dom 26).raise 0x380 dom (cause + 16 * i.w.group) (c.pc % 4096 + 4096 * (k % 16))
    let s := s.modCore k fun _ => {}
    ((s.ownNoMore k).passTrap i.ins true (if cause = 8 then .dataError else .address)).passEnd

/-! ### Program images (R397, R398) -/

/-- A header: NINSTR, DATAB and the planes (OFF, FMT, SEXP); none where it breaks R397 or R398. -/
def headerOf (l : List Byte) : Option (Nat × Nat × List (Nat × Nat × Int)) :=
  let f (a n : Nat) : Nat := leNat ((l.drop a).take n)
  let n := f 4 2
  let d := f 6 2
  let planes := (List.range 8).map fun p => (f (16 + 16 * p) 5, f (21 + 16 * p) 1, signedOf (f (22 + 16 * p) 1) 8)
  let clear := f 8 8 = 0 && (l.drop 144).all (· == 0) && (List.range 8).all fun p => f (23 + 16 * p) 9 = 0
  if f 0 4 = 0x3156475A && 1 ≤ n && n ≤ 4032 && d ≤ 704 && clear && planes.all fun p => [0, 1, 5, 6, 7, 8, 9, 15].contains p.2.1 then
    some (n, d, planes)
  else none

/-- Poisoned units of a range that a core reads, each reported (R290). -/
def State.coreBad (s : State) (l : List Span) : State × Bool :=
  let bad := s.badUnits l
  (s.each bad State.memUncorr, !bad.isEmpty)

/-! ### Starting a program run (R392, R395, R396) -/

/-- The image at an address that a slice has read for a pass (R399). -/
def State.imageAt (s : State) (q : Nat) (ins : InsRef) (a : Nat) : Option Image :=
  (vget s.codes q []).find? fun m => m.ins = ins && m.addr = a

/-- The images of a slice that unfinished work of their pass still names. -/
def State.imagesNeeded (s : State) (q : Nat) : List Image :=
  (vget s.codes q []).filter fun m => s.passes.any fun p =>
    p.ins = m.ins && !p.stopped && p.work.any fun w => !w.finished && s.gProg w.group p.b = m.addr

/-- May a slice run the image at an address for a pass: it holds it, or can take it in beside at most three others that are still
needed (R399)? -/
def State.codeRoom (s : State) (q : Nat) (ins : InsRef) (a : Nat) : Bool :=
  (s.imageAt q ins a).isSome || (s.imagesNeeded q).length < 4

/-- A slice keeps an image that it has read. -/
def State.keepImage (s : State) (q : Nat) (m : Image) : State := { s with codes := vmod s.codes q fun _ => s.imagesNeeded q ++ [m] }

/-- The program run that starts next: the first ready range or touched row (R375), by group and number, that an admitted slice has a
free core and room for its image (R399) for. -/
def State.nextInstance (s : State) : Option (Pass × Work × Nat) :=
  let ready := s.passes.flatMap fun p => (p.work.filter fun w => s.workReady p w && (w.row.isNone || s.touched w)).map fun w => (p, w)
  let place (p : Pass) (w : Work) : Option Nat :=
    (List.range 64).find? fun k => bits p.slices (k / 16) 1 = 1 && s.isLive (46 + k / 16) && (s.core k).inst.isNone &&
      s.codeRoom (k / 16) p.ins (s.gProg w.group p.b)
  ready.foldl (fun best x =>
    match place x.1 x.2 with
    | none => best
    | some k =>
      match best with
      | none => some (x.1, x.2, k)
      | some y => if x.2.group < y.2.1.group || (x.2.group = y.2.1.group && x.2.k < y.2.1.k) then some (x.1, x.2, k) else best) none

/-- The registers of a program run as it starts (R395). -/
def coreStart (i : Inst) (ticket : Word48) : GCore :=
  let c : GCore := { inst := some i }
  ((((c.setS 1 (BitVec.ofNat 64 i.w.first)).setS 2 (BitVec.ofNat 64 i.w.len)).setS 3 (BitVec.ofNat 64 i.w.group)).setS 4
    (ticket.setWidth 64)).setS 5 (BitVec.ofNat 64 i.w.bucket)

/-- A slice reads the image of a program run that has begun on core `k`, once per pass (R399): a header that breaks R397 or R398, or an
image that is not wholly in its place, faults HEADER, an uncorrectable unit DATA. -/
def State.readImage (s : State) (k a : Nat) (i : Inst) : State :=
  if !s.inBuffer a 256 then s.coreFault k 5 0 else
  let s := s.forRead [{ a, n := 256 }]
  let (s, bad) := s.coreBad [{ a, n := 256 }]
  if bad then s.coreFault k 8 0 else
  match headerOf (s.bytes a 256) with
  | none => s.coreFault k 5 0
  | some (m, d, planes) =>
    if !s.inBuffer a (256 + 4 * m) then s.coreFault k 5 0 else
    let s := s.forRead [{ a := a + 256, n := 4 * m }]
    let (s, bad) := s.coreBad [{ a := a + 256, n := 4 * m }]
    if bad then s.coreFault k 8 0 else
    let code := (List.range m).map fun j => BitVec.ofNat 32 (s.readNat (a + 256 + 4 * j) 4)
    (s.modCore k fun _ => coreStart { i with code, planes, datab := d } s.ticket).keepImage (k / 16)
      { ins := i.ins, addr := a, code, planes, datab := d }

/-- A ready program run starts on the lowest free core of an admitted slice. -/
def instanceStart (s : State) : State :=
  match s.nextInstance with
  | none => s
  | some (p, w, k) =>
    let n := w.group
    let a := s.gProg n p.b
    let (s, cnt, bad) := match w.row with
      | some r => s.readCount p.ins n r
      | none => (s, 0, false)
    if bad then s else
    let missed := if w.row.isSome then (s.ticket.toNat + 2 ^ 33 - 1 - cnt) % 2 ^ 32 else 0
    let s : State := { s with passes := s.passes.map fun x =>
      if x.ins = p.ins then
        { x with work := x.work.map fun y => if y.group = w.group && y.k = w.k then { y with started := true } else y }
      else x }
    let s := s.occ (46 + k / 16) 27
    let i : Inst := { ins := p.ins, b := p.b, w, code := [], planes := [], datab := 0, missed, count := cnt }
    match s.imageAt (k / 16) p.ins a with
    | some m => s.modCore k fun _ => coreStart { i with code := m.code, planes := m.planes, datab := m.datab } s.ticket
    | none => (s.modCore k fun _ => coreStart i s.ticket).readImage k a i

/-- INSTANCE_START. -/
def execInstanceStart (s : State) : Host.Outcome State Fault Refusal := waitRecall s (.next (instanceStart s))

/-! ### Running one instruction -/

/-- What stands at a core's program counter, for an instruction of an opcode. -/
inductive AtCore where
  | idle
  | fault (cause : Nat)
  | run (c : GCore) (i : Inst) (w : Nat)
deriving DecidableEq, Repr

/-- The pass that a program run belongs to. -/
def State.passOf (s : State) (i : Inst) : Option Pass := s.passes.find? (·.ins = i.ins)

/-- The program run limit of a core's program run (R417). -/
def State.limit (s : State) (k : Nat) (i : Inst) : Nat :=
  match s.passOf i with
  | some p => 2 ^ (16 + (p.seeds.getD (k / 16) (0, true, 12)).2.2)
  | none => 2 ^ 28

/-- The core's next instruction: a reserved opcode or a position past the last instruction faults whichever instruction was to
run (R401, R402, R417). -/
def State.atCore (s : State) (k op : Nat) : AtCore :=
  let c := s.core k
  match c.inst with
  | none => .idle
  | some i =>
    match i.code[c.pc]? with
    | none => .fault 2
    | some w =>
      if s.limit k i ≤ c.steps then .fault 6
      else if !gListed (gOp w.toNat) then .fault 1
      else if gOp w.toNat ≠ op then .idle
      else if !gFieldsOk w.toNat then .fault 1
      else .run c i w.toNat

/-- The number of a core. -/
def coreNo (g : SliceId) (c : CoreId) : Nat := 16 * g.val + c.val

/-- What an instruction does to its core: a fault with its cause and detail, or the core as it goes on. `pc` of the core handed in
already names the next instruction. -/
abbrev GRes := Except (Nat × Nat) GCore

/-- Run one instruction of an opcode on a core; the meaning may change the state beside the core. -/
def coreRun (g : SliceId) (c : CoreId) (op : Nat) (f : State → GCore → Inst → Nat → State × GRes) (s : State) :
    Host.Outcome State Fault Refusal :=
  let k := coreNo g c
  match s.atCore k op with
  | .idle => .next s
  | .fault cause => .next (s.coreFault k cause 0)
  | .run core i w =>
    match f s { core with pc := core.pc + 1, steps := core.steps + 1 } i w with
    | (s, .ok core) => .next (s.modCore k fun _ => core)
    | (s, .error (cause, detail)) => .next (s.coreFault k cause detail)

/-- An instruction that changes its core alone. -/
def coreOnly (g : SliceId) (c : CoreId) (op : Nat) (f : GCore → Inst → Nat → GRes) (s : State) :
    Host.Outcome State Fault Refusal :=
  coreRun g c op (fun s core i w => (s, f core i w)) s

/-- An arithmetic or special-function instruction on A and B (R401, R410): per active lane, or on scalars under SC. -/
def coreLanes (f : Bool → Word64 → Word64 → Word64 → Word64) (c : GCore) (w : Nat) : GCore :=
  let ty := gTy w
  if gSc w then c.setS (gD w) (f ty (c.sr (gA w)) (c.sr (gB w)) (c.sr (gC w)))
  else c.setV (gD w) (c.pr (gP w)) fun j => f ty (c.vr (gA w) j) (if gSb w then c.sr (gB w) else c.vr (gB w) j) (c.vr (gC w) j)

/-- A function of exact values, rounded once to the type (R410). -/
def onValues (f : Num → Num → Num → Num) (ty : Bool) (a b c : Word64) : Word64 :=
  coreWord ty (f (coreValue ty a) (coreValue ty b) (coreValue ty c))

/-- A special function whose bits the reference vectors give (R411, log entry 6): number `n`; `special` gives the exact cases. -/
def onVector (n : Nat) (special : Num → Option Num) (ty : Bool) (a _b _c : Word64) : Word64 :=
  match special (coreValue ty a) with
  | some v => coreWord ty v
  | none =>
    if ty then BitVec.ofNat 64 (vectorCode .binary32 n 1 (a.toNat / 2 ^ 32) * 2 ^ 32)
    else BitVec.ofNat 64 (vectorCode .z40 n 0 (a.toNat / 2 ^ 24) * 2 ^ 24)

/-- A reduction (R401 and the reductions table): a fold of the active lanes of A into scalar C, as `start` reads it, in ascending lane
order; under SC of the scalar A. -/
def coreFold (f : Bool → Word64 → Word64 → Word64) (start : Bool → Word64 → Word64) (c : GCore) (w : Nat) : GCore :=
  let l := if gSc w then [c.sr (gA w)]
    else ((List.range 16).filter fun j => (c.pr (gP w)).getLsbD j).map fun j => c.vr (gA w) j
  c.setS (gD w) (l.foldl (f (gTy w)) (start (gTy w) (c.sr (gC w))))

end Sys2Proof.Machine
end

