-- ==== Sys2Proof/Machine/Power.lean ====
section
/-! DEFINITION. The power controller (15): grants, the cap and its bubbles, estimate and measurement, droop, heat, hold and trip. -/
namespace Sys2Proof.Machine

/-- Does PWRC run: PWROK is high, and RESET_N does not hold it (R530)? -/
def State.pwrcRuns (s : State) : Bool := s.pins.pwrok && s.pins.resetN

/-! ### The grant (R467 to R470) -/

/-- The frequency of a step in MHz (R467). -/
def stepMHz (k : Nat) : Nat := 600 + 25 * k

/-- A grant is written by the MC: it becomes pending and replaces a pending one (R468). -/
def State.writeGrant (s : State) (step : Nat) (now : Bool) : State :=
  s.modPwrc fun p => { p with grant := min 46 step, gpend := some (min 46 step), gNow := now }

/-- The pending grant is adopted at the next flip, while no job is OPEN or DRAINING, or at once with NOW; one written during a ramp
waits for its end (log entry 53). -/
def execGrantApply (s : State) : Host.Outcome State Fault Refusal :=
  let p := s.pwrc
  match p.gpend with
  | some g =>
    if s.pwrcRuns && p.ramp.isNone && (p.gNow || !s.jobActive) then
      .next (s.modPwrc fun p => { p with gpend := none, gNow := false, ramp := some g, switched := false })
    else .next s
  | none => .next s

/-- A new bubble count: a rise reaches the arrays at once (R474). -/
def Pwrc.withN (p : Pwrc) (n : Nat) : Pwrc := { p with n, arr := max p.arr n }

/-- The bubble count that keeps the array issue rate across a raise (R470). -/
def raisedN (n old new bmax : Nat) : Nat := min bmax (max n (256 - (256 - n) * stepMHz old / stepMHz new))

/-- Order 3 of R469: the clocks of D00 to D23 switch (R26). A lower grant shows in GNOW from the switch on; in a raise R470 acts. -/
def execGrantSwitch (s : State) : Host.Outcome State Fault Refusal :=
  match s.pwrc.ramp with
  | some g =>
    if !s.pwrcRuns || s.pwrc.switched then .next s
    else if s.pwrc.gnow < g then
      .next (s.modPwrc fun p => { p with switched := true, freq := g }.withN (raisedN p.n p.gnow g p.bmax))
    else .next (s.modPwrc fun p => { p with switched := true, freq := g, gnow := g })
  | none => .next s

/-- Order 5 of R469. -/
def execGrantRampEnd (s : State) : Host.Outcome State Fault Refusal :=
  match s.pwrc.ramp with
  | some g =>
    if !s.pwrcRuns || !s.pwrc.switched then .next s
    else .next (((s.modPwrc fun p => { p with gnow := g, ramp := none, switched := false }).occ 52 3).raise 0x443 52 g)
  | none => .next s

/-! ### The loop (R472 to R477) -/

/-- The update of n for control power `num / den` (R474); `k` is 16, or 4 in measurement mode, with gains in sixteenths. -/
def Pwrc.update (p : Pwrc) (k num den : Nat) : Nat :=
  let c := p.cap * den
  if c < num then min p.bmax (p.n + (k * p.gainUp * (num - c) + (c - 1)) / c)
  else p.n - k * p.gainDn * (c - num) / c

/-- The control power as a fraction (R479, R480). -/
def Pwrc.control (p : Pwrc) : Nat × Nat := if p.byMeas then (p.meas, 1) else (p.est * p.rhoNum, p.rhoDen)

/-- Does the control power exceed the effective cap? -/
def Pwrc.ovf (p : Pwrc) : Bool := decide (p.cap * p.control.2 < p.control.1)

/-- R476: periods at BMAX above the cap, and periods that meet it. -/
def State.capJudge (s : State) : State :=
  let p := s.pwrc
  let sat := if p.n = p.bmax && p.ovf then p.satRun + 1 else 0
  let clr := if p.ovf then 0 else p.clrRun + 1
  let s := s.modPwrc fun p => { p with satRun := sat, clrRun := clr }
  if sat = 100 && !p.capUnr then ((s.modPwrc fun p => { p with capUnr := true }).orReg 52 0x28 1).raise 0x440 52
  else if 100 ≤ clr then s.modPwrc fun p => { p with capUnr := false }
  else s

/-- The recommended step (R477). -/
def recStep (gnow bratio : Nat) : Nat := min 46 ((stepMHz gnow * (256 - bratio) / 256 - 600) / 25)

/-- BRATIO, BHIGH and GREC over the last 1,000 periods, the nearest integer to the mean (R477). -/
def State.bubbleMean (s : State) : State :=
  let was := s.pwrc.bhigh
  let s := s.modPwrc fun p =>
    let hist := (p.n :: p.hist).take 1000
    let b := (hist.sum + 500) / 1000
    { p with hist, bratio := b, bhigh := decide (p.badv < b), grec := recStep p.gnow b }
  if s.pwrc.bhigh && !was then s.raise 0x442 52 (s.pwrc.bratio + 256 * s.pwrc.grec) else s

/-- The settings that take effect at the start of a control period (R472). -/
def State.loadPower (s : State) : State :=
  let x (off lo w : Nat) : Nat := s.cfgBits 52 off lo w
  s.modPwrc fun p =>
    { p with hostCap := x 0x10 0 16, mcCap := x 0x14 0 16, gainUp := x 4 0 4, gainDn := x 4 4 4, measOnly := x 4 8 1 = 1,
             bmax := x 8 0 8, badv := x 8 8 8, tlim := x 0xC 0 8 }.withN (min p.n (x 8 0 8))

/-- The counts of a control period (R518). -/
def State.countPeriod (s : State) (atMax : Bool) : State :=
  let s := if atMax then s.occ 52 0 else s
  let s := if s.pwrc.capUnr then s.occ 52 1 else s
  s.each (List.range 8) fun s k => s.occ 52 (8 + 4 * k + vget s.pwrc.thermal k 0)

/-- The end of a control period, and the start of the next. The loop does not run in hold (R486, R487). -/
def execControlPeriod (s : State) : Host.Outcome State Fault Refusal :=
  if !s.pwrcRuns then .next s else
  let p := s.pwrc
  let s := (if p.hold then s else s.capJudge).bubbleMean
  let s := if p.hold || p.byMeas then s else s.modPwrc fun p => p.withN (p.update 16 p.control.1 p.control.2)
  .next ((s.countPeriod (p.n = p.bmax)).loadPower)

/-! ### Estimate and measurement (R478 to R480) -/

/-- PWRC forms an estimate (R478): the islands' activity counts, each weighted by its fused coefficient, which the command carries summed in
watts (log entry 53), and the leakage. -/
def execEstimate (watts : Nat) (s : State) : Host.Outcome State Fault Refusal :=
  if !s.pwrcRuns then .next s
  else
    let e := watts + Config.leakage s.pwrc.tisland.toList s.pwrc.freq
    .next (s.modPwrc fun p => { p with est := e, estSum := p.estSum + e, estCnt := p.estCnt + 1 })

/-- The ratio of R479, of a measurement `m` and a mean estimate `sum / cnt` that are not both zero. -/
def rhoOf (m sum cnt : Nat) : Nat × Nat :=
  if 100 * m * cnt < 85 * sum then (85, 100) else if 115 * sum < 100 * m * cnt then (115, 100) else (m * cnt, sum)

/-- Does the divergence exceed 0.15 (R480)? -/
def diverges (m sum cnt : Nat) : Bool := decide (15 * m * cnt < 100 * (max (m * cnt) sum - min (m * cnt) sum))

/-- The window is judged: 100 divergent ones enter measurement mode, 1,000 others leave it. -/
def State.judge (s : State) (div : Bool) : State :=
  let p := s.pwrc
  let d := if div then p.divRun + 1 else 0
  let o := if div then 0 else p.okRun + 1
  let s := s.modPwrc fun p => { p with divRun := d, okRun := o }
  if d = 100 && !p.measMode then ((s.modPwrc fun p => { p with measMode := true }).orReg 52 0x28 2).raise 0x441 52
  else if 1000 ≤ o then s.modPwrc fun p => { p with measMode := false }
  else s

/-- A measurement. With nothing measured and nothing estimated the ratio has no value, and a free one within its clamp stands for it
(log entry 53). A window without an estimate takes the latest. -/
def execMeasurementWindow (watts : Nat) (s : State) : Host.Outcome State Fault Refusal :=
  if !s.pwrcRuns then .next s else
  let p := s.pwrc
  let sum := if p.estCnt = 0 then p.est else p.estSum
  let cnt := max 1 p.estCnt
  let (x, s) := if watts = 0 && sum = 0 then s.drawFree else (0, s)
  let (num, den) := if watts = 0 && sum = 0 then (85 + x % 31, 100) else rhoOf watts sum cnt
  let s := s.modPwrc fun p => { p with meas := watts, rhoNum := num, rhoDen := den, estSum := 0, estCnt := 0 }
  let s := s.judge (diverges watts sum cnt)
  if s.pwrc.byMeas then
    let s := s.occ 52 2
    .next (if s.pwrc.hold then s else s.modPwrc fun p => p.withN (p.update 4 watts 1))
  else .next s

/-! ### Droop (R481, R482) -/

/-- The supply of an island falls below its threshold. -/
def execDroopDetect (n : DomainId) (s : State) : Host.Outcome State Fault Refusal :=
  if !s.isLive n || !s.pins.resetN || s.stretched n then .next s
  else .next ((s.modPwrc fun p => { p with stretch := vmod p.stretch n fun _ => true }).common n 1)

/-- Stretching ends. -/
def execStretchEnd (n : DomainId) (s : State) : Host.Outcome State Fault Refusal :=
  .next (s.modPwrc fun p => { p with stretch := vmod p.stretch n fun _ => false })

/-! ### Heat (R483 to R488) -/

/-- The thermal trip (R488): latched until the next cold reset; the event goes to the MC alone (R489). -/
def State.thermTrip (s : State) (sensor : Nat) : State :=
  if s.pwrc.trip then s else
  let s := s.orReg 52 0x28 0x20
  let s := (s.modKeeper fun k => { k.hold (s.mkEvent 0x447 52 sensor 0 0) with bstate := 3 })
  ((s.modPwrc fun p => { p with trip := true }).modPins fun p => { p with trip := true }).goDark

/-- Is the sensor of an island read? -/
def State.sensed (s : State) (dom : Nat) : Bool := s.pwrcRuns && (vget s.live dom false || dom = 51 || dom = 52)

/-- An island's temperature is read (R483). -/
def execIslandTempRead (n : DomainId) (temp : BitVec 8) (s : State) : Host.Outcome State Fault Refusal :=
  if !s.sensed n then .next s else
  let s := s.modPwrc fun p => { p with tisland := vmod p.tisland n fun _ => temp }
  if 125 ≤ temp.toNat then .next (s.thermTrip n) else .next s

/-- The state that a reading selects (R485). -/
def thermalOf (t : Nat) : Nat := if 115 ≤ t then 3 else if 105 ≤ t then 2 else if 95 ≤ t then 1 else 0

/-- The state after a reading: entered at its threshold, left 3 °C under it, and HOLD only by a release. -/
def thermalNext (cur t : Nat) : Nat :=
  if cur = 3 then 3
  else if cur ≤ thermalOf t then thermalOf t
  else if cur = 2 && 102 < t then 2
  else if t ≤ 92 then 0 else 1

/-- A stack enters THROTTLE. -/
def State.hbmHot (s : State) (k : Nat) : State := (s.orReg 52 0x28 8).raise 0x445 52 k

/-- The buckets that the Gutter has encoded in full are known for order 3 of R486. -/
def State.markEncoded (s : State) : State :=
  { s with jobs := s.jobs.map fun c => { c with buckets := c.buckets.map fun p =>
      (p.1, p.2.map fun b => { b with pre := c.jr.blocks p.1 ≠ 0 && b.own.length = c.jr.blocks p.1 }) } }

/-- The device enters hold (R486, orders 1 and 2). -/
def State.enterHold (s : State) (k : Nat) : State :=
  if s.pwrc.hold then s
  else ((s.markEncoded.modPwrc fun p => { p with hold := true, holdDone := false }).orReg 52 0x28 0x10).raise 0x446 52 k

/-- A stack's temperature is read (R483, R485). -/
def execStackTempRead (k : StackId) (temp : BitVec 8) (s : State) : Host.Outcome State Fault Refusal :=
  if !s.sensed (24 + k) then .next s else
  let old := vget s.pwrc.thermal k 0
  let new := thermalNext old temp.toNat
  let s := s.modPwrc fun p =>
    { p with tstack := vmod p.tstack k fun _ => temp, thermal := vmod p.thermal k fun _ => new,
             shown := vmod p.shown k fun _ => (temp, new) }
  let s := if new = 2 && old < 2 then s.hbmHot k else s
  let s := if new = 3 then s.enterHold k else s
  if 125 ≤ temp.toNat then .next (s.thermTrip (64 + k)) else .next s

/-- Order 5 of R486: the encoded buckets have landed, or PEERTO has passed; the attempt is FAILED and abandoned. -/
def execHoldAbandon (s : State) : Host.Outcome State Fault Refusal :=
  if !s.pwrc.hold || s.pwrc.holdDone || !s.isLive 46 || !s.pins.resetN then .next s
  else waitRecall s (.next ((s.modPwrc fun p => { p with holdDone := true }).failAttempt 7))

/-- HOLDCTL.RELEASE written by the MC (R487): it acts only when every stack reads below 105 °C. -/
def State.holdRelease (s : State) : State :=
  if !s.pwrc.hold then s
  else if s.pwrc.tstack.toList.any (fun t => decide (105 ≤ t.toNat)) then s.occ 52 4
  else
    (s.modPwrc fun p =>
      { p with hold := false, thermal := p.tstack.map fun (t : BitVec 8) => thermalOf t.toNat,
               shown := p.tstack.map fun (t : BitVec 8) => (t, thermalOf t.toNat) : Pwrc }.withN p.bmax).each
      (List.range 8) State.settle

/-- The hottest island against TLIM, every 1 ms (R484): T_red moves by 56 W, as far as the floor of 700 W allows. -/
def execDieTempCheck (s : State) : Host.Outcome State Fault Refusal :=
  if !s.pwrcRuns then .next s else
  let p := s.pwrc
  let (t, dom) := hottest p.tisland.toList
  let most := min p.mcCap p.hostCap - 700
  if p.tlim ≤ t then
    let red := max p.tred (min (p.tred + 56) most)
    let s := s.modPwrc fun p => { p with tred := red }
    .next (if p.tred = 0 && red ≠ 0 then (s.orReg 52 0x28 4).raise 0x444 52 dom else s)
  else if t + 2 < p.tlim then .next (s.modPwrc fun p => { p with tred := p.tred - 56 })
  else .next s

end Sys2Proof.Machine
end

