-- ==== Sys2Proof/Machine/Keeper.lean ====
section
/-! DEFINITION. The Keeper's services (18): mailbox commands (R461, R462, R546), attestation reports (R540), and self-test by BISTC
(R541 to R543) with the island resets it ends in (R529). -/
namespace Sys2Proof.Machine

/-! ### Mailbox responses (R461, R462) -/

/-- STATUS of a response: 1 BADCMD, 2 BADLEN, 3 DENIED, 4 FAILED. -/
abbrev mbOk : Nat := 0
abbrev mbBadCmd : Nat := 1
abbrev mbBadLen : Nat := 2
abbrev mbDenied : Nat := 3
abbrev mbFailed : Nat := 4

/-- Is a mailbox request in progress that nothing has answered, and the Keeper runs? -/
def State.mbReady (s : State) : Bool :=
  s.mclUp && s.mcl.mbox.isSome && s.mcl.mbAns.isNone && s.isLive 51 && s.bist.mb.isNone && !s.keeper.signing.any (·.2.isSome)

/-- Write bytes to host memory in messages of up to 256 B (R450). -/
def State.hostPieces (s : State) (a : Nat) (data : List Byte) : State :=
  s.each (List.range ((data.length + 255) / 256)) fun s k =>
    s.ownWrite (a + 256 * k) ((data.drop (256 * k)).take 256) .mailbox

/-- Answer the mailbox request: payload, LEN and STATUS in place; the DB with TAG follows when they are visible. -/
def State.respond (s : State) (tag : Word32) (status : Nat) (payload : List Byte) : State :=
  match s.mcl.mbox with
  | none => s
  | some a =>
    let s := ((s.hostPieces (a + 16) payload).ownWrite (a + 2) (leBytes payload.length 2) .mailbox).ownWrite (a + 8)
      (leBytes status 2) .mailbox
    (s.modMcl fun m => { m with mbAns := some tag }).mclPump

/-- What CMD and LEN of a request alone give (R461, R546): BADCMD for a CMD of no command, BADLEN for a LEN that is not the command's. -/
def mbStatus (cmd len : Nat) : Nat :=
  let fits (ok : Bool) : Nat := if ok then mbOk else mbBadLen
  match cmd with
  | 1 | 2 | 7 => fits (len = 0)
  | 3 => fits (len = 32)
  | 4 => fits (len = 8)
  | 5 => fits (len = 4)
  | 6 => fits (5 ≤ len && len ≤ 4068)
  | _ => mbBadCmd

/-- The Keeper reads a request of a CMD with LEN bytes of payload, judges the two, and then serves it. -/
def mbServe (cmd len : Nat) (tag : Word32) (f : State → Host.Outcome State Fault Refusal) (s : State) : Host.Outcome State Fault Refusal :=
  if !s.mbReady then .next s else
  let s := s.askHost 8 (s.mcl.mbox.getD 0 + 16) len
  if mbStatus cmd len ≠ mbOk then .next (s.respond tag (mbStatus cmd len) []) else f s

/-- A mailbox command that is answered at once. -/
def mbCommand (cmd len : Nat) (tag : Word32) (f : State → State × Nat × List Byte) (s : State) : Host.Outcome State Fault Refusal :=
  mbServe cmd len tag (fun s =>
    let (t, status, payload) := f s
    .next (t.respond tag status payload)) s

/-- INFO: the running image's header, SLOT, FALLBACK and SERIAL (log entry 52 gives the sizes). -/
def execInfo (tag : Word32) (s : State) : Host.Outcome State Fault Refusal :=
  mbCommand 1 0 tag (fun s => (s, mbOk, s.keeper.header ++ [BitVec.ofNat 8 (flag s.keeper.slot), BitVec.ofNat 8 (flag s.keeper.fallback)] ++
    (s.cert.drop 8).take 8)) s

/-- CERT. -/
def execCert (tag : Word32) (s : State) : Host.Outcome State Fault Refusal := mbCommand 2 0 tag (fun s => (s, mbOk, s.cert)) s

/-- Does a range of the flash touch the running slot, or the certificate region? After SPI_RELEASE nothing may be written (R562). -/
def State.flashDenied (s : State) (off n : Nat) : Bool :=
  let touches (a len : Nat) : Bool := decide (off < a + len) && decide (a < off + n)
  s.keeper.spirel || touches (slotAt s.keeper.slot) 0x1000000 || touches 0x2000000 3200

/-- FLERASE of the sector that holds the offset. -/
def execFlerase (tag off : Word32) (s : State) : Host.Outcome State Fault Refusal :=
  mbCommand 5 4 tag (fun s =>
    let a := off.toNat / 0x10000 * 0x10000
    if s.flashDenied a 0x10000 then (s, mbDenied, [])
    else ((s.modKeeper fun k => { k with flash := .erase a :: k.flash }).occ 51 5, mbOk, [])) s

/-- FLWRITE of 1 to 4,064 bytes. -/
def execFlwrite (tag off : Word32) (data : List Byte) (s : State) : Host.Outcome State Fault Refusal :=
  mbCommand 6 (4 + data.length) tag (fun s =>
    if s.flashDenied off.toNat data.length then (s, mbDenied, [])
    else ((s.modKeeper fun k => { k with flash := .write off.toNat data :: k.flash }).occ 51 6, mbOk, [])) s

/-- SECCOMMIT: the fused minimum rises to the running image's SECVER. -/
def execSeccommit (tag : Word32) (s : State) : Host.Outcome State Fault Refusal :=
  mbCommand 7 0 tag (fun s =>
    if s.keeper.fallback then (s, mbDenied, [])
    else
      let m := max s.keeper.fuseMin s.keeper.running
      (s.modKeeper fun k => { k with fuseMin := m }, mbOk, leBytes m 4)) s

/-! ### Attestation (R540) -/

/-- The FLAGS byte of a report. -/
def State.reportFlags (s : State) : Nat :=
  flag s.coord.valid + 2 * flag s.bist.done + 4 * flag s.bist.pass + 8 * flag s.keeper.iderr + 16 * flag s.keeper.fallback

/-- The 256-B body of a report with a SIGLEN. -/
def State.reportBody (s : State) (nonce : List Byte) (siglen : Nat) : List Byte :=
  let h := s.keeper.header
  leBytes 0x5A4C4154 4 ++ leBytes 1 2 ++ leBytes siglen 2 ++ (s.cert.drop 8).take 8 ++ nonce ++ (h.drop 32).take 32 ++
    (h.drop 8).take 4 ++ (h.drop 12).take 4 ++ [BitVec.ofNat 8 (flag s.keeper.slot), BitVec.ofNat 8 s.keeper.toplevel] ++
    leBytes (s.coord.pending.getD s.coord.inForce).toNat 2 ++ leBytes s.reportFlags 1 ++ leBytes 0 3 ++ leBytes s.ticket.toNat 6 ++
    leBytes s.stamp.toNat 6 ++ leBytes s.bist.agg.toNat 8 ++ shake256 s.cert ++ List.replicate 108 0

/-- A report: its body with the signature over SHAKE256 of it, SIGLEN bytes long, zero-padded to 1,280 B. -/
def State.mkReport (s : State) (nonce : List Byte) : List Byte :=
  let n := max 1 (min 1280 (Config.falconLength identityRandom (s.reportBody nonce 0)))
  let body := s.reportBody nonce n
  body ++ identitySign (shake256 body) n ++ List.replicate (1280 - n) 0

/-- The Keeper finishes the oldest report asked for. -/
def execAttestSigned (s : State) : Host.Outcome State Fault Refusal :=
  if !s.isLive 51 then .next s else
  match s.keeper.signing with
  | [] => .next s
  | (nonce, mb) :: rest =>
    let r := s.mkReport nonce
    let s := (s.modKeeper fun k => { k with signing := rest, report := r }).occ 51 3
    .next (match mb with
      | some tag => s.respond tag mbOk r
      | none => s)

/-- A report is asked for. -/
def State.attest (s : State) (nonce : List Byte) (mb : Option Word32) : State :=
  s.modKeeper fun k => { k with signing := k.signing ++ [(nonce, mb)] }

/-- ATTEST through the mailbox: a nonce of another length than 32 B answers BADLEN. -/
def execMbAttest (tag : Word32) (nonce : List Byte) (s : State) : Host.Outcome State Fault Refusal :=
  mbServe 3 nonce.length tag (fun s => .next (s.attest nonce (some tag))) s

/-! ### Island resets and wiped memories (R529, R541) -/

/-- The registers and counters of an island return to their reset values. -/
def State.resetRegs (s : State) (n : Nat) : State :=
  let s := s.clearCounters n
  { s with regs := s.regs.filter fun p => p.1 / 0x10000 ≠ n
           ctr := { s.ctr with ports := Vector.ofFn fun k => if portDom k.val = n then (0, 0, 0) else vget s.ctr.ports k.val (0, 0, 0) } }

/-- What an LBIST leaves of the state behind an island's registers; memories stay. What the Keeper's boot sequence and BISTC's run go by stays
through the boot BIST of their own islands (DESIGN CHOICE, log entry 55). -/
def State.resetParts (s : State) (n : Nat) : State :=
  match blockOf n with
  | .ga => s.modGa n fun _ => {}
  | .truss =>
    let s := s.modTr (n - 16) fun t => { desc := t.desc, imm := t.imm }
    { s with spars := s.spars.filter fun x => x.dst ≠ n - 16 }
  | .loft => (s.modLoft (n - 32) fun _ => {}).wipe (0x8000000000 + (n - 32) * 0x8000000) (0x8000000000 + (n - 31) * 0x8000000)
  | .hbmc => s.modPwrc fun p => { p with shown := vmod p.shown (n - 24) fun _ => (0, 0) }
  | .portq | .twin =>
    let s : State := { s with coord := { s.coord with gone := vmod s.coord.gone (n - 40) fun _ => true } }
    s.each (List.range 22) fun s k => if portDom k = n then s.modPort k fun _ => { state := .down } else s
  | .gutter =>
    let s : State := { s with
      cores := (Vector.ofFn fun k => if k.val / 16 = n - 46 then {} else vget s.cores k.val {})
      codes := vmod s.codes (n - 46) fun _ => [], gcause := vmod s.gcause (n - 46) fun _ => 0xE }
    if n = 46 then { s with commit := {}, jobs := State.reset.jobs, joins := [], held := [], bktWait := [], passes := [], written := [] } else s
  | .dbg => { s with tap := {} }
  | .hubnoc => { s with evq := [], once := [] }
  | .mcl => { s with mcl := {} }
  | .pwrc => s.modPwrc fun p => { trip := p.trip, stretch := p.stretch, tisland := p.tisland, tstack := p.tstack, thermal := p.thermal, shown := p.shown }
  | .fd | .ridge | .lath | .keeper | .bistc => s

/-- What an MBIST leaves of an island's memories: every word zero with valid check bits. -/
def State.wipeParts (s : State) (n : Nat) : State :=
  match blockOf n with
  | .ga => (s.modGa n fun g => { g with courses := g.courses.map fun _ => {} }).wipe (0x9000000000 + n * 0x4000000) (0x9000000000 + (n + 1) * 0x4000000)
  | .truss => s.modTr (n - 16) fun t => { t with desc := [], imm := Vector.replicate 32 0 }
  | .ridge => s.wipe (0xA000000000 + (n - 20) * 0x800000) (0xA000000000 + (n - 19) * 0x800000)
  | .loft => (s.modLoft (n - 32) fun l => { l with lines := [] }).wipe (0x8000000000 + (n - 32) * 0x8000000) (0x8000000000 + (n - 31) * 0x8000000)
  | .gutter =>
    let s : State := { s with
      cores := (Vector.ofFn fun k => let c := vget s.cores k.val {}; if k.val / 16 = n - 46 then { c with scratch := [] } else c)
      codes := vmod s.codes (n - 46) fun _ => [] }
    s.wipe (0xA002000000 + (n - 46) * 0x2000000) (0xA002000000 + (n - 45) * 0x2000000)
  | .portq | .twin => s.each (List.range 22) fun s k => if portDom k = n then s.modPort k fun q => { q with inbox := [] } else s
  | .hubnoc => { s with table := [], rot := [], evq := [] }
  | .fd | .hbmc | .keeper | .pwrc | .bistc | .dbg | .lath | .mcl => s

/-! ### Self-test (R541 to R543) -/

/-- Before an island's test: a Loft slice writes back its dirty lines, and ports go DOWN (R542). -/
def State.beforeTest (s : State) (n : Nat) : State :=
  match blockOf n with
  | .loft =>
    let l := s.loftAt (n - 32)
    (s.occ n 2 (l.lines.filter (·.2)).length).modLoft (n - 32) fun l => { l with lines := l.lines.map fun p => (p.1, false) }
  | .portq | .twin => s.each (List.range 22) fun s k =>
      if portDom k ≠ n then s else
      match (s.port k).state with
      | .up => s.leaveUp k 2 .down
      | .training => s.modPort k fun q => q.quiet .down
      | _ => s
  | _ => s

/-- After an island's test its ports retrain, but for those that something keeps DISABLED (R428). -/
def State.afterTest (s : State) (n : Nat) : State :=
  s.each (List.range 22) fun s k =>
    if portDom k ≠ n || (s.port k).state ≠ .down then s
    else if isTwin k && !s.pins.twin then s.modPort k fun q => { q with state := .disabled }
    else s.enterTraining k

/-- The next island of a run is put under test; the run ends where none is left. -/
def State.testNext (s : State) : State :=
  match s.bist.todo with
  | n :: rest => (s.beforeTest n).modBist fun b => { b with todo := rest, cur := n }
  | [] =>
    let b := s.bist
    let s := s.modBist fun b => { b with busy := false, boot := false, done := true, pass := b.failed.isEmpty, mb := none }
    let s := s.raise 0x481 57 b.agg.toNat b.failed.length
    let s := if b.boot then s.bootTo 5 else s
    match b.mb with
    | some tag => s.respond tag mbOk (leBytes b.agg.toNat 8 ++ leBytes (maskOf b.failed) 8)
    | none => s

/-- The domains that XSEL0 to XSEL3 select, as a mask: all of D00 to D49 at the basic level (R543). -/
def State.bistSel (s : State) : Nat :=
  (List.range 4).foldl (fun x k => x + (s.cfg 57 (8 + 4 * k)).toNat * 2 ^ (16 * k)) 0

/-- Start a run-time BIST on a mask, where none is in progress; the flag says that it started (R542). -/
def State.bistStart (s : State) (mask : Nat) (mb : Option Word32) : State × Bool :=
  if s.bist.busy then (s, false)
  else if s.jobActive || s.truss.toList.any (·.run) then ((s.orReg 57 0x1C 8).occ 57 2, false)
  else
    let sel := (List.range 60).filter fun n => mask / 2 ^ n % 2 = 1
    let s := s.occ 57 3 (sel.filter (50 ≤ ·)).length
    let s := s.modBist fun b =>
      { b with busy := true, boot := false, todo := sel.filter (· < 50), kind := s.cfgBits 57 4 0 2, agg := 0, failed := [], mb }
    (s.testNext, true)

/-- BISTC.CTL.GO written with 1. -/
def State.bistGo (s : State) : State := (s.bistStart s.bistSel none).1

def execBistGo (r : Requester) (s : State) : Host.Outcome State Fault Refusal :=
  waitRecall s <|
  let (s, ok) := s.reachBy r 57 0x18
  .next (if ok then s.bistGo else s)

/-- BIST through the mailbox: a mask, or 0 for the profile. -/
def execMbBist (tag : Word32) (mask : Word64) (s : State) : Host.Outcome State Fault Refusal :=
  mbServe 4 8 tag (fun s =>
    let (t, ok) := s.bistStart (if mask = 0 then s.bistSel else mask.toNat) (some tag)
    waitRecall s (.next (if ok then t else t.respond tag mbFailed []))) s

/-- An island's test ends with its signature (R541, R543); LBIST ends in a reset of the island, MBIST leaves its memories zero. -/
def State.testDone (s : State) (sig : Word64) : State :=
  let b := s.bist
  let n := b.cur
  let bad := decide (sig.toNat ≠ Config.bistPublished n b.kind)
  let s := s.modBist fun b =>
    { b with sigs := vmod b.sigs n fun _ => sig, agg := b.agg.rotateLeft 1 ^^^ sig, failed := if bad then b.failed ++ [n] else b.failed }
  let s := s.occ 57 0
  let s := if bad then (s.orReg 57 0x1C 4).occ 57 1 else s
  let s := if bad && b.failed.isEmpty then s.raise 0x482 57 n else s
  let s := if b.kind % 2 = 1 then (s.resetRegs n).resetParts n else s
  let s := if 2 ≤ b.kind then s.wipeParts n else s
  (s.afterTest n).testNext

def execIslandTestDone (sig : Word64) (s : State) : Host.Outcome State Fault Refusal :=
  if !s.bist.busy || !s.pins.pwrok || !s.pins.resetN then .next s else waitRecall s (.next (s.testDone sig))

end Sys2Proof.Machine
end

