-- ==== Sys2Proof/Machine/Csr.lean ====
section
/-! DEFINITION. Accesses to CSR, counter and table space (R490 to R504, R513 to R527): what a word reads, and what a write of each
register does. -/
namespace Sys2Proof.Machine

/-- Is a bit written with 1 under its mask? -/
def wrote (data mask : Half) (k : Nat) : Bool := (data &&& mask).getLsbD k

/-! ### Registers whose write acts (R500) -/

/-- TRUSS registers: CTL, the ring, SPUSH and the stash (chapters 6 and 9, Registers). -/
def State.writeTruss (s : State) (d : Nat) (r : Requester) (off : Nat) (data mask : Half) : State :=
  let t := (s.tr d).stash
  let w := s.regWrite r (16 + d) off data mask
  let v := (w.regRaw (16 + d) off).toNat
  if off = 0 then
    let s := if !mask.getLsbD 0 then s else if data.getLsbD 0 then (s.runStart d).setRunning d else s.modTr d fun t => { t with run := false }
    if wrote data mask 1 then s.abortStart d else s
  else if 0x14 ≤ off && off ≤ 0x20 then w.modTr d fun t => { t with ringNew := true }
  else if off = 0x2C then s.push d (data &&& mask).toNat
  else if off = 0x300 then (if wrote data mask 1 then w.stashReset d else w)
  else if off = 0x31C && t.ppages < v then (w.modTr d fun t => { t with stash := { t.stash with ppages := v } }).stashResume d
  else if off = 0x328 && t.quota < v then (w.modTr d fun t => { t with stash := { t.stash with quota := v } }).stashResume d
  else w

/-- The coordinate is written (R433, R434): it waits while a job is OPEN or DRAINING; COORDV reads 1 from the first write on. -/
def State.setCoord (s : State) (c : BitVec 16) : State :=
  if s.jobActive then { s with coord := { s.coord with valid := true, pending := some c, gone := State.reset.coord.gone } } else s.putCoord c

/-- Registers of PORTQ and TWIN; a PORTQ has four ports, TWIN two. -/
def State.writePorts (s : State) (dom : Nat) (r : Requester) (off : Nat) (data mask : Half) : State :=
  if 0x100 ≤ off && off < (if dom = 45 then 0x180 else 0x200) && off % 0x40 = 0xC then
    let k := if dom = 45 then 20 + (off - 0x100) / 0x40 else 4 * (dom - 40) + (off - 0x100) / 0x40
    let s := if mask.getLsbD 0 then s.setDisable k (data.getLsbD 0) else s
    if wrote data mask 1 then s.retrainPort k else s
  else if dom < 45 && off = 0x10 && r = .keeper then
    s.setCoord (((s.coord.pending.getD s.coord.inForce) &&& ~~~mask) ||| (data &&& mask))
  else s.regWrite r dom off data mask

/-- Registers of MCL. -/
def State.writeMcl (s : State) (r : Requester) (off : Nat) (data mask : Half) : State :=
  if off = 0 || 0x80 ≤ off then ((s.regWrite r 50 off data mask).windowsChanged).mclPump
  else if off = 0x64 then s.writeEvcfg r data mask
  else if off = 0x70 then (if wrote data mask 0 then s.mailboxGo else s)
  else s.regWrite r 50 off data mask

/-- Registers of the Keeper. -/
def State.writeKeeper (s : State) (r : Requester) (off : Nat) (data mask : Half) : State :=
  let w := s.regWrite r 51 off data mask
  if off ≠ 0x100 then w else
  let w := if mask.getLsbD 1 then w.setFreeze (data.getLsbD 1) else w
  if wrote data mask 2 then w.requestSnap else w

/-- Registers of PWRC. GRANT and HOLDCTL act for the MC alone (chapter 15, Registers). -/
def State.writePwrc (s : State) (r : Requester) (off : Nat) (data mask : Half) : State :=
  if off = 0x1C then
    if r = .host then s
    else s.writeGrant (bits ((BitVec.ofNat 16 s.pwrc.grant &&& ~~~mask) ||| (data &&& mask)).toNat 0 6) (wrote data mask 6)
  else if off = 0x48 then (if r = .keeper && wrote data mask 0 then s.holdRelease else s)
  else s.regWrite r 52 off data mask

/-- The commit registers' pulses. -/
def State.writeGutter (s : State) (dom : Nat) (r : Requester) (off : Nat) (data mask : Half) : State :=
  if off = 0x418 then
    let s := if wrote data mask 0 then s.writeRollback else s
    if wrote data mask 1 then s.writeRepub else s
  else s.regWrite r dom off data mask

/-- The counter controls of an island (chapter 17, Registers): the host's writes act only under USER_EN (R523). PCCFG.CLR has acted before
(`wordWrite`). -/
def State.writeIsland (s : State) (dom : Nat) (r : Requester) (off : Nat) (data mask : Half) : State :=
  if !s.mayCount r then s else
  let w := s.regWrite r dom off data mask
  if off = 0x8004 then
    w.modCtr fun c => { c with sat := c.sat.filter fun p => keyDom p.1 ≠ dom || !wrote data mask (keyNum p.1) }
  else if off = 0x8040 && w.cfg dom off ≠ s.cfg dom off then
    w.each (List.range 22) fun s k => if portDom k = dom then s.modPort k fun q => { q with tx := 0, rx := 0 } else s
  else w

/-- A masked write of a register at its decoded offset. -/
def State.writeReg (s : State) (r : Requester) (dom off : Nat) (data mask : Half) : State :=
  if 0x8000 ≤ off then s.writeIsland dom r off data mask else
  match blockOf dom with
  | .ga => if off ≤ 4 then s.writeGa dom r off data mask else s.regWrite r dom off data mask
  | .truss => s.writeTruss (dom - 16) r off data mask
  | .loft => if off ≤ 4 then s.writeLoft (dom - 32) r off data mask else s
  | .portq | .twin => s.writePorts dom r off data mask
  | .gutter => s.writeGutter dom r off data mask
  | .mcl => s.writeMcl r off data mask
  | .keeper => s.writeKeeper r off data mask
  | .pwrc => s.writePwrc r off data mask
  | .bistc => if off = 0x18 then (if wrote data mask 0 then s.bistGo else s) else s.regWrite r dom off data mask
  | .fd | .ridge | .hbmc | .lath | .dbg | .hubnoc => s.regWrite r dom off data mask

/-! ### CSR space (R492 to R497, R503) -/

/-- A CSR access of `n` bytes at an offset of CSR space: the state, and where it reaches a register, the domain and decoded offset.
BADCSR is set for other widths, for unassigned windows and for offsets of the block region that hold no register. -/
def State.csrAt (s : State) (r : Requester) (off n : Nat) : State × Option (Nat × Nat) :=
  let dom := off / 0x10000
  let o := off % 0x10000
  if n ≠ 4 || off % 4 ≠ 0 || 60 ≤ dom then (s.badCsr, none)
  else
    let (s, ok) := s.reach r dom o
    if !ok then (s, none)
    else if (findReg dom (decodeOff dom o)).isSome then (s, some (dom, decodeOff dom o))
    else (if o < 0x8000 then s.badCsr else s, none)

/-! ### Counter space (R504, R514, R522 to R527) -/

/-- The word of a counter, and of its snapshot copy, with SAT in bit 63. -/
def State.counterWord (s : State) (key : Nat) : Nat := s.count key + (if Sparse.get false s.ctr.sat key then 2 ^ 63 else 0)
def State.copyWord (s : State) (key : Nat) : Nat :=
  let v := Sparse.get 0 s.ctr.snap key
  v + (if v = satMax then 2 ^ 63 else 0)

/-- The word at an offset of an island's counter block. -/
def State.blockWord (s : State) (dom o : Nat) : Nat :=
  if o ≤ 0x40 then s.counterWord (16 * dom + o / 8)
  else if 0x80 ≤ o && o ≤ 0xC0 then s.copyWord (16 * dom + (o - 0x80) / 8)
  else 0

/-- The word of a port's bandwidth window. -/
def State.portWord (s : State) (j o : Nat) : Nat :=
  let w := vget s.ctr.ports j (0, 0, 0)
  if o = 0 then w.1 else if o = 8 then w.2.1 else if o = 0x10 then w.2.2 else 0

/-- The word at an aligned offset of counter space, with the domain whose supply it needs. -/
def State.ctrWord (s : State) (off : Nat) : Option (Nat × Nat) × Nat :=
  if off < 0x10000 then
    (none, if off = 0 then s.ticket.toNat else if off = 8 then s.stamp.toNat else if off = 0x10 then s.ctr.snapTicket.toNat
      else if off = 0x18 then s.ctr.snapStamp.toNat else if off = 0x20 then s.ctr.snapCount else if off = 0x28 then s.ctr.denied else 0)
  else if off < 0x10000 + 0x100 * 60 then
    let n := (off - 0x10000) / 0x100
    (some (n, off % 0x100), s.blockWord n (off % 0x100))
  else if 0x20000 ≤ off && off < 0x20200 then
    let i := (off - 0x20000) / 0x40
    let o := off % 0x40
    (some (i, o), if o < 0x20 then s.counterWord (keySlot i (o / 8)) else s.copyWord (keySlot i ((o - 0x20) / 8)))
  else if 0x21000 ≤ off && off < 0x21000 + 0x20 * 22 then
    let j := (off - 0x21000) / 0x20
    (some (portDom j, off % 0x20), s.portWord j (off % 0x20))
  else (none, 0)

/-- An access to the counter words of an island: its request and its reply are control messages (R33, R34), and a dark island takes part in
none (R503). The flag says whether it is served. -/
def State.reachCounter (s : State) (r : Requester) (dom o : Nat) : State × Bool :=
  if s.isLive dom then (s.lathControl dom 2, true) else (s.darkAccess r (0x800 + dom) o, false)

/-- A read of counter space: a host read without USER_EN is denied (R523), a dark island's words read zero (R503). -/
def State.ctrRead (s : State) (r : Requester) (off : Nat) : State × Nat :=
  if 8 < off && !s.mayCount r then ((s.modCtr fun c => { c with denied := satAdd c.denied 1 }).occ 59 8, 0)
  else
    match s.ctrWord off with
    | (none, v) => if s.isLive 59 then (s, v) else (s.darkAccess r 0x83B (off % 0x10000), 0)
    | (some (dom, o), v) =>
      let (s, ok) := s.reachCounter r dom o
      (s, if ok then v else 0)

/-- A write of TICKET takes effect only while no gutter job is OPEN or DRAINING (R39). -/
def State.writeTicket (s : State) (v : Nat) : State := if s.jobActive then s else s.setTicket (BitVec.ofNat 48 v)

/-- A write of counter space acts on TICKET alone; the words of an island are hardware's (R504). -/
def State.ctrWrite (s : State) (r : Requester) (off v : Nat) : State :=
  if off < 0x10000 && !s.isLive 59 then s.darkAccess r 0x83B off
  else if off = 0 then s.writeTicket v
  else
    match (s.ctrWord off).1 with
    | none => s
    | some (dom, o) => (s.reachCounter r dom o).1

/-! ### Table space (R504) -/

/-- Is a word of table space assigned to a table? Words are numbered by offset over 8. -/
def tableHas (k : Nat) : Bool :=
  k < 0x2000 || (0x200000 ≤ k && k < 0x221000) || (0x240000 ≤ k && k < 0x250400)

/-- A write of a table word. -/
def State.writeTable (s : State) (k v : Nat) : State :=
  if k < 0x2000 then
    if k % 2 = 0 then
      { s.setTable k (bits v 0 3 + 16 * bits v 4 44) with rot := Sparse.put none s.rot (k / 2) none }
    else s.setTable k (bits v 0 20)
  else if 0x200000 ≤ k && k < 0x220000 then s.writeObj ((k - 0x200000) / 8) (k % 8) v
  else if 0x240000 ≤ k && k < 0x250000 then s.writeGroup ((k - 0x240000) / 16) (k % 16) v
  else if 0x250000 ≤ k && k < 0x250400 then s.writeRow ((k - 0x250000) / 4) (k % 4) v
  else s

/-! ### Any access -/

/-- Is an address one of CSR, counter or table space? -/
def Region.isWord : Region → Bool
  | .csr | .counter | .table => true
  | _ => false

/-- A read of `n` bytes by the host or by the Keeper: the value. -/
def State.wordRead (s : State) (r : Requester) (a n : Nat) : State × Nat :=
  let off := a % 0x100000000
  match (placeOf a).region with
  | .csr =>
    let (s, at?) := s.csrAt r off n
    (s, match at? with
      | some (dom, o) => (s.regRead dom o).toNat
      | none => 0)
  | .counter => if n ≠ 8 || a % 8 ≠ 0 then (s.badCsr, 0) else s.ctrRead r off
  | .table =>
    if n ≠ 8 || a % 8 ≠ 0 then (s.badCsr, 0)
    else if !s.isLive 59 then (s.darkAccess r 59 (off % 0x10000), 0)
    else (s, if tableHas (off / 8) then s.tword (off / 8) else 0)
  | _ => (s, 0)

/-- A write of bytes by the host or by the Keeper. -/
def State.wordWrite (s : State) (r : Requester) (a : Nat) (data : List Byte) : State :=
  let off := a % 0x100000000
  let n := data.length
  let v := leNat data
  match (placeOf a).region with
  | .csr =>
    let dom := off / 0x10000
    let clear := n = 4 && off % 4 = 0 && dom < 60 && decodeOff dom (off % 0x10000) = 0x8000 &&
      wrote (BitVec.ofNat 16 v) (BitVec.ofNat 16 (v / 0x10000)) 3
    match (if clear then s.clearFirst dom r else s).csrAt r off n with
    | (s, some (dom, o)) => s.writeReg r dom o (BitVec.ofNat 16 v) (BitVec.ofNat 16 (v / 0x10000))
    | (s, none) => s
  | .counter => if n ≠ 8 || a % 8 ≠ 0 then s.badCsr else s.ctrWrite r off v
  | .table =>
    if n ≠ 8 || a % 8 ≠ 0 then s.badCsr
    else if !s.isLive 59 then s.darkAccess r 59 (off % 0x10000)
    else s.writeTable (off / 8) v
  | _ => s

/-! ### The commands -/

/-- CSR_RD on the doorbell channel (R452): an address outside CSR, counter and table space is answered UNMAPPED. -/
def execCsrRd (tag : BitVec 16) (dpa : Word48) (len : Nat) (s : State) : Host.Outcome State Fault Refusal :=
  if 256 < len then .fault .malformed
  else if !s.mclUp then .next s
  else
    let s := s.takeMsg .csrRd tag (some dpa.toNat)
    if (placeOf dpa.toNat).region.isWord then
      let (s, v) := s.wordRead .host dpa.toNat len
      .next (s.complete 2 0 tag (leBytes v len)).mclPump
    else .next (s.unmapped 2 tag).mclPump

/-- CSR_WR. One that came behind a host WR waits for it (R453). -/
def execCsrWr (tag : BitVec 16) (dpa : Word48) (data : List Byte) (s : State) : Host.Outcome State Fault Refusal :=
  if !dataWf data then .fault .malformed
  else if !s.mclUp || s.mcl.wrAhead then .next s
  else
    let s' := s.takeMsg .csrWr tag (some dpa.toNat)
    if (placeOf dpa.toNat).region.isWord then
      waitRecall s (.next ((s'.wordWrite .host dpa.toNat data).complete 2 0 tag []).mclPump)
    else .next (s'.unmapped 2 tag).mclPump

/-- TICKET written. -/
def execTicketWrite (r : Requester) (w : Word64) (s : State) : Host.Outcome State Fault Refusal :=
  .next (if s.heard r then s.ctrWrite r 0 w.toNat else s)

end Sys2Proof.Machine
end

