-- ==== Sys2Proof/Machine/Gvp.lean ====
section
/-! DEFINITION. The instructions of a Gutter core (12): control and scalars (R402 to R404), arithmetic and special functions (R410,
R411), reductions, row-step access (R412), stochastic conversion (R413, R414), windows, loads and stores (R405 to R409). -/
namespace Sys2Proof.Machine

/-! ### Control and scalars -/

def execGvpNop (g : SliceId) (c : CoreId) (s : State) : Host.Outcome State Fault Refusal :=
  coreOnly g c 0x00 (fun core _ _ => .ok core) s

/-- The partial record of a pass-A program run (R367, R404). -/
def recordBytes (c : GCore) : List Byte :=
  leBytes (toContainer (ofContainer c.sum0)).toNat 8 ++ leBytes (toContainer (ofContainer c.sum1)).toNat 8 ++ leBytes c.nf 6 ++
    List.replicate 10 0

/-- What the Gutter does when a program run ends (R367, R369, R375). -/
def State.instanceEnd (s : State) (c : GCore) (i : Inst) : State :=
  let n := i.w.group
  if !i.b then
    let a := s.gNrec n + 32 * i.w.k
    (s.store a (recordBytes c)).workDone i.ins i.w
  else
    let s := match i.w.row with
      | some r =>
        let a := s.rowCountAt n r false
        s.store a (leBytes s.ticket.toNat 4)
      | none => s
    let nfok := (s.passOf i).any fun p => p.nfok.contains n
    let s := if c.nonfin then s.modCommit fun m => { m with nonfin := m.nonfin ++ [(n, nfok)] } else s
    s.workDone i.ins i.w

/-- END (R403). -/
def execEnd (g : SliceId) (c : CoreId) (s : State) : Host.Outcome State Fault Refusal :=
  let k := coreNo g c
  match s.atCore k 0x01 with
  | .idle => .next s
  | .fault cause => .next (s.coreFault k cause 0)
  | .run core i _ =>
    if !i.b && !s.rangeOk (s.gNrec i.w.group + 32 * i.w.k) 32 then .next (s.coreFault k 3 0)
    else waitRecall s (.next ((((s.modCore k fun _ => {}).ownNoMore k).instanceEnd core i).scanRows))

/-- PUTA (R404). -/
def execPuta (g : SliceId) (c : CoreId) (s : State) : Host.Outcome State Fault Refusal :=
  coreOnly g c 0x02 (fun core i w =>
    .ok (if i.b then core
      else { core with sum0 := core.sr (gA w), sum1 := core.sr (gB w), nf := min satMax (core.sr (gC w)).toNat })) s

/-- A branch (R402); `core.pc` names the next instruction. -/
def branch (taken : Bool) (core : GCore) (i : Inst) (w : Nat) : GRes :=
  if !taken then .ok core
  else
    let t : Int := (core.pc : Int) + signedOf (gImm w) 16
    if t < 0 || (i.code.length : Int) ≤ t then .error (2, 0) else .ok { core with pc := t.toNat }

def execBnz (g : SliceId) (c : CoreId) (s : State) : Host.Outcome State Fault Refusal :=
  coreOnly g c 0x03 (fun core i w => branch (core.sr (gA w) != 0) core i w) s

def execBz (g : SliceId) (c : CoreId) (s : State) : Host.Outcome State Fault Refusal :=
  coreOnly g c 0x04 (fun core i w => branch (core.sr (gA w) == 0) core i w) s

def execFault (g : SliceId) (c : CoreId) (s : State) : Host.Outcome State Fault Refusal :=
  coreOnly g c 0x05 (fun _ _ w => .error (7, gImm w)) s

def execPlog (g : SliceId) (c : CoreId) (s : State) : Host.Outcome State Fault Refusal :=
  coreOnly g c 0x07 (fun core _ w =>
    let a := core.pr (gA w)
    let b := core.pr (gB w)
    .ok (core.setP (gD w) (match gF w with | 0 => a &&& b | 1 => a ||| b | 2 => a &&& ~~~b | _ => ~~~a))) s

/-- The immediate of form I, sign-extended. -/
def immS (w : Nat) : Word64 := (BitVec.ofNat 16 (gImm w)).signExtend 64

def execSaddi (g : SliceId) (c : CoreId) (s : State) : Host.Outcome State Fault Refusal :=
  coreOnly g c 0x08 (fun core _ w => .ok (core.setS (gD w) (core.sr (gA w) + immS w))) s

def execSshli (g : SliceId) (c : CoreId) (s : State) : Host.Outcome State Fault Refusal :=
  coreOnly g c 0x09 (fun core _ w => .ok (core.setS (gD w) ((core.sr (gA w) <<< 16) ||| BitVec.ofNat 64 (gImm w)))) s

/-- The operations of SALU. -/
def saluOp (f : Nat) (a b : Word64) : Word64 :=
  match f with
  | 0 => a + b | 1 => a - b | 2 => a * b | 3 => a &&& b | 4 => a ||| b
  | 5 => a <<< (b.toNat % 64) | 6 => a >>> (b.toNat % 64) | _ => if a.ult b then 1 else 0

def execSalu (g : SliceId) (c : CoreId) (s : State) : Host.Outcome State Fault Refusal :=
  coreOnly g c 0x0A (fun core _ w => .ok (core.setS (gD w) (saluOp (gF w) (core.sr (gA w)) (core.sr (gB w))))) s

/-- The comparisons of SCMP. -/
def scmpOp (f : Nat) (a b : Word64) : Bool :=
  match f with
  | 0 => a == b | 1 => a != b | 2 => a.ult b | 3 => a.ule b | 4 => a.slt b | _ => a.sle b

def execScmp (g : SliceId) (c : CoreId) (s : State) : Host.Outcome State Fault Refusal :=
  coreOnly g c 0x0B (fun core _ w =>
    .ok (core.setP (gD w) (if scmpOp (gF w) (core.sr (gA w)) (core.sr (gB w)) then 0xFFFF else 0))) s

/-- SIMM (R396): a word of the pass's copy of the immediates, widened. -/
def execSimm (g : SliceId) (c : CoreId) (s : State) : Host.Outcome State Fault Refusal :=
  coreRun g c 0x0C (fun s core i w =>
    let v := ((s.passOf i).map (·.imm.getD (gC w) 0)).getD 0
    (s, .ok (core.setS (gD w) (toContainer (ofB32 v.toNat))))) s

/-- DECAY: a value raised to the power k in Z40 (R412). -/
def decay (x : Num) (k : Nat) : Nat → Num → Num
  | 0, r => r
  | i + 1, r =>
    let r := rneZ40 (Num.mul r r)
    decay x k i (if bits k i 1 = 1 then rneZ40 (Num.mul r x) else r)

/-- RS (R412). -/
def execRs (g : SliceId) (c : CoreId) (s : State) : Host.Outcome State Fault Refusal :=
  coreRun g c 0x0D (fun s core i w =>
    let e := s.rowStep (s.gRse i.w.group)
    let n (x : Nat) : Word64 := BitVec.ofNat 64 x
    let v : Word64 :=
      match if i.b then i.w.row else none, gF w with
      | some _, 0 => n i.missed
      | some r, 1 => n r
      | some _, 2 => n i.count
      | some _, 3 => n e.cols
      | some _, 4 => n e.rowBytes
      | some _, _ => toContainer (decay (ofContainer (core.sr (gA w))) i.missed 32 Num.one)
      | none, 5 => toContainer Num.one
      | none, _ => 0
    (s, .ok (core.setS (gD w) v))) s

/-- LANE. -/
def execLane (g : SliceId) (c : CoreId) (s : State) : Host.Outcome State Fault Refusal :=
  coreOnly g c 0x0E (fun core _ w =>
    .ok (match gF w with
      | 0 => core.setS (gD w) (core.vr (gA w) (gC w % 16))
      | 1 => core.setV (gD w) (core.pr (gP w)) fun _ => core.sr (gA w)
      | _ => core.setS (gD w) (BitVec.ofNat 64 (popcount (core.pr (gA w)).toNat 16)))) s

/-- PTAIL; the sum wraps as integer scalar arithmetic does (R402). -/
def execPtail (g : SliceId) (c : CoreId) (s : State) : Host.Outcome State Fault Refusal :=
  coreOnly g c 0x0F (fun core _ w =>
    .ok (core.setP (gD w) (predOf fun j => (core.sr (gA w) + BitVec.ofNat 64 j).ult (core.sr (gB w))))) s

/-! ### Arithmetic (R410) -/

def execAdd (g : SliceId) (c : CoreId) (s : State) : Host.Outcome State Fault Refusal :=
  coreOnly g c 0x10 (fun core _ w => .ok (coreLanes (onValues fun a b _ => Num.add a b) core w)) s

def execSub (g : SliceId) (c : CoreId) (s : State) : Host.Outcome State Fault Refusal :=
  coreOnly g c 0x11 (fun core _ w => .ok (coreLanes (onValues fun a b _ => Num.add a b.neg) core w)) s

def execMul (g : SliceId) (c : CoreId) (s : State) : Host.Outcome State Fault Refusal :=
  coreOnly g c 0x12 (fun core _ w => .ok (coreLanes (onValues fun a b _ => Num.mul a b) core w)) s

def execFma (g : SliceId) (c : CoreId) (s : State) : Host.Outcome State Fault Refusal :=
  coreOnly g c 0x13 (fun core _ w => .ok (coreLanes (onValues fun a b x => Num.add (Num.mul a b) x) core w)) s

def execMin (g : SliceId) (c : CoreId) (s : State) : Host.Outcome State Fault Refusal :=
  coreOnly g c 0x14 (fun core _ w => .ok (coreLanes (onValues fun a b _ => Num.min a b) core w)) s

def execMax (g : SliceId) (c : CoreId) (s : State) : Host.Outcome State Fault Refusal :=
  coreOnly g c 0x15 (fun core _ w => .ok (coreLanes (onValues fun a b _ => Num.max a b) core w)) s

def execAbs (g : SliceId) (c : CoreId) (s : State) : Host.Outcome State Fault Refusal :=
  coreOnly g c 0x16 (fun core _ w => .ok (coreLanes (onValues fun a _ _ => a.abs) core w)) s

def execNeg (g : SliceId) (c : CoreId) (s : State) : Host.Outcome State Fault Refusal :=
  coreOnly g c 0x17 (fun core _ w => .ok (coreLanes (onValues fun a _ _ => a.neg) core w)) s

/-- SEL (R394, R410): of type binary32 it gives the binary32 value of the word it selects, of type Z40 the whole word (log entry 48); under
SC it selects by bit 0 of the predicate. -/
def selOp (c : GCore) (w : Nat) : GCore :=
  let m := c.pr (gP w)
  let read (x : Word64) : Word64 := if gTy w then coreWord true (coreValue true x) else x
  if gSc w then c.setS (gD w) (read (if m.getLsbD 0 then c.sr (gA w) else c.sr (gB w)))
  else c.setV (gD w) 0xFFFF fun j =>
    read (if m.getLsbD j then c.vr (gA w) j else if gSb w then c.sr (gB w) else c.vr (gB w) j)

def execSel (g : SliceId) (c : CoreId) (s : State) : Host.Outcome State Fault Refusal :=
  coreOnly g c 0x18 (fun core _ w => .ok (selOp core w)) s

/-- The comparisons of CMP: with a NaN only NE, UNORD and NONFIN can hold. -/
def cmpOp (op : Nat) (a b : Num) : Bool :=
  let un := a.isNan || b.isNan
  match op with
  | 0 => Num.eqv a b
  | 1 => !Num.eqv a b
  | 2 => Num.lt a b
  | 3 => Num.lt a b || Num.eqv a b
  | 4 => un
  | _ => a.nonFinite

/-- CMP. -/
def cmpRun (c : GCore) (w : Nat) : GCore :=
  let ty := gTy w
  let op := gC w % 8
  let f (a b : Word64) : Bool := cmpOp op (coreValue ty a) (coreValue ty b)
  if gSc w then c.setP (gD w) (if f (c.sr (gA w)) (c.sr (gB w)) then 0xFFFF else 0)
  else c.setP (gD w) (predOf fun j => (c.pr (gP w)).getLsbD j && f (c.vr (gA w) j) (if gSb w then c.sr (gB w) else c.vr (gB w) j))

def execCmp (g : SliceId) (c : CoreId) (s : State) : Host.Outcome State Fault Refusal :=
  coreOnly g c 0x19 (fun core _ w => .ok (cmpRun core w)) s

/-- The integer of a value, toward zero, saturating; NaN gives 0. -/
def toInt64 (x : Num) : Word64 :=
  match x with
  | .nan => 0
  | .inf neg => if neg then BitVec.intMin 64 else BitVec.intMax 64
  | .fin neg m e =>
    let k : Int := roundUnits .zero m e 0
    BitVec.ofInt 64 (max (-2 ^ 63) (min (2 ^ 63 - 1) (if neg then -k else k)))

/-- The conversions of CVT. -/
def cvtOp (op : Nat) (a : Word64) : Word64 :=
  match op with
  | 0 => coreWord true (ofContainer a)
  | 1 => toContainer (Num.ofInt a.toInt 0 false)
  | _ => toInt64 (ofContainer a)

def execCvt (g : SliceId) (c : CoreId) (s : State) : Host.Outcome State Fault Refusal :=
  coreOnly g c 0x1A (fun core _ w => .ok (coreLanes (fun _ a _ _ => cvtOp (gC w % 8) a) core w)) s

/-! ### Special functions (R411) -/

def execDiv (g : SliceId) (c : CoreId) (s : State) : Host.Outcome State Fault Refusal :=
  coreOnly g c 0x20 (fun core _ w => .ok (coreLanes (onValues fun a b _ => Num.divSticky a b) core w)) s

def execSqrt (g : SliceId) (c : CoreId) (s : State) : Host.Outcome State Fault Refusal :=
  coreOnly g c 0x21 (fun core _ w => .ok (coreLanes (onValues fun a _ _ => Num.sqrtSticky a) core w)) s

/-- The exact cases of RSQRT. -/
def rsqrtCase : Num → Option Num
  | .nan => some .nan
  | .inf neg => some (if neg then .nan else Num.zero)
  | .fin neg m _ => if m = 0 then (if neg then none else some (.inf false)) else if neg then some .nan else none

/-- The exact cases of EXP2 and EXP. -/
def expCase : Num → Option Num
  | .nan => some .nan
  | .inf neg => some (if neg then Num.zero else .inf false)
  | .fin .. => none

/-- The exact cases of LOG2 and LN. -/
def logCase : Num → Option Num
  | .nan => some .nan
  | .inf neg => some (if neg then .nan else .inf false)
  | .fin neg m _ => if m = 0 then some (.inf true) else if neg then some .nan else none

def execRsqrt (g : SliceId) (c : CoreId) (s : State) : Host.Outcome State Fault Refusal :=
  coreOnly g c 0x22 (fun core _ w => .ok (coreLanes (onVector 0 rsqrtCase) core w)) s

def execRcp (g : SliceId) (c : CoreId) (s : State) : Host.Outcome State Fault Refusal :=
  coreOnly g c 0x23 (fun core _ w => .ok (coreLanes (onValues fun a _ _ => Num.divSticky Num.one a) core w)) s

def execExp2 (g : SliceId) (c : CoreId) (s : State) : Host.Outcome State Fault Refusal :=
  coreOnly g c 0x24 (fun core _ w => .ok (coreLanes (onVector 1 expCase) core w)) s

def execLog2 (g : SliceId) (c : CoreId) (s : State) : Host.Outcome State Fault Refusal :=
  coreOnly g c 0x25 (fun core _ w => .ok (coreLanes (onVector 2 logCase) core w)) s

def execExp (g : SliceId) (c : CoreId) (s : State) : Host.Outcome State Fault Refusal :=
  coreOnly g c 0x26 (fun core _ w => .ok (coreLanes (onVector 3 expCase) core w)) s

def execLn (g : SliceId) (c : CoreId) (s : State) : Host.Outcome State Fault Refusal :=
  coreOnly g c 0x27 (fun core _ w => .ok (coreLanes (onVector 4 logCase) core w)) s

/-! ### Reductions -/

/-- A fold step on exact values, rounded once. -/
def foldValues (f : Num → Num → Num) (ty : Bool) (acc a : Word64) : Word64 := coreWord ty (f (coreValue ty acc) (coreValue ty a))

/-- The scalar that a fold of values starts from, read and written as its type (R394). -/
def foldStart (ty : Bool) (acc : Word64) : Word64 := coreWord ty (coreValue ty acc)

def execRsum (g : SliceId) (c : CoreId) (s : State) : Host.Outcome State Fault Refusal :=
  coreOnly g c 0x28 (fun core _ w => .ok (coreFold (foldValues Num.add) foldStart core w)) s

def execRssq (g : SliceId) (c : CoreId) (s : State) : Host.Outcome State Fault Refusal :=
  coreOnly g c 0x29 (fun core _ w => .ok (coreFold (foldValues fun r a => Num.add r (Num.mul a a)) foldStart core w)) s

def execRmax (g : SliceId) (c : CoreId) (s : State) : Host.Outcome State Fault Refusal :=
  coreOnly g c 0x2A (fun core _ w => .ok (coreFold (foldValues Num.max) foldStart core w)) s

def execRmin (g : SliceId) (c : CoreId) (s : State) : Host.Outcome State Fault Refusal :=
  coreOnly g c 0x2B (fun core _ w => .ok (coreFold (foldValues Num.min) foldStart core w)) s

def execRamax (g : SliceId) (c : CoreId) (s : State) : Host.Outcome State Fault Refusal :=
  coreOnly g c 0x2C (fun core _ w => .ok (coreFold (foldValues fun r a => Num.max r a.abs) foldStart core w)) s

/-- RNF counts non-finite lanes, saturating at 2^48 - 1. -/
def execRnf (g : SliceId) (c : CoreId) (s : State) : Host.Outcome State Fault Refusal :=
  coreOnly g c 0x2D (fun core _ w => .ok (coreFold (fun ty acc a =>
    if (coreValue ty a).nonFinite && acc.toNat < satMax then acc + 1 else acc) (fun _ acc => acc) core w)) s

/-! ### Stochastic conversion (R413, R414) -/

/-- The random bits of a plane and a group-local element (R414). -/
def State.coreU (s : State) (k : Nat) (i : Inst) (plane e : Nat) : Nat :=
  let (seed, mix, _) := ((s.passOf i).map (·.seeds.getD (k / 16) (0, true, 12))).getD (0, true, 12)
  let seed := if mix then seed ^^^ s.ticket.setWidth 64 else seed
  genU seed (BitVec.ofNat 24 (16 * i.w.group + plane)) (BitVec.ofNat 40 (s.gOff i.w.group + e)) 0

/-- Convert a value into a plane's format (R105, R409): the code. -/
def planeCode (fmt : Nat) (sexp : Int) (sat : Bool) (rd : Round) (v : Num) : Nat :=
  ((layoutOf fmt).convert sat rd (if isScaled fmt then v.scale sexp else v)).code

/-- The value of a plane's code with its scale applied exactly. -/
def planeValue (fmt : Nat) (sexp : Int) (code : Nat) : Num := decodeElem fmt sexp 0 code

/-- SRND. -/
def execSrnd (g : SliceId) (c : CoreId) (s : State) : Host.Outcome State Fault Refusal :=
  coreRun g c 0x30 (fun s core i w =>
    let (_, fmt, sexp) := i.planes.getD (gF w) (0, 15, 0)
    (s, if fmt = 15 then .error (4, ((core.pr (gP w)).toNat))
      else .ok (core.setV (gD w) (core.pr (gP w)) fun j =>
        let e := (core.sr (gB w) + BitVec.ofNat 64 j).toNat
        let rd := Round.sr (s.coreU (coreNo g c) i (gF w) e)
        toContainer (planeValue fmt sexp (planeCode fmt sexp (gC w % 2 = 0) rd (ofContainer (core.vr (gA w) j))))))) s

/-! ### Windows (R406 to R408) -/

/-- Where an element stands: a landed element, bytes of memory or bytes of the scratch, with the format and scale of its plane. -/
inductive Spot where
  | grad (e : Nat)
  | mem (a fmt : Nat) (sexp : Int)
  | data (a fmt : Nat) (sexp : Int)
deriving DecidableEq, Repr

/-- Bytes of an element of a format of R398. -/
def elemBytes (fmt : Nat) : Nat := fmtBits fmt / 8

/-- The plane mapping of ACT and INACT (R407): the offset from the buffer, and whether the element lies within its row and the
buffer. -/
def State.planeAt (s : State) (n off fmt e : Nat) : Option Nat :=
  let w := elemBytes fmt
  if s.gRse n = 0 then
    let a := off + e * w
    if a + w ≤ s.gSsize n then some a else none
  else
    let r := s.rowStep (s.gRse n)
    let o := off + e % r.cols * w
    let a := r.stateOff + e / r.cols * r.rowBytes + o
    if o + w ≤ r.rowBytes && a + w ≤ s.gSsize n then some a else none

/-- The checks of R408 that no lane can differ in: WINDOW. -/
def State.windowBad (s : State) (i : Inst) (win pl : Nat) (store : Bool) : Bool :=
  let fmt := (i.planes.getD pl (0, 15, 0)).2.1
  match win with
  | 0 | 6 => pl ≠ 0 || store
  | 1 | 5 => fmt = 15 || store
  | 2 => fmt = 15 || (store && !i.b)
  | 3 => fmt = 15 || store || !s.gValid (s.gAux i.w.group)
  | 4 => fmt = 15
  | _ => true

/-- Where element `e` of a window and plane stands (R406 to R408); none where the access is out of range. -/
def State.spot (s : State) (c : GCore) (i : Inst) (win pl e : Nat) : Option Spot :=
  let n := i.w.group
  let (off, fmt, sexp) := i.planes.getD pl (0, 15, 0)
  let own := i.w.first ≤ e && e < i.w.first + i.w.len
  let at' (a : Nat) : Option Spot := if s.rangeOk a (elemBytes fmt) then some (.mem a fmt sexp) else none
  match win with
  | 0 => if own then some (.grad e) else none
  | 1 => (s.planeAt n off fmt e).bind fun a => at' (s.gActive n + a)
  | 2 => if own then (s.planeAt n off fmt e).bind fun a => at' (s.gInactive n + a) else none
  | 3 =>
    let m := s.gAux n
    let a := off + e * elemBytes fmt
    if a + elemBytes fmt ≤ s.gSsize m then at' (s.gActive m + a) else none
  | 4 =>
    let a := off + e * elemBytes fmt
    if a + elemBytes fmt ≤ 256 * i.datab then some (.data a fmt sexp) else none
  | 5 =>
    let b := (c.sr 30).toNat % 2 ^ 48
    let a := b + off + e * elemBytes fmt
    if s.inBuffer b 1 && s.inBuffer a (elemBytes fmt) then at' a else none
  | _ =>
    let (w, f) := if s.gNfmt n then (4, 7) else (8, 9)
    if e < 1024 && s.rangeOk (s.gNormv n + w * e) w then some (.mem (s.gNormv n + w * e) f 0) else none

/-- The bytes of memory that a load of a spot reads. -/
def State.spotSpans (s : State) (i : Inst) : Spot → List Span
  | .grad e => s.gradSpans (s.groupCtx i.w.group) (s.gOff i.w.group + e)
  | .mem a fmt _ => [{ a, n := elemBytes fmt }]
  | .data .. => []

/-- The code in bytes: a container holds its Z40 in bits [63:24] (R96). -/
def codeOf (fmt : Nat) (l : List Byte) : Nat := if fmt = 9 then leNat l / 2 ^ 24 else leNat l
def bytesOf (fmt code : Nat) : List Byte := leBytes (if fmt = 9 then code * 2 ^ 24 else code) (elemBytes fmt)

/-- A code of a plane as a container word: a Z40 code of either form keeps every bit (R98, R105), any other is widened (R105, R409). -/
def planeWord (fmt : Nat) (sexp : Int) (code : Nat) : Word64 :=
  if isZ40 fmt then BitVec.ofNat 64 (code * 2 ^ 24) else toContainer (planeValue fmt sexp code)

/-- The word that a load of a spot gives. -/
def State.loadSpot (s : State) (c : GCore) (i : Inst) : Spot → Word64
  | .grad e => toContainer (s.gradAt (s.groupCtx i.w.group) (s.gOff i.w.group + e))
  | .mem a fmt sexp => planeWord fmt sexp (codeOf fmt (s.bytes a (elemBytes fmt)))
  | .data a fmt sexp => planeWord fmt sexp (codeOf fmt (Sparse.getList 0 c.scratch a (elemBytes fmt)))

/-- Does a load of a spot through AUX or EXT read bytes that another agent has written during the pass (R409)? -/
def State.loadOpen (s : State) (k win : Nat) : Spot → Bool
  | .mem a fmt _ => (win = 3 || win = 5) && s.written.any fun w => w.2.2 ≠ k + 1 && overlap a (elemBytes fmt) w.1 w.2.1
  | _ => false

/-- The format and scale of a spot's plane. -/
def Spot.plane : Spot → Nat × Int
  | .grad _ => (9, 0)
  | .mem _ fmt sexp | .data _ fmt sexp => (fmt, sexp)

/-! ### Loads and stores (R409) -/

/-- The lanes of a load or store: those of the predicate, or the one of a scalar access. -/
def lanesOf (scalar : Bool) (m : Half) : List Nat := if scalar then [0] else (List.range 16).filter m.getLsbD

/-- The element of a lane. -/
def laneElem (c : GCore) (w j : Nat) (bcast : Bool) : Nat :=
  if bcast then (c.sr (gA w)).toNat else (c.sr (gA w) + BitVec.ofNat 64 j).toNat

/-- A set of lanes as the detail of a fault. -/
def laneBits (l : List Nat) : Nat := l.foldl (fun x j => x + 2 ^ j) 0

/-- VLD and SLD. An element that another agent has written during the pass reads a free value through AUX or EXT (R223, R409; log entry
79). -/
def loadRun (scalar : Bool) (k : Nat) (s : State) (c : GCore) (i : Inst) (w : Nat) : State × GRes :=
  let win := gW w
  let lanes := lanesOf scalar (c.pr (gMp w))
  let bcast := scalar || gM5 w
  let at' (j : Nat) : Option Spot := s.spot c i win (gPl w) (laneElem c w j bcast)
  let out := lanes.filter fun j => (at' j).isNone
  if !lanes.isEmpty && s.windowBad i win (gPl w) false then (s, .error (4, laneBits lanes))
  else if !out.isEmpty then (s, .error (3, laneBits out))
  else
    let spans (j : Nat) : List Span := ((at' j).map (s.spotSpans i)).getD []
    let all := lanes.flatMap spans
    let bad := lanes.filter fun j => !(s.badUnits (spans j)).isEmpty
    let (f, t) := if lanes.any fun j => ((at' j).map (s.loadOpen k win)).getD false then s.drawFree else (0, s)
    let val (j : Nat) : Word64 := ((at' j).map fun x =>
      if s.loadOpen k win x then planeWord x.plane.1 x.plane.2 (bits f (64 * j) (8 * elemBytes x.plane.1)) else s.loadSpot c i x).getD 0
    let t := t.forRead all
    if !bad.isEmpty then ((t.coreBad all).1, .error (8, laneBits bad))
    else (t, .ok (if scalar then c.setS (gD w) (val 0) else c.setV (gD w) (c.pr (gMp w)) val))

/-- Runs of bytes that follow one another as one run. -/
def joinRuns : List (Nat × List Byte) → List (Nat × List Byte)
  | [] => []
  | r :: rs =>
    match joinRuns rs with
    | q :: qs => if r.1 + r.2.length = q.1 then (r.1, r.2 ++ q.2) :: qs else r :: q :: qs
    | [] => [r]

/-- The elements that a store writes to memory, as runs of bytes: the units that they cover together are covered wholly (R290). -/
def storeRuns (l : List (Spot × Nat)) : List (Nat × List Byte) :=
  joinRuns (l.filterMap fun p => match p.1 with | .mem a fmt _ => some (a, bytesOf fmt p.2) | _ => none)

/-- A store of core `k` writes its elements. -/
def State.storeSpots (s : State) (k : Nat) (c : GCore) (l : List (Spot × Nat)) : State × GCore :=
  (s.each (storeRuns l) fun s r => (s.writeRaw r.1 r.2).noteWrite r.1 r.2.length (k + 1),
    { c with scratch := l.foldl (fun m p =>
        match p.1 with | .data a fmt _ => Sparse.putList 0 m a (bytesOf fmt p.2) | _ => m) c.scratch })

/-- VST and SST (R405, R409, R413). A Z40 plane of either form takes the bits of the word (R98, R105). -/
def storeRun (scalar : Bool) (k : Nat) (s : State) (c : GCore) (i : Inst) (w : Nat) : State × GRes :=
  let win := gW w
  let pl := gPl w
  let lanes := lanesOf scalar (c.pr (gMp w))
  let at' (j : Nat) : Option Spot := s.spot c i win pl (laneElem c w j scalar)
  let out := lanes.filter fun j => (at' j).isNone
  let (_, fmt, sexp) := i.planes.getD pl (0, 15, 0)
  if !lanes.isEmpty && (s.windowBad i win pl true || (scalar && win ≠ 4)) then (s, .error (4, laneBits lanes))
  else if !out.isEmpty then (s, .error (3, laneBits out))
  else
    let spans := lanes.flatMap fun j => ((at' j).map (s.spotSpans i)).getD []
    let s := s.forWrite spans
    let code (j : Nat) : Nat :=
      let v := ofContainer (if scalar then c.sr (gD w) else c.vr (gD w) j)
      if isZ40 fmt then ((if scalar then c.sr (gD w) else c.vr (gD w) j).toNat / 2 ^ 24) else
      planeCode fmt sexp (!gM6 w) (if gM5 w then .sr (s.coreU k i pl (laneElem c w j scalar)) else .rne) v
    let (s, c) := s.storeSpots k c (lanes.filterMap fun j => (at' j).map fun x => (x, code j))
    if win = 2 && !lanes.isEmpty then
      (s.inactiveWritten, .ok { c with nonfin := c.nonfin || lanes.any fun j => (planeValue fmt sexp (code j)).nonFinite })
    else (s, .ok c)

def execVld (g : SliceId) (c : CoreId) (s : State) : Host.Outcome State Fault Refusal :=
  waitRecall s (coreRun g c 0x38 (loadRun false (coreNo g c)) s)

def execVst (g : SliceId) (c : CoreId) (s : State) : Host.Outcome State Fault Refusal :=
  waitRecall s (coreRun g c 0x39 (storeRun false (coreNo g c)) s)

def execSld (g : SliceId) (c : CoreId) (s : State) : Host.Outcome State Fault Refusal :=
  waitRecall s (coreRun g c 0x3A (loadRun true (coreNo g c)) s)

def execSst (g : SliceId) (c : CoreId) (s : State) : Host.Outcome State Fault Refusal :=
  waitRecall s (coreRun g c 0x3B (storeRun true (coreNo g c)) s)

end Sys2Proof.Machine
end

