-- ==== Sys2Proof/Machine/Mc.lean ====
section
/-! DEFINITION. The MC sideband (R544, R545), the I3C target's CCCs (R561) and the TAP of DBG (R547, R563). -/
namespace Sys2Proof.Machine

/-! ### Which commands are answered (R530, R535, R544, R558) -/

/-- The kinds of MC command by when they are served: STATUS and RESET; SPI_RELEASE; CSRRD; CSRWR and RELEASE; all others. -/
inductive McClass where
  | always | spi | read | write | ready
deriving DecidableEq, Repr

/-- Is a command of a class served now? -/
def State.mcServes (s : State) (c : McClass) : Bool :=
  if !s.pins.resetN || s.keeper.bstate = 4 || s.keeper.bstate = 2 then c = .always || c = .spi
  else if !s.pins.p12v || !s.pins.ref0 then c = .always || c = .read
  else if s.keeper.bstate ≠ 1 || s.pwrc.hold then c ≠ .ready
  else true

/-- The codes of an answer's status byte. -/
abbrev mcOk : Nat := 0
abbrev mcBusy : Nat := 1
abbrev mcBad : Nat := 2
abbrev mcDenied : Nat := 3
abbrev mcNotReady : Nat := 4

/-- The answer that the next read of the sideband returns. -/
def State.answer (s : State) (status : Nat) (payload : List Byte) : State :=
  (s.modKeeper fun k => { k with answer := some { status, payload } }).occ 51 (if status = mcBusy || status = mcNotReady then 1 else 0)

/-- A command: NOTREADY where its class is not served, else its effect with status and payload. -/
def mcCommand (c : McClass) (s : State) (f : State → State × Nat × List Byte) : Host.Outcome State Fault Refusal :=
  if !s.pins.pwrok then .next s
  else if !s.mcServes c then .next (s.answer mcNotReady [])
  else
    let (t, status, payload) := f s
    waitRecall s (.next (t.answer status payload))

/-- Registers as little-endian half words. -/
def halves (l : List Half) : List Byte := l.flatMap fun x => leBytes x.toNat 2

/-! ### The commands of R544 -/

/-- STATUS (log entry 52 gives the sizes). -/
def execStatus (s : State) : Host.Outcome State Fault Refusal :=
  mcCommand .always s fun s => (s, mcOk, halves [s.regRead 51 0, s.regRead 51 8, s.regRead 52 0x24, s.regRead 52 0x28] ++
    leBytes s.keeper.held.length 2 ++ leBytes s.keeper.lost 6 ++ leBytes (flag s.alertN) 1)

/-- EVREAD: the oldest held record, with PHASE 0 (log entry 52), removed once read. -/
def execEvread (s : State) : Host.Outcome State Fault Refusal :=
  mcCommand .ready s fun s =>
    match s.keeper.held with
    | [] => (s, mcOk, [])
    | e :: rest => (s.modKeeper fun k => { k with held := rest }, mcOk, e.bytes false)

/-- SETCOORD. -/
def execSetcoord (c : BitVec 16) (s : State) : Host.Outcome State Fault Refusal :=
  mcCommand .ready s fun s => (s.setCoord c, mcOk, [])

/-- SETGRANT. -/
def execSetgrant (step : BitVec 7) (now : Bool) (s : State) : Host.Outcome State Fault Refusal :=
  mcCommand .ready s fun s => (s.writeGrant step.toNat now, mcOk, [])

/-- SETCAP. -/
def execSetcap (watts : Half) (s : State) : Host.Outcome State Fault Refusal :=
  mcCommand .ready s fun s => (s.regWrite .keeper 52 0x14 watts 0xFFFF, mcOk, [])

/-- RELEASE. -/
def execRelease (s : State) : Host.Outcome State Fault Refusal :=
  mcCommand .write s fun s => (s.holdRelease, mcOk, [])

/-- TELEM. -/
def execTelem (s : State) : Host.Outcome State Fault Refusal :=
  mcCommand .ready s fun s => (s, mcOk, halves ([0x40, 0x44, 0x38, 0x3C, 0x20, 0x30].map (s.regRead 52) ++
    (List.range 8).map fun k => s.regRead (24 + k) 0x18))

/-- CSRRD: a 32-bit CSR word, or a 64-bit counter or table word; any other address is DENIED. -/
def execMcCsrrd (dpa : Word48) (s : State) : Host.Outcome State Fault Refusal :=
  mcCommand .read s fun s =>
    let g := (placeOf dpa.toNat).region
    if !g.isWord then (s, mcDenied, []) else
    let n := if g = .csr then 4 else 8
    let (s, v) := s.wordRead .keeper dpa.toNat n
    (s, mcOk, leBytes v n)

/-- CSRWR: a Keeper access. -/
def execMcCsrwr (dpa : Word48) (data : List Byte) (s : State) : Host.Outcome State Fault Refusal :=
  mcCommand .write s fun s =>
    if (placeOf dpa.toNat).region.isWord then (s.wordWrite .keeper dpa.toNat data, mcOk, []) else (s, mcDenied, [])

/-- BIST: a mask, or 0 for the profile. -/
def execMcBist (mask : Word64) (s : State) : Host.Outcome State Fault Refusal :=
  mcCommand .ready s fun s =>
    let (t, ok) := s.bistStart (if mask = 0 then s.bistSel else mask.toNat) none
    (t, if ok then mcOk else mcDenied, [])

/-- ATTEST: a nonce of another length is no such command. -/
def execMcAttest (nonce : List Byte) (s : State) : Host.Outcome State Fault Refusal :=
  mcCommand .ready s fun s => if nonce.length = 32 then (s.attest nonce none, mcOk, []) else (s, mcBad, [])

/-- REPORT: a chunk of 255 bytes of the last report; BUSY until it is signed. -/
def execReport (chunk : BitVec 8) (s : State) : Host.Outcome State Fault Refusal :=
  mcCommand .ready s fun s =>
    if s.keeper.signing.any (·.2.isNone) then (s, mcBusy, [])
    else (s, mcOk, (s.keeper.report.drop (255 * chunk.toNat)).take 255)

/-- RESET: a warm reset after the answer; ignored and counted while the trip is latched (R531). -/
def execMcReset (s : State) : Host.Outcome State Fault Refusal :=
  if !s.pins.pwrok then .next s
  else if s.pwrc.trip then .next (s.resetIgnored.answer mcOk [])
  else
    .next (((s.warmReset 2 (if s.pins.resetN then 0 else 4)).modPins fun p => { p with released := !p.resetN }).answer mcOk [])

/-- SPI_RELEASE (R562). -/
def execSpiRelease (s : State) : Host.Outcome State Fault Refusal :=
  mcCommand .spi s fun s => ((s.modKeeper fun k => { k with spirel := true }).raise 0x484 51, mcOk, [])

/-! ### CCCs (R561) -/

/-- A CCC reaches the Keeper while PWROK is high. -/
def ccc (s : State) (f : State → State) : Host.Outcome State Fault Refusal := .next (if s.pins.pwrok then f s else s)

/-- Take a dynamic address where none is held. -/
def State.takeAddr (s : State) (addr : BitVec 7) : State :=
  s.modKeeper fun k => { k with i3cAddr := k.i3cAddr.or (some addr) }

/-- Return bytes where an address is held. -/
def State.cccRead (s : State) (l : List Byte) : State :=
  if s.keeper.i3cAddr.isSome then s.modKeeper fun k => { k with ccc := l } else s

/-- The bytes of a value, most significant first. -/
def beBytes (x n : Nat) : List Byte := (leBytes x n).reverse

def execEntdaa (addr : BitVec 7) (s : State) : Host.Outcome State Fault Refusal := ccc s (·.takeAddr addr)

/-- SETDASA at the static address 0x40 + SLOT_ID. -/
def execSetdasa (static addr : BitVec 7) (s : State) : Host.Outcome State Fault Refusal :=
  ccc s fun s => if static.toNat = 0x40 + s.pins.slotId.toNat then s.takeAddr addr else s

def execRstdaa (s : State) : Host.Outcome State Fault Refusal := ccc s (·.modKeeper fun k => { k with i3cAddr := none })
def execGetpid (s : State) : Host.Outcome State Fault Refusal := ccc s (·.cccRead (beBytes Config.i3cPid.toNat 6))
def execGetbcr (s : State) : Host.Outcome State Fault Refusal := ccc s (·.cccRead [Config.i3cBcr])
def execGetdcr (s : State) : Host.Outcome State Fault Refusal := ccc s (·.cccRead [Config.i3cDcr])

/-- GETSTATUS: the bits are a free value (R561 gives no layout). -/
def execGetstatus (s : State) : Host.Outcome State Fault Refusal :=
  ccc s fun s => (s.drawFree.2).cccRead (beBytes (Config.i3cStatus s.free).toNat 2)

/-- GETMRL and GETMWL report 258 B. -/
def execGetmrl (s : State) : Host.Outcome State Fault Refusal := ccc s (·.cccRead (beBytes 258 2))
def execGetmwl (s : State) : Host.Outcome State Fault Refusal := ccc s (·.cccRead (beBytes 258 2))

/-! ### The TAP (R547, R563) -/

/-- A TAP instruction is loaded: its code, what BYPASS or IDCODE captures, and whether it drives the pins. -/
def State.loadTap (s : State) (ir : BitVec 4) (dr : BitVec 32) (extest : Bool) : State :=
  ({ s with tap := { s.tap with ir, dr, extest } } : State).occ 58 0

/-- The TAP answers while PWROK is high. -/
def tapCommand (s : State) (f : State → State) : Host.Outcome State Fault Refusal := .next (if s.pins.pwrok then f s else s)

def execBypass (s : State) : Host.Outcome State Fault Refusal := tapCommand s (·.loadTap 1 0 false)
def execIdcode (s : State) : Host.Outcome State Fault Refusal := tapCommand s (·.loadTap 2 0x10C883D5 false)

/-- SAMPLE/PRELOAD: what the tester shifts into the boundary-scan chain is a free value. -/
def execSamplePreload (s : State) : Host.Outcome State Fault Refusal :=
  tapCommand s fun s =>
    let (x, s) := s.drawFree
    ({ s with tap := { s.tap with cells := BitVec.ofNat 23 x } } : State).loadTap 3 0 false

/-- EXTEST drives the pins from the chain while RESET_N is asserted; at any other time it acts as BYPASS and is counted. -/
def execExtest (s : State) : Host.Outcome State Fault Refusal :=
  tapCommand s fun s =>
    if s.pins.resetN then (s.loadTap 1 0 false).occ 58 1
    else s.loadTap 4 0 true

/-- TRST_N: Test-Logic-Reset. -/
def execTrstNAssert (s : State) : Host.Outcome State Fault Refusal := .next { s with tap := {} }

end Sys2Proof.Machine
end

