-- ==== Sys2Proof/Machine/Dispatch.lean ====
section
/-! DEFINITION. The meaning of each command: one arm per constructor of `Instr`, each one call. -/
namespace Sys2Proof.Machine

/-- The effect of a command on everything but the queue of waiting commands. -/
def exec (i : Instr) (s : State) : Host.Outcome State Fault Refusal :=
  match i with
  | .fetchLine d data => Sys2Proof.Machine.execFetchLine d data s
  | .instructionDecode d => Sys2Proof.Machine.execInstructionDecode d s
  | .instructionComplete d q => Sys2Proof.Machine.execInstructionComplete d q s
  | .sparSignalArrive src dst => Sys2Proof.Machine.execSparSignalArrive src dst s
  | .nop d => Sys2Proof.Machine.execNop d s
  | .syDload d data => Sys2Proof.Machine.execSyDload d data s
  | .syAlat d => Sys2Proof.Machine.execSyAlat d s
  | .syFence d => Sys2Proof.Machine.execSyFence d s
  | .sySpadd d => Sys2Proof.Machine.execSySpadd d s
  | .sySpclr d => Sys2Proof.Machine.execSySpclr d s
  | .mmLoadw d a => Sys2Proof.Machine.execMmLoadw d a s
  | .mmSwap d a => Sys2Proof.Machine.execMmSwap d a s
  | .mmRun d a f => Sys2Proof.Machine.execMmRun d a f s
  | .mmDefer d => Sys2Proof.Machine.execMmDefer d s
  | .mmVqdrain d => Sys2Proof.Machine.execMmVqdrain d s
  | .txCopy d f => Sys2Proof.Machine.execTxCopy d f s
  | .txTrans d f => Sys2Proof.Machine.execTxTrans d f s
  | .txQuant d f => Sys2Proof.Machine.execTxQuant d f s
  | .txStash d => Sys2Proof.Machine.execTxStash d s
  | .txFetch d => Sys2Proof.Machine.execTxFetch d s
  | .txGather d data => Sys2Proof.Machine.execTxGather d data s
  | .rdNormf d => Sys2Proof.Machine.execRdNormf d s
  | .rdNormb d => Sys2Proof.Machine.execRdNormb d s
  | .rdSmaxf d => Sys2Proof.Machine.execRdSmaxf d s
  | .rdSmaxb d => Sys2Proof.Machine.execRdSmaxb d s
  | .coJoin d => Sys2Proof.Machine.execCoJoin d s
  | .coBucket d => Sys2Proof.Machine.execCoBucket d s
  | .coReduce d => Sys2Proof.Machine.execCoReduce d s
  | .coDispatch d => Sys2Proof.Machine.execCoDispatch d s
  | .coCombine d => Sys2Proof.Machine.execCoCombine d s
  | .coVote d => Sys2Proof.Machine.execCoVote d s
  | .coDrain d => Sys2Proof.Machine.execCoDrain d s
  | .upImm d => Sys2Proof.Machine.execUpImm d s
  | .upPassa d => Sys2Proof.Machine.execUpPassa d s
  | .upPassb d => Sys2Proof.Machine.execUpPassb d s
  | .upCommit d => Sys2Proof.Machine.execUpCommit d s
  | .obPin d => Sys2Proof.Machine.execObPin d s
  | .obPromote d => Sys2Proof.Machine.execObPromote d s
  | .obEvict d => Sys2Proof.Machine.execObEvict d s
  | .obPrefetch d => Sys2Proof.Machine.execObPrefetch d s
  | .obWait d => Sys2Proof.Machine.execObWait d s
  | .pcSnap d => Sys2Proof.Machine.execPcSnap d s
  | .pcFreeze d => Sys2Proof.Machine.execPcFreeze d s
  | .pcMark d => Sys2Proof.Machine.execPcMark d s
  | .setp d => Sys2Proof.Machine.execSetp d s
  | .trap d => Sys2Proof.Machine.execTrap d s
  | .sysStop d => Sys2Proof.Machine.execSysStop d s
  | .runStart d r => Sys2Proof.Machine.execRunStart d r s
  | .runStop d r => Sys2Proof.Machine.execRunStop d r s
  | .abort d r => Sys2Proof.Machine.execAbort d r s
  | .abortComplete d => Sys2Proof.Machine.execAbortComplete d s
  | .spush d r n mask => Sys2Proof.Machine.execSpush d r n mask s
  | .stashReset d r => Sys2Proof.Machine.execStashReset d r s
  | .watchdogTick d => Sys2Proof.Machine.execWatchdogTick d s
  | .shadowLoadEnd a c => Sys2Proof.Machine.execShadowLoadEnd a c s
  | .drainBoundary a => Sys2Proof.Machine.execDrainBoundary a s
  | .recutDone a => Sys2Proof.Machine.execRecutDone a s
  | .autoswap a c => Sys2Proof.Machine.execAutoswap a c s
  | .fillVisit d a => Sys2Proof.Machine.execFillVisit d a s
  | .stashFullTimeout d => Sys2Proof.Machine.execStashFullTimeout d s
  | .loftReconf stack r expert data mask => Sys2Proof.Machine.execLoftReconf stack r expert data mask s
  | .loftReconfDone stack => Sys2Proof.Machine.execLoftReconfDone stack s
  | .objectRegister n w => Sys2Proof.Machine.execObjectRegister n w s
  | .objectDeregister n w => Sys2Proof.Machine.execObjectDeregister n w s
  | .promoteCopyEnd n => Sys2Proof.Machine.execPromoteCopyEnd n s
  | .evictCopyEnd n => Sys2Proof.Machine.execEvictCopyEnd n s
  | .join p => Sys2Proof.Machine.execJoin p s
  | .joinAck p => Sys2Proof.Machine.execJoinAck p s
  | .bucketRs p => Sys2Proof.Machine.execBucketRs p s
  | .bucketAg p => Sys2Proof.Machine.execBucketAg p s
  | .agree p => Sys2Proof.Machine.execAgree p s
  | .reduce p => Sys2Proof.Machine.execReduce p s
  | .dispatch p => Sys2Proof.Machine.execDispatch p s
  | .dispatchEnd p => Sys2Proof.Machine.execDispatchEnd p s
  | .combine p => Sys2Proof.Machine.execCombine p s
  | .combineEnd p => Sys2Proof.Machine.execCombineEnd p s
  | .vote p => Sys2Proof.Machine.execVote p s
  | .drain p => Sys2Proof.Machine.execDrain p s
  | .abandon p => Sys2Proof.Machine.execAbandon p s
  | .commitVote p => Sys2Proof.Machine.execCommitVote p s
  | .outcome p => Sys2Proof.Machine.execOutcome p s
  | .mirrored p => Sys2Proof.Machine.execMirrored p s
  | .confirm p => Sys2Proof.Machine.execConfirm p s
  | .packetRelay port stream p => Sys2Proof.Machine.execPacketRelay port stream p s
  | .bucketLanded j b => Sys2Proof.Machine.execBucketLanded j b s
  | .peerTimeout j => Sys2Proof.Machine.execPeerTimeout j s
  | .drainForced j => Sys2Proof.Machine.execDrainForced j s
  | .voteDeadline => Sys2Proof.Machine.execVoteDeadline s
  | .covoteDeadline j seq => Sys2Proof.Machine.execCovoteDeadline j seq s
  | .outcomeTimeout => Sys2Proof.Machine.execOutcomeTimeout s
  | .mirrorComplete => Sys2Proof.Machine.execMirrorComplete s
  | .mirrorAck => Sys2Proof.Machine.execMirrorAck s
  | .groupRegister n w => Sys2Proof.Machine.execGroupRegister n w s
  | .groupDeregister n w => Sys2Proof.Machine.execGroupDeregister n w s
  | .rowStepRegister n w => Sys2Proof.Machine.execRowStepRegister n w s
  | .rowStepDeregister n w => Sys2Proof.Machine.execRowStepDeregister n w s
  | .rollback r => Sys2Proof.Machine.execRollback r s
  | .repub r => Sys2Proof.Machine.execRepub r s
  | .instanceStart => Sys2Proof.Machine.execInstanceStart s
  | .gvpNop g c => Sys2Proof.Machine.execGvpNop g c s
  | .end_ g c => Sys2Proof.Machine.execEnd g c s
  | .puta g c => Sys2Proof.Machine.execPuta g c s
  | .bnz g c => Sys2Proof.Machine.execBnz g c s
  | .bz g c => Sys2Proof.Machine.execBz g c s
  | .fault g c => Sys2Proof.Machine.execFault g c s
  | .plog g c => Sys2Proof.Machine.execPlog g c s
  | .saddi g c => Sys2Proof.Machine.execSaddi g c s
  | .sshli g c => Sys2Proof.Machine.execSshli g c s
  | .salu g c => Sys2Proof.Machine.execSalu g c s
  | .scmp g c => Sys2Proof.Machine.execScmp g c s
  | .simm g c => Sys2Proof.Machine.execSimm g c s
  | .rs g c => Sys2Proof.Machine.execRs g c s
  | .lane g c => Sys2Proof.Machine.execLane g c s
  | .ptail g c => Sys2Proof.Machine.execPtail g c s
  | .add g c => Sys2Proof.Machine.execAdd g c s
  | .sub g c => Sys2Proof.Machine.execSub g c s
  | .mul g c => Sys2Proof.Machine.execMul g c s
  | .fma g c => Sys2Proof.Machine.execFma g c s
  | .min g c => Sys2Proof.Machine.execMin g c s
  | .max g c => Sys2Proof.Machine.execMax g c s
  | .abs g c => Sys2Proof.Machine.execAbs g c s
  | .neg g c => Sys2Proof.Machine.execNeg g c s
  | .sel g c => Sys2Proof.Machine.execSel g c s
  | .cmp g c => Sys2Proof.Machine.execCmp g c s
  | .cvt g c => Sys2Proof.Machine.execCvt g c s
  | .div g c => Sys2Proof.Machine.execDiv g c s
  | .sqrt g c => Sys2Proof.Machine.execSqrt g c s
  | .rsqrt g c => Sys2Proof.Machine.execRsqrt g c s
  | .rcp g c => Sys2Proof.Machine.execRcp g c s
  | .exp2 g c => Sys2Proof.Machine.execExp2 g c s
  | .log2 g c => Sys2Proof.Machine.execLog2 g c s
  | .exp g c => Sys2Proof.Machine.execExp g c s
  | .ln g c => Sys2Proof.Machine.execLn g c s
  | .rsum g c => Sys2Proof.Machine.execRsum g c s
  | .rssq g c => Sys2Proof.Machine.execRssq g c s
  | .rmax g c => Sys2Proof.Machine.execRmax g c s
  | .rmin g c => Sys2Proof.Machine.execRmin g c s
  | .ramax g c => Sys2Proof.Machine.execRamax g c s
  | .rnf g c => Sys2Proof.Machine.execRnf g c s
  | .srnd g c => Sys2Proof.Machine.execSrnd g c s
  | .vld g c => Sys2Proof.Machine.execVld g c s
  | .vst g c => Sys2Proof.Machine.execVst g c s
  | .sld g c => Sys2Proof.Machine.execSld g c s
  | .sst g c => Sys2Proof.Machine.execSst g c s
  | .frame port fec f => Sys2Proof.Machine.execFrame port fec f s
  | .trainingDone port t => Sys2Proof.Machine.execTrainingDone port t s
  | .trainingTimeout port => Sys2Proof.Machine.execTrainingTimeout port s
  | .frameSilence port => Sys2Proof.Machine.execFrameSilence port s
  | .laneLockLoss port => Sys2Proof.Machine.execLaneLockLoss port s
  | .downRetrain port => Sys2Proof.Machine.execDownRetrain port s
  | .pctlDisable port r => Sys2Proof.Machine.execPctlDisable port r s
  | .pctlEnable port r => Sys2Proof.Machine.execPctlEnable port r s
  | .pctlRetrain port r => Sys2Proof.Machine.execPctlRetrain port r s
  | .twinPresentChange present => Sys2Proof.Machine.execTwinPresentChange present s
  | .coordApply => Sys2Proof.Machine.execCoordApply s
  | .flit f => Sys2Proof.Machine.execFlit f s
  | .mclTrainingEnd laneBad => Sys2Proof.Machine.execMclTrainingEnd laneBad s
  | .mclRetrain => Sys2Proof.Machine.execMclRetrain s
  | .mclSilence => Sys2Proof.Machine.execMclSilence s
  | .mclLockLoss => Sys2Proof.Machine.execMclLockLoss s
  | .rd tag dpa len => Sys2Proof.Machine.execRd tag dpa len s
  | .wr tag dpa poison data => Sys2Proof.Machine.execWr tag dpa poison data s
  | .rdshared tag dpa => Sys2Proof.Machine.execRdshared tag dpa s
  | .rdown tag dpa => Sys2Proof.Machine.execRdown tag dpa s
  | .wb tag dpa poison data => Sys2Proof.Machine.execWb tag dpa poison data s
  | .recallAck dpa dirty poison data => Sys2Proof.Machine.execRecallAck dpa dirty poison data s
  | .cpl tag status poison data => Sys2Proof.Machine.execCpl tag status poison data s
  | .csrWr tag dpa data => Sys2Proof.Machine.execCsrWr tag dpa data s
  | .ticketWrite r w => Sys2Proof.Machine.execTicketWrite r w s
  | .eventWrite => Sys2Proof.Machine.execEventWrite s
  | .doorbellTimer => Sys2Proof.Machine.execDoorbellTimer s
  | .evcfgEnable r data mask => Sys2Proof.Machine.execEvcfgEnable r data mask s
  | .evconsWrite r data mask => Sys2Proof.Machine.execEvconsWrite r data mask s
  | .mailboxGo r => Sys2Proof.Machine.execMailboxGo r s
  | .info tag => Sys2Proof.Machine.execInfo tag s
  | .cert tag => Sys2Proof.Machine.execCert tag s
  | .mbAttest tag nonce => Sys2Proof.Machine.execMbAttest tag nonce s
  | .mbBist tag mask => Sys2Proof.Machine.execMbBist tag mask s
  | .flerase tag off => Sys2Proof.Machine.execFlerase tag off s
  | .flwrite tag off data => Sys2Proof.Machine.execFlwrite tag off data s
  | .seccommit tag => Sys2Proof.Machine.execSeccommit tag s
  | .controlPeriod => Sys2Proof.Machine.execControlPeriod s
  | .estimate watts => Sys2Proof.Machine.execEstimate watts s
  | .measurementWindow watts => Sys2Proof.Machine.execMeasurementWindow watts s
  | .droopDetect n => Sys2Proof.Machine.execDroopDetect n s
  | .stretchEnd n => Sys2Proof.Machine.execStretchEnd n s
  | .islandTempRead n temp => Sys2Proof.Machine.execIslandTempRead n temp s
  | .stackTempRead stack temp => Sys2Proof.Machine.execStackTempRead stack temp s
  | .holdAbandon => Sys2Proof.Machine.execHoldAbandon s
  | .dieTempCheck => Sys2Proof.Machine.execDieTempCheck s
  | .grantApply => Sys2Proof.Machine.execGrantApply s
  | .grantSwitch => Sys2Proof.Machine.execGrantSwitch s
  | .grantRampEnd => Sys2Proof.Machine.execGrantRampEnd s
  | .pwrokRise => Sys2Proof.Machine.execPwrokRise s
  | .pwrokFall => Sys2Proof.Machine.execPwrokFall s
  | .resetNAssert => Sys2Proof.Machine.execResetNAssert s
  | .resetNRelease => Sys2Proof.Machine.execResetNRelease s
  | .p3v3aLow => Sys2Proof.Machine.execP3v3aLow s
  | .p12vLoss => Sys2Proof.Machine.execP12vLoss s
  | .refclk0Loss => Sys2Proof.Machine.execRefclk0Loss s
  | .refclk1Loss => Sys2Proof.Machine.execRefclk1Loss s
  | .refclk2Loss => Sys2Proof.Machine.execRefclk2Loss s
  | .bootHeaderCheck => Sys2Proof.Machine.execBootHeaderCheck s
  | .bootBodyCheck => Sys2Proof.Machine.execBootBodyCheck s
  | .islandPowerUp => Sys2Proof.Machine.execIslandPowerUp s
  | .bootBist => Sys2Proof.Machine.execBootBist s
  | .hbmTraining => Sys2Proof.Machine.execHbmTraining s
  | .memoryClear => Sys2Proof.Machine.execMemoryClear s
  | .identityCheck => Sys2Proof.Machine.execIdentityCheck s
  | .linkStart => Sys2Proof.Machine.execLinkStart s
  | .readyAssert => Sys2Proof.Machine.execReadyAssert s
  | .bistGo r => Sys2Proof.Machine.execBistGo r s
  | .islandTestDone sig => Sys2Proof.Machine.execIslandTestDone sig s
  | .attestSigned => Sys2Proof.Machine.execAttestSigned s
  | .snap r => Sys2Proof.Machine.execSnap r s
  | .deferredSnapshot => Sys2Proof.Machine.execDeferredSnapshot s
  | .freeze r on => Sys2Proof.Machine.execFreeze r on s
  | .clr n r => Sys2Proof.Machine.execClr n r s
  | .bandwidthWindowEnd port => Sys2Proof.Machine.execBandwidthWindowEnd port s
  | .status => Sys2Proof.Machine.execStatus s
  | .evread => Sys2Proof.Machine.execEvread s
  | .setcoord c => Sys2Proof.Machine.execSetcoord c s
  | .setgrant step now => Sys2Proof.Machine.execSetgrant step now s
  | .setcap watts => Sys2Proof.Machine.execSetcap watts s
  | .release => Sys2Proof.Machine.execRelease s
  | .telem => Sys2Proof.Machine.execTelem s
  | .mcCsrrd dpa => Sys2Proof.Machine.execMcCsrrd dpa s
  | .mcCsrwr dpa data => Sys2Proof.Machine.execMcCsrwr dpa data s
  | .mcBist mask => Sys2Proof.Machine.execMcBist mask s
  | .mcAttest nonce => Sys2Proof.Machine.execMcAttest nonce s
  | .report chunk => Sys2Proof.Machine.execReport chunk s
  | .mcReset => Sys2Proof.Machine.execMcReset s
  | .spiRelease => Sys2Proof.Machine.execSpiRelease s
  | .entdaa addr => Sys2Proof.Machine.execEntdaa addr s
  | .setdasa static addr => Sys2Proof.Machine.execSetdasa static addr s
  | .rstdaa => Sys2Proof.Machine.execRstdaa s
  | .getpid => Sys2Proof.Machine.execGetpid s
  | .getbcr => Sys2Proof.Machine.execGetbcr s
  | .getdcr => Sys2Proof.Machine.execGetdcr s
  | .getstatus => Sys2Proof.Machine.execGetstatus s
  | .getmrl => Sys2Proof.Machine.execGetmrl s
  | .getmwl => Sys2Proof.Machine.execGetmwl s
  | .bypass => Sys2Proof.Machine.execBypass s
  | .idcode => Sys2Proof.Machine.execIdcode s
  | .samplePreload => Sys2Proof.Machine.execSamplePreload s
  | .extest => Sys2Proof.Machine.execExtest s
  | .shadowLoadBegin a c => Sys2Proof.Machine.execShadowLoadBegin a c s
  | .gaCfgWrite a r expert data mask => Sys2Proof.Machine.execGaCfgWrite a r expert data mask s
  | .sharedWindowChange r off data mask => Sys2Proof.Machine.execSharedWindowChange r off data mask s
  | .csrRd tag dpa len => Sys2Proof.Machine.execCsrRd tag dpa len s
  | .snapshotEnd => Sys2Proof.Machine.execSnapshotEnd s
  | .freezeApplied => Sys2Proof.Machine.execFreezeApplied s
  | .trstNAssert => Sys2Proof.Machine.execTrstNAssert s

end Sys2Proof.Machine
end

