-- ==== Sys2Proof/Safety.lean ====
section
/-! DEFINITION. What statements speak of: the canonical form of the sparse stores, what reports leave behind, and the outcomes that
a completed command has. -/
namespace Sys2Proof.Machine

/-- The canonical form of device memory. -/
def Memory.wf (m : List Host.Cell) : Bool := Sparse.wf emptyByte m

/-- Every sparse store of the state is in canonical form, so that equal contents are equal data. -/
def State.Canonical (s : State) : Prop :=
  Memory.wf s.mem = true ∧ Sparse.wf false s.poison = true ∧ Sparse.wf (0 : Word64) s.table = true ∧
    Sparse.wf none s.rot = true ∧ Sparse.wf none s.regs = true

/-- A register that reports write: PCSAT of a domain (R515), HUBNOC.STATUS (R503, R506). -/
def isReport (key : Nat) : Bool := key % 0x10000 = 0x8004 || key = 0x10000 * 59

/-- A state less what counting and event reporting leave behind: the event queue, the counts with their SAT bits, the records that
the Keeper holds for the MC, the sequence and loss counts of events, and the report registers. Two states that are equal in this
view differ in reports only. -/
def State.quiet (s : State) : State :=
  { s with evq := [], ctr := { s.ctr with val := [], sat := [] }, keeper := { s.keeper with held := [], lost := 0 },
           mcl := { s.mcl with seq := 0, lost := 0, lostAfter := 0 }, regs := s.regs.filter fun p => !isReport p.1 }

/-- A command's outcome is a next state that is `t` but for reports. -/
def EndsIn (r : Host.Outcome State Fault Refusal) (t : State) : Prop := ∃ u, r = .next u ∧ u.quiet = t.quiet

/-- Every byte of device memory outside the spans reads as before. -/
def State.KeepsOutside (s t : State) (l : List Span) : Prop :=
  ∀ a, (∀ x ∈ l, a < x.a ∨ x.a + x.n ≤ a) → t.byte a = s.byte a

/-- The command's effect on `s` is `t`: it answers `t` where that wants no line of the host, and otherwise recalls the lines wanted and
has none of the effect (R456, log entry 51). -/
def Completes (c : Instr) (s t : State) : Prop :=
  (t.mcl.wanted = [] → exec c s = .next t) ∧ (t.mcl.wanted ≠ [] → exec c s = .next (s.recall t.mcl.wanted))

/-- No line stands in any command's way: the host holds none, the device is not in hold, no Loft slice changes its mode, and neither a
slice nor the stores are being cleared. -/
def State.Calm (s : State) : Prop :=
  s.mcl.wanted = [] ∧ s.mcl.snoop = [] ∧ s.pwrc.hold = false ∧ s.clearing = false ∧
    ∀ k, (s.loftAt k).reconf = false ∧ (s.loftAt k).clearing = false

/-- The requester of a command that stands for a write of one of the device's registers (R453, R523). -/
def writerOf : Instr → Option Requester
  | .runStart _ r | .runStop _ r | .abort _ r | .spush _ r _ _ | .stashReset _ r | .loftReconf _ r _ _ _ | .rollback r | .repub r
  | .pctlDisable _ r | .pctlEnable _ r | .pctlRetrain _ r | .ticketWrite r _ | .evcfgEnable r _ _ | .evconsWrite r _ _
  | .mailboxGo r | .bistGo r | .snap r | .freeze r _ | .clr _ r | .gaCfgWrite _ r _ _ _ | .sharedWindowChange r _ _ _ => some r
  | _ => none

/-- A Truss whose instruction at decode is `e`, an instruction of opcode `op` that takes effect now; `s1` is the state with its
waits taken and the Truss's settings refreshed (R180, R187, R195). -/
abbrev State.AtDecode (s : State) (d : TrussId) (op : Nat) (e : QEntry) (s1 : State) : Prop := s.inline d op = some (e, s1)

/-- A Truss whose issue queue `q` has at its head the instruction `e` of opcode `op`, which may issue now (R181, R187). -/
abbrev State.AtHead (s : State) (d : TrussId) (q op : Nat) (e : QEntry) : Prop := s.ready d q op = some e

/-- An issued instruction has reached its completion point, with the trap its completion takes (R183, R253). -/
def State.Finished (s : State) (d : TrussId) (e : QEntry) (trap : Option TrapCause) : Prop :=
  ∃ i ∈ (s.tr d).issued, i.e = e ∧ i.done = true ∧ i.trap = trap

/-- Every byte outside the places where a Truss's stash map puts the bytes of the spans reads as before (R317). -/
def State.KeepsOutsideRouted (s t : State) (m : Stash) (l : List Span) : Prop :=
  ∀ a, (∀ x ∈ l, ∀ b, x.a ≤ b → b < x.a + x.n → m.route b ≠ some a) → t.byte a = s.byte a

end Sys2Proof.Machine
end

