-- ==== Sys2Proof/Certificates/Slice0/Obligations.lean ====
section
/-! DEFINITION. The statements about the model, one `Prop` each; OBLIGATIONS.json lists them in this order. -/
open Sys2Proof Sys2Proof.Machine

/-- For every command and state, a step of a state whose queue has the command at its front is the command's meaning on that state
with the queue's rest. That commands wait in a queue is the model's choice (log entry 1). -/
def Obligations.StepRunsFrontCommand : Prop :=
  ∀ (c : Instr) (rest : List Instr) (s : State), step { s with pending := c :: rest } = exec c { s with pending := rest }

/-- On an empty queue a step answers a next state whose queue is empty too. While PWROK is high the Keeper stamp has advanced by one,
since it counts D51 cycles; while PWROK is low the whole state is as it was. That such a step is one D51 cycle is the model's choice
(log entries 1 and 2). -/
def Obligations.EmptyQueueStepIsOneCycle : Prop :=
  ∀ s : State, s.pending = [] → ∃ t, step s = .next t ∧ t.pending = [] ∧
    (s.pins.pwrok = true → t.stamp = s.stamp + 1) ∧ (s.pins.pwrok = false → t = s)

/-- In the reset state memory, poison markers, table words, path rotations and registers are in canonical form, so that the invariant of StepKeepsCanonical
holds there (the canonical form is the model's own). Every byte reads zero without a marker, every table word and the Keeper stamp are zero, and
every register reads its reset value. No Truss runs or is trapped, every spar count but spar 0's is zero, no job is OPEN, no coordinate is valid (R433),
MCL is DOWN, the grant is step 0 (R467), both caps are 2,800 W (R471), T_red is 0 and the ratio is 1 (R479), nothing is frozen, READY is not
driven (R530), the sequence stands at order 1 (R533), and only D51 and D52 are powered. No command waits (log entry 1). -/
def Obligations.ResetState : Prop :=
  let s := State.reset
  s.Canonical ∧ s.pending = [] ∧ (∀ a, s.byte a = 0 ∧ s.poisonAt a = false) ∧ (∀ k, s.tword k = 0) ∧ s.stamp = 0 ∧
  (∀ dom off, s.regRaw dom off = ((findReg (homeDom dom off) off).map RegDef.resetVal).getD 0) ∧
  (∀ d : TrussId, (s.tr d).run = false ∧ (s.tr d).trapped = false ∧ (s.tr d).trap.cause = 0 ∧ (s.tr d).alat = 0 ∧
    ∀ k, 1 ≤ k → k < 64 → (s.tr d).spar k = 0) ∧
  s.jobActive = false ∧ s.coord.valid = false ∧ s.mcl.link = 0 ∧ s.pwrc.gnow = 0 ∧ s.pwrc.gpend = none ∧ s.pwrc.hostCap = 2800 ∧
  s.pwrc.mcCap = 2800 ∧ s.pwrc.tred = 0 ∧ s.pwrc.rhoNum = s.pwrc.rhoDen ∧ s.pwrc.trip = false ∧ s.ctr.frozen = false ∧
  s.readyPin = false ∧ s.boot.order = 1 ∧ ∀ n : DomainId, s.isLive n = decide (n.val = 51 ∨ n.val = 52)

/-- From every state whose memory, poison markers, table words, path rotations and registers are in canonical form (addresses
strictly rising, nothing listed that an unlisted address reads as), a step to a next state gives such a state again, whatever command
stood at the front, and the queue has lost exactly its front command. No command queues another one. The model lets a command that meets lines
held by the host recall them and act later (log entry 51): the list of such lines is empty after every step if it was empty before, so that no
command is turned away for the lines of another. -/
def Obligations.StepKeepsCanonical : Prop :=
  ∀ s t : State, s.Canonical → step s = .next t →
    t.Canonical ∧ t.pending = s.pending.tail ∧ (s.mcl.wanted = [] → t.mcl.wanted = [])

/-- A command whose lists have lengths that its interface carries answers a next state in every state: no command is refused, and
no state makes one fault. Only a command with malformed lists faults. -/
def Obligations.WellFormedCommandsAnswer : Prop :=
  ∀ (c : Instr) (s : State), (c.wf = true → ∃ t, exec c s = .next t) ∧
    (∀ f, exec c s = .fault f → c.wf = false) ∧ (∀ r, exec c s ≠ .refused r)

/-- For every spar from 1 to 63, the count after an instruction has taken its waits, plus one for each of its two wait fields that
names the spar, is the count before: both waits were covered and both were taken, two where they name one spar. It is said of an
in-line instruction at decode whose waits are not yet taken, and of an instruction that issues from the head of a queue. -/
def Obligations.WaitsAreTakenTogether : Prop :=
  ∀ (s : State) (d : TrussId) (op : Nat) (e : QEntry),
    (∀ s1, s.AtDecode d op e s1 → (s.tr d).decTaken = none → ∀ k, 1 ≤ k → k < 64 →
      (s1.tr d).spar k + ((if k = e.wa then 1 else 0) + if k = e.wb then 1 else 0) = (s.tr d).spar k) ∧
    (∀ q, s.AtHead d q op e → ∀ k, 1 ≤ k → k < 64 →
      ((s.issue d q e).tr d).spar k + ((if k = e.wa then 1 else 0) + if k = e.wb then 1 else 0) = (s.tr d).spar k)

/-- Adding n to the count of a spar from 1 to 63 gives the sum, or 0xFFFF where the sum is above it; the other counts of the Truss
and the counts of the other Trusses stay. Where the sum is above 0xFFFF and no trap is recorded yet, the trap registers hold
SPAR_OVF (0x0F) with queue 0 and the spar; where one is recorded, MULTI is set; and the Truss stops unless the class skips. A sum that
fits takes no trap. Waits on spar 0 are satisfied on every Truss and leave it as it was; a signal of spar 0 leaves the whole state; its count
register, TRUSS.SPCNT[0] at offset 0x0100, reads 0xFFFF (R185). -/
def Obligations.SparCountsSaturate : Prop :=
  (∀ (s : State) (d : TrussId) (t : Truss), t.waitsOk 0 0 = true ∧ t.takeWaits 0 0 = t ∧ s.signal d 0 = s ∧
    s.regRead (16 + d) 0x100 = 0xFFFF) ∧
  ∀ (s : State) (d : TrussId) (k n : Nat), 1 ≤ k → k < 64 →
    ((s.addSpar d k n).tr d).spar k = min ((s.tr d).spar k + n) 0xFFFF ∧
    (∀ j, j ≠ k → ((s.addSpar d k n).tr d).spar j = (s.tr d).spar j) ∧
    (∀ x : TrussId, x ≠ d → ((s.addSpar d k n).tr x).spcnt = (s.tr x).spcnt) ∧
    (0xFFFF < (s.tr d).spar k + n → (s.tr d).trap.cause = 0 →
      ((s.addSpar d k n).tr d).trap.cause = 0x0F ∧ ((s.addSpar d k n).tr d).trap.queue = 0 ∧
      ((s.addSpar d k n).tr d).trap.spar.toNat = k) ∧
    (0xFFFF < (s.tr d).spar k + n → (s.tr d).trap.cause ≠ 0 → ((s.addSpar d k n).tr d).multi = true) ∧
    (0xFFFF < (s.tr d).spar k + n → (s.tr d).skips .sparOvf = false → ((s.addSpar d k n).tr d).trapped = true) ∧
    ((s.tr d).spar k + n ≤ 0xFFFF → ((s.addSpar d k n).tr d).trap = (s.tr d).trap)

/-- Taking a trap on a Truss whose trap registers are clear records its cause, queue, line, word, spar and whether it skipped, and
leaves MULTI. Taking one while a trap is recorded leaves the registers and sets MULTI (R201). The other Trusses' registers stay.
A trap of a class that does not skip stops the Truss: TRAPPED is set (R198); one that skips leaves TRAPPED (R199). -/
def Obligations.FirstTrapIsRecorded : Prop :=
  ∀ (s : State) (d : TrussId) (c : TrapCause) (w : TrapAt),
    ((s.tr d).trap.cause = 0 →
      ((s.trap d c w).tr d).trap =
        { cause := BitVec.ofNat 8 c.code, queue := BitVec.ofNat 3 w.queue, line := BitVec.ofNat 16 w.line,
          word := BitVec.ofNat 5 w.word, spar := BitVec.ofNat 6 w.spar, skipped := (s.tr d).skips c } ∧
      ((s.trap d c w).tr d).multi = (s.tr d).multi) ∧
    ((s.tr d).trap.cause ≠ 0 →
      ((s.trap d c w).tr d).trap = (s.tr d).trap ∧ ((s.trap d c w).tr d).multi = true) ∧
    ((s.trap d c w).tr d).trapped = ((s.tr d).trapped || !(s.tr d).skips c) ∧
    (∀ x : TrussId, x ≠ d → ((s.trap d c w).tr x).trap = (s.tr x).trap ∧ ((s.trap d c w).tr x).trapped = (s.tr x).trapped)

/-- With the instruction at decode, decoded and its waits taken (state s1), it leaves decode and signals (inlineDone), having done this.
NOP: nothing (R226). SY.FENCE, once every queue of its mask is complete: nothing (R229). SY.SPADD: DB is added to this Truss's count of
spar CR (R230). SY.SPCLR: that count becomes 0, spar 0 apart (R231). SETP: the weight of spar CR becomes DB[3:0], 0 clamping to 1, or
its share mask does, after its own signal (R281). PC.MARK: EV_PC_MARK (0x282) with the tag and the Truss (R280). PC.SNAP and PC.FREEZE: a snapshot, the
freeze state, while USER_EN is 1; otherwise only the denial is counted (R279). SYS.STOP: RUN becomes 0 (R283). TRAP takes SOFTWARE with
its code, leaves decode and does not signal (R282). -/
def Obligations.InlineInstructionsComplete : Prop :=
  ∀ (s : State) (d : TrussId) (e : QEntry) (s1 : State),
    (s.AtDecode d 0x00 e s1 → Completes (.nop d) s (s1.inlineDone d e)) ∧
    (s.AtDecode d 0x03 e s1 → (∀ q, 1 ≤ q → q ≤ 7 → e.mod.testBit (q - 1) = true → (s1.tr d).queueEmpty q = true) →
      Completes (.syFence d) s (s1.inlineDone d e)) ∧
    (s.AtDecode d 0x04 e s1 → Completes (.sySpadd d) s ((s1.addSpar d e.cr e.db).inlineDone d e)) ∧
    (s.AtDecode d 0x05 e s1 → Completes (.sySpclr d) s
      ((if e.cr = 0 then s1 else
        s1.modTr d fun t => { t with spcnt := vmod t.spcnt e.cr fun _ => 0, progress := true }).inlineDone d e)) ∧
    (s.AtDecode d 0xF0 e s1 → e.m 0 = false → e.cr ≠ 0 → Completes (.setp d) s
      ((s1.inlineDone d e).setField (16 + d) (0x80 + 4 * (e.cr / 4)) (4 * (e.cr % 4)) 4 (max 1 (e.db % 16)))) ∧
    (s.AtDecode d 0xF0 e s1 → e.m 0 = false → e.cr = 0 → Completes (.setp d) s (s1.inlineDone d e)) ∧
    (s.AtDecode d 0xF0 e s1 → e.m 0 = true → Completes (.setp d) s
      ((s1.inlineDone d e).setField (16 + d) (0x60 + 4 * ((e.cr - 56) / 4)) (4 * (e.cr % 4)) 4 (e.db % 16))) ∧
    (s.AtDecode d 0xA2 e s1 → Completes (.pcMark d) s ((s1.raise 0x282 (16 + d) (e.db + 0x1000 * d.val)).inlineDone d e)) ∧
    (s.AtDecode d 0xA0 e s1 → s1.userEn = true → Completes (.pcSnap d) s (s1.requestSnap.inlineDone d e)) ∧
    (s.AtDecode d 0xA1 e s1 → s1.userEn = true → Completes (.pcFreeze d) s ((s1.setFreeze (e.m 0)).inlineDone d e)) ∧
    (s.AtDecode d 0xA0 e s1 → s1.userEn = false → Completes (.pcSnap d) s ((s1.occ (16 + d) 7).inlineDone d e)) ∧
    (s.AtDecode d 0xA1 e s1 → s1.userEn = false → Completes (.pcFreeze d) s ((s1.occ (16 + d) 7).inlineDone d e)) ∧
    (s.AtDecode d 0xF2 e s1 → Completes (.sysStop d) s ((s1.modTr d fun t => { t with run := false }).inlineDone d e)) ∧
    (s.AtDecode d 0xF1 e s1 → Completes (.trap d) s ((s1.trap d .software { e.at 0 with code := e.db }).release d))

/-- SY.ALAT at decode completes. Bits 29 to 6 of its word go into ALAT[47:24] where MOD[0] is 1 and into ALAT[23:0] where it is 0; the other half and the
other Trusses' latches are as before (R227). With SY.DLOAD at decode, its waits taken and no descriptor of its range named by an incomplete
instruction, a load of one descriptor from the address latch (its low six bits read as zero) completes, where the 64 bytes stand in device
memory, can be reached and are not poisoned. Every table word of entry DA is then the little-endian word of memory at its place, unless DA is
0, and every other entry is as before (R192, R193, R228). -/
def Obligations.LatchAndDescriptorsAreLoaded : Prop :=
  (∀ (s : State) (d : TrussId) (e : QEntry) (s1 : State), s.AtDecode d 0x02 e s1 →
    let v : BitVec 24 := e.w0.extractLsb' 6 24
    let old := (s.tr d).alat
    let new : Word48 := if e.m 0 then v ++ (old.extractLsb' 0 24 : BitVec 24) else (old.extractLsb' 24 24 : BitVec 24) ++ v
    let t := (s1.modTr d fun t => { t with alat := new }).inlineDone d e
    Completes (.syAlat d) s t ∧ (t.tr d).alat = new ∧ ∀ x : TrussId, x ≠ d → (t.tr x).alat = (s.tr x).alat) ∧
  ∀ (s : State) (d : TrussId) (e : QEntry) (s1 : State), s.AtDecode d 0x01 e s1 → s1.interlocked d e = false → e.db = 0 →
    let src := (s.tr d).alat.toNat / 64 * 64
    (placeOf src).region.isMem = true → (placeOf src).twist = 0 → s1.rangeOk src 64 = true → s1.badUnits [{ a := src, n := 64 }] = [] →
    s1.snooped [{ a := src, n := 64 }] false = [] → s1.mcl.wanted = [] →
    let t := ((s1.touch (.cd d) [{ a := src, n := 64 }] false true).setDesc d e.da (wordsOf 8 (s1.bytes src 64))).inlineDone d e
    Completes (.syDload d (.memory none)) s t ∧
    ∀ i k, k < 8 → Sparse.wf 0 (s.tr d).desc = true → ((t.tr d).descWords i)[k]? =
      if i = e.da ∧ i ≠ 0 then some (BitVec.ofNat 64 (s.readNat (src + 8 * k) 8)) else ((s.tr d).descWords i)[k]?

/-- FETCH_LINE: the first line not yet held, in HBM or the Loft window, enters the fetch buffer with its 32 words (R176). INSTRUCTION_DECODE:
while no in-line instruction holds decode, a valid instruction for an issue queue with room leaves decode and enters that queue (R179, R180). INSTRUCTION_COMPLETE: the oldest issued
instruction of a queue that has reached its completion point leaves flight, its trap, if any, is taken, and its signal is applied
(R183, R184, R253). SPAR_SIGNAL_ARRIVE: the oldest message from one Truss to another leaves, and its weight is added to the destination's
own count (R188, R191). -/
def Obligations.StreamMovesOn : Prop :=
  (∀ (s : State) (d : TrussId) (k : Nat), (s.tr d).nextFetch = some k →
    let a := (s.tr d).ringBase + 256 * k
    (a < 0x8000000000 ∨ (a / 0x100000000 = 0x80 ∧ a % 0x100000000 < 0x40000000)) →
    s.rangeOk a 256 = true → s.badUnits [{ a, n := 256 }] = [] → s.snooped [{ a, n := 256 }] false = [] →
    Completes (.fetchLine d (.memory none)) s
      ((s.touch (.cd d) [{ a, n := 256 }] false true).holdLine d { line := k, words := wordsOf 32 (s.bytes a 256) })) ∧
  (∀ (s : State) (d : TrussId) (e : QEntry) (i : OpInfo), (s.tr d).decoding = true →
    (s.tr d).decTaken = none → (s.tr d).decTrap = false → (s.tr d).atDecode (s.level (16 + d) 4) = .ins e → decodeWord (s.level (16 + d) 4) e = .ok i → queueOf i e ≠ 0 →
    (vget (s.tr d).queues (queueOf i e) []).length < 16 →
    Completes (.instructionDecode d) s (((s.trussBoundary d).decoded d e).modTr d fun t =>
      { t with queues := vmod t.queues (queueOf i e) (· ++ [e]) })) ∧
  (∀ (s : State) (d : TrussId) (q : Fin 8) (i : Issued), (s.tr d).oldest q = some i → i.done = true →
    let s1 := s.modTr d fun t => { t with issued := t.issued.filter (·.e.seq ≠ i.e.seq), turn := none }
    Completes (.instructionComplete d q) s
      ((match i.trap with | some c => s1.trap d c (i.e.at q) | none => s1).signal d i.e.sg)) ∧
  (∀ (s : State) (src dst : TrussId) (x : SparSig) (l r : List SparSig), s.spars = l ++ x :: r → x.src = src.val → x.dst = dst.val →
    (∀ y ∈ l, ¬(y.src = src.val ∧ y.dst = dst.val)) →
    Completes (.sparSignalArrive src dst) s ({ s with spars := l ++ r }.addSpar dst x.spar x.weight))

/-- A write to TRUSS.SPUSH on a powered Truss, which comes in (heard: from the host only while MCL is UP and no WR of it waits in front, R453, R465), completes with SAVAIL := min(SAVAIL + n, SSIZE), SSIZE being the length of the ring in force;
n is the masked data. But for reports nothing else of the state changes (R173). A write by the host that does not come in leaves the state as it is,
and so does every other command that stands for such a CSR write: RUN, ABORT, SPUSH, a stash reset, LOFT and GA settings, ROLLBACK and REPUB, PCTL, TICKET,
EVCFG and EVCONS, MAILBOX_GO, a window change, self-test, SNAP, FREEZE and CLR. -/
def Obligations.PushAddsLines : Prop :=
  (∀ (s : State) (d : TrussId) (r : Requester) (n mask : Half), s.isLive (16 + d) = true → s.heard r = true →
    EndsIn (exec (.spush d r n mask) s)
      (s.modTr d fun t => { t with avail := min (t.avail + (n &&& mask).toNat) t.ringSize })) ∧
  ∀ (s : State) (c : Instr) (r : Requester), s.mcl.wanted = [] → writerOf c = some r → s.heard r = false → exec c s = .next s

/-- On a powered Truss, and written by a requester whose write comes in, RUN_START of a stopped Truss whose ring registers were written since completes with the written ring in force, SHEAD at
SRESTART clamped to the new last line, SAVAIL 0, word 0, an empty fetch buffer and no word being skipped; with no such write only RUN changes in the Truss, so that
head, word and available lines stay (R175, R178). RUN_START of a running Truss, while some Truss was not aborted, leaves every Truss.
RUN_STOP clears RUN and, but for reports, changes nothing else. -/
def Obligations.RunControlsTheStream : Prop :=
  ∀ (s : State) (d : TrussId) (r : Requester), s.isLive (16 + d) = true → s.heard r = true →
    (∃ t, exec (.runStart d r) s = .next t ∧ t.mem = s.mem ∧ t.ticket = s.ticket ∧
      (∀ x : TrussId, x ≠ d → t.tr x = s.tr x) ∧
      ((s.tr d).run = true → t.tr d = s.tr d) ∧
      ((s.tr d).run = false → (s.tr d).ringNew = false → t.tr d = { s.tr d with run := true }) ∧
      ((s.tr d).run = false → (s.tr d).ringNew = true → t.tr d = { s.tr d with
        run := true, ringNew := false, ringBase := (s.ringRegs d).1, ringSize := (s.ringRegs d).2, avail := 0, word := 0, fbuf := [],
        decTrap := false, head := min (s.regRaw (16 + d) 0x30).toNat ((s.ringRegs d).2 - 1) })) ∧
    EndsIn (exec (.runStop d r) s) (s.modTr d fun t => { t with run := false })

/-- ABORT, coming in, on a powered Truss begins the abort: ABORTING is set, every issue queue and every valley entry without a started visit is discarded,
and the stash is reset (R202 order 1, R322). Once no issued instruction, in-line ones included, and no started visit is left, ABORT_COMPLETE makes every spar count
0, puts the head at SRESTART clamped to the ring, clears SAVAIL, TRAPPED, MULTI, ABORTING and RUN, and leaves the address latch and the
descriptor table; no other Truss, no memory and no register changes (R202 order 3, R227). The trap registers then read no trap
(DEDUCED, from R201: they hold the first trap taken after the last abort). -/
def Obligations.AbortEndsTheStream : Prop :=
  ∀ (s : State) (d : TrussId) (r : Requester),
    (s.isLive (16 + d) = true → s.heard r = true →
      let t := (s.reached (16 + d)).abortStart d
      Completes (.abort d r) s t ∧ (t.tr d).aborting = true ∧ (∀ q, vget (t.tr d).queues q [] = []) ∧
        (∀ v ∈ (t.tr d).valley, v.visiting.isSome = true) ∧ (t.tr d).alat = (s.tr d).alat) ∧
    ((s.tr d).aborting = true → (s.tr d).issued = [] → (s.tr d).decTaken = none → (∀ v ∈ (s.tr d).valley, v.visiting = none) →
      ∃ t, exec (.abortComplete d) s = .next t ∧ (∀ k, 1 ≤ k → (t.tr d).spar k = 0) ∧
        (t.tr d).head = min (s.regRaw (16 + d) 0x30).toNat ((s.tr d).ringSize - 1) ∧ (t.tr d).avail = 0 ∧
        (t.tr d).trapped = false ∧ (t.tr d).multi = false ∧ (t.tr d).aborting = false ∧ (t.tr d).run = false ∧
        (t.tr d).trap.cause = 0 ∧ (t.tr d).alat = (s.tr d).alat ∧ (t.tr d).desc = (s.tr d).desc ∧
        (∀ x : TrussId, x ≠ d → t.tr x = s.tr x) ∧ t = { s with truss := t.truss, commit := t.commit })

/-- A tick of a powered Truss completes. It is idle where some instruction waits on a spar and nothing decoded, issued or changed a count since the
last tick; an idle tick adds one to the run of idle ticks, any other ends it. Where the run is at least the limit in force, which is not 0, the run
starts again and WAIT_TIMEOUT is taken against the oldest waiting instruction; otherwise nothing else changes (R195, R204). -/
def Obligations.WatchdogCountsIdleTicks : Prop :=
  ∀ (s : State) (d : TrussId), s.isLive (16 + d) = true →
    let s0 := s.trussBoundary d
    let idle := !(s.tr d).progress && !(s0.waiting d).isEmpty
    let n := if idle then (s.tr d).idle + 1 else 0
    let limit := if s.level (16 + d) 4 then (s.regRaw (16 + d) 0xC).toNat else 0x1DCE
    (idle = true → limit ≠ 0 → limit ≤ n →
      Completes (.watchdogTick d) s ((s0.modTr d fun t => { t with idle := 0, progress := false }).waitTimeout d)) ∧
    ((idle = false ∨ limit = 0 ∨ n < limit) →
      Completes (.watchdogTick d) s (s0.modTr d fun t => { t with idle := n, progress := false }))

/-- MM.LOADW at a queue head, on a course whose load engine and shadow bank are free, with a valid view, a permitted format, the edge of the cut
in force and MX data read transposed, issues: the course holds the load, and its banks are as before (R232 to R234). SHADOW_LOAD_BEGIN of a
load that has not begun on an array that holds nothing back makes it begun with the tile's values read from memory, the live bank as before
(R49, R52). SHADOW_LOAD_END of a load in progress without a trap makes its bank the valid shadow bank, leaves the live bank while nothing
waits at the array, and completes the instruction (R44, R183); with a trap it leaves both banks while nothing waits, the trap is taken and
the shadow bank is not valid (R51). -/
def Obligations.ShadowLoadFillsTheShadowBank : Prop :=
  (∀ (s : State) (d : TrussId) (a : LocalId) (e : QEntry), s.AtHead d (1 + a) 0x10 e → e.cr < 36 →
    let i := 2 * d.val + a.val
    let k := (s.gaAt i).course e.cr
    let x := s.desc d e.da
    let edge := bits e.mod 1 2
    k.load = none → k.fgShadow = false → x.check arrayFmt = none → (isMx x.fmt = true → e.m 3 = true) →
    (s.gaAt i).edgeBad edge = false → edge = (s.gaAt i).cut →
    let l : Load := { ins := ⟨d, e.seq⟩, e, stat := (s.tr d).descWords e.da, edge,
                      bank := tileBank x (e.m 3) (edgeOf edge) (e.db + 4096 * e.hi 0 20) }
    let t := (s.issue d (1 + a) e).modCourse i e.cr fun k => { k with load := some l }
    Completes (.mmLoadw d a) s t ∧ (t.gaAt i).course e.cr = { k with load := some l }) ∧
  (∀ (s : State) (i : ArrayId) (c : Fin 36) (l : Load), ((s.gaAt i).course c).load = some l → l.began = false →
    (s.gaAt i).held = false →
    let t := s.beginLoad i c l
    Completes (.shadowLoadBegin i c) s t ∧ ((t.gaAt i).course c).live = ((s.gaAt i).course c).live ∧
    ∃ m, ((t.gaAt i).course c).load = some m ∧ m.began = true ∧ m.ins = l.ins ∧
      m.bank.data = s.tileData (Desc.ofWords l.stat) (l.e.m 3) l.bank (edgeOf l.edge)) ∧
  (∀ (s : State) (i : ArrayId) (c : Fin 36) (l : Load), ((s.gaAt i).course c).load = some l → l.began = true → l.trap = none →
    let t := ((s.modCourse i c fun k => { k with load := none, shadow := { l.bank with valid := true } }).finishRef l.ins none).settle i
    Completes (.shadowLoadEnd i c) s t ∧
    ((s.gaAt i).ops = [] → (t.gaAt i).course c =
      { (s.gaAt i).course c with load := none, shadow := { l.bank with valid := true } })) ∧
  (∀ (s : State) (i : ArrayId) (c : Fin 36) (l : Load) (x : TrapCause), ((s.gaAt i).course c).load = some l → l.began = true →
    l.trap = some x → (s.gaAt i).ops = [] →
    let t := (((s.trapRef l.ins x).loadFails i c).finishRef l.ins none).settle i
    Completes (.shadowLoadEnd i c) s t ∧ ((t.gaAt i).course c).live = ((s.gaAt i).course c).live ∧
    ((t.gaAt i).course c).shadow.valid = false ∧ ((t.gaAt i).course c).load = none)

/-- MM.SWAP of one course at a queue head, on an array at which nothing waits, with a valid shadow bank and no load outstanding, swaps at once
and completes: the live bank is what the shadow bank was, a parity mark is gone, and the shadow bank is empty (R48, R71, R235). MM.SWAP of
every course does so on each course whose shadow bank is valid, and leaves every other as it was. With AUTOSWAP
in force it does nothing but complete (R65). A course with AUTOSWAP in force and a valid foreground shadow bank swaps by itself in the same
way (AUTOSWAP). That a swap empties the shadow bank is DEDUCED (log entry 18). -/
def Obligations.SwapTakesTheShadowBank : Prop :=
  (∀ (s : State) (d : TrussId) (a : LocalId) (e : QEntry), s.AtHead d (1 + a) 0x11 e → e.m 1 = false → e.cr < 36 →
    let i := 2 * d.val + a.val
    let k := (s.gaAt i).course e.cr
    (s.gaAt i).autoswap = false → (s.gaAt i).recut = false → (s.gaAt i).ops = [] → k.load = none → k.fgShadow = true →
    k.failed = false → s.pwrc.hold = false →
    let t := ((s.issue d (1 + a) e).swapFore i e.cr).finishRef ⟨d, e.seq⟩
    Completes (.mmSwap d a) s t ∧ (t.gaAt i).course e.cr = { k with live := k.shadow, shadow := {}, parity := false }) ∧
  (∀ (s : State) (d : TrussId) (a : LocalId) (e : QEntry), s.AtHead d (1 + a) 0x11 e → e.m 1 = true →
    let i := 2 * d.val + a.val
    let g := s.gaAt i
    g.autoswap = false → g.recut = false → g.ops = [] → s.pwrc.hold = false →
    (∀ c ∈ g.all, (g.course c).load = none ∧ (g.course c).failed = false) → (∃ c ∈ g.all, (g.course c).fgShadow = true) →
    let t := ((s.issue d (1 + a) e).each g.all fun s c =>
      if (g.course c).fgShadow then s.swapFore i c else s.modGa i (·.landed c)).finishRef ⟨d, e.seq⟩
    Completes (.mmSwap d a) s t ∧ ∀ c ∈ g.all, (t.gaAt i).course c =
      if (g.course c).fgShadow then { g.course c with live := (g.course c).shadow, shadow := {}, parity := false } else g.course c) ∧
  (∀ (s : State) (d : TrussId) (a : LocalId) (e : QEntry), s.AtHead d (1 + a) 0x11 e → (s.gaAt (2 * d.val + a.val)).autoswap = true →
    Completes (.mmSwap d a) s ((s.issue d (1 + a) e).finish d e.seq)) ∧
  (∀ (s : State) (i : ArrayId) (c : Fin 36), (s.gaAt i).autoswap = true → (s.gaAt i).recut = false →
    ((s.gaAt i).course c).fgShadow = true → ((s.gaAt i).course c).halted = false → (s.gaAt i).ops = [] → s.pwrc.hold = false →
    let k := (s.gaAt i).course c
    let t := s.swapFore i c
    Completes (.autoswap i c) s t ∧ (t.gaAt i).course c = { k with live := k.shadow, shadow := {}, parity := false })

/-- MM.RUN at a queue head, on an array at which nothing is held or waits and on a course that is not halted, whose live bank is valid and
which the run is bound to (no shadow tile is there or on its way that AUTOSWAP would swap in), with operands that take no trap at issue,
opens its record if MO says so, runs the tile it finds live, and completes with the trap that the run
gives, if any (R236 to R238, R65). In memory in canonical form, every byte outside the blocks it writes (destination, partial and total
view, as the tile's place in K decides, R237) and outside the max and silence record of the destination reads as before. -/
def Obligations.RunStoresItsResults : Prop :=
  ∀ (s : State) (d : TrussId) (a : LocalId) (f : RunFaults) (e : QEntry), s.AtHead d (1 + a) 0x12 e → e.cr < 36 →
    let i := 2 * d.val + a.val
    let g := s.gaAt i
    let k := g.course e.cr
    g.held = false → g.ops = [] → g.bindsShadow e.cr = false → k.live.valid = true → k.halted = false → s.pwrc.hold = false →
    let mov := s.desc d e.da
    let dst := s.desc d e.db
    let p := partIdx dst e.db
    runTraps g (some k.live) mov dst (s.desc d p) (s.desc d (descIdx (p + 1))) e = none →
    let w (n : Nat) : List Word64 := (s.tr d).descWords n
    let r : RunReq := { ins := ⟨d, e.seq⟩, e, mov := w e.da, dst := w e.db, part := w p, total := w (descIdx (p + 1)),
                        seed := s.seed i, faults := f, toShadow := false }
    let rows := e.window (mov.rowsT (e.m 1))
    let u := ((s.issue d (1 + a) e).openAtIssue i dst (e.m 3 && rows.1 < rows.2)).runTile i e.cr r.tileRun f false
    let t := u.1.finishRef ⟨d, e.seq⟩ u.2
    Completes (.mmRun d a f) s t ∧
    (Memory.wf s.mem = true → s.KeepsOutside t
      (r.tileRun.writes (tileGeo k.live (edgeOf g.cut) (mov.colsT (e.m 1))) ++ dst.recSpans false))

/-- For a product whose contraction fits one chunk (at most 65,536) and a tile that holds all of it, an output element's final sum is the left
fold of its group sums in ascending order from +0, each join rounded once to Z40, each group sum being the exact sum of the exact products of
the group rounded once (R107, R108, R110). -/
def Obligations.ProductsFoldInAscendingGroups : Prop :=
  ∀ (s : State) (b : Bank) (t : TileGeo) (x : TileRun) (m n : Nat), t.k0 = 0 → t.k1 = t.kc → 0 < t.kc → t.kc ≤ 65536 →
    t.q = 32 ∨ t.q = 64 → x.seeded = false →
    (s.accAt b t x m n).total = (groupsOf t.q 0 t.kc).foldl (fun acc g =>
      rneZ40 (acc.add (rneZ40 (Machine.Num.sum ((List.range (g.2 - g.1)).map fun j =>
        (s.valueT x.mov x.tr m (g.1 + j)).mul ((b.data.getD (n - t.n0) []).getD (g.1 + j) Machine.Num.zero)))))) Machine.Num.zero

/-- GA_CFG_WRITE, coming in, on a powered array leaves the settings in force (level, profile, cut, AUTOSWAP, arbitration, parity policy) as they were, and
marks a change pending exactly where the registers now differ from them (R18, R54). DRAIN_BOUNDARY with a change pending and the array drained
puts the settings asked for in force; where the cut changes, a recut begins and every bank of every course is empty (R55). RECUT_DONE ends the
recut and lets what was held go on. -/
def Obligations.ArraySettingsWaitForTheBoundary : Prop :=
  (∀ (s : State) (i : ArrayId) (r : Requester) (x : Bool) (data mask : Half), s.isLive i = true → s.heard r = true →
    let off := if x then 4 else 0
    let t := (s.reached i).writeGa i r off data mask
    Completes (.gaCfgWrite i r x data mask) s t ∧
    (t.gaAt i).expert = (s.gaAt i).expert ∧ (t.gaAt i).rollout = (s.gaAt i).rollout ∧ (t.gaAt i).cut = (s.gaAt i).cut ∧
    (t.gaAt i).autoswap = (s.gaAt i).autoswap ∧ (t.gaAt i).arb = (s.gaAt i).arb ∧ (t.gaAt i).parpol = (s.gaAt i).parpol ∧
    ((s.gaAt i).ops = [] → (t.gaAt i).pendCsr = t.gaDiffers i)) ∧
  (∀ (s : State) (i : ArrayId), (s.gaAt i).pending = true → (s.gaAt i).recut = false → (s.gaAt i).drained = true →
    let g := { s.gaTarget i (s.gaAt i) with pendCsr := false, pendEdge := none, pendFill := none }
    (g.cut = (s.gaAt i).cut → Completes (.drainBoundary i) s ((s.modGa i fun _ => g).resume i)) ∧
    (g.cut ≠ (s.gaAt i).cut → s.mcl.wanted = [] → ∃ t, exec (.drainBoundary i) s = .next t ∧ (t.gaAt i).cut = g.cut ∧ (t.gaAt i).recut = true ∧
      ∀ c < 36, ((t.gaAt i).course c).live = {} ∧ ((t.gaAt i).course c).shadow = {})) ∧
  (∀ (s : State) (i : ArrayId), (s.gaAt i).recut = true →
    Completes (.recutDone i) s ((s.modGa i fun g => { g with recut := false }).resume i))

/-- For a container word whose Z40 value is finite, the binary32 value of bits [63:32] has the same sign and the magnitude cut to a whole number
of units 256 times as large as the Z40 unit: normals and subnormals lose their eight lowest fraction bits and zeros stay. An infinity stays the
infinity of its sign, and the canonical Z40 NaN gives the canonical binary32 NaN 0x7FC0_0000. -/
def Obligations.ContainerTruncatesToBinary32 : Prop :=
  ∀ w : Word64,
    (∀ neg m e, ofContainer w = .fin neg m e →
      ofB32 (w.toNat / 2 ^ 32) = if m / 256 = 0 then .fin neg 0 0 else .fin neg (m / 256) (e + 8)) ∧
    (∀ neg, ofContainer w = .inf neg → ofB32 (w.toNat / 2 ^ 32) = .inf neg) ∧
    (w.toNat / 2 ^ 24 = Layout.z40.nanCode → w.toNat / 2 ^ 32 = Layout.binary32.nanCode)

/-- For each of the seven layouts and each of its encodings that is not a NaN, the conversion of the encoding's value into the same layout, to
nearest even or toward zero, saturating or not, gives exactly that encoding and reports no overflow: no bit is dropped and signed zeros,
subnormals and infinities keep their codes (R78 to R86). An infinity occurs only in layouts that have one. -/
def Obligations.RepresentableValuesConvertExactly : Prop :=
  ∀ (l : Layout) (c : Nat) (sat : Bool) (r : Round), c < 2 ^ l.width → (l.decode c).isNan = false → r = .rne ∨ r = .zero →
    l.convert sat r (l.decode c) = ⟨c, false⟩

/-- A descriptor's exponent lies from −128 to 127, whatever its words. In E4M3, E5M2 and binary16 (format codes 0, 1, 6) a stored code has the value of
the code times 2^-s, and a conversion converts x times 2^s. In bfloat16, binary32 and the two Z40 forms (5, 7, 8, 9) the value of a code and
the conversion are the same for every exponent; an MX element's value (2, 3, 4) does not depend on it either. For the MX formats: with a
scale code other than 0xFF the value is the element's value times 2^(X − 127), with 0xFF it is NaN; within a block of finite scale a NaN element is
NaN and an infinite one is infinity of its sign, each element by itself. -/
def Obligations.ScalesActAsTheFormatSays : Prop :=
  (∀ ws : List Word64, -128 ≤ (Desc.ofWords ws).sexp ∧ (Desc.ofWords ws).sexp ≤ 127) ∧
  (∀ f ∈ [0, 1, 6], ∀ (s : Int) (k c : Nat), decodeElem f s k c = ((layoutOf f).decode c).scale (-s)) ∧
  (∀ (x : Desc) (s : Int) (r : Round) (v : Machine.Num), x.fmt ∈ [0, 1, 6] →
    convertTo x s r v = (layoutOf x.fmt).convert (!x.nonsat) r (v.scale s)) ∧
  (∀ f ∈ [2, 3, 4, 5, 7, 8, 9], ∀ (s t : Int) (k c : Nat), decodeElem f s k c = decodeElem f t k c) ∧
  (∀ (x : Desc) (s t : Int) (r : Round) (v : Machine.Num), x.fmt ∈ [5, 7, 8, 9] → convertTo x s r v = convertTo x t r v) ∧
  (∀ f ∈ [2, 3, 4], ∀ (s : Int) (x c : Nat),
    (x ≠ 0xFF → decodeElem f s x c = ((layoutOf f).decode c).scale ((x : Int) - 127)) ∧
    decodeElem f s 0xFF c = .nan ∧
    (x ≠ 0xFF → (layoutOf f).decode c = .nan → decodeElem f s x c = .nan) ∧
    (∀ neg, x ≠ 0xFF → (layoutOf f).decode c = .inf neg → decodeElem f s x c = .inf neg))

/-- MM.DEFER at decode with operands that take no trap and a queue of fewer than 64 entries opens its record if MO says so, puts an entry behind
the others, with its three descriptors as they stand and bound to the array that ARR names, and leaves decode without signalling (R151, R224,
R240). MM.VQDRAIN at decode completes when the queue is empty (R241). FILL_VISIT for a powered array that holds nothing back, with no hold
in force, starts a visit of the oldest entry the array may take, if its edge is that of the cut and a course can be filled: the tile goes
into the shadow bank of that course, or is run where its live bank holds it already (R153, R154). A visit whose tile was loaded swaps it in
and injects, where the course is not halted and no vector waits for its live bank; the physical faults that meet it are free (log entry 22). -/
def Obligations.ValleyEntriesAreVisited : Prop :=
  (∀ (s : State) (d : TrussId) (e : QEntry) (s1 : State), s.AtDecode d 0x13 e s1 →
    let k (j : Nat) : Nat := descIdx (e.da + j)
    s1.deferTraps d e (s1.desc d (k 0)) (s1.desc d (k 1)) (s1.desc d (k 2)) = none → (s1.tr d).valley.length < 64 →
    let v : VEntry := { e, stat := (s1.tr d).descWords (k 0), mov := (s1.tr d).descWords (k 1), dst := (s1.tr d).descWords (k 2),
                        bound := match bits e.mod 0 2 with | 0 => some false | 1 => some true | _ => none }
    let t := ((s1.openAtIssue (2 * d.val + (if v.bound = some true then 1 else 0)) v.dstD (e.m 6)).modTr d fun t =>
      { t with valley := t.valley ++ [v], vqFull := false }).release d
    Completes (.mmDefer d) s t ∧ (t.tr d).valley = (s1.tr d).valley ++ [v] ∧ (t.tr d).spcnt = (s1.tr d).spcnt) ∧
  (∀ (s : State) (d : TrussId) (e : QEntry) (s1 : State), s.AtDecode d 0x14 e s1 → (s1.tr d).valley = [] →
    Completes (.mmVqdrain d) s ((s1.modTr d fun t => { t with vqDrain := false }).inlineDone d e)) ∧
  (∀ (s : State) (d : TrussId) (a : LocalId) (k c : Nat) (v : VEntry), s.pwrc.hold = false →
    let u := s.markUrgent d
    (u.tr d).candidate a = some (k, v) →
    let i := 2 * d.val + a.val
    let v' := { v with bound := some (decide (a.val = 1)) }
    let w := u.occ (16 + d) 4
    (v.visiting = none → (s.tr d).trapped = false → (s.tr d).aborting = false → s.isLive i = true →
      (v.urgent = true ∨ s.cfgBits (16 + d) 0x200 1 1 ≠ 1) → v.edge = (s.gaAt i).cut → (s.gaAt i).held = false →
      u.fillable d i v.urgent v = some c →
      (v'.holds d ((s.gaAt i).course c).live = false → Completes (.fillVisit d a) s (w.visitLoad d a k c v')) ∧
      (v'.holds d ((s.gaAt i).course c).live = true →
        Completes (.fillVisit d a) s (w.visitRun d a k c (w.visitLen d i v') v'))) ∧
    (v.visiting = some c → ((s.gaAt i).course c).halted = false → (s.gaAt i).liveRuns c = [] →
      v.holds d ((s.gaAt i).course c).shadow = true →
      Completes (.fillVisit d a) s ((u.swapCourse i c).visitRun d a k c v.len v)))

/-- TX.COPY, TX.TRANS and TX.QUANT at a queue head that may issue, with operands that take no trap at issue, issue, open the record if MO
says so, do their work and reach their completion point, with the trap of their accesses, if any (R242 to R244, R253). In memory in
canonical form, every byte outside the blocks of the destination views that the row window reaches and outside the records that the
destinations and a measured source name reads as before. -/
def Obligations.FeederMovesStoreIntoDestinations : Prop :=
  (∀ (s : State) (d : TrussId) (f : LocalId) (e : QEntry) (tr : Bool), s.AtHead d (3 + f) (if tr then 0x31 else 0x30) e →
    let i := 2 * d.val + f.val
    let src := s.desc d e.da
    let dst := s.desc d e.db
    copyTraps src dst tr = none →
    let rows := e.window (src.rowsT tr)
    let u := ((s.issue d (3 + f) e).openAtIssue i dst (e.m 1 && rows.1 < rows.2)).copyView i e src dst tr
    let t := u.1.finish d e.seq u.2
    Completes (if tr then .txTrans d f else .txCopy d f) s t ∧
    (Memory.wf s.mem = true → s.KeepsOutside t
      (dst.blockSpans (moveWindow e src dst tr).1 (moveWindow e src dst tr).2.1 0 (moveWindow e src dst tr).2.2 ++ dst.recSpans false))) ∧
  (∀ (s : State) (d : TrussId) (f : LocalId) (e : QEntry), s.AtHead d (3 + f) 0x32 e →
    let i := 2 * d.val + f.val
    let src := s.desc d e.da
    let idx := e.db :: (if e.m 3 then [descIdx (e.db + 1)] else [])
    let dsts := idx.map fun k => (k, s.desc d k)
    quantTraps src (dsts.map (·.2)) (e.m 1 || e.m 3) = none →
    let u := (s.issue d (3 + f) e).quantize d i e src dsts
    let t := u.1.finish d e.seq u.2
    Completes (.txQuant d f) s t ∧
    (Memory.wf s.mem = true → s.KeepsOutside t
      ((dsts.flatMap fun p => p.2.blockSpans 0 p.2.rows 0 p.2.cols ++ p.2.recSpans true) ++ src.recSpans false)))

/-- RD.NORMF, RD.NORMB, RD.SMAXF and RD.SMAXB at the head of Q_RD, where they may issue, with no trap at issue. With an empty row window each
completes at once. Else each fills the row buffer where its rows fit (R166), opens the records of its outputs if MO says so, does its work and
reaches its completion point with the trap of its accesses, if any (R160, R225, R248 to R251, R253). In memory in canonical form every byte
outside the blocks of the output views, the records that the outputs name and, for the forward forms, the rows of the record run that the
window reaches, reads as before. -/
def Obligations.RidgeInstructionsStoreTheirOutputs : Prop :=
  ∀ (s : State) (d : TrussId) (e : QEntry),
    let k (j : Nat) : Desc := s.desc d (e.da + j)
    let w := e.window ((k 0).rowsT (e.m 6))
    let out (j : Nat) : List Span := (k j).blockSpans 0 (k j).rows 0 (k j).cols ++ (k j).recSpans true
    let s1 := s.issue d 5 e
    let works (c : Instr) (op : Nat) (traps : List (Option TrapCause)) (outs : List Desc)
        (work : State → QEntry → State × Option TrapCause) (stored : List Span) : Prop :=
      s.AtHead d 5 op e → firstTrap traps = none →
        (w.2 ≤ w.1 → Completes c s ((s1.occ (20 + d) 0).finish d e.seq)) ∧
        (w.1 < w.2 →
          let u := work ((s1.modTr d fun t => { t with rowBuf := (k 0).colsT (e.m 6) ≤ 16384 }).each outs fun s x =>
            s.openAtIssue (s.ridgePort d 0) x (e.m 3)) e
          let t := u.1.finish d e.seq u.2
          Completes c s t ∧ (Memory.wf s.mem = true → s.KeepsOutside t stored))
    works (.rdNormf d) 0x50 (s1.normFTraps d e) [k 1] (fun s e => s.ridgeNormF d e) (out 1 ++ (k 4).recRows w.1 w.2) ∧
    works (.rdNormb d) 0x51 (s1.normBTraps d e) (s1.normBOuts d e) (fun s e => s.ridgeNormB d e) (out 4 ++ out 5 ++ out 6) ∧
    works (.rdSmaxf d) 0x52 (s1.smaxFTraps d e) [k 1] (fun s e => s.ridgeSmaxF d e) (out 1 ++ (k 2).recRows w.1 w.2) ∧
    works (.rdSmaxb d) 0x53 (s1.smaxBTraps d e) [k 3] (fun s e => s.ridgeSmaxB d e) (out 3)

/-- Allocating page p of a Truss's stash range maps it to the pool page of lowest number that no page of the map has; where every pool page is taken, and
spilling is not off, to the spill page of lowest number below the quota that no page has; where neither is to be had the map stays and the
allocation fails. No other page moves, no other Truss's map, and no memory (R317, R319). -/
def Obligations.StashTakesLowestPage : Prop :=
  ∀ (s : State) (d : TrussId) (p : Nat),
    let m := (s.tr d).stash
    let t := (s.allocPage d p).1
    let free (k : Nat → Page) (n : Nat) : Prop := ∀ q ∈ m.map, q.2 ≠ k n
    Sparse.wf .empty m.map = true →
    (∀ n, n < m.ppages → free .pool n → (∀ k, k < n → ¬ free .pool k) →
      (s.allocPage d p).2 = true ∧ ∀ q, (t.tr d).stash.look q = if q = p then .pool n else m.look q) ∧
    ((∀ k, k < m.ppages → ¬ free .pool k) → m.nospill = false → ∀ n, n < m.quota → free .spill n → (∀ k, k < n → ¬ free .spill k) →
      (s.allocPage d p).2 = true ∧ ∀ q, (t.tr d).stash.look q = if q = p then .spill n else m.look q) ∧
    ((∀ k, k < m.ppages → ¬ free .pool k) → (m.nospill = true ∨ ∀ k, k < m.quota → ¬ free .spill k) →
      s.allocPage d p = (s, false)) ∧
    t.mem = s.mem ∧ ∀ x : TrussId, x ≠ d → t.tr x = s.tr x

/-- At the head of Q_TIER, with no trap at issue and operands where they may stand. TX.STASH, whose source has no EMPTY page, issues, takes pages for
its destination and moves its pieces, or stalls for want of a page. TX.FETCH, whose source and destination have no EMPTY page, issues, moves its
pieces and gives back every page its source view touches. TX.GATHER, whose index list is at hand (one in the
Underlay is asked of the host first, over a link that is UP), issues and moves the rows its indices name, rows
beyond the table being zeros, whose pieces are those of the model (R245 to R247, R292, R318 to R321). In memory in canonical form, on a Truss
whose stash range begins at a page (as each reset of it sees to: StashResetsAndReports) and has no other TX.STASH stalled, every byte outside
the places that the stash map gives the destination's blocks reads as before; Underlay bytes are not of the device. -/
def Obligations.TierMovesStoreIntoDestinations : Prop :=
  ∀ (s : State) (d : TrussId) (e : QEntry),
    let src := s.desc d e.da
    let dst := s.desc d e.db
    let rows := min src.rows dst.rows
    let c := min src.cols dst.cols
    let reads := src.spans 0 rows 0 c
    let writes := dst.blockSpans 0 rows 0 c
    let m := (s.tr d).stash
    let empty (l : List Span) : Bool := (m.pages l).any fun p => m.look p = .empty
    let s1 := s.issue d 6 e
    (s.AtHead d 6 0x38 e → tierTraps src dst = none → (reads ++ writes).all (s.tierSpan (some d.val)) = true → empty reads = false →
      let t := s1.stashTry { ins := ⟨d, e.seq⟩, src := (s.tr d).descWords e.da, dst := (s.tr d).descWords e.db }
      Completes (.txStash d) s t ∧ (Memory.wf s.mem = true → m.range % pageBytes = 0 → s.KeepsOutsideRouted t (t.tr d).stash writes)) ∧
    (s.AtHead d 6 0x39 e → tierTraps src dst = none → (reads ++ writes).all (s.tierSpan (some d.val)) = true → empty reads = false →
      empty writes = false →
      let s2 := s1.modTr d fun t =>
        { t with stash := { t.stash with freeing := t.stash.freeing ++ [(⟨d, e.seq⟩, m.pages (src.blockSpans 0 src.rows 0 src.cols))] } }
      let t := (s2.moveAll ⟨d, e.seq⟩ reads [] writes (movePieces src dst)).freePages ⟨d, e.seq⟩
      Completes (.txFetch d) s t ∧
      (Memory.wf s.mem = true → m.range % pageBytes = 0 → m.stalled = [] → s.KeepsOutsideRouted t m writes)) ∧
    (∀ data : LineData, s.AtHead d 6 0x3A e →
      let out := s.desc d (descIdx (e.db + 1))
      let n := min dst.rows out.rows
      let outs := out.blockSpans 0 n 0 out.cols
      gatherTraps src dst out = none → (dst.runSpan :: outs).all (s.tierSpan none) = true → tableOk src.all = true →
      (∀ x ∈ src.all, s.rangeOk x.a x.n = true) → indexAtHand ((placeOf dst.base).region = .underlay) (4 * n) data = true →
      ((placeOf dst.base).region = .underlay → s.mcl.link = 2) →
      let t := (if (placeOf dst.base).region = .underlay then s1.askIndex d dst.runSpan data else s1).gather d e data
      Completes (.txGather d data) s t ∧
      (Memory.wf s.mem = true → m.range % pageBytes = 0 → s.KeepsOutsideRouted t m outs))

/-- STASH_RESET, coming in, on a powered Truss: with no TX.STASH stalled every page reads EMPTY and range, pool, spill area, quota and spill switch are those of
the registers, the range beginning at a page; other Trusses keep theirs and memory is unchanged (R317, R322). Stalled ones are then tried again.
STASH_FULL_TIMEOUT marks the oldest stall that has not raised its event as raised and raises EV_STASH_FULL (0x2C0) with the Truss (R321, R323). -/
def Obligations.StashResetsAndReports : Prop :=
  (∀ (s : State) (d : TrussId) (r : Requester), s.isLive (16 + d) = true → s.heard r = true →
    let t := (s.reached (16 + d)).stashReset d
    Completes (.stashReset d r) s t ∧
    ((s.tr d).stash.stalled = [] → (∀ p, (t.tr d).stash.look p = .empty) ∧ (t.tr d).stash.range % pageBytes = 0 ∧
      (t.tr d).stash.range = (s.stashRegs d).range ∧ (t.tr d).stash.rpages = (s.stashRegs d).rpages ∧
      (t.tr d).stash.pool = (s.stashRegs d).pool ∧ (t.tr d).stash.ppages = (s.stashRegs d).ppages ∧
      (t.tr d).stash.spill = (s.stashRegs d).spill ∧ (t.tr d).stash.quota = (s.stashRegs d).quota ∧
      (t.tr d).stash.nospill = (s.stashRegs d).nospill ∧ t.mem = s.mem ∧ ∀ x : TrussId, x ≠ d → t.tr x = s.tr x)) ∧
  (∀ (s : State) (d : TrussId) (x : StashStall), (s.tr d).stash.stalled.find? (!·.raised) = some x →
    exec (.stashFullTimeout d) s = .next ((s.modTr d fun t =>
      { t with stash := { t.stash with stalled := t.stash.stalled.map fun y => if y.ins = x.ins then { y with raised := true } else y } }).raise
        0x2C0 (16 + d) d))

/-- LOFT_RECONF, coming in, on a powered slice completes: the register is written, the mode in force stays, and a change is in progress from then on where the registers
differ from what is in force; memory, the other slices and the lines of this one are as they were. LOFT_RECONF_DONE ends a change: the
mode and the expert fields of the registers are in force and no change is in progress, the scratchpad bytes between the old and the new size read
zero and unpoisoned, every other byte of memory reads as before, and the other slices are as they were (R294, R297). With none in progress
it leaves the state. -/
def Obligations.LoftModeChangesClearTheScratchpad : Prop :=
  (∀ (s : State) (k : StackId) (r : Requester) (x : Bool) (data mask : Half), s.isLive (32 + k) = true → s.heard r = true →
    let off := if x then 4 else 0
    let w := (s.reached (32 + k)).regWrite r (32 + k) off data mask
    let t := (s.reached (32 + k)).writeLoft k r off data mask
    exec (.loftReconf k r x data mask) s = .next t ∧ t.mem = s.mem ∧ (∀ j : StackId, j ≠ k → t.loftAt j = s.loftAt j) ∧
    t.loftAt k = (if w.loftDiffers k then { s.loftAt k with reconf := true } else s.loftAt k)) ∧
  (∀ (s : State) (k : StackId), (s.loftAt k).reconf = true → Memory.wf s.mem = true → Sparse.wf false s.poison = true →
    let base := 0x8000000000 + k.val * 0x8000000
    let t := ((s.loftApply k).modLoft k fun l => { l with reconf := false }).occ (32 + k) 3
    let lo := base + min (s.loftAt k).scratch (t.loftAt k).scratch
    let hi := base + max (s.loftAt k).scratch (t.loftAt k).scratch
    exec (.loftReconfDone k) s = .next t ∧ (t.loftAt k).reconf = false ∧
    (t.loftAt k).mode = bits (s.cfg (32 + k) 0).toNat 1 2 ∧ (t.loftAt k).expert = s.level (32 + k) 0 ∧
    (∀ j : StackId, j ≠ k → t.loftAt j = s.loftAt j) ∧
    (∀ a, a < lo ∨ hi ≤ a → t.byte a = s.byte a) ∧ (∀ a, lo ≤ a → a < hi → t.byte a = 0 ∧ t.poisonAt a = false)) ∧
  (∀ (s : State) (k : StackId), (s.loftAt k).reconf = false → exec (.loftReconfDone k) s = .next s)

/-- OBJECT_REGISTER of an entry that is not VALID, with a legal number, size, tiers and places: the entry is VALID with the fields that software wrote, in
state RESIDENT with its home copy authoritative, no pins and nothing pending. With an illegal one it stays not VALID, which is counted (R307,
R308). OBJECT_DEREGISTER of a RESIDENT object with its home copy authoritative, no pins and no request in the directory leaves the entry not
VALID; any other valid entry keeps its word and the write is counted. Memory and every other object are unchanged. While HUBNOC, which holds the tables, is dark
both are ignored (R503): tables and memory keep their words. -/
def Obligations.ObjectsAreRegisteredWhenLegal : Prop :=
  (∀ (s : State) (n : Fin 16384) (w : Word64), s.isLive 59 = false →
    (∃ t, exec (.objectRegister n w) s = .next t ∧ t.table = s.table ∧ t.mem = s.mem) ∧
    (∃ t, exec (.objectDeregister n w) s = .next t ∧ t.table = s.table ∧ t.mem = s.mem)) ∧
  ∀ (s : State) (n : Fin 16384) (w : Word64), s.isLive 59 = true → s.Canonical →
    let v := w.toNat / 2 * 2 + 1
    let o := Obj.ofWords v (s.tword (obKey n 1)) (s.tword (obKey n 2)) (s.tword (obKey n 3))
    (∃ t, exec (.objectRegister n w) s = .next t ∧ t.mem = s.mem ∧ (∀ m, m ≠ n.val → t.obj m = s.obj m) ∧
      ((s.obj n).valid = false → n.val ≠ 0 → s.objOk o = true → (t.obj n).valid = true ∧ (t.obj n).state = 1 ∧
        (t.obj n).upauth = false ∧ (t.obj n).pins = 0 ∧ (t.obj n).pending = false ∧ (t.obj n).home = o.home ∧ (t.obj n).up = o.up ∧
        (t.obj n).wb = o.wb ∧ (t.obj n).slot = o.slot) ∧
      ((s.obj n).valid = false → (n.val = 0 ∨ s.objOk o = false) → (t.obj n).valid = false) ∧
      ((s.obj n).valid = true → t.obj n = s.obj n)) ∧
    (∃ t, exec (.objectDeregister n w) s = .next t ∧ t.mem = s.mem ∧ (∀ m, m ≠ n.val → t.obj m = s.obj m) ∧
      ((s.obj n).valid = true → (s.obj n).state = 1 → (s.obj n).upauth = false → (s.obj n).pins = 0 → (∀ r ∈ s.obreqs, r.obj ≠ n) →
        (t.obj n).valid = false) ∧
      ((s.obj n).valid = true → ((s.obj n).state ≠ 1 ∨ (s.obj n).upauth = true ∨ (s.obj n).pins ≠ 0 ∨ ∃ r ∈ s.obreqs, r.obj = n) →
        t.obj n = s.obj n))

/-- On a VALID object of number n named at the head of Q_TIER, OB.PIN, OB.PROMOTE, OB.EVICT, OB.PREFETCH and OB.WAIT issue and enter the
directory; OB.PIN sets or clears the Truss's bit of PINS and completes, the others are served as R311 says, and what waited for the object follows.
With no line in the way and no other request in the directory: OB.PIN changes its bit of PINS alone. OB.PROMOTE to the upper tier of an object
RESIDENT at home, with its slot free or its own, takes the slot and leaves the object PROMOTING. OB.EVICT to the home tier of an unreferenced object
RESIDENT above makes the home copy authoritative at once where no write-back is asked, else leaves the object EVICTING. OB.PREFETCH completes and
changes no object. OB.WAIT completes where the authoritative copy is in its tier (R277, R309 to R311). When a copy within the device ends,
PROMOTE_COPY_END leaves the object RESIDENT above, EVICT_COPY_END RESIDENT at home, and the request has left the directory. -/
def Obligations.ObjectRequestsRun : Prop :=
  (∀ (s : State) (d : TrussId) (e : QEntry),
    let n := e.da + 0x1000 * bits e.cr 0 4
    let o := s.obj n
    let tier := bits e.mod 0 2
    let r (kind : Nat) : ObReq := { ins := ⟨d, e.seq⟩, obj := n, kind, tier, prio := e.hi 0 2 }
    let s1 := s.issue d 6 e
    let u (kind : Nat) : State := { s1 with obreqs := s1.obreqs ++ [r kind] }
    let pins := if e.m 0 then (if o.pins / 2 ^ d.val % 2 = 1 then o.pins - 2 ^ d.val else o.pins)
      else if o.pins / 2 ^ d.val % 2 = 1 then o.pins else o.pins + 2 ^ d.val
    let done (t : State) : Prop := ∃ i ∈ (t.tr d).issued, i.e = e ∧ i.done = true
    let alone : Prop := s.Canonical ∧ s.Calm ∧ s.obreqs = []
    0 < n → n < 16384 → o.valid = true →
    (s.AtHead d 6 0x90 e → let t := (((u 0).setObj n 11 4 pins).obDone ⟨d, e.seq⟩ false).obSettle n
      Completes (.obPin d) s t ∧ (alone → exec (.obPin d) s = .next t ∧ done t ∧ t.obreqs = [] ∧
        (∀ x : TrussId, (t.obj n).pins.testBit x = if x = d then !e.m 0 else o.pins.testBit x) ∧
        (t.obj n).state = o.state ∧ (t.obj n).upauth = o.upauth ∧ (t.obj n).pending = o.pending)) ∧
    (s.AtHead d 6 0x91 e → let t := ((u 1).obServe (r 1)).obSettle n
      Completes (.obPromote d) s t ∧ (alone → tier = o.up → tier ≠ o.home → o.state = 1 → o.pending = false → o.upauth = false →
        s.slotFree n = true → o.home = 1 →
        exec (.obPromote d) s = .next t ∧ (t.obj n).state = 2 ∧ (t.obj n).upauth = false ∧
        (o.slot ≠ 0 → t.tword (slotKey o.slot) = n) ∧ t.obreqs = [r 1] ∧ t.mem = s.mem)) ∧
    (s.AtHead d 6 0x92 e → let t := ((u 2).obServe (r 2)).obSettle n
      Completes (.obEvict d) s t ∧ (alone → tier = o.home → o.state = 1 → o.pending = false → o.upauth = true → o.pins = 0 →
        exec (.obEvict d) s = .next t ∧ (o.wb = false → (t.obj n).state = 1 ∧ (t.obj n).upauth = false ∧ done t) ∧
        (o.wb = true → (t.obj n).state = 3 ∧ (t.obj n).upauth = true))) ∧
    (s.AtHead d 6 0x93 e → let t := ((u 3).obServe (r 3)).obSettle n
      Completes (.obPrefetch d) s t ∧ (alone → exec (.obPrefetch d) s = .next t ∧ done t ∧ t.table = s.table ∧ t.mem = s.mem)) ∧
    (s.AtHead d 6 0x94 e → let t := ((u 4).obServe (r 4)).obSettle n
      Completes (.obWait d) s t ∧ (alone → o.tier = tier →
        exec (.obWait d) s = .next t ∧ done t ∧ t.table = s.table ∧ t.mem = s.mem))) ∧
  (∀ (s : State) (n : Fin 16384) (r : ObReq), s.Canonical → s.Calm → (s.obj n).home = 1 → s.obreqs = [r] → r.obj = n → r.queued = false →
    s.uwBusy r.ins = false →
    ((s.obj n).state = 2 → r.kind = 1 → ∃ t, exec (.promoteCopyEnd n) s = .next t ∧ (t.obj n).state = 1 ∧ (t.obj n).upauth = true ∧
      t.obreqs = []) ∧
    ((s.obj n).state = 3 → r.kind = 2 → ∃ t, exec (.evictCopyEnd n) s = .next t ∧ (t.obj n).state = 1 ∧ (t.obj n).upauth = false ∧
      t.obreqs = []))

/-- At the head of Q_GUT, in an attempt that is neither abandoned nor owed an outcome. CO.JOIN on a job open at its generation joins those that wait for
it, and opens a free context where none has the job, its generation is new and its record can be read and is legal (R263, R264, R329). CO.BUCKET on
a valid group of an open job, with a view that takes no trap and is readable, contributes its elements to each bucket in ascending order
(R265, R336, R337). CO.REDUCE takes its ordinal and starts its reduction with its values in pieces of 512 (R266, R352), CO.VOTE likewise with its one
bit (R269), CO.DISPATCH starts its dispatch (R267, R353 to R356), CO.COMBINE sends the rows of its paired dispatch back (R268, R357). CO.DRAIN sets
the context DRAINING and sends DRAIN to every other member (R270, R331). Packets that came early are then taken. -/
def Obligations.CollectiveInstructionsStart : Prop :=
  ∀ (s : State) (d : TrussId) (e : QEntry),
    let s1 := s.issue d 7 e
    let ref : InsRef := ⟨d, e.seq⟩
    let w (k : Nat) : List Word64 := (s.tr d).descWords (descIdx (e.db + k))
    let x (k : Nat) : Desc := s.desc d (descIdx (e.db + k))
    (∀ j, s.AtHead d 7 0x60 e → s.ctxOf e.da = some j → (s.job j).state = 1 → (s.job j).gen = bits e.cr 0 4 →
      Completes (.coJoin d) s ((s1.modJob j fun c => { c with joiners := c.joiners ++ [ref] }).joinCheck j)) ∧
    (∀ j, s.AtHead d 7 0x60 e → s.ctxOf e.da = none → Sparse.get none s.lastGen e.da ≠ some (bits e.cr 0 4) →
      (List.range 64).find? (fun j => (s.job j).state = 0) = some j →
      let a := (s.tr d).alat.toNat / 256 * 256
      let u := s1.access .hub Region.isMem [{ a, n := 256 }] []
      let rec' := u.1.bytes a 256
      let f (k n : Nat) : Nat := leNat ((rec'.drop k).take n)
      let u2 := u.1.access .hub Region.isMem [{ a := f 8 8, n := 2 * (f 4 2 + 1) }] []
      let ms := (List.range (f 4 2 + 1)).map fun k => u2.1.readNat (f 8 8 + 2 * k) 2
      let r := JobRec.ofBytes rec' (f 4 2 + 1)
      u.2 = none → u2.2 = none → u2.1.joinBad rec' ms r e.da (bits e.cr 0 4) = false →
      Completes (.coJoin d) s (u2.1.openJobAs j
        { state := 1, job := e.da, gen := bits e.cr 0 4, home := d, jr := r, members := ms, self := ms.findIdx (· = s.self),
          joiners := [ref] })) ∧
    (s.inert = false → (s.desc d e.db).check (fun f => f = 7 || isZ40 f) = none → s.AtHead d 7 0x61 e → s.gValid e.da = true →
      ∀ j, s.openJob (s.gJob e.da) = some j →
      let v := s.desc d e.db
      let off := bits (s.gw e.da 1) 0 40
      let idx := v.elements.map (·.1)
      (idx.any (fun i => bits (s.gw e.da 2) 0 40 ≤ i || (s.job j).jr.spaceLen ≤ off + i || s.contributed j (off + i)) ||
        idx.eraseDups.length ≠ idx.length) = false → (s1.access .collective coPlace v.all []).2 = none →
      let todo := (idx.map fun i => (off + i) / (s.job j).jr.perBucket).eraseDups.foldl (fun l b => insertBy id b l) []
      Completes (.coBucket d) s (((s1.access .collective coPlace v.all []).1.contribute
        { ins := ref, ctx := j, off, view := (s.tr d).descWords e.db, todo } todo).bktResume)) ∧
    (∀ j, s.inert = false → s.jobAt e = some j → s.AtHead d 7 0x62 e → (s.desc d e.db).check (fun f => f = 7 || f = 9) = none →
      (s.desc d e.db).rows * (s.desc d e.db).cols ≤ 1024 →
      let v := s.desc d e.db
      let o := s1.takeOrd j .reduce d
      let u := o.1.access .collective coPlace v.all (v.blockSpans 0 v.rows 0 v.cols)
      let vals := (List.range v.rows).flatMap fun r => (List.range v.cols).map fun c => u.1.widen v r c
      u.2 = none → Completes (.coReduce d) s ((u.1.redStart j
        { ins := ref, op := bits e.mod 0 2, seq := o.2, view := (s.tr d).descWords e.db,
          own := (pieces512 vals).map fun p => (0, p.1, p.2) }).takeEarly j [.reduce] o.2 fun s i p => s.redIn j i .reduce p)) ∧
    (∀ j, s.inert = false → s.jobAt e = some j → s.AtHead d 7 0x65 e →
      let o := s1.takeOrd j .vote d
      Completes (.coVote d) s ((o.1.redStart j
        { ins := ref, op := if e.m 1 then 4 else 3, seq := o.2, view := [], immIdx := bits e.db 0 5,
          own := [(0, 0, [if e.m 0 then Machine.Num.one else Machine.Num.zero])] }).takeEarly j [.vote] o.2 fun s i p => s.redIn j i .vote p)) ∧
    (∀ j, s.inert = false → s.jobAt e = some j → s.AtHead d 7 0x63 e →
      firstTrap [(s.desc d e.db).check wireFmt, (x 1).checkRun, (x 2).check wireFmt] = none →
      (s.desc d e.db).fmt = (x 2).fmt → (s.desc d e.db).cols = (x 2).cols →
      let v := s.desc d e.db
      let kr := bits e.mod 0 3 + 1
      let o := s1.takeOrd j .dispatch d
      let u := o.1.access .collective coPlace ({ a := (x 1).base, n := 4 * v.rows * kr } :: v.all) ((x 2).blockSpans 0 (x 2).rows 0 (x 2).cols)
      let y : Disp := { ins := ref, seq := o.2, cap := e.cap (s.job j).jr, kr, rows := w 0, run := w 1, recv := w 2 }
      u.2 = none → Completes (.coDispatch d) s (((u.1.modJob j fun c => { c with disps := c.disps ++ [y] }).dispStart j o.2).takeEarly j
        [.dispatch, .dispatchEnd] o.2 fun s i p => s.dispIn j i p)) ∧
    (∀ j y, s.inert = false → s.jobAt e = some j → s.AtHead d 7 0x64 e →
      ((s.job j).disps.filter fun y => y.complete && y.ins.d = d).getLast? = some y →
      firstTrap [(s.desc d e.db).check wireFmt, (x 2).check fmtOk, if (x 3).valid then (x 3).check (· = 7) else none] = none →
      let o := s1.takeOrd j .combine d
      let u := o.1.access .collective coPlace ((s.desc d e.db).all ++ (if (x 3).valid then (x 3).all else []) ++ (if e.m 3 then (x 2).all else []))
        ((x 2).blockSpans 0 (x 2).rows 0 (x 2).cols)
      let z : Comb := { ins := ref, seq := o.2, acc := e.m 3, pair := y.seq, out := w 0, dst := w 2,
                        gate := if (x 3).valid then w 3 else [] }
      u.2 = none → Completes (.coCombine d) s (((u.1.modJob j fun c => { c with combs := c.combs ++ [z] }).combSend j o.2 z y).takeEarly j
        [.combine, .combineEnd] o.2 fun s i p => s.combIn j i p)) ∧
    (∀ j, s.jobAt e = some j → s.AtHead d 7 0x66 e →
      let s2 := s1.modJob j fun c => { c with state := 2, drainer := some ref }
      Completes (.coDrain d) s ((s2.each (s2.job j).others fun s m => s.send (s.packetTo (s2.job j) .drain m)).drainCheck j))

/-- UP.COMMIT of an open job at the head of Q_GUT takes JOB_STATE at issue where the Truss is not the job's home. From the home Truss, a second one of the
commit job while the first has no outcome takes COMMIT_TWICE. A first one is accepted: the job is the commit job, the settings of the commit
function are in force, its YES bit and its instruction are held until the outcome, and the fence and the vote are tried. -/
def Obligations.UpCommitComesFromHomeOnce : Prop :=
  ∀ (s : State) (d : TrussId) (e : QEntry) (j : Nat), s.AtHead d 7 0x83 e → s.jobAt e = some j →
    ((s.job j).home ≠ d → Completes (.upCommit d) s ((s.issue d 7 e).issueTrap d 7 e .jobState)) ∧
    ((s.job j).home = d → s.commit.cjob = some j → s.commit.ins.isSome = true →
      Completes (.upCommit d) s ((s.issue d 7 e).issueTrap d 7 e .commitTwice)) ∧
    ((s.job j).home = d → (s.commit.cjob = none ∨ s.commit.cjob = some j) → s.commit.ins = none → s.commit.owed = false →
      Completes (.upCommit d) s (((s.issue d 7 e).modCommit fun m =>
        { m with expert := s.level 46 0x400, skipConf := (s.cfg 46 0x404).getLsbD 0, cjob := some j,
                 cmjob := BitVec.ofNat 16 (s.job j).d0, ins := some ⟨d, e.seq⟩, yesBit := e.m 0 }).sendMirrored.fenceMoved))

/-- In every state in which this device's UP.COMMIT has issued and its vote is cast, abandoning the attempt for any cause leaves that vote. -/
def Obligations.AbandonmentKeepsTheCastVote : Prop :=
  ∀ (s : State) (cause : Nat) (v : Bool), s.commit.ins.isSome = true → s.commit.cast = some v →
    (s.abandon cause).commit.cast = some v

/-- Applying an outcome with table space in canonical form: with yes, the ticket is one more, unless it stands at its last value (R40), and the epoch of every valid group that was ARMED is the
other one; with no, the ticket stays and so does memory. The epoch of a group that was not ARMED stays in both. After either no group is
ARMED, every context's attempt counter is 0 after yes and one more modulo 16 after no, and the next attempt is neither abandoned nor has a
vote cast (R370, R371, R382). -/
def Obligations.OutcomeFlipsArmedGroups : Prop :=
  ∀ (s : State) (yes : Bool) (extra : List Nat), Sparse.wf (0 : Word64) s.table = true → s.pins.twin = false →
    let t := s.applyOutcome yes extra
    t.ticket = (if yes && !s.ticketEnd then s.ticket + 1 else s.ticket) ∧
    (∀ n, n < 4096 → s.gValid n = true →
      t.gEpoch n = (if yes && s.gArmed n then 1 - s.gEpoch n else s.gEpoch n) ∧ t.gArmed n = false) ∧
    (yes = false → t.mem = s.mem) ∧
    (∀ j, j < 64 → (s.job j).state ≠ 0 → (t.job j).attempt = if yes then 0 else ((s.job j).attempt + 1) % 16) ∧
    t.commit.abandoned = false ∧ t.commit.cast = none

/-- UP.IMM at the head of Q_GUT, in an attempt that is neither abandoned nor owed an outcome, issues and completes: bits 21 to 6 of its word are in
bits 15 to 0 of IMM[CR[4:0]] of its Truss where MOD[0] is 0 and in bits 31 to 16 where it is 1, the other half as before; nothing else of the
immediates, the other Trusses or the rest of the state changes (R271). UP.PASSA and UP.PASSB under the same conditions, over a range of valid groups of open jobs: the pass enters the list of
passes with a copy of the Truss's immediates and the seeds of the slices, its work being the ranges (or rows) of every group that is not FROZEN
and has a program; frozen groups are counted, groups without a program end pass A at once and wait for the fence in pass B (R258, R272, R273,
R364, R365, R370). -/
def Obligations.UpInstructionsStart : Prop :=
  (∀ (s : State) (d : TrussId) (e : QEntry), s.AtHead d 7 0x80 e → s.inert = false →
    let k := bits e.cr 0 5
    let v : BitVec 16 := e.w0.extractLsb' 6 16
    let old := vget (s.tr d).imm k 0
    ∃ t, exec (.upImm d) s = .next t ∧ t.Finished d e none ∧
      vget (t.tr d).imm k 0 = (if e.m 0 then v ++ (old.extractLsb' 0 16 : BitVec 16) else (old.extractLsb' 16 16 : BitVec 16) ++ v) ∧
      (∀ j, j ≠ k → vget (t.tr d).imm j 0 = vget (s.tr d).imm j 0) ∧
      (∀ x : TrussId, x ≠ d → t.tr x = s.tr x) ∧ t = { s with truss := t.truss }) ∧
  ∀ (s : State) (d : TrussId) (e : QEntry) (b : Bool), s.AtHead d 7 (if b then 0x82 else 0x81) e → s.inert = false →
    let l := (List.range (e.db + 1)).map (e.da + ·)
    (∀ n ∈ l, n < 4096 ∧ s.gValid n = true ∧ (s.openJob (s.gJob n)).isSome = true) →
    let s1 := (s.issue d 7 e).occ 46 19 (l.filter s.gFrozen).length
    let run := l.filter fun n => !s.gFrozen n
    let bare := run.filter fun n => s.gProg n b = 0
    let s2 := if b then s1 else s1.each bare fun s n => s.passAEnd n 0 false
    let work := (run.filter fun n => s2.gProg n b ≠ 0).flatMap fun n => if b && s2.gRse n ≠ 0 then s2.rowsOf n else s2.rangesOf n
    let p : Pass := { ins := ⟨d, e.seq⟩, b, slices := if e.hi 0 4 = 0 then 15 else e.hi 0 4, imm := (s.tr d).imm.toList, groups := l,
                      noprog := if b then bare else [], nfok := l.filter s2.gNfok, work, seeds := (List.range 4).map s2.gutterSeed }
    Completes (if b then .upPassb d else .upPassa d) s
      (({ s2 with passes := s2.passes ++ [p], written := if s2.passes.isEmpty then [] else s2.written } : State).armFree.scanRows).passEnd

/-- On a device whose Gutter is powered and not in reset. A packet for another coordinate does not enter the Gutter (R439). For one that has come here: held packets and waiting work are tried first. A packet that finds room leaves its
port's inbox; where it then lands (checks 1 to 8 of R334 pass it for context j from member src, and no held packet of its member and path keeps it back)
each of these does what its kind does: JOIN_ACK joins or refuses (R330), BUCKET_RS and BUCKET_AG blocks are reduced or landed (R341, R342), AGREE goes along its
chain (R339), REDUCE, VOTE, DISPATCH, DISPATCH_END, COMBINE and COMBINE_END are taken (R352 to R357), DRAIN counts (R331), ABANDON abandons
(R348), and COMMIT VOTE, OUTCOME, MIRRORED and CONFIRM vote, decide, fold the mirrors and confirm (R378 to R381, R388). A JOIN is answered or kept
(R330). Whatever had waited is then tried again. A packet that finds no room, or that stands behind another
of its stream (R427), stays where it is (R325, R335). -/
def Obligations.PacketsActByKind : Prop :=
  ∀ (s : State) (p : Packet), s.isLive 46 = true → s.pins.resetN = true →
    let s0 := s.gutterSettle
    let k (x : Kind) : Packet := ofKind x p
    let taken (q : Packet) : State := s0.takeInbox (s0.pathOf q) q
    let stays (q : Packet) : Bool := s0.noRoom (s0.pathOf q) q || s0.notHead (s0.pathOf q) q
    let waits (c : Instr) (q : Packet) : Prop :=
      (p.dest ≠ s.coord.inForce → Completes c s s) ∧ (p.dest = s.coord.inForce → stays q = true → Completes c s s0)
    let lands (c : Instr) (q : Packet) (f : State → Nat → Nat → State) : Prop :=
      waits c q ∧ ∀ j src, p.dest = s.coord.inForce → stays q = false → (taken q).fate (s0.pathOf q) q = .lands j src →
        Completes c s (f (taken q) j src).gutterSettle
    waits (.join p) (k .join) ∧
    (p.dest = s.coord.inForce → stays (k .join) = false →
      Completes (.join p) s ((taken (k .join)).joinIn (k .join)).gutterSettle) ∧
    lands (.joinAck p) (k .joinAck) (fun s j src => s.joinAckIn j src (k .joinAck)) ∧
    lands (.bucketRs p) (k .bucketRs) (fun s j src => s.bucketIn j src (k .bucketRs)) ∧
    lands (.bucketAg p) (k .bucketAg) (fun s j src => s.bucketIn j src (k .bucketAg)) ∧
    lands (.agree p) (k .agree) (fun s j src => s.agreeIn j src (k .agree)) ∧
    lands (.reduce p) (k .reduce) (fun s j src => s.redIn j src .reduce (k .reduce)) ∧
    lands (.vote p) (k .vote) (fun s j src => s.redIn j src .vote (k .vote)) ∧
    lands (.dispatch p) (k .dispatch) (fun s j src => s.dispIn j src (k .dispatch)) ∧
    lands (.dispatchEnd p) (k .dispatchEnd) (fun s j src => s.dispIn j src (k .dispatchEnd)) ∧
    lands (.combine p) (k .combine) (fun s j src => s.combIn j src (k .combine)) ∧
    lands (.combineEnd p) (k .combineEnd) (fun s j src => s.combIn j src (k .combineEnd)) ∧
    lands (.drain p) (k .drain) (fun s j src => s.drainIn j src (k .drain)) ∧
    lands (.abandon p) (k .abandon) (fun s j _ => s.abandonIn j (k .abandon)) ∧
    lands (.commitVote p) (ofPhase 1 p) (fun s j _ => s.voteIn j (ofPhase 1 p)) ∧
    lands (.outcome p) (ofPhase 2 p) (fun s j _ => s.outcomeIn j (ofPhase 2 p)) ∧
    lands (.mirrored p) (ofPhase 3 p) (fun s j _ => s.mirroredIn j (ofPhase 3 p)) ∧
    lands (.confirm p) (ofPhase 4 p) (fun s j _ => s.confirmIn j (ofPhase 4 p))

/-- Where check 6 of R334 finds a packet of an earlier attempt or ticket (stale), of a job or member that this device does not know, of an old generation or of a
reserved kind, the packet is dropped: the job contexts, the commit state, the held packets, the Trusses and memory are exactly as before.
Where it finds the very next attempt, the packet is held behind the others and nothing else changes (R334, R335). -/
def Obligations.StrayPacketsChangeNothing : Prop :=
  ∀ (s : State) (path : Path) (p : Packet),
    (∀ v, s.verdict p = v → v = .badKind ∨ v = .noJob ∨ v = .oldGen ∨ v = .notMember ∨ (∃ j, v = .stale j) →
      (s.apply path p v).jobs = s.jobs ∧ (s.apply path p v).commit = s.commit ∧ (s.apply path p v).held = s.held ∧ (s.apply path p v).truss = s.truss ∧
      (s.apply path p v).mem = s.mem) ∧
    (s.apply path p .held = { s with held := s.held ++ [(p, path)] }) ∧
    (∀ j c, s.ctxOf p.job.toNat = some j → c = s.job j → c.gen = p.gen.toNat → badKind p = false → skipsAge p = false →
      (c.index p.src.toNat).isSome = true → c.attempt < 16 →
      (p.ticket = s.ticket ∧ p.attempt = (c.attempt + 1) % 16 → s.verdict p = .held) ∧
      (p.ticket = s.ticket ∧ (p.attempt + 1) % 16 = c.attempt → s.verdict p = .stale j))

/-- BUCKET_LANDED of a bucket whose blocks have all come marks it landed and lets passes go on (R343, R344, R365). PEER_TIMEOUT of a job that waits on packets, in an
attempt not abandoned, is counted and fails the attempt (R350). DRAIN_FORCED lets a drain end without the missing copies (R331). VOTE_DEADLINE at a
root that has cast decides no with code 10, OUTCOME_TIMEOUT at another member that has cast takes no with code 11 and raises EV_COMMIT_UNSURE
(R379, R380). COVOTE_DEADLINE at the root of a vote gives the result of what came (R269). MIRROR_COMPLETE sets COMPLETE in the receiving slot and
acknowledges; MIRROR_ACK of the mirror being sent makes it SENT (R386). PACKET_RELAY sends a packet for another
coordinate, the first of its stream, on with one more hop, and drops one that has made six (R427, R439). -/
def Obligations.CollectiveTimersAct : Prop :=
  (∀ (s : State) (j : Fin 64) (b : Nat), (s.job j).state ≠ 0 → ((s.job j).bucket b).isLanded = false →
    ((s.job j).bucket b).landed.length = (s.job j).jr.blocks b → 0 < (s.job j).jr.blocks b →
    let t := (s.bucketLanded j b).scanRows
    Completes (.bucketLanded j b) s t ∧ (((s.bucketLanded j b).job j).bucket b).isLanded = true ∧
    (Memory.wf s.mem = true → (∀ u ∈ touchedUnits ((s.job j).jr.entry b) 16, s.poisonAt u = false) →
      s.KeepsOutside (s.bucketLanded j b) [{ a := (s.job j).jr.entry b, n := 16 }])) ∧
  (∀ (s : State) (j : Fin 64), s.waitsPackets j = true → s.commit.abandoned = false →
    Completes (.peerTimeout j) s ((s.occ 46 14).failAttempt 7)) ∧
  (∀ (s : State) (j : Fin 64), (s.job j).state = 2 → (s.job j).drainer.isSome = true → (s.job j).drained = false →
    Completes (.drainForced j) s ((s.modJob j fun c => { c with drainLate := true }).drainCheck j)) ∧
  (∀ (s : State) (c : JobCtx), s.commitJob = some c → c.self = 0 → c.state ≠ 0 → s.commit.cast.isSome = true →
    Completes .voteDeadline s ((s.outcome c false [10]).gutterSettle)) ∧
  (∀ (s : State) (c : JobCtx), s.commitJob = some c → c.self ≠ 0 → c.state ≠ 0 → s.commit.cast.isSome = true →
    let t := (((s.orReg 46 0x40C 1).raise 0x340 46 s.commitD0).applyOutcome false [11]).sendMirrored
    Completes .outcomeTimeout s ((if s.commit.trapNext then (t.forceNo 2).abandonActs 2 else t).gutterSettle)) ∧
  (∀ (s : State) (j : Fin 64) (seq : BitVec 16) (r : Red), (s.job j).red .vote seq.toNat = some r → (s.job j).self = 0 →
    let come := r.own.map (·.2.2) ++ r.parts.map (·.2.2)
    Completes (.covoteDeadline j seq) s (s.redResult j r 0
      [if r.op = 4 && come.any (fun l => l.any Num.nonzeroFinite) then Machine.Num.one else Machine.Num.zero])) ∧
  (∀ (s : State) (m : MirrorIn), s.commit.receiving = some m → m.size ≤ 2048 * m.got.length →
    let a := (s.mirrorSlot m.slot).1 + 10
    let t := (s.store a [1]).modCommit fun c => { c with receiving := none, mirrorDone := some (m.ticket, m.no) }
    Completes .mirrorComplete s (t.sendTwin 0 { t.twinPacket mirrorAckKind m.ticket with seq := BitVec.ofNat 16 m.no })) ∧
  (∀ (s : State) (n : Nat), s.commit.sending = some n →
    (∀ k ∈ [20, 21], ∀ x ∈ (s.port k).inbox, x.2.kind ≠ mirrorAckKind) →
    Completes .mirrorAck s ((s.modCommit fun c => { c with mstate := 2, sending := none }).sendMirrored.fenceMoved)) ∧
  (∀ (s : State) (port : PortId) (stream : Bool) (p : Packet) (e k : Nat), p.wf = true → p.dest ≠ s.coord.inForce →
    ((s.port port).inbox.contains (stream, p) = true → s.notHead (some (port.val, stream)) p = false) → p.hops.toNat < 6 →
    let t := s.takeRelay port stream p
    t.pathEntry p.dest.toNat p.job.toNat = some e → (t.eligible e p.plevel.toNat).head? = some k →
    exec (.packetRelay port stream p) s = .next ((t.occPort port 11).emit k stream { p with hops := p.hops + 1 } false)) ∧
  (∀ (s : State) (port : PortId) (stream : Bool) (p : Packet), p.dest ≠ s.coord.inForce →
    ((s.port port).inbox.contains (stream, p) = true → s.notHead (some (port.val, stream)) p = false) → 6 ≤ p.hops.toNat →
    exec (.packetRelay port stream p) s = .next ((s.takeRelay port stream p).relayDrop port p))

/-- GROUP_REGISTER of an entry that is not VALID and passes the checks of R363 makes it VALID with the software's fields, EPOCH 0, not ARMED, and its
result words 12 to 15 zero; one that fails them stays not VALID; a VALID entry keeps words 1 to 15 and stays VALID. GROUP_DEREGISTER of a VALID
entry that is not ARMED and that no incomplete pass names leaves it not VALID; any other VALID entry keeps every word. The same for row-step
entries, whose checks are those of R374 and which leave only where no valid group names them; entry 0 is never VALID. Memory and all
other entries are unchanged. While HUBNOC, which holds the tables, is dark such writes are ignored (R503). -/
def Obligations.GroupsAreRegisteredWhenLegal : Prop :=
  (∀ (s : State) (n : Fin 4096) (m : Fin 256) (w : Word64), s.isLive 59 = false →
    ∀ c ∈ [Instr.groupRegister n w, .groupDeregister n w, .rowStepRegister m w, .rowStepDeregister m w],
      ∃ t, exec c s = .next t ∧ t.table = s.table ∧ t.mem = s.mem) ∧
  (∀ (s : State) (n : Fin 4096) (w : Word64), s.isLive 59 = true → s.Canonical →
    let v := w.toNat / 2 * 2 + 1
    (∃ t, exec (.groupRegister n w) s = .next t ∧ t.mem = s.mem ∧ (∀ m k, k < 16 → m ≠ n.val → t.gw m k = s.gw m k) ∧
      (s.gValid n = false → s.groupOk n v = true → t.gw n 0 = groupSw v ∧ t.gValid n = true ∧ t.gEpoch n = 0 ∧ t.gArmed n = false ∧
        (∀ k, 1 ≤ k → k < 12 → t.gw n k = s.gw n k) ∧ ∀ k, 12 ≤ k → k < 16 → t.gw n k = 0) ∧
      (s.gValid n = false → s.groupOk n v = false → t.gValid n = false) ∧
      (s.gValid n = true → t.gValid n = true ∧ ∀ k, 1 ≤ k → k < 16 → t.gw n k = s.gw n k)) ∧
    (∃ t, exec (.groupDeregister n w) s = .next t ∧ t.mem = s.mem ∧ (∀ m k, k < 16 → m ≠ n.val → t.gw m k = s.gw m k) ∧
      (s.gValid n = true → s.gArmed n = false → s.inPass n = false → t.gValid n = false) ∧
      (s.gValid n = true → (s.gArmed n = true ∨ s.inPass n = true) → ∀ k, k < 16 → t.gw n k = s.gw n k))) ∧
  (∀ (s : State) (n : Fin 256) (w : Word64), s.isLive 59 = true → s.Canonical →
    (∃ t, exec (.rowStepRegister n w) s = .next t ∧ t.mem = s.mem ∧ (∀ m, m ≠ n.val → t.rowStep m = s.rowStep m) ∧
      ((s.rowStep n).valid = false → ((t.rowStep n).valid = true ↔ n.val ≠ 0 ∧ (s.rowStep n).ok = true)) ∧
      ((s.rowStep n).valid = true → t.rowStep n = s.rowStep n)) ∧
    (∃ t, exec (.rowStepDeregister n w) s = .next t ∧ t.mem = s.mem ∧ (∀ m, m ≠ n.val → t.rowStep m = s.rowStep m) ∧
      ((s.rowStep n).valid = true → (∀ m ∈ s.groups, s.gRse m ≠ n) → (t.rowStep n).valid = false) ∧
      ((s.rowStep n).valid = true → (∃ m ∈ s.groups, s.gRse m = n) → t.rowStep n = s.rowStep n)))

/-- On a powered D46, for a write that comes in. With ROLLREADY 1 and no job OPEN or DRAINING, ROLLBACK completes: every valid group whose LASTFLIP is TICKET - 1 has the other
EPOCH and LASTFLIP 0, the EPOCH of any other group stays, TICKET is one less (0 stays), ROLLREADY is 0 and the mirror state NONE. In any other case it sets
NOROLL in GUTTER.CMERR (offset 0x40C) alone (R390). REPUB with no job OPEN or DRAINING publishes each valid group from its active buffer and leaves the
table and TICKET; otherwise it is ignored. A value that bytes publish to waits for lines of the host as any command does. -/
def Obligations.RollbackUndoesTheLastFlip : Prop :=
  ∀ (s : State) (r : Requester), s.Canonical → s.isLive 46 = true → s.heard r = true →
    let s0 := s.reached 46
    (s.commit.rollReady = true → s.jobActive = false →
      let t := s0.rollback
      Completes (.rollback r) s t ∧ t.ticket = (if s.ticket = 0 then 0 else s.ticket - 1) ∧ t.commit.rollReady = false ∧ t.commit.mstate = 0 ∧
      ∀ n, n < 4096 → let last := bits (s.gw n 15) 0 48
        (s.gValid n = true → last ≠ 0 → last + 1 = s.ticket.toNat → t.gEpoch n = 1 - s.gEpoch n ∧ t.gw n 15 = 0) ∧
        (s.gValid n = false ∨ last = 0 ∨ last + 1 ≠ s.ticket.toNat → ∀ k, k < 16 → t.gw n k = s.gw n k)) ∧
    ((s.commit.rollReady = false ∨ s.jobActive = true) → Completes (.rollback r) s (s0.orReg 46 0x40C 2)) ∧
    (s.jobActive = false →
      let t := (s0.each s0.groups fun s n => s.publish n (s.gActive n)).occ 46 25
      Completes (.repub r) s t ∧ t.table = s.table ∧ t.ticket = s.ticket) ∧
    (s.jobActive = true → Completes (.repub r) s s0)

/-- With a ready program run (p, w) and a free core k (R392), and, for a row, a readable row count: INSTANCE_START starts
the run, where the slice holds the image from an earlier run of the pass, or where its header is legal (R397, R398) and it stands in HBM or the Loft window,
held by no host line and not poisoned, and is read now (R399). The core then holds the run at position 0 with its code, s1 to s5 hold the first
element, the length, the group, TICKET and the bucket, every other scalar, every vector register and p1 to p7 are zero (R395), and p0 reads all
ones. The other cores and memory are unchanged. With none ready, nothing changes. -/
def Obligations.ProgramRunsStart : Prop :=
  ∀ (s : State), (s.nextInstance = none → s.mcl.wanted = [] → exec .instanceStart s = .next s) ∧
    ∀ (p : Pass) (w : Work) (k : Nat), s.nextInstance = some (p, w, k) →
      let a := s.gProg w.group p.b
      let row : List Span := (w.row.map fun r => ({ a := s.rowCountAt w.group r true, n := 4 } : Span)).toList
      let starts (m d : Nat) (pl : List (Nat × Nat × Int)) (word : Nat → Option Word32) : Prop := ∃ t, exec .instanceStart s = .next t ∧ t.mem = s.mem ∧ (∀ x, x ≠ k → x < 64 → t.core x = s.core x) ∧
        let c := t.core k
        (∃ i, c.inst = some i ∧ i.ins = p.ins ∧ i.w = w ∧ i.datab = d ∧ i.planes = pl ∧ i.code.length = m ∧ ∀ j, j < m → i.code[j]? = word j) ∧
        c.pc = 0 ∧ c.sr 1 = BitVec.ofNat 64 w.first ∧ c.sr 2 = BitVec.ofNat 64 w.len ∧ c.sr 3 = BitVec.ofNat 64 w.group ∧
        c.sr 4 = s.ticket.setWidth 64 ∧ c.sr 5 = BitVec.ofNat 64 w.bucket ∧ c.sr 0 = 0 ∧ (∀ r, 6 ≤ r → r < 32 → c.sr r = 0) ∧
        (∀ r j, r < 32 → j < 16 → c.vr r j = 0) ∧ c.pr 0 = 0xFFFF ∧ (∀ r, 1 ≤ r → r < 8 → c.pr r = 0)
      s.mcl.wanted = [] → s.snooped row false = [] → s.badUnits row = [] →
      (∀ im, s.imageAt (k / 16) p.ins a = some im → starts im.code.length im.datab im.planes fun j => im.code[j]?) ∧
      ∀ m d pl, s.imageAt (k / 16) p.ins a = none →
        let image : List Span := [{ a, n := 256 }, { a := a + 256, n := 4 * m }]
        headerOf (s.bytes a 256) = some (m, d, pl) → s.inBuffer a 256 = true → s.inBuffer a (256 + 4 * m) = true →
        s.snooped image false = [] → s.badUnits image = [] →
        starts m d pl fun j => some (BitVec.ofNat 32 (s.readNat (a + 256 + 4 * j) 4))

/-- With the instruction's word at a core's position, it completes: the position is one more, memory, the other cores and every other piece of state are as
before, and so are the predicates and every scalar and vector register but D. Under SC scalar D takes the function of scalars A, B and C, and a write of s0 is
discarded; otherwise each lane of vector D that the predicate selects takes the function of lane j of A, of lane j of B (scalar B under SB) and of lane j
of C, while the other lanes keep their words. The functions are those of R410 and R411, computed on exact values and rounded once to the type: sum, difference,
product, fused multiply and add, minimum, maximum, magnitude, negation, quotient, root, reciprocal, the conversions, and the special functions whose bits
the reference vectors fix. -/
def Obligations.LaneInstructionsWriteActiveLanes : Prop :=
  ∀ (s : State) (g : SliceId) (c : CoreId) (core : GCore) (i : Inst) (w : Nat),
    ∀ x ∈ ([(.add g c, 0x10, onValues fun a b _ => Machine.Num.add a b), (.sub g c, 0x11, onValues fun a b _ => Machine.Num.add a b.neg),
            (.mul g c, 0x12, onValues fun a b _ => Machine.Num.mul a b),
            (.fma g c, 0x13, onValues fun a b x => Machine.Num.add (Machine.Num.mul a b) x),
            (.min g c, 0x14, onValues fun a b _ => Machine.Num.min a b), (.max g c, 0x15, onValues fun a b _ => Machine.Num.max a b),
            (.abs g c, 0x16, onValues fun a _ _ => a.abs), (.neg g c, 0x17, onValues fun a _ _ => a.neg),
            (.cvt g c, 0x1A, fun _ a _ _ => cvtOp (gC w % 8) a), (.div g c, 0x20, onValues fun a b _ => Machine.Num.divSticky a b),
            (.sqrt g c, 0x21, onValues fun a _ _ => Machine.Num.sqrtSticky a), (.rsqrt g c, 0x22, onVector 0 rsqrtCase),
            (.rcp g c, 0x23, onValues fun a _ _ => Machine.Num.divSticky Machine.Num.one a), (.exp2 g c, 0x24, onVector 1 expCase),
            (.log2 g c, 0x25, onVector 2 logCase), (.exp g c, 0x26, onVector 3 expCase), (.ln g c, 0x27, onVector 4 logCase)] :
          List (Instr × Nat × (Bool → Word64 → Word64 → Word64 → Word64))),
    s.atCore (coreNo g c) x.2.1 = .run core i w →
    ∃ d : GCore, exec x.1 s = .next (s.modCore (coreNo g c) fun _ => d) ∧ d.pc = core.pc + 1 ∧ d.inst = core.inst ∧ d.p = core.p ∧
      d.scratch = core.scratch ∧ d.sum0 = core.sum0 ∧ d.sum1 = core.sum1 ∧ d.nf = core.nf ∧ d.nonfin = core.nonfin ∧
      (gSc w = true → d.v = core.v ∧ ∀ r, r < 32 → d.sr r =
        if r = gD w ∧ r ≠ 0 then x.2.2 (gTy w) (core.sr (gA w)) (core.sr (gB w)) (core.sr (gC w)) else core.sr r) ∧
      (gSc w = false → d.s = core.s ∧ ∀ r j, r < 32 → j < 16 → d.vr r j =
        if r = gD w ∧ (core.pr (gP w)).getLsbD j = true then
          x.2.2 (gTy w) (core.vr (gA w) j) (if gSb w then core.sr (gB w) else core.vr (gB w) j) (core.vr (gC w) j)
        else core.vr r j)

/-- With the instruction's word at a core's position, it completes with its position one more (R402) and its effect on the core alone. NOP: none. PUTA: the sums
and the count of the record in pass A, nothing in pass B. PLOG, SCMP, CMP, PTAIL: a predicate, p0 apart. SADDI, SSHLI, SALU, SIMM, RS, LANE to a
scalar, and the reductions RSUM, RSSQ, RMAX, RMIN, RAMAX and RNF, which fold the active lanes of A into scalar C in ascending order: scalar D, s0
apart. LANE to a vector: its active lanes. SEL: every lane of vector D, or scalar D under SC, of type binary32 with
the selected word read as binary32 (R394; DEDUCED, log entry 48). SRND on a plane that has a format: the active lanes of D,
each the value of A converted into the plane's format with the random bits of its element. -/
def Obligations.CoreInstructionsWriteTheirDestination : Prop :=
  ∀ (s : State) (g : SliceId) (c : CoreId) (core : GCore) (i : Inst) (w : Nat),
    let k := coreNo g c
    let n : GCore := { core with pc := core.pc + 1, steps := core.steps + 1 }
    let A := core.sr (gA w)
    let B := core.sr (gB w)
    let cell (op : Nat) (x : Instr) (d : GCore) : Prop := s.atCore k op = .run core i w → exec x s = .next (s.modCore k fun _ => d)
    let typed (x : Word64) : Word64 := if gTy w then coreWord true (coreValue true x) else x
    let fold (f : Bool → Word64 → Word64 → Word64) (start : Word64) : GCore := n.setS (gD w)
      ((if gSc w then [A] else ((List.range 16).filter fun j => (core.pr (gP w)).getLsbD j).map (core.vr (gA w))).foldl (f (gTy w)) start)
    let first : Word64 := coreWord (gTy w) (coreValue (gTy w) (core.sr (gC w)))
    cell 0x00 (.gvpNop g c) n ∧
    cell 0x02 (.puta g c) (if i.b then n else { n with sum0 := A, sum1 := B, nf := min (2 ^ 48 - 1) (core.sr (gC w)).toNat }) ∧
    cell 0x07 (.plog g c) (n.setP (gD w) (match gF w with
      | 0 => core.pr (gA w) &&& core.pr (gB w) | 1 => core.pr (gA w) ||| core.pr (gB w)
      | 2 => core.pr (gA w) &&& ~~~core.pr (gB w) | _ => ~~~core.pr (gA w))) ∧
    cell 0x08 (.saddi g c) (n.setS (gD w) (A + immS w)) ∧
    cell 0x09 (.sshli g c) (n.setS (gD w) ((A <<< 16) ||| BitVec.ofNat 64 (gImm w))) ∧
    cell 0x0A (.salu g c) (n.setS (gD w) (saluOp (gF w) A B)) ∧
    cell 0x0B (.scmp g c) (n.setP (gD w) (if scmpOp (gF w) A B then 0xFFFF else 0)) ∧
    (∀ p, s.passOf i = some p →
      cell 0x0C (.simm g c) (n.setS (gD w) (toContainer (ofB32 (p.imm.getD (gC w) 0).toNat)))) ∧
    (∀ r, i.b = true → i.w.row = some r → gF w < 5 → cell 0x0D (.rs g c) (n.setS (gD w) (BitVec.ofNat 64
      (match gF w with
        | 0 => i.missed | 1 => r | 2 => i.count | 3 => (s.rowStep (s.gRse i.w.group)).cols | _ => (s.rowStep (s.gRse i.w.group)).rowBytes)))) ∧
    (∀ r, i.b = true → i.w.row = some r → gF w = 5 →
      cell 0x0D (.rs g c) (n.setS (gD w) (toContainer (decay (ofContainer A) i.missed 32 Machine.Num.one)))) ∧
    (i.w.row = none ∨ i.b = false →
      cell 0x0D (.rs g c) (n.setS (gD w) (if gF w = 5 then toContainer Machine.Num.one else 0))) ∧
    (gF w = 0 → cell 0x0E (.lane g c) (n.setS (gD w) (core.vr (gA w) (gC w % 16)))) ∧
    (gF w = 1 → cell 0x0E (.lane g c) (n.setV (gD w) (core.pr (gP w)) fun _ => A)) ∧
    (gF w = 2 → cell 0x0E (.lane g c) (n.setS (gD w) (BitVec.ofNat 64 (popcount (core.pr (gA w)).toNat 16)))) ∧
    cell 0x0F (.ptail g c) (n.setP (gD w) (predOf fun j => (A + BitVec.ofNat 64 j).ult B)) ∧
    cell 0x18 (.sel g c) (if gSc w then n.setS (gD w) (typed (if (core.pr (gP w)).getLsbD 0 then A else B))
      else n.setV (gD w) 0xFFFF fun j =>
        typed (if (core.pr (gP w)).getLsbD j then core.vr (gA w) j else if gSb w then B else core.vr (gB w) j)) ∧
    cell 0x19 (.cmp g c) (cmpRun n w) ∧
    cell 0x28 (.rsum g c) (fold (foldValues Machine.Num.add) first) ∧
    cell 0x29 (.rssq g c) (fold (foldValues fun r a => Machine.Num.add r (Machine.Num.mul a a)) first) ∧
    cell 0x2A (.rmax g c) (fold (foldValues Machine.Num.max) first) ∧ cell 0x2B (.rmin g c) (fold (foldValues Machine.Num.min) first) ∧
    cell 0x2C (.ramax g c) (fold (foldValues fun r a => Machine.Num.max r a.abs) first) ∧
    cell 0x2D (.rnf g c) (fold (fun ty acc a => if (coreValue ty a).nonFinite && acc.toNat < 2 ^ 48 - 1 then acc + 1 else acc) (core.sr (gC w))) ∧
    (∀ off fmt sexp, i.planes.getD (gF w) (0, 15, 0) = (off, fmt, sexp) → fmt ≠ 15 →
      cell 0x30 (.srnd g c) (n.setV (gD w) (core.pr (gP w)) fun j =>
        toContainer (planeValue fmt sexp (planeCode fmt sexp (gC w % 2 = 0)
          (.sr (s.coreU k i (gF w) (B + BitVec.ofNat 64 j).toNat)) (ofContainer (core.vr (gA w) j))))))

/-- With the word at a core's position: BNZ and BZ go on to the next instruction where they are not taken, and to the next position plus the signed immediate
where they are and that lies within the program; a taken branch outside it ends the run with fault code 2 (R402, R417). FAULT ends it with code 7 and its
immediate as the detail. A fault recorded when none is pending puts the code and the group into GUTTER.VFAULT0 (offset 0x520 of the slice's window) and the detail
into 0x528, sets VFAULT's bit, and leaves the core without a run. END frees the core; in pass A, while another run of its group is to come and no
pass B is at work, it writes the run's 32-byte record at its place and no other byte of memory (R367, R403). -/
def Obligations.BranchesFaultAndEnd : Prop :=
  ∀ (s : State) (g : SliceId) (c : CoreId) (core : GCore) (i : Inst) (w : Nat),
    let k := coreNo g c
    let n : GCore := { core with pc := core.pc + 1, steps := core.steps + 1 }
    let target : Int := ((core.pc + 1 : Nat) : Int) + (BitVec.ofNat 16 (gImm w)).toInt
    let goes (x : Instr) (taken : Prop) : Prop :=
      (¬taken → exec x s = .next (s.modCore k fun _ => n)) ∧
      (taken → 0 ≤ target → target < i.code.length → exec x s = .next (s.modCore k fun _ => { n with pc := target.toNat })) ∧
      (taken → (target < 0 ∨ (i.code.length : Int) ≤ target) → exec x s = .next (s.coreFault k 2 0))
    (s.atCore k 0x03 = .run core i w → goes (.bnz g c) (core.sr (gA w) ≠ 0)) ∧
    (s.atCore k 0x04 = .run core i w → goes (.bz g c) (core.sr (gA w) = 0)) ∧
    (s.atCore k 0x05 = .run core i w → exec (.fault g c) s = .next (s.coreFault k 7 (gImm w))) ∧
    (∀ cause detail, (s.core k).inst = some i → s.Canonical → cause < 16 → i.w.group < 4096 → detail < 0x10000 →
      (s.regRaw (46 + g.val) 0x52C).getLsbD 5 = false →
      let t := s.coreFault k cause detail
      t.core k = {} ∧ t.regRaw (46 + g.val) 0x520 = BitVec.ofNat 16 (cause + 16 * i.w.group) ∧
      t.regRaw (46 + g.val) 0x528 = BitVec.ofNat 16 detail ∧ (t.regRaw (46 + g.val) 0x52C).getLsbD 5 = true ∧ t.mem = s.mem) ∧
    (s.atCore k 0x01 = .run core i w → i.b = false → Memory.wf s.mem = true →
      let a := s.gNrec i.w.group + 32 * i.w.k
      s.rangeOk a 32 = true → s.badUnits [{ a, n := 32 }] = [] → s.snooped [{ a, n := 32 }] true = [] → s.mcl.wanted = [] → (∀ q ∈ s.passes, q.b = false) →
      (∃ p, s.passOf i = some p ∧ ∃ y ∈ p.work, y.group = i.w.group ∧ y.k ≠ i.w.k ∧ y.finished = false) →
      ∃ t, exec (.end_ g c) s = .next t ∧ (t.core k).inst = none ∧ (∀ x, x < 32 → t.byte (a + x) = (recordBytes core).getD x 0) ∧
        s.KeepsOutside t [{ a, n := 32 }])

/-- With a load or store at a core's position whose window and plane are legal and whose lanes' elements are all within their window (R406 to R408), held by no line of
the host and, for a load, not poisoned. Where no lane reads through AUX or EXT what another agent has written in the pass (that is undefined), VLD writes each active lane of vector D with the word of its element, and SLD writes
scalar D with that of its one element, s0 apart; memory is unchanged. VST and SST complete, and every byte of memory outside the elements of the active lanes
reads as before; the core's registers are unchanged (R409). -/
def Obligations.CoreLoadsAndStores : Prop :=
  ∀ (s : State) (g : SliceId) (c : CoreId) (core : GCore) (i : Inst) (w : Nat), Memory.wf s.mem = true → s.mcl.wanted = [] →
    let k := coreNo g c
    let at' (bcast : Bool) (j : Nat) : Option Spot := s.spot core i (gW w) (gPl w) (laneElem core w j bcast)
    let spans (scalar bcast : Bool) : List Span :=
      (lanesOf scalar (core.pr (gMp w))).flatMap fun j => ((at' bcast j).map (s.spotSpans i)).getD []
    let legal (scalar bcast store : Bool) : Prop := s.windowBad i (gW w) (gPl w) store = false ∧
      (∀ j ∈ lanesOf scalar (core.pr (gMp w)), (at' bcast j).isSome = true) ∧ s.snooped (spans scalar bcast) store = []
    (∀ x ∈ [(Instr.vld g c, 0x38, false), (.sld g c, 0x3A, true)], s.atCore k x.2.1 = .run core i w →
      let bcast := x.2.2 || gM5 w
      legal x.2.2 bcast false → (∀ j ∈ lanesOf x.2.2 (core.pr (gMp w)), s.badUnits (((at' bcast j).map (s.spotSpans i)).getD []) = []) →
      (∀ j ∈ lanesOf x.2.2 (core.pr (gMp w)), ((at' bcast j).map (s.loadOpen k (gW w))).getD false = false) →
      let val (j : Nat) : Word64 := ((at' bcast j).map (s.loadSpot core i)).getD 0
      ∃ t, exec x.1 s = .next t ∧ t.mem = s.mem ∧ t.table = s.table ∧ (∀ y, y ≠ k → y < 64 → t.core y = s.core y) ∧
        (t.core k).pc = core.pc + 1 ∧ (t.core k).p = core.p ∧
        (x.2.2 = true → (t.core k).v = core.v ∧ ∀ r, r < 32 → (t.core k).sr r = if r = gD w ∧ r ≠ 0 then val 0 else core.sr r) ∧
        (x.2.2 = false → (t.core k).s = core.s ∧ ∀ r j, r < 32 → j < 16 →
          (t.core k).vr r j = if r = gD w ∧ (core.pr (gMp w)).getLsbD j = true then val j else core.vr r j)) ∧
    (∀ x ∈ [(Instr.vst g c, 0x39, false), (.sst g c, 0x3B, true)], s.atCore k x.2.1 = .run core i w →
      legal x.2.2 x.2.2 true → (x.2.2 = true → gW w = 4) →
      ∃ t, exec x.1 s = .next t ∧ s.KeepsOutside t (spans x.2.2 x.2.2) ∧ t.table = s.table ∧
        (∀ y, y ≠ k → y < 64 → t.core y = s.core y) ∧ (t.core k).pc = core.pc + 1 ∧ (t.core k).s = core.s ∧ (t.core k).v = core.v ∧
        (t.core k).p = core.p)

/-- On a powered port, PCTL being written by a requester whose write comes in. TRAINING_DONE of an UP port shows that the peer retrains, and takes it DOWN (R440). TRAINING_DONE of a fabric port in TRAINING with a valid coordinate at its island, a fabric peer, both levels above 0 and legal lanes: UP at the lower
level, at half width exactly where lanes are bad, with the peer and its credits; any port with an illegal exchange, and TRAINING_TIMEOUT: DOWN
(R428 to R430). FRAME_SILENCE and LANE_LOCK_LOSS take an UP port DOWN (R440); with nothing in flight on a fabric port no other port changes.
DOWN_RETRAIN starts a further training while retrains are left. PCTL.DISABLE disables the port at once; clearing it starts training; PCTL.RETRAIN
trains a port that is not DISABLED (R428, R444). An absent twin disables both twin ports, a present one trains them (R554). COORD_APPLY puts a
pending coordinate in force once no job is OPEN or DRAINING (R434). -/
def Obligations.PortsTrainAndFall : Prop :=
  ∀ (s : State) (p : PortId) (r : Requester) (x : TrainInfo), s.Calm → s.isLive (portDom p) = true → s.heard r = true →
    let k := p.val
    let q := s.port k
    let legal : Prop := x.peerTwin = isTwin k ∧ q.advert ≠ 0 ∧ x.peerLevel ≠ 0 ∧ lanesOk q.degrade x.laneBad = true
    let alone (t : State) : Prop := t.mem = s.mem ∧ ∀ y, y ≠ k → y < 22 → t.port y = s.port y
    (q.state = .up → s.coordAt k = true → Completes (.trainingDone p x) s (s.leaveUp k 3 .down)) ∧
    (q.state = .training → s.coordAt k = true →
      (legal → k < 20 → ∃ t, exec (.trainingDone p x) s = .next t ∧ alone t ∧ (t.port k).state = .up ∧
        (t.port k).nlevel = min q.advert x.peerLevel.toNat ∧ ((t.port k).half = true ↔ x.laneBad ≠ 0) ∧ (t.port k).peer = x.peerCoord ∧
        (t.port k).credBulk = x.credBulk ∧ (t.port k).credCtrl = x.credCtrl) ∧
      (legal → 20 ≤ k → Completes (.trainingDone p x) s (s.trained k x)) ∧
      (¬legal → ∃ t, exec (.trainingDone p x) s = .next t ∧ alone t ∧ (t.port k).state = .down) ∧
      ∃ t, exec (.trainingTimeout p) s = .next t ∧ alone t ∧ (t.port k).state = .down) ∧
    (q.state = .up → ∀ y ∈ [(Instr.frameSilence p, 1), (.laneLockLoss p, 2)],
      let t := (s.perr k 8).leaveUp k y.2 .down
      Completes y.1 s t ∧ (k < 20 → q.replay = [] → q.waiting = [] → alone t ∧ (t.port k).state = .down ∧ t.jobs = s.jobs)) ∧
    (q.state = .down → q.retrains < q.maxRetrains → ∃ t, exec (.downRetrain p) s = .next t ∧ alone t ∧
      (t.port k).state = .training ∧ (t.port k).retrains = q.retrains + 1) ∧
    Completes (.pctlDisable p r) s ((s.reached (portDom p)).setDisable k true) ∧
    Completes (.pctlEnable p r) s ((s.reached (portDom p)).setDisable k false) ∧
    Completes (.pctlRetrain p r) s ((s.reached (portDom p)).retrainPort k) ∧
    (q.state ≠ .up → ∃ t, exec (.pctlDisable p r) s = .next t ∧ alone t ∧ (t.port k).state = .disabled ∧ (t.port k).disable = true) ∧
    (q.state = .disabled → k < 20 → ∃ t, exec (.pctlEnable p r) s = .next t ∧ alone t ∧ (t.port k).state = .training ∧
      (t.port k).disable = false) ∧
    (q.state = .training ∨ q.state = .down → ∃ t, exec (.pctlRetrain p r) s = .next t ∧ alone t ∧ (t.port k).state = .training) ∧
    (∀ b, Completes (.twinPresentChange b) s (s.twinPresent b)) ∧
    (s.isLive 45 = true → (s.port 20).state ≠ .up → (s.port 21).state ≠ .up →
      ∃ t, exec (.twinPresentChange false) s = .next t ∧ t.pins.twin = false ∧ ∀ y, y = 20 ∨ y = 21 → (t.port y).state = .disabled) ∧
    (s.isLive 45 = true → (∀ y, y = 20 ∨ y = 21 → (s.port y).state = .disabled ∧ (s.port y).disable = false) →
      ∃ t, exec (.twinPresentChange true) s = .next t ∧ t.pins.twin = true ∧ ∀ y, y = 20 ∨ y = 21 → (t.port y).state = .training) ∧
    (∀ c, s.coord.pending = some c → s.jobActive = true → exec .coordApply s = .next s) ∧
    (∀ c, s.coord.pending = some c → s.jobActive = false → Completes .coordApply s (s.putCoord c) ∧
      ((∀ y, y < 22 → (s.port y).state ≠ .up) → (s.putCoord c).coord = { valid := true, inForce := c, pending := none }))

/-- A frame at an UP, powered port completes. An uncorrectable one, one with a used cell that fails its CRC and one whose FSEQ is not the expected one are
discarded: the expected FSEQ, the packets that wait at the port and the parts of packets stay, the port discards from now on, its credits do not grow,
no job, memory or other port changes (R424). A correct frame with the expected FSEQ and no used cell and no NAK raises the expected FSEQ by one, ends the
discarding, and delivers nothing. An acknowledgement of a buffered frame takes that frame and the ones before it out of the replay buffer (R425).
A port that is not UP ignores frames. -/
def Obligations.FramesAdvanceInOrder : Prop :=
  ∀ (s : State) (p : PortId) (fec : Fec) (f : Frame), f.wf = true → s.mcl.wanted = [] →
    let k := p.val
    let q := s.port k
    let bad : Prop := fec.uncorr = true ∨ (∃ c ∈ f.cells, c.used = true ∧ c.crcOf ≠ c.crc.toNat) ∨ f.fseq ≠ q.rxSeq
    let still (t : State) : Prop := (t.port k).inbox = q.inbox ∧ (t.port k).partBulk = q.partBulk ∧ (t.port k).partCtrl = q.partCtrl ∧
      t.mem = s.mem ∧ t.jobs = s.jobs ∧ ∀ y, y ≠ k → y < 22 → t.port y = s.port y
    (q.state = .up → s.isLive (portDom p) = true →
      Completes (.frame p fec f) s (s.frameIn k fec f) ∧
      (bad → ∃ t, exec (.frame p fec f) s = .next t ∧ still t ∧ (t.port k).rxSeq = q.rxSeq ∧ (t.port k).discard = true ∧
        (t.port k).credBulk ≤ q.credBulk ∧ (t.port k).credCtrl ≤ q.credCtrl ∧ (t.port k).state = .up) ∧
      (¬bad → (∀ c ∈ f.cells, c.used = false) → f.nak = false →
        ∃ t, exec (.frame p fec f) s = .next t ∧ still t ∧ (t.port k).rxSeq = q.rxSeq + 1 ∧ (t.port k).discard = false ∧
          (t.port k).state = .up ∧ (q.waiting = [] → q.retBulk = 0 → q.retCtrl = 0 → q.nakDue = false →
            ∀ l x r, q.replay = l ++ x :: r → x.1.fseq = f.aseq → (∀ y ∈ l, y.1.fseq ≠ f.aseq) → (t.port k).replay = r))) ∧
    ((q.state ≠ .up ∨ s.isLive (portDom p) = false) → exec (.frame p fec f) s = .next s)

/-- On a powered HUBNOC the word at DPA 0x00F1_0000_0000 reads the ticket, bits 63 to 48 zero. A write that comes in takes its low 48 bits as the ticket while no job is OPEN or
DRAINING, and but for reports changes nothing else; while one is, the whole state stays (R39). While HUBNOC is dark the ticket stays (R503). A 4-byte aligned access of CSR space to windows 60 to 4,095, or to
an offset of the block region of a powered island at which no register stands after decoding, reads 0, writes nothing, sets BADCSR (bit 2 of
HUBNOC.STATUS) and is counted as item 0 of D59; where a register stands after decoding, so wherever an offset decodes to one, a read leaves the state as
the counting of an access leaves it (R495). -/
def Obligations.TicketAndAbsentRegisters : Prop :=
  (∀ (s : State) (r : Requester) (w : Word64),
    (s.isLive 59 = true → (s.wordRead r 0xF100000000 8).2 = s.ticket.toNat ∧ (s.wordRead r 0xF100000000 8).2 < 2 ^ 48) ∧
    (s.isLive 59 = false → ∃ t, exec (.ticketWrite r w) s = .next t ∧ t.ticket = s.ticket ∧ t.table = s.table ∧ t.mem = s.mem) ∧
    (s.isLive 59 = true → s.jobActive = true → exec (.ticketWrite r w) s = .next s) ∧
    (s.isLive 59 = true → s.jobActive = false → s.heard r = true → EndsIn (exec (.ticketWrite r w) s) { s with ticket := w.setWidth 48 })) ∧
  (∀ (s : State) (r : Requester) (off : Nat) (data : List Byte), off < 0x10000000 → off % 4 = 0 → data.length = 4 → s.Canonical →
    let dom := off / 0x10000
    let o := off % 0x10000
    let s0 := if dom < 60 then s.reached dom else s
    (60 ≤ dom ∨ (s.isLive dom = true ∧ o < 0x8000 ∧ findReg dom (decodeOff dom o) = none) →
      let t := (s0.orReg 59 0 4).occ 59 0
      s.wordRead r (0xF000000000 + off) 4 = (t, 0) ∧ s.wordWrite r (0xF000000000 + off) data = t ∧ t.quiet = s.quiet ∧
      (t.regRaw 59 0).getLsbD 2 = true) ∧
    (dom < 60 → s.isLive dom = true → (findReg dom (decodeOff dom o)).isSome = true → (s.wordRead r (0xF000000000 + off) 4).1 = s0))

/-- With the link UP, no hold, no slice changing its mode and no memory being cleared. RD of bytes that are served is answered by a CPL with the bytes, poison included, and memory stays; where a byte is unmapped the CPL has
status UNMAPPED and FSTAT shows it; bytes of a dark island read
zeros, and writes of them are dropped (R452, R463, R503). WR and WB of served bytes complete; unpoisoned data at plain addresses stand in memory afterwards and every other
byte is as before. RDSHARED and RDOWN of a line in an operating window enter it into the snoop filter while there is room; outside every
window the filter stays; both are answered with the line's 64 bytes (R455). After WB and after RECALL_ACK the host no longer holds the line (R456). CPL ends
the Underlay request of its tag, or the write of MCL's own (R457, R459). CSR_RD and CSR_WR of CSR, counter and table space are answered with the word's
value, the write having been done (a CSR_WR that came behind a host WR waits for it, R453); elsewhere they are UNMAPPED. While a window change is in progress, recalls of lines follow the answer. What can be sent is then sent. -/
def Obligations.HostAccessesAreAnswered : Prop :=
  ∀ (s : State) (tag : BitVec 16) (dpa : Word48), s.mclUp = true → s.mcl.wanted = [] → s.pwrc.hold = false →
    s.clearing = false → (∀ k, (s.loftAt k).reconf = false ∧ (s.loftAt k).clearing = false) → s.Canonical →
    let a := dpa.toNat
    let n := a / 64
    let tw := (placeOf a).twist
    let cpl (ch : BitVec 2) (status : BitVec 3) (data : List Byte) (poison : Bool) : Msg :=
      { type := .cpl, ch, poison, status, tag, len := BitVec.ofNat 16 data.length, addr := 0, data }
    let bad (b len : Nat) : Bool := !(s.badUnits [viaSpan b len]).isEmpty
    let answers (c : Instr) (m : Msg) (holds : State → Prop) : Prop :=
      ∃ (u : State) (l : List Msg), exec c s = .next u.mclPump ∧ u.mcl.out = s.mcl.out ++ m :: l ∧ (∀ x ∈ l, x.type = .recall) ∧
        (s.mcl.recalling = false → l = []) ∧ holds u
    let stored (b : Nat) (data : List Byte) (u : State) : Prop :=
      s.KeepsOutside u [{ a := b, n := data.length }] ∧ ∀ i, i < data.length → u.byte (b + i) = data.getD i 0
    (∀ len, len ≤ 256 →
      (s.hostRange a len = .served → answers (.rd tag dpa len) (cpl 1 0 (s.readVia a len) (bad a len)) fun u => u.mem = s.mem) ∧
      (s.hostRange a len = .unmapped → answers (.rd tag dpa len) (cpl 1 1 [] false) fun u =>
        u.mem = s.mem ∧ (u.regRaw 50 0xC).getLsbD 3 = true) ∧
      (∀ dom, s.hostRange a len = .dark dom → answers (.rd tag dpa len) (cpl 1 0 (List.replicate len 0) false) fun u => u.mem = s.mem)) ∧
    (∀ p data dom, data.length ≤ 256 → s.hostRange a data.length = .dark dom → answers (.wr tag dpa p data) (cpl 1 0 [] false) fun u => u.mem = s.mem) ∧
    (∀ p data, data.length ≤ 256 → s.hostRange a data.length = .served →
      answers (.wr tag dpa p data) (cpl 1 0 [] false) (fun u => p = false → tw = 0 → bad a data.length = false → stored a data u) ∧
      answers (.wb tag dpa p data) (cpl 0 0 [] false) (fun u =>
        (∀ x ∈ u.mcl.snoop, x.line ≠ n) ∧ (p = false → tw = 0 → bad a data.length = false → stored a data u))) ∧
    (∀ x ∈ [(Instr.rdshared tag dpa, false), (.rdown tag dpa, true)], s.hostRange (64 * n) 64 = .served →
      (∀ y ∈ s.mcl.snoop, y.line ≠ n) → s.mcl.snoop.length < 262144 →
      answers x.1 (cpl 0 0 (s.readVia (64 * n) 64) (bad (64 * n) 64)) fun u => u.mem = s.mem ∧ (s.mcl.recalling = false → u.mcl.snoop =
        if inWindows s.mcl.shared s.mcl.windows n then s.mcl.snoop ++ [{ line := n, own := x.2 }] else s.mcl.snoop)) ∧
    (∀ d p data, data.length ≤ 256 → ∃ u : State, exec (.recallAck dpa d p data) s = .next u ∧ (∀ x ∈ u.mcl.snoop, x.line ≠ n) ∧
      (d = false → u.mem = s.mem) ∧ (d = true → p = false → data.length = 64 → (∃ x ∈ s.mcl.snoop, x.line = n) →
        s.hostRange (64 * n) 64 = .served → (placeOf (64 * n)).twist = 0 → bad (64 * n) 64 = false → stored (64 * n) data u)) ∧
    (∀ st p data, data.length ≤ 256 → let c := (s.takeMsg .cpl tag none).notePoison p
      (∀ r, s.mcl.uw.find? (·.tag = tag.toNat) = some r → Completes (.cpl tag st p data) s
        (c.uwDone r (st = 0 && !p && (r.kind = .write || data.length = r.len)) data).mclPump) ∧
      (s.mcl.uw.find? (·.tag = tag.toNat) = none → exec (.cpl tag st p data) s =
        .next (match s.mcl.own.find? (fun q : Nat × OwnReq => q.1 = tag.toNat) with
          | some q => c.ownDone q.1 q.2
          | none => c.modMcl fun m => { m with dbs := m.dbs.erase tag.toNat }).mclPump)) ∧
    (∀ len data, len ≤ 256 → data.length ≤ 256 → ((placeOf a).region.isWord = true →
        (let t := (s.takeMsg .csrRd tag (some a)).wordRead .host a len
         exec (.csrRd tag dpa len) s = .next (t.1.complete 2 0 tag (leBytes t.2 len)).mclPump) ∧
        (s.mcl.wrAhead = true → exec (.csrWr tag dpa data) s = .next s) ∧
        (s.mcl.wrAhead = false → Completes (.csrWr tag dpa data) s ((((s.takeMsg .csrWr tag (some a)).wordWrite .host a data).complete 2 0 tag []).mclPump))) ∧
      ((placeOf a).region.isWord = false → answers (.csrRd tag dpa len) (cpl 2 1 [] false) (fun u => u.mem = s.mem) ∧
        (s.mcl.wrAhead = false → answers (.csrWr tag dpa data) (cpl 2 1 [] false) fun u => u.mem = s.mem)))

/-- On a powered D50 not held in reset. A flit that fails its CRC or has another FSEQ than expected is discarded; a correct one without NAK raises the expected FSEQ and
delivers its messages (R446, R447). Training ends UP on all lanes, UP at half width on lanes 0 to 15 where degrading is allowed, else DOWN;
MCL_RETRAIN trains a link that is DOWN (R448). Silence and lock loss take it out of UP: no line is held or message waits afterwards, with no request outstanding
(R464). A register is written by a requester whose write comes in. EVENT_WRITE with room in the ring sends the oldest record to its place and advances EVPROD (R458, R459). The doorbell timer rings an owed doorbell, else
ends the interval. EVCFG with EN written as 1 zeroes EVPROD and EVCONS (R460). MBCTL.GO takes the request where none is in progress (R462). A
window change on a filter without lines is in force at once (R456). -/
def Obligations.LinkRingAndMailbox : Prop :=
  ∀ (s : State) (r : Requester) (data mask : Half), s.isLive 50 = true → s.pins.resetN = true → s.mcl.wanted = [] → s.Canonical → s.heard r = true →
    let m := s.mcl
    let s0 := s.reached 50
    (∀ f, f.wf = true → m.link = 2 → Completes (.flit f) s (s.flitIn f) ∧
      ((f.crcOf ≠ f.crc.toNat ∨ f.fseq ≠ m.rxSeq) → ∃ t, exec (.flit f) s = .next t ∧ t.mcl.rxSeq = m.rxSeq ∧ t.mcl.inbox = m.inbox ∧
        t.mcl.rxBytes = m.rxBytes ∧ t.mcl.discard = true ∧ t.mem = s.mem) ∧
      (f.crcOf = f.crc.toNat → f.fseq = m.rxSeq → f.nak = false → ∃ t, exec (.flit f) s = .next t ∧ t.mcl.rxSeq = m.rxSeq + 1 ∧
        t.mcl.discard = false ∧ t.mcl.inbox = m.inbox ++ (parseAll (m.rxBytes ++ f.msg).length (m.rxBytes ++ f.msg)).1 ∧ t.mem = s.mem)) ∧
    (∀ b, m.link = 1 → ∃ t, exec (.mclTrainingEnd b) s = .next t ∧ t.mem = s.mem ∧
      (b = 0 → t.mcl.link = 2 ∧ t.mcl.half = false) ∧
      (b ≠ 0 → m.degrade = true → b &&& 0xFFFF = 0 → t.mcl.link = 2 ∧ t.mcl.half = true) ∧
      (b ≠ 0 → (m.degrade = false ∨ b &&& 0xFFFF ≠ 0) → t.mcl.link = 0)) ∧
    (m.link = 0 → 9 ≤ s.boot.order → exec .mclRetrain s = .next s.mclTrain ∧ s.mclTrain.mcl.link = 1) ∧
    (m.link = 2 → ∀ c ∈ [Instr.mclSilence, .mclLockLoss], Completes c s s.mclDown ∧ (m.uw = [] →
      let t := s.mclDown
      t.mcl.link = 0 ∧ t.mcl.snoop = [] ∧ t.mcl.out = [] ∧ t.mem = s.mem ∧ (t.regRaw 50 0xC).getLsbD 0 = true ∧
      ∀ x ∈ m.snoop, x.own = true → t.poisonAt (64 * x.line) = true)) ∧
    (∀ e rest, m.link = 2 → s.evEnabled = true → m.lost = 0 → s.evq = e :: rest → s.ringRoom ≠ 0 →
      ∃ u : State, exec .eventWrite s = .next u.mclPump ∧ u.evq = rest ∧ u.mcl.prod = (m.prod + 1) % m.evSize ∧
        u.mcl.out.map (fun x => (x.addr, x.data)) = m.out.map (fun x => (x.addr, x.data)) ++
          [(BitVec.ofNat 52 (m.evBase + 64 * m.prod), e.bytes m.phase)]) ∧
    (m.link = 2 → m.dbWait = true →
      (m.dbOwed = true → ∃ u : State, exec .doorbellTimer s = .next u.mclPump ∧ u.mcl.dbOwed = false ∧
        u.mcl.out.map (fun x => (x.addr, x.data)) = m.out.map (fun x => (x.addr, x.data)) ++
          [(BitVec.ofNat 52 (s.dbAddr 0x40), leBytes m.visible 4)]) ∧
      (m.dbOwed = false → exec .doorbellTimer s = .next (s.modMcl fun m => { m with dbWait := false }))) ∧
    (∃ t, exec (.evcfgEnable r data mask) s = .next t ∧
      (mask.getLsbD 0 = true → data.getLsbD 0 = true → t.mcl.prod = 0 ∧ t.regRaw 50 0x6C = 0 ∧ t.mcl.phase = true) ∧
      ((mask.getLsbD 0 = false ∨ data.getLsbD 0 = false) → t.mcl.prod = m.prod)) ∧
    exec (.evconsWrite r data mask) s = .next (s0.regWrite r 50 0x6C data mask) ∧
    (∃ t, exec (.mailboxGo r) s = .next t ∧ t.mcl.mbox = some (m.mbox.getD (s.hostReg 0x30))) ∧
    (∀ off : Half, let o := decodeOff 50 off.toNat
      (¬(o = 0 ∨ (0x80 ≤ o ∧ o < 0x100)) → exec (.sharedWindowChange r off data mask) s = .next s0) ∧
      ((o = 0 ∨ (0x80 ≤ o ∧ o < 0x100)) → (findReg 50 o).isSome = false → exec (.sharedWindowChange r off data mask) s = .next s0.badCsr) ∧
      ((o = 0 ∨ (0x80 ≤ o ∧ o < 0x100)) → (findReg 50 o).isSome = true →
        exec (.sharedWindowChange r off data mask) s = .next ((s0.regWrite r 50 o data mask).windowsChanged.mclPump))) ∧
    (∀ off : Half, let o := decodeOff 50 off.toNat
      (o = 0 ∨ (0x80 ≤ o ∧ o < 0x100)) → (findReg 50 o).isSome = true → m.snoop = [] →
      ∃ u : State, exec (.sharedWindowChange r off data mask) s = .next u.mclPump ∧ u.mcl.recalling = false ∧
        u.mcl.shared = u.windowRegs.1 ∧ u.mcl.windows = u.windowRegs.2 ∧
        u.windowRegs = (s0.regWrite r 50 o data mask).windowRegs)

/-- While PWRC runs. A pending grant is adopted at once with NOW or with no job OPEN or DRAINING, else it waits (R468); the clocks switch to it (R26), a lower one
is in force from the switch, a raise lifts n at the switch (R470) and is in force when its ramp ends (R469). Of every 256 cycles as many are bubbles as the count n that has
reached the arrays says (R473, R474); a rise reaches them at once. A control period outside hold and
measurement mode updates n by R474, and BMAX of the register bounds it from then on (R472). ESTIMATE records E, its activity sum (log entry 53) and the leakage (free); a measurement window records M
and leaves a ratio from 0.85 to 1.15 (R478, R479). A droop stretches its island alone, STRETCH_END ends that (R481, R482). Temperatures are
recorded; a stack moves through its states and enters hold at HOLD (R485, R486); 125 °C latches the trip and darkens every island but D51 and D52
(R488). Every 1 ms T_red rises by 56 W, as far as the floor allows, at TLIM, and falls by 56 W more than 2 °C below it (R484). HOLD_ABANDON
fails the attempt once in a hold. -/
def Obligations.PowerFollowsItsRules : Prop :=
  ∀ s : State, s.pwrcRuns = true →
    let p := s.pwrc
    let only (t : State) : Prop := t.quiet = { s.quiet with pwrc := t.pwrc }
    (∀ g, p.gpend = some g → p.ramp = none →
      (p.gNow = true ∨ s.jobActive = false → exec .grantApply s =
        .next { s with pwrc := { p with gpend := none, gNow := false, ramp := some g, switched := false } }) ∧
      (p.gNow = false → s.jobActive = true → exec .grantApply s = .next s)) ∧
    (∀ g, p.ramp = some g →
      (p.switched = false → g ≤ p.gnow → exec .grantSwitch s = .next { s with pwrc := { p with switched := true, freq := g, gnow := g } }) ∧
      (p.switched = false → p.gnow < g →
        let n := min p.bmax (max p.n (256 - (256 - p.n) * (600 + 25 * p.gnow) / (600 + 25 * g)))
        exec .grantSwitch s = .next { s with pwrc := { p with switched := true, freq := g, n, arr := max p.arr n } }) ∧
      (p.switched = true → EndsIn (exec .grantRampEnd s) { s with pwrc := { p with gnow := g, ramp := none, switched := false } })) ∧
    (p.arr ≤ 256 → p.hold = false → ((List.range 256).filter p.bubbleAt).length = p.arr) ∧
    (∃ t, exec .controlPeriod s = .next t ∧ t.mem = s.mem ∧ t.pwrc.bmax = s.cfgBits 52 8 0 8 ∧ t.pwrc.n =
      min (if p.hold || p.byMeas then p.n else p.update 16 (p.est * p.rhoNum) p.rhoDen) (s.cfgBits 52 8 0 8)) ∧
    (∀ w, let e := w + Config.leakage p.tisland.toList p.freq
      exec (.estimate w) s = .next { s with pwrc := { p with est := e, estSum := p.estSum + e, estCnt := p.estCnt + 1 } }) ∧
    (∀ w, ∃ t, exec (.measurementWindow w) s = .next t ∧ t.pwrc.meas = w ∧ 85 * t.pwrc.rhoDen ≤ 100 * t.pwrc.rhoNum ∧
      100 * t.pwrc.rhoNum ≤ 115 * t.pwrc.rhoDen ∧ t.mem = s.mem) ∧
    (∀ n : DomainId, s.isLive n = true → s.stretched n = false → ∃ t, exec (.droopDetect n) s = .next t ∧ only t ∧
      ∀ x : DomainId, t.stretched x = (s.stretched x || decide (x = n))) ∧
    (∀ n : DomainId, ∃ t, exec (.stretchEnd n) s = .next t ∧ only t ∧ ∀ x : DomainId, t.stretched x = (s.stretched x && decide (x ≠ n))) ∧
    (∀ (n : DomainId) (x : BitVec 8), s.sensed n = true →
      (x.toNat < 125 → exec (.islandTempRead n x) s = .next { s with pwrc := { p with tisland := vmod p.tisland n fun _ => x } }) ∧
      (125 ≤ x.toNat → p.trip = false → ∃ t, exec (.islandTempRead n x) s = .next t ∧ t.pwrc.trip = true ∧ t.pins.trip = true ∧
        t.keeper.bstate = 3 ∧ ∀ y : DomainId, vget t.live y false = decide (y.val = 51 ∨ y.val = 52))) ∧
    (∀ (k : StackId) (x : BitVec 8), s.sensed (24 + k) = true → x.toNat < 125 →
      let new := thermalNext (vget p.thermal k 0) x.toNat
      ∃ t, exec (.stackTempRead k x) s = .next t ∧ t.mem = s.mem ∧ vget t.pwrc.tstack k 0 = x ∧ vget t.pwrc.thermal k 0 = new ∧
        vget t.pwrc.shown k (0, 0) = (x, new) ∧
        t.pwrc.hold = (p.hold || decide (new = 3))) ∧
    (∀ (k : StackId) (x : BitVec 8), s.sensed (24 + k) = true → 125 ≤ x.toNat → p.trip = false →
      ∃ t, exec (.stackTempRead k x) s = .next t ∧ t.pwrc.trip = true ∧ t.pins.trip = true ∧ t.keeper.bstate = 3 ∧
        ∀ y : DomainId, vget t.live y false = decide (y.val = 51 ∨ y.val = 52)) ∧
    (∃ t, exec .dieTempCheck s = .next t ∧ t.quiet = { s.quiet with pwrc := t.pwrc, regs := t.quiet.regs } ∧
      let h := (hottest p.tisland.toList).1
      t.pwrc.tred = if p.tlim ≤ h then max p.tred (min (p.tred + 56) (min p.mcCap p.hostCap - 700))
        else if h + 2 < p.tlim then p.tred - 56 else p.tred) ∧
    (p.hold = true → p.holdDone = false → s.isLive 46 = true →
      Completes .holdAbandon s ((s.modPwrc fun p => { p with holdDone := true }).failAttempt 7))

/-- Adding to a counter gives the sum, held at 2^48 - 1, where its SAT bit is set; other counters stay (R515). On a powered Keeper, SNAP, coming in, records the current ticket and
stamp and starts a snapshot, or waits behind the one in progress; its end copies the counters of powered islands and leaves the others' copies;
a waiting request then starts with the ticket and stamp of its request (R522). FREEZE writes the bit and is busy until it is applied (R521). CLR by the
Keeper, or by the host under USER_EN, zeroes the counters and SAT bits of its island alone, and the access is counted after that (R513, R515, R516, R523). At the end of a bandwidth window a
port's words hold the bytes of the window and count it, held at 2^48 - 1, and the port counts from zero (R527). -/
def Obligations.CountersSnapshotFreezeClear : Prop :=
  ∀ (s : State) (r : Requester), Sparse.wf 0 s.ctr.val = true → Sparse.wf 0 s.ctr.snap = true → Sparse.wf false s.ctr.sat = true →
    s.Canonical → s.heard r = true →
    (∀ key n, let t := (s.addCount key n).1
      (∀ k, t.count k = if k = key then min (2 ^ 48 - 1) (s.count k + n) else s.count k) ∧
      (2 ^ 48 - 1 ≤ s.count key + n → Sparse.get false t.ctr.sat key = true)) ∧
    (s.isLive 51 = true → s.ctr.snapBusy = false → s.ctr.snapNext = [] → ∃ t, exec (.snap r) s = .next t ∧ t.ctr.snapTicket = s.ticket ∧
      t.ctr.snapStamp = s.stamp ∧ t.ctr.snapBusy = true ∧ t.ctr.snap = s.ctr.snap) ∧
    (s.isLive 51 = true → (s.ctr.snapBusy = true ∨ s.ctr.snapNext ≠ []) → ∃ t, exec (.snap r) s = .next t ∧
      t.ctr.snapNext = s.ctr.snapNext ++ [(s.ticket, s.stamp)] ∧ t.ctr.snapBusy = s.ctr.snapBusy) ∧
    (s.ctr.snapBusy = true → ∃ t, exec .snapshotEnd s = .next t ∧ t.ctr.snapBusy = false ∧ t.ctr.val = s.ctr.val ∧
      ∀ k, Sparse.get 0 t.ctr.snap k = if s.isLive (keyDom k) then s.count k else Sparse.get 0 s.ctr.snap k) ∧
    (∀ x rest, s.ctr.snapNext = x :: rest → s.ctr.snapBusy = false → ∃ t, exec .deferredSnapshot s = .next t ∧ t.ctr.snapNext = rest ∧
      t.ctr.snapBusy = true ∧ t.ctr.snapTicket = x.1 ∧ t.ctr.snapStamp = x.2) ∧
    (∀ on, s.isLive 51 = true → ∃ t, exec (.freeze r on) s = .next t ∧ (t.regRaw 51 0x100).getLsbD 1 = on ∧ t.ctr.frzBusy = true ∧
      t.ctr.frozen = s.ctr.frozen) ∧
    (s.ctr.frzBusy = true → exec .freezeApplied s =
      .next (s.modCtr fun c => { c with frzBusy := false, frozen := (s.regRaw 51 0x100).getLsbD 1 })) ∧
    (∀ n : DomainId, s.isLive n = true → let u := s.clearFirst n r
      exec (.clr n r) s = .next (u.reached n) ∧ ∀ k, (u.count k = if keyDom k = n ∧ s.mayCount r = true then 0 else s.count k) ∧
        (keyDom k = n → s.mayCount r = true → Sparse.get false u.ctr.sat k = false)) ∧
    (∀ p : PortId, s.isLive (portDom p) = true → ∃ t, exec (.bandwidthWindowEnd p) s = .next t ∧ (t.port p).tx = 0 ∧ (t.port p).rx = 0 ∧
      (∀ y : PortId, vget t.ctr.ports y (0, 0, 0) = if y = p then
          (min (2 ^ 48 - 1) (s.port p).tx, min (2 ^ 48 - 1) (s.port p).rx, min (2 ^ 48 - 1) ((vget s.ctr.ports p (0, 0, 0)).2.2 + 1))
        else vget s.ctr.ports y (0, 0, 0)) ∧ ∀ y : PortId, y ≠ p → t.port y = s.port y)

/-- A rising PWROK is a cold reset: the state is that of reset but for the flash, the fuses, the levels of the pins, the straps sampled and the model's own fields
(R529, R554); a falling one
releases the outputs and powers nothing (R552, R557). RESET_N asserted without a latched trip, and the MC's RESET, are a warm reset: memory, poison markers, table
space, TICKET, the Keeper stamp, the powered islands, descriptor tables and immediates are kept, LOFT modes too, once the lines that the
host held modified are poisoned and a slice that was changing its mode has done so; every job context is free, no Truss
runs, counters are zero, READY is deasserted, and the boot sequence starts over (R529 to R531). With the trip latched it is ignored but for
the pin, the cause and a count (R531). RESET_N released drives the outputs again (R552). P3V3A low releases the outputs alone. The loss of
P12V or REFCLK0 darkens every island but D51 and D52 (R558), that of REFCLK1 takes the ports' clock, and that of REFCLK2 MCL's. -/
def Obligations.ResetsKeepAndClear : Prop :=
  ∀ s : State,
    let s0 := s.linesLost.each ((List.range 8).filter fun k => (s.loftAt k).reconf) State.loftApply
    let warm (t : State) (cause : Nat) : Prop := t.mem = s0.mem ∧ t.poison = s0.poison ∧ t.table = s.table ∧ t.ticket = s.ticket ∧
      t.stamp = s.stamp ∧ t.live = s.live ∧ t.jobActive = false ∧ t.ctr = {} ∧ t.pins.ready = false ∧ t.boot.order = 1 ∧
      t.keeper.rcause = cause ∧ t.keeper.flash = s.keeper.flash ∧ t.coord.valid = false ∧ t.pwrc.gnow = 0 ∧
      (∀ k : StackId, (t.loftAt k).mode = (s0.loftAt k).mode ∧ (t.loftAt k).reconf = false) ∧
      ((∀ k : StackId, (s.loftAt k).reconf = false) → s0 = s.linesLost) ∧ ((∀ x ∈ s.mcl.snoop, x.own = false) → s.linesLost = s) ∧
      ∀ d : TrussId, (t.tr d).run = false ∧ (t.tr d).desc = (s.tr d).desc ∧ (t.tr d).imm = (s.tr d).imm
    let dark (t : State) : Prop := (s.mcl.link ≠ 2 → t.mem = s.mem ∧ t.ticket = s.ticket) ∧ t.jobActive = false ∧ t.pins.ready = false ∧
      ∀ n : DomainId, vget t.live n false = decide (n.val = 51 ∨ n.val = 52)
    (s.pins.pwrok = false → ∃ t, exec .pwrokRise s = .next t ∧ t.pins.pwrok = true ∧ t = { State.reset with
      pending := s.pending, free := s.free + 1, keeper := t.keeper, pins := t.pins } ∧ t.keeper.flash = s.keeper.flash ∧
      t.keeper.fuseMin = s.keeper.fuseMin ∧ t.pins.resetN = s.pins.resetN ∧ t.pins.twin = s.pins.twin ∧ t.keeper.rcause = 0) ∧
    (s.pins.pwrok = true → exec .pwrokRise s = .next s) ∧
    (s.pins.pwrok = false → ∀ c ∈ [Instr.pwrokFall, .mcReset, .p12vLoss, .refclk0Loss, .refclk1Loss, .refclk2Loss], exec c s = .next s) ∧
    (s.pins.resetN = false → exec .resetNAssert s = .next s) ∧ (s.pins.resetN = true → exec .resetNRelease s = .next s) ∧
    (s.pins.resetN = true → s.pins.pwrok = false →
      exec .resetNAssert s = .next { s with pins := { s.pins with resetN := false } }) ∧
    (s.pins.pwrok = true → ∃ t, exec .pwrokFall s = .next t ∧ t.readyPin = false ∧ t.alertPin = false ∧ t.tripPin = false ∧
      ∀ n, t.isLive n = false) ∧
    (s.pins.resetN = true → s.pins.pwrok = true → s.pwrc.trip = false → ∃ t, exec .resetNAssert s = .next t ∧ warm t 1 ∧
      t.pins.resetN = false ∧ t.pins.released = true ∧ (s.tap.extest = false → t.readyPin = false)) ∧
    (s.pins.pwrok = true → s.pwrc.trip = false → ∃ t u, exec .mcReset s = .next t ∧ warm u 2 ∧ t = u.answer 0 []) ∧
    (s.pins.pwrok = true → s.pwrc.trip = true → exec .mcReset s = .next (s.resetIgnored.answer 0 [])) ∧
    (s.pins.resetN = true → s.pins.pwrok = true → s.pwrc.trip = true → ∃ t, exec .resetNAssert s = .next t ∧ t.quiet =
      { s.quiet with pins := { s.pins with resetN := false }, keeper := { s.quiet.keeper with rcause := 3 } }) ∧
    (s.pins.resetN = false → ∃ t, exec .resetNRelease s = .next t ∧ t.pins.resetN = true ∧ (t.pins.released = !s.pins.pwrok) ∧
      t.tap.extest = false ∧ t.keeper.spirel = false ∧ t = { s with pins := t.pins, tap := t.tap, keeper := t.keeper }) ∧
    exec .p3v3aLow s = .next { s with pins := { s.pins with released := true } } ∧
    (s.pins.pwrok = true → (∃ t, exec .p12vLoss s = .next t ∧ dark t ∧ t.pins.p12v = false) ∧
      (∃ t, exec .refclk0Loss s = .next t ∧ dark t ∧ t.pins.ref0 = false) ∧
      Completes .refclk1Loss s ((s.each (List.range 22) State.portClockLost).modPins fun p => { p with ref1 := false }) ∧
      Completes .refclk2Loss s (s.mclLost.modPins fun p => { p with ref2 := false }))

/-- While the Keeper boots with PWROK and RESET_N high, each command of the sequence acts at its own place only (R533, R534): the headers are checked at order 2; at
order 3 the chosen image runs, or the other as a fallback; islands are powered at 4; BIST, where the image asks for it, at 5; stacks are trained at 6; at 7
every byte of HBM, Loft and stores reads zero without markers; the identity is checked at 8; at 9 TOPLEVEL is set and MCL trains; at 10 READY
is asserted. A command that comes at another place changes nothing. Over SPI pads that are released the Keeper reads nothing, and what it checks
fails (the model's choice, log entry 86). Where no image is valid at order 3 the state is FAILED, ALERT_N is asserted,
READY stays deasserted, no later order runs, and the Keeper serves only the MC commands STATUS, SPI_RELEASE and RESET: the others are answered
NOTREADY (R535). -/
def Obligations.BootRunsInOrder : Prop :=
  ∀ s : State, s.pins.pwrok = true → s.pins.resetN = true → s.pins.p12v = true → s.pins.ref0 = true →
    let at' (n : Nat) : Prop := s.keeper.bstate = 0 ∧ s.boot.order = n
    let a := s.firstSlot
    let good (b : Bool) : Prop := s.reads = true ∧ s.hdr b = true ∧ s.bodyOk b = true
    (at' 1 → exec .bootHeaderCheck s = .next { s with boot := { s.boot with order := 2, hdrA := s.reads && s.headerOk false, hdrB := s.reads && s.headerOk true } }) ∧
    (at' 2 → good a → ∃ t, exec .bootBodyCheck s = .next t ∧ t.boot.order = 3 ∧ t.keeper.slot = a ∧ t.keeper.fallback = false) ∧
    (at' 2 → ¬good a → good (!a) → ∃ t, exec .bootBodyCheck s = .next t ∧ t.boot.order = 3 ∧ t.keeper.slot = !a ∧
      t.keeper.fallback = true) ∧
    (at' 2 → ¬good a → ¬good (!a) → s.pins.ready = false → ∃ t, exec .bootBodyCheck s = .next t ∧ t.regRead 51 0 &&& 7 = 2 ∧
      t.alertN = true ∧ t.pins.ready = false ∧ (s.tap.extest = false → t.readyPin = false) ∧ t.keeper.bstate = 2 ∧ t = { s with keeper := t.keeper }) ∧
    (s.keeper.bstate = 2 → (∀ c ∈ [Instr.bootHeaderCheck, .bootBodyCheck, .islandPowerUp, .bootBist, .hbmTraining, .memoryClear,
        .identityCheck, .linkStart, .readyAssert], exec c s = .next s) ∧
      (∀ (x : BitVec 16) (st : BitVec 7) (b : Bool) (d : Word48) (w : Word64) (l : List Byte) (n : BitVec 8),
        ∀ c ∈ [Instr.evread, .setcoord x, .setgrant st b, .setcap x, .release, .telem, .mcCsrrd d, .mcCsrwr d l, .mcBist w, .mcAttest l,
          .report n], l.length ≤ 256 → exec c s = .next (s.answer 4 [])) ∧
      (s.mcl.wanted = [] → ∀ c ∈ [Instr.status, .spiRelease, .mcReset], ∃ t x, exec c s = .next t ∧ t.keeper.answer = some x ∧ x.status = 0)) ∧
    (at' 3 → s.boot.warm = false → ∃ t, exec .islandPowerUp s = .next t ∧ t.boot.order = 4 ∧ t.clearing = true ∧ ∀ n : DomainId, vget t.live n false = true) ∧
    (at' 4 → s.boot.warm = false → s.bist.busy = false →
      (s.wantsBist = false → exec .bootBist s = .next { s with boot := { s.boot with order := 5 } }) ∧
      (s.wantsBist = true → ∃ t, exec .bootBist s = .next t ∧ t.bist.busy = true ∧ t.bist.boot = true ∧ t.keeper.bootbist = true)) ∧
    (at' 5 ∧ s.boot.warm = false ∨ at' 3 ∧ s.boot.warm = true ∨ at' 4 ∧ s.boot.warm = false ∧ s.wantsBist = false → exec .hbmTraining s = .next { s with boot := { s.boot with order := 6 } }) ∧
    (at' 6 → s.boot.warm = false → ∃ t, exec .memoryClear s = .next t ∧ t.boot.order = 7 ∧ t.clearing = false ∧ ∀ b, t.byte b = 0 ∧ t.poisonAt b = false) ∧
    (at' (if s.boot.warm then 6 else 7) → ∃ t, exec .identityCheck s = .next t ∧ t.boot.order = 8 ∧
      t.keeper.iderr = (s.keeper.iderr || !(s.reads && s.certOk))) ∧
    (at' 8 → ∃ t, exec .linkStart s = .next t ∧ t.boot.order = 9 ∧ t.mcl.link = 1 ∧ t.keeper.toplevel = toplevelOf s.keeper.header ∧
      ∀ p : PortId, (t.port p).state = if isTwin p && !s.pins.twin then .disabled else .training) ∧
    (at' 9 → ∃ t, exec .readyAssert s = .next t ∧ t.boot.order = 10 ∧ t.pins.ready = true ∧ t.keeper.bstate = 1)

/-- BISTC.GO on a powered D57 starts a run where none is in progress, no job is OPEN or DRAINING and no Truss runs, else it is refused and nothing is tested (R542).
An island's signature is kept, folded into the aggregate by rotation and exclusive or, and its island fails where it differs from the published
one (R543); the run goes on with the next island, if any is left. ATTEST_SIGNED makes the oldest report asked for. With a mailbox request that waits:
INFO and CERT answer the header with SLOT, FALLBACK and SERIAL, and the certificate; FLERASE and FLWRITE change the flash where it may be written and
are DENIED where it may not; SECCOMMIT raises the fused minimum to the running version, and is DENIED after a fallback; BIST and ATTEST
start (R461, R546, R562); a LEN that is not the command's is BADLEN. The Keeper has read the request's payload before. Where no request waits that it can read,
nothing happens (the model's choice, log entry 52). A write of GO that does not come in (R453, R465) does nothing. -/
def Obligations.SelfTestAndMailboxServices : Prop :=
  ∀ (s : State) (r : Requester) (tag : Word32),
    let s1 (len : Nat) : State := s.askHost 8 (s.mcl.mbox.getD 0 + 16) len
    (s.mcl.wanted = [] → s.heard r = false → exec (.bistGo r) s = .next s) ∧
    (s.heard r = true → s.isLive 57 = true → Completes (.bistGo r) s (s.reached 57).bistGo ∧
      (s.bist.busy = false → s.jobActive = true ∨ s.truss.toList.any (·.run) = true → (s.reached 57).bistGo.bist = s.bist) ∧
      (s.bist.busy = true → (s.reached 57).bistGo = s.reached 57)) ∧
    (∀ sig, (s.bist.busy && s.pins.pwrok && s.pins.resetN) = false → exec (.islandTestDone sig) s = .next s) ∧
    (s.isLive 51 = false ∨ s.keeper.signing = [] → exec .attestSigned s = .next s) ∧
    (∀ sig, s.bist.busy = true → s.pins.pwrok = true → s.pins.resetN = true → s.bist.cur < 60 →
      let t := s.testDone sig
      Completes (.islandTestDone sig) s t ∧ vget t.bist.sigs s.bist.cur 0 = sig ∧ t.bist.agg = s.bist.agg.rotateLeft 1 ^^^ sig ∧
      t.bist.busy = !s.bist.todo.isEmpty ∧
      t.bist.failed = s.bist.failed ++ (if sig.toNat = Config.bistPublished s.bist.cur s.bist.kind then [] else [s.bist.cur])) ∧
    (∀ nonce rest, s.isLive 51 = true → s.keeper.signing = (nonce, none) :: rest → ∃ t, exec .attestSigned s = .next t ∧
      t.keeper.report = s.mkReport nonce ∧ t.keeper.signing = rest) ∧
    (∀ nonce rest x, s.isLive 51 = true → s.keeper.signing = (nonce, some x) :: rest → ∃ t u : State, exec .attestSigned s = .next t ∧
      u.keeper.report = s.mkReport nonce ∧ t = u.respond x 0 (s.mkReport nonce)) ∧
    (s.mbReady = false → ∀ (w : Word64) (off : Word32) (l : List Byte), ∀ c ∈ [Instr.info tag, .cert tag, .mbAttest tag l, .mbBist tag w,
      .flerase tag off, .flwrite tag off l, .seccommit tag], exec c s = .next s) ∧
    (s.mbReady = true →
      exec (.info tag) s = .next ((s1 0).respond tag 0 (s.keeper.header ++
        [BitVec.ofNat 8 (flag s.keeper.slot), BitVec.ofNat 8 (flag s.keeper.fallback)] ++ (s.cert.drop 8).take 8)) ∧
      exec (.cert tag) s = .next ((s1 0).respond tag 0 s.cert) ∧
      (∀ off : Word32, let a := off.toNat / 0x10000 * 0x10000
        (s.flashDenied a 0x10000 = true → exec (.flerase tag off) s = .next ((s1 4).respond tag 3 [])) ∧
        (s.flashDenied a 0x10000 = false → ∃ u : State, exec (.flerase tag off) s = .next (u.respond tag 0 []) ∧
          ∀ x, flashAt u.keeper.flash x = if a ≤ x ∧ x < a + 0x10000 then 0xFF else flashAt s.keeper.flash x)) ∧
      (∀ (off : Word32) (l : List Byte), l.length = 0 ∨ 4064 < l.length →
        exec (.flwrite tag off l) s = .next ((s1 (4 + l.length)).respond tag 2 [])) ∧
      (∀ (off : Word32) (l : List Byte), 1 ≤ l.length → l.length ≤ 4064 →
        (s.flashDenied off.toNat l.length = true → exec (.flwrite tag off l) s = .next ((s1 (4 + l.length)).respond tag 3 [])) ∧
        (s.flashDenied off.toNat l.length = false → ∃ u : State, exec (.flwrite tag off l) s = .next (u.respond tag 0 []) ∧
          ∀ x, flashAt u.keeper.flash x = if off.toNat ≤ x ∧ x < off.toNat + l.length then
            l.getD (x - off.toNat) 0 &&& flashAt s.keeper.flash x else flashAt s.keeper.flash x)) ∧
      (s.keeper.fallback = true → exec (.seccommit tag) s = .next ((s1 0).respond tag 3 [])) ∧
      (s.keeper.fallback = false → let m := max s.keeper.fuseMin s.keeper.running
        exec (.seccommit tag) s = .next (({ (s1 0) with keeper := { s.keeper with fuseMin := m } } : State).respond tag 0 (leBytes m 4))) ∧
      (∀ w : Word64, let b := (s1 8).bistStart (if w = 0 then s.bistSel else w.toNat) (some tag)
        let t := if b.2 then b.1 else b.1.respond tag 4 []
        (t.mcl.wanted = [] → exec (.mbBist tag w) s = .next t) ∧
        (t.mcl.wanted ≠ [] → exec (.mbBist tag w) s = .next ((s1 8).recall t.mcl.wanted))) ∧
      (∀ l : List Byte, l.length = 32 → exec (.mbAttest tag l) s =
        .next { (s1 32) with keeper := { s.keeper with signing := s.keeper.signing ++ [(l, some tag)] } }) ∧
      ∀ l : List Byte, l.length ≠ 32 → exec (.mbAttest tag l) s = .next ((s1 l.length).respond tag 2 []))

/-- On a READY device with its supplies, out of hold and with no line of the host wanted, every MC command gets an answer with status 0 (BUSY for a report not yet signed, DENIED for a CSR
address outside CSR, counter and table space or a refused BIST). EVREAD takes the oldest held record; SETCOORD puts a coordinate in force or, while a job is
OPEN or DRAINING, makes it pending; SETGRANT makes min(46, step) pending; SETCAP writes MCCAP as the Keeper does; ATTEST asks for a
report (R544, R545, R467). STATUS, TELEM, CSRRD and REPORT change nothing but the answer and counts. While PWROK is high ENTDAA, and SETDASA at the static
address 0x40 + SLOT_ID, give an address where none is held, RSTDAA takes it; GETMRL and GETMWL return 258; the other GETs the device's constants, GETSTATUS a free
value (R561). BYPASS, IDCODE (0x10C883D5) and SAMPLE/PRELOAD are loaded; SAMPLE/PRELOAD shifts in
cells that are a free value; EXTEST drives the pins only while RESET_N is asserted, else it acts as BYPASS; TRST_N
resets the TAP (R547, R563). -/
def Obligations.SidebandAndTapCommands : Prop :=
  (∀ s : State, s.pins.pwrok = true → s.pins.resetN = true → s.pins.p12v = true → s.pins.ref0 = true → s.keeper.bstate = 1 → s.pwrc.hold = false →
    s.mcl.wanted = [] →
    let ok (c : Instr) (u : State) (l : List Byte) : Prop := exec c s = .next (u.answer 0 l)
    (∃ l, ok .status s l) ∧ (∃ l, ok .telem s l) ∧
    (s.keeper.held = [] → ok .evread s []) ∧
    (∀ e rest, s.keeper.held = e :: rest → ok .evread { s with keeper := { s.keeper with held := rest } } (e.bytes false)) ∧
    (∀ c, s.jobActive = true → ok (.setcoord c) { s with coord := { s.coord with valid := true, pending := some c, gone := State.reset.coord.gone } } []) ∧
    (∀ c, s.jobActive = false → Completes (.setcoord c) s ((s.putCoord c).answer 0 [])) ∧
    (∀ (g : BitVec 7) b, ok (.setgrant g b) { s with pwrc := { s.pwrc with
      grant := min 46 g.toNat, gpend := some (min 46 g.toNat), gNow := b } } []) ∧
    (∀ w, ok (.setcap w) (s.regWrite .keeper 52 0x14 w 0xFFFF) []) ∧ ok .release s [] ∧
    (∀ d : Word48, let n := if (placeOf d.toNat).region = .csr then 4 else 8
      ((placeOf d.toNat).region.isWord = true → ok (.mcCsrrd d) (s.wordRead .keeper d.toNat n).1 (leBytes (s.wordRead .keeper d.toNat n).2 n) ∧
        ∀ l, Completes (.mcCsrwr d l) s ((s.wordWrite .keeper d.toNat l).answer 0 [])) ∧
      ((placeOf d.toNat).region.isWord = false → exec (.mcCsrrd d) s = .next (s.answer 3 []) ∧
        ∀ l, exec (.mcCsrwr d l) s = .next (s.answer 3 []))) ∧
    (∀ w : Word64, let b := s.bistStart (if w = 0 then s.bistSel else w.toNat) none
      Completes (.mcBist w) s (b.1.answer (if b.2 then 0 else 3) [])) ∧
    (∀ l : List Byte, l.length = 32 → ok (.mcAttest l) { s with keeper := { s.keeper with signing := s.keeper.signing ++ [(l, none)] } } []) ∧
    (∀ c : BitVec 8, if s.keeper.signing.any (·.2.isNone) then exec (.report c) s = .next (s.answer 1 [])
      else ok (.report c) s ((s.keeper.report.drop (255 * c.toNat)).take 255)) ∧
    (∃ u : State, u.keeper.spirel = true ∧ u.mem = s.mem ∧ ok .spiRelease u [])) ∧
  (∀ (s : State) (st a : BitVec 7), s.pins.pwrok = true →
    let k := s.keeper
    let holds (f : Keeper) : Host.Outcome State Fault Refusal := .next { s with keeper := f }
    (k.i3cAddr = none → exec (.entdaa a) s = holds { k with i3cAddr := some a } ∧
      exec (.setdasa st a) s = holds { k with i3cAddr := if st.toNat = 0x40 + s.pins.slotId.toNat then some a else none }) ∧
    (k.i3cAddr.isSome = true → exec (.entdaa a) s = .next s ∧ exec (.setdasa st a) s = .next s ∧
      exec .getpid s = holds { k with ccc := beBytes Config.i3cPid.toNat 6 } ∧ exec .getbcr s = holds { k with ccc := [Config.i3cBcr] } ∧
      exec .getdcr s = holds { k with ccc := [Config.i3cDcr] } ∧ exec .getmrl s = holds { k with ccc := [1, 2] } ∧
      exec .getmwl s = holds { k with ccc := [1, 2] } ∧
      exec .getstatus s = .next { s with free := s.free + 1, keeper := { k with ccc := beBytes (Config.i3cStatus s.free).toNat 2 } }) ∧
    exec .rstdaa s = holds { k with i3cAddr := none } ∧
    EndsIn (exec .bypass s) { s with tap := { s.tap with ir := 1, dr := 0, extest := false } } ∧
    EndsIn (exec .idcode s) { s with tap := { s.tap with ir := 2, dr := 0x10C883D5, extest := false } } ∧
    EndsIn (exec .samplePreload s) { s with free := s.free + 1, tap :=
      { ir := 3, dr := 0, cells := BitVec.ofNat 23 (Config.freeValue s.free), extest := false } } ∧
    (s.pins.resetN = true → EndsIn (exec .extest s) { s with tap := { s.tap with ir := 1, dr := 0, extest := false } }) ∧
    (s.pins.resetN = false → EndsIn (exec .extest s) { s with tap := { s.tap with ir := 4, dr := 0, extest := true } }) ∧
    exec .trstNAssert s = .next { s with tap := {} })

/-- Whatever the state and the well-formed operands, each command answers a next state, which differs from the state before only in the parts named, but for reports (the event queue and its counts, the counters, the
records held for the MC). The I3C codes: the Keeper, and a free value drawn. TAP instructions: the TAP, and a free value; no register and no memory. Table registrations: the
table. Arithmetic, scalar, branch and reduction instructions of a core: the cores, and where they fault the registers, the passes and the issued
instructions. Loads also touch the Loft caches and wanted lines, and draw free values; the start of a row holds its image in the slice. A line that is fetched
without a fault: the Truss, the Loft caches and wanted lines. Mailbox and MC answers: the Keeper and the link. Host reads: the Loft caches, the
link, its registers. Power: the power controller, its registers, a free value. Counter commands: the counters, their registers and the ports' byte counts. Boot
orders: what each of them sets. All else stays: memory, table, jobs, arrays, Trusses. -/
def Obligations.FramesOfCommands : Prop :=
  ∀ (s : State) (d : TrussId) (g : SliceId) (c : CoreId) (p : PortId) (n : DomainId) (r : Requester) (a : BitVec 7) (b : Bool) (tag : BitVec 16)
    (h m : Half) (x : BitVec 8) (w : Word64) (q : Word32) (dpa : Word48) (k : Nat) (l : List Byte),
    let frame (cs : List Instr) (f : State → State) : Prop :=
      ∀ i ∈ cs, i.wf = true → ∃ t, exec i s = .next t ∧ t.quiet = f t.quiet
    let z := s.quiet
    frame [.getpid, .getbcr, .getdcr, .getmrl, .getmwl, .getstatus, .entdaa a, .setdasa a a, .rstdaa]
      (fun t => { z with keeper := t.keeper, free := t.free }) ∧
    frame [.bypass, .idcode, .samplePreload, .extest, .trstNAssert] (fun t => { z with tap := t.tap, free := t.free }) ∧
    (∀ (o : Fin 16384) (y : Fin 4096) (u : Fin 256), frame [.objectRegister o w, .objectDeregister o w, .groupRegister y w,
      .groupDeregister y w, .rowStepRegister u w, .rowStepDeregister u w] (fun t => { z with table := t.table, regs := t.regs })) ∧
    frame [.gvpNop g c, .puta g c, .bnz g c, .bz g c, .fault g c, .plog g c, .saddi g c, .sshli g c, .salu g c, .scmp g c, .simm g c, .rs g c,
        .lane g c, .ptail g c, .add g c, .sub g c, .mul g c, .fma g c, .min g c, .max g c, .abs g c, .neg g c, .sel g c, .cmp g c, .cvt g c,
        .div g c, .sqrt g c, .rsqrt g c, .rcp g c, .exp2 g c, .log2 g c, .exp g c, .ln g c, .rsum g c, .rssq g c, .rmax g c, .rmin g c,
        .ramax g c, .rnf g c, .srnd g c]
      (fun t => { z with cores := t.cores, passes := t.passes, regs := t.regs, truss := t.truss, written := t.written }) ∧
    frame [.vld g c, .sld g c]
      (fun t => { z with cores := t.cores, passes := t.passes, regs := t.regs, truss := t.truss, written := t.written,
                         loft := t.loft, mcl := t.mcl, free := t.free }) ∧
    frame [.instanceStart]
      (fun t => { z with cores := t.cores, passes := t.passes, regs := t.regs, truss := t.truss, written := t.written,
                         loft := t.loft, mcl := t.mcl, codes := t.codes }) ∧
    frame [.info q, .cert q, .flerase q q, .flwrite q q l, .seccommit q, .mbAttest q l, .attestSigned, .status, .evread, .telem, .mcAttest l,
        .report x, .spiRelease] (fun t => { z with keeper := t.keeper, mcl := t.mcl }) ∧
    frame [.rd tag dpa k, .rdshared tag dpa, .rdown tag dpa] (fun t => { z with loft := t.loft, mcl := t.mcl, regs := t.regs }) ∧
    frame [.csrRd tag dpa k] (fun t => { z with ctr := t.ctr, mcl := t.mcl, regs := t.regs }) ∧
    frame [.doorbellTimer, .mclRetrain] (fun t => { z with mcl := t.mcl }) ∧
    frame [.eventWrite, .evcfgEnable r h m, .evconsWrite r h m, .mailboxGo r, .sharedWindowChange r h h m]
      (fun t => { z with keeper := t.keeper, mcl := t.mcl, regs := t.regs }) ∧
    frame [.controlPeriod, .estimate k, .measurementWindow k, .droopDetect n, .stretchEnd n, .dieTempCheck, .grantApply, .grantSwitch,
        .grantRampEnd] (fun t => { z with pwrc := t.pwrc, regs := t.regs, free := t.free }) ∧
    frame [.snap r, .deferredSnapshot, .snapshotEnd, .freeze r b, .freezeApplied, .clr n r, .bandwidthWindowEnd p]
      (fun t => { z with ctr := t.ctr, regs := t.regs, ports := t.ports }) ∧
    frame [.bootHeaderCheck, .bootBodyCheck, .hbmTraining, .identityCheck, .readyAssert]
      (fun t => { z with boot := t.boot, keeper := t.keeper, pins := t.pins }) ∧
    frame [.spush d r h m, .runStop d r] (fun t => { z with truss := t.truss, regs := t.regs }) ∧
    frame [.upImm d, .stashFullTimeout d] (fun t => { z with truss := t.truss }) ∧
    ((∀ j, (s.tr d).nextFetch = some j → let a := (s.tr d).ringBase + 256 * j
        (a < 0x8000000000 ∨ (a / 0x100000000 = 0x80 ∧ a % 0x100000000 < 0x40000000)) ∧ s.rangeOk a 256 = true ∧
        s.badUnits [{ a, n := 256 }] = []) →
      frame [.fetchLine d (.memory none)] (fun t => { z with truss := t.truss, mcl := t.mcl, loft := t.loft })) ∧
    frame [.trainingTimeout p, .downRetrain p] (fun t => { z with ports := t.ports, regs := t.regs })

/-- Over all commands and states. Only SETGRANT, CSRWR of the MC, a reset (that which ends a logic test of D52 among them, R529) and PWROK change the grant last written (R467: only the MC writes it); only SETCOORD, CSRWR of the MC,
COORD_APPLY, a reset and PWROK change the coordinate, in force or pending (R433, R434), and a logic test of PORTQ or TWIN only what those islands' registers show of it; only FLERASE and FLWRITE change the flash, and no reset does; only SECCOMMIT changes
the fused minimum, which never falls (R536, R546). No CSR write of the host, no stream, no packet and no TAP instruction reaches any of them. -/
def Obligations.ProtectedStateHasItsWriters : Prop :=
  ∀ (c : Instr) (s t : State), exec c s = .next t →
    let resets : Prop := c = .pwrokRise ∨ c = .pwrokFall ∨ c = .resetNAssert ∨ c = .mcReset
    let byMc : Prop := ∃ a l, c = .mcCsrwr a l
    ((¬∃ g b, c = .setgrant g b) → ¬byMc → ¬resets → (¬∃ x, c = .islandTestDone x) → t.pwrc.grant = s.pwrc.grant) ∧
    ((¬∃ x, c = .setcoord x) → c ≠ .coordApply → ¬byMc → ¬resets → { t.coord with gone := s.coord.gone } = s.coord ∧
      ((¬∃ x, c = .islandTestDone x) → t.coord.gone = s.coord.gone)) ∧
    ((¬∃ g o, c = .flerase g o) → (¬∃ g o l, c = .flwrite g o l) → t.keeper.flash = s.keeper.flash) ∧
    ((¬∃ g, c = .seccommit g) → t.keeper.fuseMin = s.keeper.fuseMin) ∧ s.keeper.fuseMin ≤ t.keeper.fuseMin
end

