-- ==== Sys2Proof/Laws/Sparse.lean ====
section
/-! SUPPORT. Laws of the sparse stores: a read after a write, and the canonical form that every operation keeps. -/
namespace Sys2Proof.Machine

variable {α : Type} [DecidableEq α]

/-- The canonical form from a lower bound holds from every smaller one. -/
theorem Sparse.wfFrom_mono (z : α) {a b : Nat} (h : a ≤ b) {m : List (Nat × α)} (hm : Sparse.wfFrom z b m = true) :
    Sparse.wfFrom z a m = true := by
  cases m with
  | nil => rfl
  | cons p m =>
    simp only [Sparse.wfFrom, Bool.and_eq_true, decide_eq_true_eq] at hm ⊢
    exact ⟨⟨by omega, hm.1.2⟩, hm.2⟩

/-- Removing a key keeps the form. -/
theorem Sparse.wfFrom_del (z : α) (k : Nat) {lo : Nat} {m : List (Nat × α)} (h : Sparse.wfFrom z lo m = true) :
    Sparse.wfFrom z lo (Sparse.del m k) = true := by
  induction m generalizing lo with
  | nil => rfl
  | cons p m ih =>
    simp only [Sparse.wfFrom, Bool.and_eq_true, decide_eq_true_eq] at h
    unfold Sparse.del
    split
    · simp only [Sparse.wfFrom, Bool.and_eq_true, decide_eq_true_eq]; exact ⟨h.1, ih h.2⟩
    · split
      · exact Sparse.wfFrom_mono z (by omega) h.2
      · simp only [Sparse.wfFrom, Bool.and_eq_true, decide_eq_true_eq]; exact h

/-- Inserting a value other than the empty one keeps the form. -/
theorem Sparse.wfFrom_ins (z : α) (k : Nat) {v : α} (hv : v ≠ z) {lo : Nat} (hk : lo ≤ k) {m : List (Nat × α)}
    (h : Sparse.wfFrom z lo m = true) : Sparse.wfFrom z lo (Sparse.ins m k v) = true := by
  induction m generalizing lo with
  | nil => simp [Sparse.ins, Sparse.wfFrom, hk, hv]
  | cons p m ih =>
    simp only [Sparse.wfFrom, Bool.and_eq_true, decide_eq_true_eq] at h
    unfold Sparse.ins
    split
    · simp only [Sparse.wfFrom, Bool.and_eq_true, decide_eq_true_eq]; exact ⟨h.1, ih (by omega) h.2⟩
    · split
      · subst_vars; simp only [Sparse.wfFrom, Bool.and_eq_true, decide_eq_true_eq]; exact ⟨⟨hk, hv⟩, h.2⟩
      · simp only [Sparse.wfFrom, Bool.and_eq_true, decide_eq_true_eq]
        exact ⟨⟨hk, hv⟩, ⟨by omega, h.1.2⟩, h.2⟩

/-- Writing keeps the canonical form. -/
theorem Sparse.wf_put (z : α) (k : Nat) (v : α) {m : List (Nat × α)} (h : Sparse.wf z m = true) :
    Sparse.wf z (Sparse.put z m k v) = true := by
  unfold Sparse.put
  split
  · exact Sparse.wfFrom_del z k h
  · next hv => exact Sparse.wfFrom_ins z k hv (Nat.zero_le _) h

/-- Dropping entries keeps the canonical form. -/
theorem Sparse.wfFrom_filter (z : α) (f : Nat × α → Bool) {lo : Nat} {m : List (Nat × α)} (h : Sparse.wfFrom z lo m = true) :
    Sparse.wfFrom z lo (m.filter f) = true := by
  induction m generalizing lo with
  | nil => rfl
  | cons p m ih =>
    simp only [Sparse.wfFrom, Bool.and_eq_true, decide_eq_true_eq] at h
    rw [List.filter_cons]
    split
    · simp only [Sparse.wfFrom, Bool.and_eq_true, decide_eq_true_eq]; exact ⟨h.1, ih h.2⟩
    · exact Sparse.wfFrom_mono z (by omega) (ih h.2)

theorem Sparse.wf_filter (z : α) (f : Nat × α → Bool) {m : List (Nat × α)} (h : Sparse.wf z m = true) :
    Sparse.wf z (m.filter f) = true := Sparse.wfFrom_filter z f h

theorem Sparse.wf_clear (z : α) (lo hi : Nat) {m : List (Nat × α)} (h : Sparse.wf z m = true) :
    Sparse.wf z (Sparse.clear m lo hi) = true := Sparse.wf_filter z _ h

theorem Sparse.wf_nil (z : α) : Sparse.wf z [] = true := rfl

/-- In a store whose keys rise from above `k` nothing is listed at `k`. -/
theorem Sparse.get_below (z : α) {k lo : Nat} (hk : k < lo) {m : List (Nat × α)} (h : Sparse.wfFrom z lo m = true) :
    Sparse.get z m k = z := by
  induction m generalizing lo with
  | nil => rfl
  | cons p m ih =>
    simp only [Sparse.wfFrom, Bool.and_eq_true, decide_eq_true_eq] at h
    simp only [Sparse.get]
    rw [if_neg (by omega)]
    exact ih (by omega) h.2

/-- A read after a write: the value written at its key, what stood elsewhere. -/
theorem Sparse.get_del (z : α) (k j : Nat) {lo : Nat} {m : List (Nat × α)} (h : Sparse.wfFrom z lo m = true) :
    Sparse.get z (Sparse.del m k) j = if j = k then z else Sparse.get z m j := by
  induction m generalizing lo with
  | nil => simp [Sparse.del, Sparse.get]
  | cons p m ih =>
    simp only [Sparse.wfFrom, Bool.and_eq_true, decide_eq_true_eq] at h
    unfold Sparse.del
    split
    · simp only [Sparse.get]; rw [ih h.2]
      by_cases hj : j = k
      · subst hj; simp [show p.1 ≠ j by omega]
      · simp [hj]
    · split
      · subst_vars
        by_cases hj : j = p.1
        · subst hj; rw [if_pos rfl]; exact Sparse.get_below z (Nat.lt_succ_self _) h.2
        · rw [if_neg hj]; simp only [Sparse.get]; rw [if_neg (Ne.symm hj)]
      · by_cases hj : j = k
        · subst hj; rw [if_pos rfl]; simp only [Sparse.get]; rw [if_neg (by omega)]
          exact Sparse.get_below z (by omega) h.2
        · rw [if_neg hj]

omit [DecidableEq α] in
theorem Sparse.get_ins (z : α) (k j : Nat) (v : α) (m : List (Nat × α)) :
    Sparse.get z (Sparse.ins m k v) j = if j = k then v else Sparse.get z m j := by
  induction m with
  | nil => simp [Sparse.ins, Sparse.get, eq_comm]
  | cons p m ih =>
    unfold Sparse.ins
    split
    · simp only [Sparse.get]; rw [ih]
      by_cases hj : j = k
      · subst hj; rw [if_neg (by omega), if_pos rfl]; simp
      · simp [hj]
    · split
      · subst_vars
        by_cases hj : j = p.1 <;> simp [Sparse.get, hj, eq_comm]
      · by_cases hj : j = k
        · simp [Sparse.get, hj]
        · simp [Sparse.get, hj, Ne.symm hj]

theorem Sparse.get_put (z : α) (k j : Nat) (v : α) {m : List (Nat × α)} (h : Sparse.wf z m = true) :
    Sparse.get z (Sparse.put z m k v) j = if j = k then v else Sparse.get z m j := by
  unfold Sparse.put
  split
  · next hv => subst hv; exact Sparse.get_del _ k j h
  · exact Sparse.get_ins z k j v m

/-- Values at one key only are changed by a write, whatever form the store has. -/
theorem Sparse.get_put_ne (z : α) {k j : Nat} (hj : j ≠ k) (v : α) (m : List (Nat × α)) :
    Sparse.get z (Sparse.put z m k v) j = Sparse.get z m j := by
  unfold Sparse.put
  split
  · induction m with
    | nil => rfl
    | cons p m ih =>
      unfold Sparse.del
      split
      · simp only [Sparse.get]; rw [ih]
      · split
        · subst_vars; simp only [Sparse.get]; rw [if_neg (Ne.symm hj)]
        · rfl
  · rw [Sparse.get_ins, if_neg hj]

end Sys2Proof.Machine
end

