-- ==== Sys2Proof/Laws/State.lean ====
section
/-! SUPPORT. Projections of the updates of the state: one lemma per field per update, true by unfolding. -/
namespace Sys2Proof.Machine

/-! ### Vectors read and updated by number -/

theorem vget_vmod {α : Type} {n : Nat} (v : Vector α n) (i j : Nat) (f : α → α) (d : α) :
    vget (vmod v i f) j d = if i = j ∧ j < n then f (vget v j d) else vget v j d := by
  unfold vmod vget
  by_cases hi : i < n
  · by_cases hj : j < n
    · simp only [hi, hj, dif_pos, and_true]
      by_cases h : i = j
      · subst h; simp
      · simp [h]
    · simp [hj]
  · simp only [hi, dif_neg, not_false_eq_true]
    by_cases h : i = j
    · subst h; simp [hi]
    · simp [h]

@[simp] theorem vget_vmod_same {α : Type} {n : Nat} (v : Vector α n) (i : Nat) (f : α → α) (d : α) (h : i < n) :
    vget (vmod v i f) i d = f (vget v i d) := by simp [vget_vmod, h]

@[simp] theorem vget_vmod_other {α : Type} {n : Nat} (v : Vector α n) (i j : Nat) (f : α → α) (d : α) (h : i ≠ j) :
    vget (vmod v i f) j d = vget v j d := by simp [vget_vmod, h]

@[simp] theorem State.tr_modTr_same (s : State) (d : TrussId) (f : Truss → Truss) : (s.modTr d f).tr d = f (s.tr d) :=
  vget_vmod_same _ _ _ _ d.isLt

@[simp] theorem State.tr_modTr_other (s : State) (d x : Nat) (f : Truss → Truss) (h : d ≠ x) : (s.modTr d f).tr x = s.tr x :=
  vget_vmod_other _ _ _ _ _ h

@[simp] theorem State.gaAt_modGa_same (s : State) (i : ArrayId) (f : Ga → Ga) : (s.modGa i f).gaAt i = f (s.gaAt i) :=
  vget_vmod_same _ _ _ _ i.isLt

@[simp] theorem State.gaAt_modGa_other (s : State) (i x : Nat) (f : Ga → Ga) (h : i ≠ x) : (s.modGa i f).gaAt x = s.gaAt x :=
  vget_vmod_other _ _ _ _ _ h

@[simp] theorem State.core_modCore_same (s : State) (k : Nat) (f : GCore → GCore) (h : k < 64) : (s.modCore k f).core k = f (s.core k) :=
  vget_vmod_same _ _ _ _ h

@[simp] theorem State.core_modCore_other (s : State) (k x : Nat) (f : GCore → GCore) (h : k ≠ x) : (s.modCore k f).core x = s.core x :=
  vget_vmod_other _ _ _ _ _ h

@[simp] theorem State.port_modPort_same (s : State) (p : PortId) (f : Port → Port) : (s.modPort p f).port p = f (s.port p) :=
  vget_vmod_same _ _ _ _ p.isLt

@[simp] theorem State.port_modPort_other (s : State) (k x : Nat) (f : Port → Port) (h : k ≠ x) : (s.modPort k f).port x = s.port x :=
  vget_vmod_other _ _ _ _ _ h

@[simp] theorem State.job_modJob_same (s : State) (j : Nat) (f : JobCtx → JobCtx) (h : j < 64) : (s.modJob j f).job j = f (s.job j) :=
  vget_vmod_same _ _ _ _ h

@[simp] theorem State.job_modJob_other (s : State) (j x : Nat) (f : JobCtx → JobCtx) (h : j ≠ x) : (s.modJob j f).job x = s.job x :=
  vget_vmod_other _ _ _ _ _ h

@[simp] theorem State.loftAt_modLoft_same (s : State) (k : StackId) (f : Loft → Loft) : (s.modLoft k f).loftAt k = f (s.loftAt k) :=
  vget_vmod_same _ _ _ _ k.isLt

@[simp] theorem State.loftAt_modLoft_other (s : State) (k x : Nat) (f : Loft → Loft) (h : k ≠ x) : (s.modLoft k f).loftAt x = s.loftAt x :=
  vget_vmod_other _ _ _ _ _ h


/-! ### modTr -/

@[simp] theorem State.modTr_pending (s : State) (d : Nat) (f : Truss → Truss) : (s.modTr d f).pending = s.pending := rfl
@[simp] theorem State.modTr_free (s : State) (d : Nat) (f : Truss → Truss) : (s.modTr d f).free = s.free := rfl
@[simp] theorem State.modTr_ticket (s : State) (d : Nat) (f : Truss → Truss) : (s.modTr d f).ticket = s.ticket := rfl
@[simp] theorem State.modTr_stamp (s : State) (d : Nat) (f : Truss → Truss) : (s.modTr d f).stamp = s.stamp := rfl
@[simp] theorem State.modTr_mem (s : State) (d : Nat) (f : Truss → Truss) : (s.modTr d f).mem = s.mem := rfl
@[simp] theorem State.modTr_clearing (s : State) (d : Nat) (f : Truss → Truss) : (s.modTr d f).clearing = s.clearing := rfl
@[simp] theorem State.modTr_poison (s : State) (d : Nat) (f : Truss → Truss) : (s.modTr d f).poison = s.poison := rfl
@[simp] theorem State.modTr_table (s : State) (d : Nat) (f : Truss → Truss) : (s.modTr d f).table = s.table := rfl
@[simp] theorem State.modTr_rot (s : State) (d : Nat) (f : Truss → Truss) : (s.modTr d f).rot = s.rot := rfl
@[simp] theorem State.modTr_regs (s : State) (d : Nat) (f : Truss → Truss) : (s.modTr d f).regs = s.regs := rfl
@[simp] theorem State.modTr_live (s : State) (d : Nat) (f : Truss → Truss) : (s.modTr d f).live = s.live := rfl
@[simp] theorem State.modTr_spars (s : State) (d : Nat) (f : Truss → Truss) : (s.modTr d f).spars = s.spars := rfl
@[simp] theorem State.modTr_ga (s : State) (d : Nat) (f : Truss → Truss) : (s.modTr d f).ga = s.ga := rfl
@[simp] theorem State.modTr_loft (s : State) (d : Nat) (f : Truss → Truss) : (s.modTr d f).loft = s.loft := rfl
@[simp] theorem State.modTr_obreqs (s : State) (d : Nat) (f : Truss → Truss) : (s.modTr d f).obreqs = s.obreqs := rfl
@[simp] theorem State.modTr_jobs (s : State) (d : Nat) (f : Truss → Truss) : (s.modTr d f).jobs = s.jobs := rfl
@[simp] theorem State.modTr_lastGen (s : State) (d : Nat) (f : Truss → Truss) : (s.modTr d f).lastGen = s.lastGen := rfl
@[simp] theorem State.modTr_joins (s : State) (d : Nat) (f : Truss → Truss) : (s.modTr d f).joins = s.joins := rfl
@[simp] theorem State.modTr_held (s : State) (d : Nat) (f : Truss → Truss) : (s.modTr d f).held = s.held := rfl
@[simp] theorem State.modTr_commit (s : State) (d : Nat) (f : Truss → Truss) : (s.modTr d f).commit = s.commit := rfl
@[simp] theorem State.modTr_bktWait (s : State) (d : Nat) (f : Truss → Truss) : (s.modTr d f).bktWait = s.bktWait := rfl
@[simp] theorem State.modTr_passes (s : State) (d : Nat) (f : Truss → Truss) : (s.modTr d f).passes = s.passes := rfl
@[simp] theorem State.modTr_cores (s : State) (d : Nat) (f : Truss → Truss) : (s.modTr d f).cores = s.cores := rfl
@[simp] theorem State.modTr_codes (s : State) (d : Nat) (f : Truss → Truss) : (s.modTr d f).codes = s.codes := rfl
@[simp] theorem State.modTr_written (s : State) (d : Nat) (f : Truss → Truss) : (s.modTr d f).written = s.written := rfl
@[simp] theorem State.modTr_gcause (s : State) (d : Nat) (f : Truss → Truss) : (s.modTr d f).gcause = s.gcause := rfl
@[simp] theorem State.modTr_ports (s : State) (d : Nat) (f : Truss → Truss) : (s.modTr d f).ports = s.ports := rfl
@[simp] theorem State.modTr_coord (s : State) (d : Nat) (f : Truss → Truss) : (s.modTr d f).coord = s.coord := rfl
@[simp] theorem State.modTr_mcl (s : State) (d : Nat) (f : Truss → Truss) : (s.modTr d f).mcl = s.mcl := rfl
@[simp] theorem State.modTr_evq (s : State) (d : Nat) (f : Truss → Truss) : (s.modTr d f).evq = s.evq := rfl
@[simp] theorem State.modTr_once (s : State) (d : Nat) (f : Truss → Truss) : (s.modTr d f).once = s.once := rfl
@[simp] theorem State.modTr_pwrc (s : State) (d : Nat) (f : Truss → Truss) : (s.modTr d f).pwrc = s.pwrc := rfl
@[simp] theorem State.modTr_keeper (s : State) (d : Nat) (f : Truss → Truss) : (s.modTr d f).keeper = s.keeper := rfl
@[simp] theorem State.modTr_boot (s : State) (d : Nat) (f : Truss → Truss) : (s.modTr d f).boot = s.boot := rfl
@[simp] theorem State.modTr_bist (s : State) (d : Nat) (f : Truss → Truss) : (s.modTr d f).bist = s.bist := rfl
@[simp] theorem State.modTr_tap (s : State) (d : Nat) (f : Truss → Truss) : (s.modTr d f).tap = s.tap := rfl
@[simp] theorem State.modTr_pins (s : State) (d : Nat) (f : Truss → Truss) : (s.modTr d f).pins = s.pins := rfl
@[simp] theorem State.modTr_ctr (s : State) (d : Nat) (f : Truss → Truss) : (s.modTr d f).ctr = s.ctr := rfl

/-! ### modGa -/

@[simp] theorem State.modGa_pending (s : State) (i : Nat) (f : Ga → Ga) : (s.modGa i f).pending = s.pending := rfl
@[simp] theorem State.modGa_free (s : State) (i : Nat) (f : Ga → Ga) : (s.modGa i f).free = s.free := rfl
@[simp] theorem State.modGa_ticket (s : State) (i : Nat) (f : Ga → Ga) : (s.modGa i f).ticket = s.ticket := rfl
@[simp] theorem State.modGa_stamp (s : State) (i : Nat) (f : Ga → Ga) : (s.modGa i f).stamp = s.stamp := rfl
@[simp] theorem State.modGa_mem (s : State) (i : Nat) (f : Ga → Ga) : (s.modGa i f).mem = s.mem := rfl
@[simp] theorem State.modGa_clearing (s : State) (i : Nat) (f : Ga → Ga) : (s.modGa i f).clearing = s.clearing := rfl
@[simp] theorem State.modGa_poison (s : State) (i : Nat) (f : Ga → Ga) : (s.modGa i f).poison = s.poison := rfl
@[simp] theorem State.modGa_table (s : State) (i : Nat) (f : Ga → Ga) : (s.modGa i f).table = s.table := rfl
@[simp] theorem State.modGa_rot (s : State) (i : Nat) (f : Ga → Ga) : (s.modGa i f).rot = s.rot := rfl
@[simp] theorem State.modGa_regs (s : State) (i : Nat) (f : Ga → Ga) : (s.modGa i f).regs = s.regs := rfl
@[simp] theorem State.modGa_live (s : State) (i : Nat) (f : Ga → Ga) : (s.modGa i f).live = s.live := rfl
@[simp] theorem State.modGa_truss (s : State) (i : Nat) (f : Ga → Ga) : (s.modGa i f).truss = s.truss := rfl
@[simp] theorem State.modGa_spars (s : State) (i : Nat) (f : Ga → Ga) : (s.modGa i f).spars = s.spars := rfl
@[simp] theorem State.modGa_loft (s : State) (i : Nat) (f : Ga → Ga) : (s.modGa i f).loft = s.loft := rfl
@[simp] theorem State.modGa_obreqs (s : State) (i : Nat) (f : Ga → Ga) : (s.modGa i f).obreqs = s.obreqs := rfl
@[simp] theorem State.modGa_jobs (s : State) (i : Nat) (f : Ga → Ga) : (s.modGa i f).jobs = s.jobs := rfl
@[simp] theorem State.modGa_lastGen (s : State) (i : Nat) (f : Ga → Ga) : (s.modGa i f).lastGen = s.lastGen := rfl
@[simp] theorem State.modGa_joins (s : State) (i : Nat) (f : Ga → Ga) : (s.modGa i f).joins = s.joins := rfl
@[simp] theorem State.modGa_held (s : State) (i : Nat) (f : Ga → Ga) : (s.modGa i f).held = s.held := rfl
@[simp] theorem State.modGa_commit (s : State) (i : Nat) (f : Ga → Ga) : (s.modGa i f).commit = s.commit := rfl
@[simp] theorem State.modGa_bktWait (s : State) (i : Nat) (f : Ga → Ga) : (s.modGa i f).bktWait = s.bktWait := rfl
@[simp] theorem State.modGa_passes (s : State) (i : Nat) (f : Ga → Ga) : (s.modGa i f).passes = s.passes := rfl
@[simp] theorem State.modGa_cores (s : State) (i : Nat) (f : Ga → Ga) : (s.modGa i f).cores = s.cores := rfl
@[simp] theorem State.modGa_codes (s : State) (i : Nat) (f : Ga → Ga) : (s.modGa i f).codes = s.codes := rfl
@[simp] theorem State.modGa_written (s : State) (i : Nat) (f : Ga → Ga) : (s.modGa i f).written = s.written := rfl
@[simp] theorem State.modGa_gcause (s : State) (i : Nat) (f : Ga → Ga) : (s.modGa i f).gcause = s.gcause := rfl
@[simp] theorem State.modGa_ports (s : State) (i : Nat) (f : Ga → Ga) : (s.modGa i f).ports = s.ports := rfl
@[simp] theorem State.modGa_coord (s : State) (i : Nat) (f : Ga → Ga) : (s.modGa i f).coord = s.coord := rfl
@[simp] theorem State.modGa_mcl (s : State) (i : Nat) (f : Ga → Ga) : (s.modGa i f).mcl = s.mcl := rfl
@[simp] theorem State.modGa_evq (s : State) (i : Nat) (f : Ga → Ga) : (s.modGa i f).evq = s.evq := rfl
@[simp] theorem State.modGa_once (s : State) (i : Nat) (f : Ga → Ga) : (s.modGa i f).once = s.once := rfl
@[simp] theorem State.modGa_pwrc (s : State) (i : Nat) (f : Ga → Ga) : (s.modGa i f).pwrc = s.pwrc := rfl
@[simp] theorem State.modGa_keeper (s : State) (i : Nat) (f : Ga → Ga) : (s.modGa i f).keeper = s.keeper := rfl
@[simp] theorem State.modGa_boot (s : State) (i : Nat) (f : Ga → Ga) : (s.modGa i f).boot = s.boot := rfl
@[simp] theorem State.modGa_bist (s : State) (i : Nat) (f : Ga → Ga) : (s.modGa i f).bist = s.bist := rfl
@[simp] theorem State.modGa_tap (s : State) (i : Nat) (f : Ga → Ga) : (s.modGa i f).tap = s.tap := rfl
@[simp] theorem State.modGa_pins (s : State) (i : Nat) (f : Ga → Ga) : (s.modGa i f).pins = s.pins := rfl
@[simp] theorem State.modGa_ctr (s : State) (i : Nat) (f : Ga → Ga) : (s.modGa i f).ctr = s.ctr := rfl

/-! ### modLoft -/

@[simp] theorem State.modLoft_pending (s : State) (k : Nat) (f : Loft → Loft) : (s.modLoft k f).pending = s.pending := rfl
@[simp] theorem State.modLoft_free (s : State) (k : Nat) (f : Loft → Loft) : (s.modLoft k f).free = s.free := rfl
@[simp] theorem State.modLoft_ticket (s : State) (k : Nat) (f : Loft → Loft) : (s.modLoft k f).ticket = s.ticket := rfl
@[simp] theorem State.modLoft_stamp (s : State) (k : Nat) (f : Loft → Loft) : (s.modLoft k f).stamp = s.stamp := rfl
@[simp] theorem State.modLoft_mem (s : State) (k : Nat) (f : Loft → Loft) : (s.modLoft k f).mem = s.mem := rfl
@[simp] theorem State.modLoft_clearing (s : State) (k : Nat) (f : Loft → Loft) : (s.modLoft k f).clearing = s.clearing := rfl
@[simp] theorem State.modLoft_poison (s : State) (k : Nat) (f : Loft → Loft) : (s.modLoft k f).poison = s.poison := rfl
@[simp] theorem State.modLoft_table (s : State) (k : Nat) (f : Loft → Loft) : (s.modLoft k f).table = s.table := rfl
@[simp] theorem State.modLoft_rot (s : State) (k : Nat) (f : Loft → Loft) : (s.modLoft k f).rot = s.rot := rfl
@[simp] theorem State.modLoft_regs (s : State) (k : Nat) (f : Loft → Loft) : (s.modLoft k f).regs = s.regs := rfl
@[simp] theorem State.modLoft_live (s : State) (k : Nat) (f : Loft → Loft) : (s.modLoft k f).live = s.live := rfl
@[simp] theorem State.modLoft_truss (s : State) (k : Nat) (f : Loft → Loft) : (s.modLoft k f).truss = s.truss := rfl
@[simp] theorem State.modLoft_spars (s : State) (k : Nat) (f : Loft → Loft) : (s.modLoft k f).spars = s.spars := rfl
@[simp] theorem State.modLoft_ga (s : State) (k : Nat) (f : Loft → Loft) : (s.modLoft k f).ga = s.ga := rfl
@[simp] theorem State.modLoft_obreqs (s : State) (k : Nat) (f : Loft → Loft) : (s.modLoft k f).obreqs = s.obreqs := rfl
@[simp] theorem State.modLoft_jobs (s : State) (k : Nat) (f : Loft → Loft) : (s.modLoft k f).jobs = s.jobs := rfl
@[simp] theorem State.modLoft_lastGen (s : State) (k : Nat) (f : Loft → Loft) : (s.modLoft k f).lastGen = s.lastGen := rfl
@[simp] theorem State.modLoft_joins (s : State) (k : Nat) (f : Loft → Loft) : (s.modLoft k f).joins = s.joins := rfl
@[simp] theorem State.modLoft_held (s : State) (k : Nat) (f : Loft → Loft) : (s.modLoft k f).held = s.held := rfl
@[simp] theorem State.modLoft_commit (s : State) (k : Nat) (f : Loft → Loft) : (s.modLoft k f).commit = s.commit := rfl
@[simp] theorem State.modLoft_bktWait (s : State) (k : Nat) (f : Loft → Loft) : (s.modLoft k f).bktWait = s.bktWait := rfl
@[simp] theorem State.modLoft_passes (s : State) (k : Nat) (f : Loft → Loft) : (s.modLoft k f).passes = s.passes := rfl
@[simp] theorem State.modLoft_cores (s : State) (k : Nat) (f : Loft → Loft) : (s.modLoft k f).cores = s.cores := rfl
@[simp] theorem State.modLoft_codes (s : State) (k : Nat) (f : Loft → Loft) : (s.modLoft k f).codes = s.codes := rfl
@[simp] theorem State.modLoft_written (s : State) (k : Nat) (f : Loft → Loft) : (s.modLoft k f).written = s.written := rfl
@[simp] theorem State.modLoft_gcause (s : State) (k : Nat) (f : Loft → Loft) : (s.modLoft k f).gcause = s.gcause := rfl
@[simp] theorem State.modLoft_ports (s : State) (k : Nat) (f : Loft → Loft) : (s.modLoft k f).ports = s.ports := rfl
@[simp] theorem State.modLoft_coord (s : State) (k : Nat) (f : Loft → Loft) : (s.modLoft k f).coord = s.coord := rfl
@[simp] theorem State.modLoft_mcl (s : State) (k : Nat) (f : Loft → Loft) : (s.modLoft k f).mcl = s.mcl := rfl
@[simp] theorem State.modLoft_evq (s : State) (k : Nat) (f : Loft → Loft) : (s.modLoft k f).evq = s.evq := rfl
@[simp] theorem State.modLoft_once (s : State) (k : Nat) (f : Loft → Loft) : (s.modLoft k f).once = s.once := rfl
@[simp] theorem State.modLoft_pwrc (s : State) (k : Nat) (f : Loft → Loft) : (s.modLoft k f).pwrc = s.pwrc := rfl
@[simp] theorem State.modLoft_keeper (s : State) (k : Nat) (f : Loft → Loft) : (s.modLoft k f).keeper = s.keeper := rfl
@[simp] theorem State.modLoft_boot (s : State) (k : Nat) (f : Loft → Loft) : (s.modLoft k f).boot = s.boot := rfl
@[simp] theorem State.modLoft_bist (s : State) (k : Nat) (f : Loft → Loft) : (s.modLoft k f).bist = s.bist := rfl
@[simp] theorem State.modLoft_tap (s : State) (k : Nat) (f : Loft → Loft) : (s.modLoft k f).tap = s.tap := rfl
@[simp] theorem State.modLoft_pins (s : State) (k : Nat) (f : Loft → Loft) : (s.modLoft k f).pins = s.pins := rfl
@[simp] theorem State.modLoft_ctr (s : State) (k : Nat) (f : Loft → Loft) : (s.modLoft k f).ctr = s.ctr := rfl

/-! ### modJob -/

@[simp] theorem State.modJob_pending (s : State) (j : Nat) (f : JobCtx → JobCtx) : (s.modJob j f).pending = s.pending := rfl
@[simp] theorem State.modJob_free (s : State) (j : Nat) (f : JobCtx → JobCtx) : (s.modJob j f).free = s.free := rfl
@[simp] theorem State.modJob_ticket (s : State) (j : Nat) (f : JobCtx → JobCtx) : (s.modJob j f).ticket = s.ticket := rfl
@[simp] theorem State.modJob_stamp (s : State) (j : Nat) (f : JobCtx → JobCtx) : (s.modJob j f).stamp = s.stamp := rfl
@[simp] theorem State.modJob_mem (s : State) (j : Nat) (f : JobCtx → JobCtx) : (s.modJob j f).mem = s.mem := rfl
@[simp] theorem State.modJob_clearing (s : State) (j : Nat) (f : JobCtx → JobCtx) : (s.modJob j f).clearing = s.clearing := rfl
@[simp] theorem State.modJob_poison (s : State) (j : Nat) (f : JobCtx → JobCtx) : (s.modJob j f).poison = s.poison := rfl
@[simp] theorem State.modJob_table (s : State) (j : Nat) (f : JobCtx → JobCtx) : (s.modJob j f).table = s.table := rfl
@[simp] theorem State.modJob_rot (s : State) (j : Nat) (f : JobCtx → JobCtx) : (s.modJob j f).rot = s.rot := rfl
@[simp] theorem State.modJob_regs (s : State) (j : Nat) (f : JobCtx → JobCtx) : (s.modJob j f).regs = s.regs := rfl
@[simp] theorem State.modJob_live (s : State) (j : Nat) (f : JobCtx → JobCtx) : (s.modJob j f).live = s.live := rfl
@[simp] theorem State.modJob_truss (s : State) (j : Nat) (f : JobCtx → JobCtx) : (s.modJob j f).truss = s.truss := rfl
@[simp] theorem State.modJob_spars (s : State) (j : Nat) (f : JobCtx → JobCtx) : (s.modJob j f).spars = s.spars := rfl
@[simp] theorem State.modJob_ga (s : State) (j : Nat) (f : JobCtx → JobCtx) : (s.modJob j f).ga = s.ga := rfl
@[simp] theorem State.modJob_loft (s : State) (j : Nat) (f : JobCtx → JobCtx) : (s.modJob j f).loft = s.loft := rfl
@[simp] theorem State.modJob_obreqs (s : State) (j : Nat) (f : JobCtx → JobCtx) : (s.modJob j f).obreqs = s.obreqs := rfl
@[simp] theorem State.modJob_lastGen (s : State) (j : Nat) (f : JobCtx → JobCtx) : (s.modJob j f).lastGen = s.lastGen := rfl
@[simp] theorem State.modJob_joins (s : State) (j : Nat) (f : JobCtx → JobCtx) : (s.modJob j f).joins = s.joins := rfl
@[simp] theorem State.modJob_held (s : State) (j : Nat) (f : JobCtx → JobCtx) : (s.modJob j f).held = s.held := rfl
@[simp] theorem State.modJob_commit (s : State) (j : Nat) (f : JobCtx → JobCtx) : (s.modJob j f).commit = s.commit := rfl
@[simp] theorem State.modJob_bktWait (s : State) (j : Nat) (f : JobCtx → JobCtx) : (s.modJob j f).bktWait = s.bktWait := rfl
@[simp] theorem State.modJob_passes (s : State) (j : Nat) (f : JobCtx → JobCtx) : (s.modJob j f).passes = s.passes := rfl
@[simp] theorem State.modJob_cores (s : State) (j : Nat) (f : JobCtx → JobCtx) : (s.modJob j f).cores = s.cores := rfl
@[simp] theorem State.modJob_codes (s : State) (j : Nat) (f : JobCtx → JobCtx) : (s.modJob j f).codes = s.codes := rfl
@[simp] theorem State.modJob_written (s : State) (j : Nat) (f : JobCtx → JobCtx) : (s.modJob j f).written = s.written := rfl
@[simp] theorem State.modJob_gcause (s : State) (j : Nat) (f : JobCtx → JobCtx) : (s.modJob j f).gcause = s.gcause := rfl
@[simp] theorem State.modJob_ports (s : State) (j : Nat) (f : JobCtx → JobCtx) : (s.modJob j f).ports = s.ports := rfl
@[simp] theorem State.modJob_coord (s : State) (j : Nat) (f : JobCtx → JobCtx) : (s.modJob j f).coord = s.coord := rfl
@[simp] theorem State.modJob_mcl (s : State) (j : Nat) (f : JobCtx → JobCtx) : (s.modJob j f).mcl = s.mcl := rfl
@[simp] theorem State.modJob_evq (s : State) (j : Nat) (f : JobCtx → JobCtx) : (s.modJob j f).evq = s.evq := rfl
@[simp] theorem State.modJob_once (s : State) (j : Nat) (f : JobCtx → JobCtx) : (s.modJob j f).once = s.once := rfl
@[simp] theorem State.modJob_pwrc (s : State) (j : Nat) (f : JobCtx → JobCtx) : (s.modJob j f).pwrc = s.pwrc := rfl
@[simp] theorem State.modJob_keeper (s : State) (j : Nat) (f : JobCtx → JobCtx) : (s.modJob j f).keeper = s.keeper := rfl
@[simp] theorem State.modJob_boot (s : State) (j : Nat) (f : JobCtx → JobCtx) : (s.modJob j f).boot = s.boot := rfl
@[simp] theorem State.modJob_bist (s : State) (j : Nat) (f : JobCtx → JobCtx) : (s.modJob j f).bist = s.bist := rfl
@[simp] theorem State.modJob_tap (s : State) (j : Nat) (f : JobCtx → JobCtx) : (s.modJob j f).tap = s.tap := rfl
@[simp] theorem State.modJob_pins (s : State) (j : Nat) (f : JobCtx → JobCtx) : (s.modJob j f).pins = s.pins := rfl
@[simp] theorem State.modJob_ctr (s : State) (j : Nat) (f : JobCtx → JobCtx) : (s.modJob j f).ctr = s.ctr := rfl

/-! ### modCore -/

@[simp] theorem State.modCore_pending (s : State) (k : Nat) (f : GCore → GCore) : (s.modCore k f).pending = s.pending := rfl
@[simp] theorem State.modCore_free (s : State) (k : Nat) (f : GCore → GCore) : (s.modCore k f).free = s.free := rfl
@[simp] theorem State.modCore_ticket (s : State) (k : Nat) (f : GCore → GCore) : (s.modCore k f).ticket = s.ticket := rfl
@[simp] theorem State.modCore_stamp (s : State) (k : Nat) (f : GCore → GCore) : (s.modCore k f).stamp = s.stamp := rfl
@[simp] theorem State.modCore_mem (s : State) (k : Nat) (f : GCore → GCore) : (s.modCore k f).mem = s.mem := rfl
@[simp] theorem State.modCore_clearing (s : State) (k : Nat) (f : GCore → GCore) : (s.modCore k f).clearing = s.clearing := rfl
@[simp] theorem State.modCore_poison (s : State) (k : Nat) (f : GCore → GCore) : (s.modCore k f).poison = s.poison := rfl
@[simp] theorem State.modCore_table (s : State) (k : Nat) (f : GCore → GCore) : (s.modCore k f).table = s.table := rfl
@[simp] theorem State.modCore_rot (s : State) (k : Nat) (f : GCore → GCore) : (s.modCore k f).rot = s.rot := rfl
@[simp] theorem State.modCore_regs (s : State) (k : Nat) (f : GCore → GCore) : (s.modCore k f).regs = s.regs := rfl
@[simp] theorem State.modCore_live (s : State) (k : Nat) (f : GCore → GCore) : (s.modCore k f).live = s.live := rfl
@[simp] theorem State.modCore_truss (s : State) (k : Nat) (f : GCore → GCore) : (s.modCore k f).truss = s.truss := rfl
@[simp] theorem State.modCore_spars (s : State) (k : Nat) (f : GCore → GCore) : (s.modCore k f).spars = s.spars := rfl
@[simp] theorem State.modCore_ga (s : State) (k : Nat) (f : GCore → GCore) : (s.modCore k f).ga = s.ga := rfl
@[simp] theorem State.modCore_loft (s : State) (k : Nat) (f : GCore → GCore) : (s.modCore k f).loft = s.loft := rfl
@[simp] theorem State.modCore_obreqs (s : State) (k : Nat) (f : GCore → GCore) : (s.modCore k f).obreqs = s.obreqs := rfl
@[simp] theorem State.modCore_jobs (s : State) (k : Nat) (f : GCore → GCore) : (s.modCore k f).jobs = s.jobs := rfl
@[simp] theorem State.modCore_lastGen (s : State) (k : Nat) (f : GCore → GCore) : (s.modCore k f).lastGen = s.lastGen := rfl
@[simp] theorem State.modCore_joins (s : State) (k : Nat) (f : GCore → GCore) : (s.modCore k f).joins = s.joins := rfl
@[simp] theorem State.modCore_held (s : State) (k : Nat) (f : GCore → GCore) : (s.modCore k f).held = s.held := rfl
@[simp] theorem State.modCore_commit (s : State) (k : Nat) (f : GCore → GCore) : (s.modCore k f).commit = s.commit := rfl
@[simp] theorem State.modCore_bktWait (s : State) (k : Nat) (f : GCore → GCore) : (s.modCore k f).bktWait = s.bktWait := rfl
@[simp] theorem State.modCore_passes (s : State) (k : Nat) (f : GCore → GCore) : (s.modCore k f).passes = s.passes := rfl
@[simp] theorem State.modCore_codes (s : State) (k : Nat) (f : GCore → GCore) : (s.modCore k f).codes = s.codes := rfl
@[simp] theorem State.modCore_written (s : State) (k : Nat) (f : GCore → GCore) : (s.modCore k f).written = s.written := rfl
@[simp] theorem State.modCore_gcause (s : State) (k : Nat) (f : GCore → GCore) : (s.modCore k f).gcause = s.gcause := rfl
@[simp] theorem State.modCore_ports (s : State) (k : Nat) (f : GCore → GCore) : (s.modCore k f).ports = s.ports := rfl
@[simp] theorem State.modCore_coord (s : State) (k : Nat) (f : GCore → GCore) : (s.modCore k f).coord = s.coord := rfl
@[simp] theorem State.modCore_mcl (s : State) (k : Nat) (f : GCore → GCore) : (s.modCore k f).mcl = s.mcl := rfl
@[simp] theorem State.modCore_evq (s : State) (k : Nat) (f : GCore → GCore) : (s.modCore k f).evq = s.evq := rfl
@[simp] theorem State.modCore_once (s : State) (k : Nat) (f : GCore → GCore) : (s.modCore k f).once = s.once := rfl
@[simp] theorem State.modCore_pwrc (s : State) (k : Nat) (f : GCore → GCore) : (s.modCore k f).pwrc = s.pwrc := rfl
@[simp] theorem State.modCore_keeper (s : State) (k : Nat) (f : GCore → GCore) : (s.modCore k f).keeper = s.keeper := rfl
@[simp] theorem State.modCore_boot (s : State) (k : Nat) (f : GCore → GCore) : (s.modCore k f).boot = s.boot := rfl
@[simp] theorem State.modCore_bist (s : State) (k : Nat) (f : GCore → GCore) : (s.modCore k f).bist = s.bist := rfl
@[simp] theorem State.modCore_tap (s : State) (k : Nat) (f : GCore → GCore) : (s.modCore k f).tap = s.tap := rfl
@[simp] theorem State.modCore_pins (s : State) (k : Nat) (f : GCore → GCore) : (s.modCore k f).pins = s.pins := rfl
@[simp] theorem State.modCore_ctr (s : State) (k : Nat) (f : GCore → GCore) : (s.modCore k f).ctr = s.ctr := rfl

/-! ### modPort -/

@[simp] theorem State.modPort_pending (s : State) (k : Nat) (f : Port → Port) : (s.modPort k f).pending = s.pending := rfl
@[simp] theorem State.modPort_free (s : State) (k : Nat) (f : Port → Port) : (s.modPort k f).free = s.free := rfl
@[simp] theorem State.modPort_ticket (s : State) (k : Nat) (f : Port → Port) : (s.modPort k f).ticket = s.ticket := rfl
@[simp] theorem State.modPort_stamp (s : State) (k : Nat) (f : Port → Port) : (s.modPort k f).stamp = s.stamp := rfl
@[simp] theorem State.modPort_mem (s : State) (k : Nat) (f : Port → Port) : (s.modPort k f).mem = s.mem := rfl
@[simp] theorem State.modPort_clearing (s : State) (k : Nat) (f : Port → Port) : (s.modPort k f).clearing = s.clearing := rfl
@[simp] theorem State.modPort_poison (s : State) (k : Nat) (f : Port → Port) : (s.modPort k f).poison = s.poison := rfl
@[simp] theorem State.modPort_table (s : State) (k : Nat) (f : Port → Port) : (s.modPort k f).table = s.table := rfl
@[simp] theorem State.modPort_rot (s : State) (k : Nat) (f : Port → Port) : (s.modPort k f).rot = s.rot := rfl
@[simp] theorem State.modPort_regs (s : State) (k : Nat) (f : Port → Port) : (s.modPort k f).regs = s.regs := rfl
@[simp] theorem State.modPort_live (s : State) (k : Nat) (f : Port → Port) : (s.modPort k f).live = s.live := rfl
@[simp] theorem State.modPort_truss (s : State) (k : Nat) (f : Port → Port) : (s.modPort k f).truss = s.truss := rfl
@[simp] theorem State.modPort_spars (s : State) (k : Nat) (f : Port → Port) : (s.modPort k f).spars = s.spars := rfl
@[simp] theorem State.modPort_ga (s : State) (k : Nat) (f : Port → Port) : (s.modPort k f).ga = s.ga := rfl
@[simp] theorem State.modPort_loft (s : State) (k : Nat) (f : Port → Port) : (s.modPort k f).loft = s.loft := rfl
@[simp] theorem State.modPort_obreqs (s : State) (k : Nat) (f : Port → Port) : (s.modPort k f).obreqs = s.obreqs := rfl
@[simp] theorem State.modPort_jobs (s : State) (k : Nat) (f : Port → Port) : (s.modPort k f).jobs = s.jobs := rfl
@[simp] theorem State.modPort_lastGen (s : State) (k : Nat) (f : Port → Port) : (s.modPort k f).lastGen = s.lastGen := rfl
@[simp] theorem State.modPort_joins (s : State) (k : Nat) (f : Port → Port) : (s.modPort k f).joins = s.joins := rfl
@[simp] theorem State.modPort_held (s : State) (k : Nat) (f : Port → Port) : (s.modPort k f).held = s.held := rfl
@[simp] theorem State.modPort_commit (s : State) (k : Nat) (f : Port → Port) : (s.modPort k f).commit = s.commit := rfl
@[simp] theorem State.modPort_bktWait (s : State) (k : Nat) (f : Port → Port) : (s.modPort k f).bktWait = s.bktWait := rfl
@[simp] theorem State.modPort_passes (s : State) (k : Nat) (f : Port → Port) : (s.modPort k f).passes = s.passes := rfl
@[simp] theorem State.modPort_cores (s : State) (k : Nat) (f : Port → Port) : (s.modPort k f).cores = s.cores := rfl
@[simp] theorem State.modPort_codes (s : State) (k : Nat) (f : Port → Port) : (s.modPort k f).codes = s.codes := rfl
@[simp] theorem State.modPort_written (s : State) (k : Nat) (f : Port → Port) : (s.modPort k f).written = s.written := rfl
@[simp] theorem State.modPort_gcause (s : State) (k : Nat) (f : Port → Port) : (s.modPort k f).gcause = s.gcause := rfl
@[simp] theorem State.modPort_coord (s : State) (k : Nat) (f : Port → Port) : (s.modPort k f).coord = s.coord := rfl
@[simp] theorem State.modPort_mcl (s : State) (k : Nat) (f : Port → Port) : (s.modPort k f).mcl = s.mcl := rfl
@[simp] theorem State.modPort_evq (s : State) (k : Nat) (f : Port → Port) : (s.modPort k f).evq = s.evq := rfl
@[simp] theorem State.modPort_once (s : State) (k : Nat) (f : Port → Port) : (s.modPort k f).once = s.once := rfl
@[simp] theorem State.modPort_pwrc (s : State) (k : Nat) (f : Port → Port) : (s.modPort k f).pwrc = s.pwrc := rfl
@[simp] theorem State.modPort_keeper (s : State) (k : Nat) (f : Port → Port) : (s.modPort k f).keeper = s.keeper := rfl
@[simp] theorem State.modPort_boot (s : State) (k : Nat) (f : Port → Port) : (s.modPort k f).boot = s.boot := rfl
@[simp] theorem State.modPort_bist (s : State) (k : Nat) (f : Port → Port) : (s.modPort k f).bist = s.bist := rfl
@[simp] theorem State.modPort_tap (s : State) (k : Nat) (f : Port → Port) : (s.modPort k f).tap = s.tap := rfl
@[simp] theorem State.modPort_pins (s : State) (k : Nat) (f : Port → Port) : (s.modPort k f).pins = s.pins := rfl
@[simp] theorem State.modPort_ctr (s : State) (k : Nat) (f : Port → Port) : (s.modPort k f).ctr = s.ctr := rfl

/-! ### modCommit -/

@[simp] theorem State.modCommit_commit (s : State) (f : Commit → Commit) : (s.modCommit f).commit = f s.commit := rfl
@[simp] theorem State.modCommit_pending (s : State) (f : Commit → Commit) : (s.modCommit f).pending = s.pending := rfl
@[simp] theorem State.modCommit_free (s : State) (f : Commit → Commit) : (s.modCommit f).free = s.free := rfl
@[simp] theorem State.modCommit_ticket (s : State) (f : Commit → Commit) : (s.modCommit f).ticket = s.ticket := rfl
@[simp] theorem State.modCommit_stamp (s : State) (f : Commit → Commit) : (s.modCommit f).stamp = s.stamp := rfl
@[simp] theorem State.modCommit_mem (s : State) (f : Commit → Commit) : (s.modCommit f).mem = s.mem := rfl
@[simp] theorem State.modCommit_clearing (s : State) (f : Commit → Commit) : (s.modCommit f).clearing = s.clearing := rfl
@[simp] theorem State.modCommit_poison (s : State) (f : Commit → Commit) : (s.modCommit f).poison = s.poison := rfl
@[simp] theorem State.modCommit_table (s : State) (f : Commit → Commit) : (s.modCommit f).table = s.table := rfl
@[simp] theorem State.modCommit_rot (s : State) (f : Commit → Commit) : (s.modCommit f).rot = s.rot := rfl
@[simp] theorem State.modCommit_regs (s : State) (f : Commit → Commit) : (s.modCommit f).regs = s.regs := rfl
@[simp] theorem State.modCommit_live (s : State) (f : Commit → Commit) : (s.modCommit f).live = s.live := rfl
@[simp] theorem State.modCommit_truss (s : State) (f : Commit → Commit) : (s.modCommit f).truss = s.truss := rfl
@[simp] theorem State.modCommit_spars (s : State) (f : Commit → Commit) : (s.modCommit f).spars = s.spars := rfl
@[simp] theorem State.modCommit_ga (s : State) (f : Commit → Commit) : (s.modCommit f).ga = s.ga := rfl
@[simp] theorem State.modCommit_loft (s : State) (f : Commit → Commit) : (s.modCommit f).loft = s.loft := rfl
@[simp] theorem State.modCommit_obreqs (s : State) (f : Commit → Commit) : (s.modCommit f).obreqs = s.obreqs := rfl
@[simp] theorem State.modCommit_jobs (s : State) (f : Commit → Commit) : (s.modCommit f).jobs = s.jobs := rfl
@[simp] theorem State.modCommit_lastGen (s : State) (f : Commit → Commit) : (s.modCommit f).lastGen = s.lastGen := rfl
@[simp] theorem State.modCommit_joins (s : State) (f : Commit → Commit) : (s.modCommit f).joins = s.joins := rfl
@[simp] theorem State.modCommit_held (s : State) (f : Commit → Commit) : (s.modCommit f).held = s.held := rfl
@[simp] theorem State.modCommit_bktWait (s : State) (f : Commit → Commit) : (s.modCommit f).bktWait = s.bktWait := rfl
@[simp] theorem State.modCommit_passes (s : State) (f : Commit → Commit) : (s.modCommit f).passes = s.passes := rfl
@[simp] theorem State.modCommit_cores (s : State) (f : Commit → Commit) : (s.modCommit f).cores = s.cores := rfl
@[simp] theorem State.modCommit_codes (s : State) (f : Commit → Commit) : (s.modCommit f).codes = s.codes := rfl
@[simp] theorem State.modCommit_written (s : State) (f : Commit → Commit) : (s.modCommit f).written = s.written := rfl
@[simp] theorem State.modCommit_gcause (s : State) (f : Commit → Commit) : (s.modCommit f).gcause = s.gcause := rfl
@[simp] theorem State.modCommit_ports (s : State) (f : Commit → Commit) : (s.modCommit f).ports = s.ports := rfl
@[simp] theorem State.modCommit_coord (s : State) (f : Commit → Commit) : (s.modCommit f).coord = s.coord := rfl
@[simp] theorem State.modCommit_mcl (s : State) (f : Commit → Commit) : (s.modCommit f).mcl = s.mcl := rfl
@[simp] theorem State.modCommit_evq (s : State) (f : Commit → Commit) : (s.modCommit f).evq = s.evq := rfl
@[simp] theorem State.modCommit_once (s : State) (f : Commit → Commit) : (s.modCommit f).once = s.once := rfl
@[simp] theorem State.modCommit_pwrc (s : State) (f : Commit → Commit) : (s.modCommit f).pwrc = s.pwrc := rfl
@[simp] theorem State.modCommit_keeper (s : State) (f : Commit → Commit) : (s.modCommit f).keeper = s.keeper := rfl
@[simp] theorem State.modCommit_boot (s : State) (f : Commit → Commit) : (s.modCommit f).boot = s.boot := rfl
@[simp] theorem State.modCommit_bist (s : State) (f : Commit → Commit) : (s.modCommit f).bist = s.bist := rfl
@[simp] theorem State.modCommit_tap (s : State) (f : Commit → Commit) : (s.modCommit f).tap = s.tap := rfl
@[simp] theorem State.modCommit_pins (s : State) (f : Commit → Commit) : (s.modCommit f).pins = s.pins := rfl
@[simp] theorem State.modCommit_ctr (s : State) (f : Commit → Commit) : (s.modCommit f).ctr = s.ctr := rfl

/-! ### modMcl -/

@[simp] theorem State.modMcl_mcl (s : State) (f : Mcl → Mcl) : (s.modMcl f).mcl = f s.mcl := rfl
@[simp] theorem State.modMcl_pending (s : State) (f : Mcl → Mcl) : (s.modMcl f).pending = s.pending := rfl
@[simp] theorem State.modMcl_free (s : State) (f : Mcl → Mcl) : (s.modMcl f).free = s.free := rfl
@[simp] theorem State.modMcl_ticket (s : State) (f : Mcl → Mcl) : (s.modMcl f).ticket = s.ticket := rfl
@[simp] theorem State.modMcl_stamp (s : State) (f : Mcl → Mcl) : (s.modMcl f).stamp = s.stamp := rfl
@[simp] theorem State.modMcl_mem (s : State) (f : Mcl → Mcl) : (s.modMcl f).mem = s.mem := rfl
@[simp] theorem State.modMcl_clearing (s : State) (f : Mcl → Mcl) : (s.modMcl f).clearing = s.clearing := rfl
@[simp] theorem State.modMcl_poison (s : State) (f : Mcl → Mcl) : (s.modMcl f).poison = s.poison := rfl
@[simp] theorem State.modMcl_table (s : State) (f : Mcl → Mcl) : (s.modMcl f).table = s.table := rfl
@[simp] theorem State.modMcl_rot (s : State) (f : Mcl → Mcl) : (s.modMcl f).rot = s.rot := rfl
@[simp] theorem State.modMcl_regs (s : State) (f : Mcl → Mcl) : (s.modMcl f).regs = s.regs := rfl
@[simp] theorem State.modMcl_live (s : State) (f : Mcl → Mcl) : (s.modMcl f).live = s.live := rfl
@[simp] theorem State.modMcl_truss (s : State) (f : Mcl → Mcl) : (s.modMcl f).truss = s.truss := rfl
@[simp] theorem State.modMcl_spars (s : State) (f : Mcl → Mcl) : (s.modMcl f).spars = s.spars := rfl
@[simp] theorem State.modMcl_ga (s : State) (f : Mcl → Mcl) : (s.modMcl f).ga = s.ga := rfl
@[simp] theorem State.modMcl_loft (s : State) (f : Mcl → Mcl) : (s.modMcl f).loft = s.loft := rfl
@[simp] theorem State.modMcl_obreqs (s : State) (f : Mcl → Mcl) : (s.modMcl f).obreqs = s.obreqs := rfl
@[simp] theorem State.modMcl_jobs (s : State) (f : Mcl → Mcl) : (s.modMcl f).jobs = s.jobs := rfl
@[simp] theorem State.modMcl_lastGen (s : State) (f : Mcl → Mcl) : (s.modMcl f).lastGen = s.lastGen := rfl
@[simp] theorem State.modMcl_joins (s : State) (f : Mcl → Mcl) : (s.modMcl f).joins = s.joins := rfl
@[simp] theorem State.modMcl_held (s : State) (f : Mcl → Mcl) : (s.modMcl f).held = s.held := rfl
@[simp] theorem State.modMcl_commit (s : State) (f : Mcl → Mcl) : (s.modMcl f).commit = s.commit := rfl
@[simp] theorem State.modMcl_bktWait (s : State) (f : Mcl → Mcl) : (s.modMcl f).bktWait = s.bktWait := rfl
@[simp] theorem State.modMcl_passes (s : State) (f : Mcl → Mcl) : (s.modMcl f).passes = s.passes := rfl
@[simp] theorem State.modMcl_cores (s : State) (f : Mcl → Mcl) : (s.modMcl f).cores = s.cores := rfl
@[simp] theorem State.modMcl_codes (s : State) (f : Mcl → Mcl) : (s.modMcl f).codes = s.codes := rfl
@[simp] theorem State.modMcl_written (s : State) (f : Mcl → Mcl) : (s.modMcl f).written = s.written := rfl
@[simp] theorem State.modMcl_gcause (s : State) (f : Mcl → Mcl) : (s.modMcl f).gcause = s.gcause := rfl
@[simp] theorem State.modMcl_ports (s : State) (f : Mcl → Mcl) : (s.modMcl f).ports = s.ports := rfl
@[simp] theorem State.modMcl_coord (s : State) (f : Mcl → Mcl) : (s.modMcl f).coord = s.coord := rfl
@[simp] theorem State.modMcl_evq (s : State) (f : Mcl → Mcl) : (s.modMcl f).evq = s.evq := rfl
@[simp] theorem State.modMcl_once (s : State) (f : Mcl → Mcl) : (s.modMcl f).once = s.once := rfl
@[simp] theorem State.modMcl_pwrc (s : State) (f : Mcl → Mcl) : (s.modMcl f).pwrc = s.pwrc := rfl
@[simp] theorem State.modMcl_keeper (s : State) (f : Mcl → Mcl) : (s.modMcl f).keeper = s.keeper := rfl
@[simp] theorem State.modMcl_boot (s : State) (f : Mcl → Mcl) : (s.modMcl f).boot = s.boot := rfl
@[simp] theorem State.modMcl_bist (s : State) (f : Mcl → Mcl) : (s.modMcl f).bist = s.bist := rfl
@[simp] theorem State.modMcl_tap (s : State) (f : Mcl → Mcl) : (s.modMcl f).tap = s.tap := rfl
@[simp] theorem State.modMcl_pins (s : State) (f : Mcl → Mcl) : (s.modMcl f).pins = s.pins := rfl
@[simp] theorem State.modMcl_ctr (s : State) (f : Mcl → Mcl) : (s.modMcl f).ctr = s.ctr := rfl

/-! ### modPwrc -/

@[simp] theorem State.modPwrc_pwrc (s : State) (f : Pwrc → Pwrc) : (s.modPwrc f).pwrc = f s.pwrc := rfl
@[simp] theorem State.modPwrc_pending (s : State) (f : Pwrc → Pwrc) : (s.modPwrc f).pending = s.pending := rfl
@[simp] theorem State.modPwrc_free (s : State) (f : Pwrc → Pwrc) : (s.modPwrc f).free = s.free := rfl
@[simp] theorem State.modPwrc_ticket (s : State) (f : Pwrc → Pwrc) : (s.modPwrc f).ticket = s.ticket := rfl
@[simp] theorem State.modPwrc_stamp (s : State) (f : Pwrc → Pwrc) : (s.modPwrc f).stamp = s.stamp := rfl
@[simp] theorem State.modPwrc_mem (s : State) (f : Pwrc → Pwrc) : (s.modPwrc f).mem = s.mem := rfl
@[simp] theorem State.modPwrc_clearing (s : State) (f : Pwrc → Pwrc) : (s.modPwrc f).clearing = s.clearing := rfl
@[simp] theorem State.modPwrc_poison (s : State) (f : Pwrc → Pwrc) : (s.modPwrc f).poison = s.poison := rfl
@[simp] theorem State.modPwrc_table (s : State) (f : Pwrc → Pwrc) : (s.modPwrc f).table = s.table := rfl
@[simp] theorem State.modPwrc_rot (s : State) (f : Pwrc → Pwrc) : (s.modPwrc f).rot = s.rot := rfl
@[simp] theorem State.modPwrc_regs (s : State) (f : Pwrc → Pwrc) : (s.modPwrc f).regs = s.regs := rfl
@[simp] theorem State.modPwrc_live (s : State) (f : Pwrc → Pwrc) : (s.modPwrc f).live = s.live := rfl
@[simp] theorem State.modPwrc_truss (s : State) (f : Pwrc → Pwrc) : (s.modPwrc f).truss = s.truss := rfl
@[simp] theorem State.modPwrc_spars (s : State) (f : Pwrc → Pwrc) : (s.modPwrc f).spars = s.spars := rfl
@[simp] theorem State.modPwrc_ga (s : State) (f : Pwrc → Pwrc) : (s.modPwrc f).ga = s.ga := rfl
@[simp] theorem State.modPwrc_loft (s : State) (f : Pwrc → Pwrc) : (s.modPwrc f).loft = s.loft := rfl
@[simp] theorem State.modPwrc_obreqs (s : State) (f : Pwrc → Pwrc) : (s.modPwrc f).obreqs = s.obreqs := rfl
@[simp] theorem State.modPwrc_jobs (s : State) (f : Pwrc → Pwrc) : (s.modPwrc f).jobs = s.jobs := rfl
@[simp] theorem State.modPwrc_lastGen (s : State) (f : Pwrc → Pwrc) : (s.modPwrc f).lastGen = s.lastGen := rfl
@[simp] theorem State.modPwrc_joins (s : State) (f : Pwrc → Pwrc) : (s.modPwrc f).joins = s.joins := rfl
@[simp] theorem State.modPwrc_held (s : State) (f : Pwrc → Pwrc) : (s.modPwrc f).held = s.held := rfl
@[simp] theorem State.modPwrc_commit (s : State) (f : Pwrc → Pwrc) : (s.modPwrc f).commit = s.commit := rfl
@[simp] theorem State.modPwrc_bktWait (s : State) (f : Pwrc → Pwrc) : (s.modPwrc f).bktWait = s.bktWait := rfl
@[simp] theorem State.modPwrc_passes (s : State) (f : Pwrc → Pwrc) : (s.modPwrc f).passes = s.passes := rfl
@[simp] theorem State.modPwrc_cores (s : State) (f : Pwrc → Pwrc) : (s.modPwrc f).cores = s.cores := rfl
@[simp] theorem State.modPwrc_codes (s : State) (f : Pwrc → Pwrc) : (s.modPwrc f).codes = s.codes := rfl
@[simp] theorem State.modPwrc_written (s : State) (f : Pwrc → Pwrc) : (s.modPwrc f).written = s.written := rfl
@[simp] theorem State.modPwrc_gcause (s : State) (f : Pwrc → Pwrc) : (s.modPwrc f).gcause = s.gcause := rfl
@[simp] theorem State.modPwrc_ports (s : State) (f : Pwrc → Pwrc) : (s.modPwrc f).ports = s.ports := rfl
@[simp] theorem State.modPwrc_coord (s : State) (f : Pwrc → Pwrc) : (s.modPwrc f).coord = s.coord := rfl
@[simp] theorem State.modPwrc_mcl (s : State) (f : Pwrc → Pwrc) : (s.modPwrc f).mcl = s.mcl := rfl
@[simp] theorem State.modPwrc_evq (s : State) (f : Pwrc → Pwrc) : (s.modPwrc f).evq = s.evq := rfl
@[simp] theorem State.modPwrc_once (s : State) (f : Pwrc → Pwrc) : (s.modPwrc f).once = s.once := rfl
@[simp] theorem State.modPwrc_keeper (s : State) (f : Pwrc → Pwrc) : (s.modPwrc f).keeper = s.keeper := rfl
@[simp] theorem State.modPwrc_boot (s : State) (f : Pwrc → Pwrc) : (s.modPwrc f).boot = s.boot := rfl
@[simp] theorem State.modPwrc_bist (s : State) (f : Pwrc → Pwrc) : (s.modPwrc f).bist = s.bist := rfl
@[simp] theorem State.modPwrc_tap (s : State) (f : Pwrc → Pwrc) : (s.modPwrc f).tap = s.tap := rfl
@[simp] theorem State.modPwrc_pins (s : State) (f : Pwrc → Pwrc) : (s.modPwrc f).pins = s.pins := rfl
@[simp] theorem State.modPwrc_ctr (s : State) (f : Pwrc → Pwrc) : (s.modPwrc f).ctr = s.ctr := rfl

/-! ### modKeeper -/

@[simp] theorem State.modKeeper_keeper (s : State) (f : Keeper → Keeper) : (s.modKeeper f).keeper = f s.keeper := rfl
@[simp] theorem State.modKeeper_pending (s : State) (f : Keeper → Keeper) : (s.modKeeper f).pending = s.pending := rfl
@[simp] theorem State.modKeeper_free (s : State) (f : Keeper → Keeper) : (s.modKeeper f).free = s.free := rfl
@[simp] theorem State.modKeeper_ticket (s : State) (f : Keeper → Keeper) : (s.modKeeper f).ticket = s.ticket := rfl
@[simp] theorem State.modKeeper_stamp (s : State) (f : Keeper → Keeper) : (s.modKeeper f).stamp = s.stamp := rfl
@[simp] theorem State.modKeeper_mem (s : State) (f : Keeper → Keeper) : (s.modKeeper f).mem = s.mem := rfl
@[simp] theorem State.modKeeper_clearing (s : State) (f : Keeper → Keeper) : (s.modKeeper f).clearing = s.clearing := rfl
@[simp] theorem State.modKeeper_poison (s : State) (f : Keeper → Keeper) : (s.modKeeper f).poison = s.poison := rfl
@[simp] theorem State.modKeeper_table (s : State) (f : Keeper → Keeper) : (s.modKeeper f).table = s.table := rfl
@[simp] theorem State.modKeeper_rot (s : State) (f : Keeper → Keeper) : (s.modKeeper f).rot = s.rot := rfl
@[simp] theorem State.modKeeper_regs (s : State) (f : Keeper → Keeper) : (s.modKeeper f).regs = s.regs := rfl
@[simp] theorem State.modKeeper_live (s : State) (f : Keeper → Keeper) : (s.modKeeper f).live = s.live := rfl
@[simp] theorem State.modKeeper_truss (s : State) (f : Keeper → Keeper) : (s.modKeeper f).truss = s.truss := rfl
@[simp] theorem State.modKeeper_spars (s : State) (f : Keeper → Keeper) : (s.modKeeper f).spars = s.spars := rfl
@[simp] theorem State.modKeeper_ga (s : State) (f : Keeper → Keeper) : (s.modKeeper f).ga = s.ga := rfl
@[simp] theorem State.modKeeper_loft (s : State) (f : Keeper → Keeper) : (s.modKeeper f).loft = s.loft := rfl
@[simp] theorem State.modKeeper_obreqs (s : State) (f : Keeper → Keeper) : (s.modKeeper f).obreqs = s.obreqs := rfl
@[simp] theorem State.modKeeper_jobs (s : State) (f : Keeper → Keeper) : (s.modKeeper f).jobs = s.jobs := rfl
@[simp] theorem State.modKeeper_lastGen (s : State) (f : Keeper → Keeper) : (s.modKeeper f).lastGen = s.lastGen := rfl
@[simp] theorem State.modKeeper_joins (s : State) (f : Keeper → Keeper) : (s.modKeeper f).joins = s.joins := rfl
@[simp] theorem State.modKeeper_held (s : State) (f : Keeper → Keeper) : (s.modKeeper f).held = s.held := rfl
@[simp] theorem State.modKeeper_commit (s : State) (f : Keeper → Keeper) : (s.modKeeper f).commit = s.commit := rfl
@[simp] theorem State.modKeeper_bktWait (s : State) (f : Keeper → Keeper) : (s.modKeeper f).bktWait = s.bktWait := rfl
@[simp] theorem State.modKeeper_passes (s : State) (f : Keeper → Keeper) : (s.modKeeper f).passes = s.passes := rfl
@[simp] theorem State.modKeeper_cores (s : State) (f : Keeper → Keeper) : (s.modKeeper f).cores = s.cores := rfl
@[simp] theorem State.modKeeper_codes (s : State) (f : Keeper → Keeper) : (s.modKeeper f).codes = s.codes := rfl
@[simp] theorem State.modKeeper_written (s : State) (f : Keeper → Keeper) : (s.modKeeper f).written = s.written := rfl
@[simp] theorem State.modKeeper_gcause (s : State) (f : Keeper → Keeper) : (s.modKeeper f).gcause = s.gcause := rfl
@[simp] theorem State.modKeeper_ports (s : State) (f : Keeper → Keeper) : (s.modKeeper f).ports = s.ports := rfl
@[simp] theorem State.modKeeper_coord (s : State) (f : Keeper → Keeper) : (s.modKeeper f).coord = s.coord := rfl
@[simp] theorem State.modKeeper_mcl (s : State) (f : Keeper → Keeper) : (s.modKeeper f).mcl = s.mcl := rfl
@[simp] theorem State.modKeeper_evq (s : State) (f : Keeper → Keeper) : (s.modKeeper f).evq = s.evq := rfl
@[simp] theorem State.modKeeper_once (s : State) (f : Keeper → Keeper) : (s.modKeeper f).once = s.once := rfl
@[simp] theorem State.modKeeper_pwrc (s : State) (f : Keeper → Keeper) : (s.modKeeper f).pwrc = s.pwrc := rfl
@[simp] theorem State.modKeeper_boot (s : State) (f : Keeper → Keeper) : (s.modKeeper f).boot = s.boot := rfl
@[simp] theorem State.modKeeper_bist (s : State) (f : Keeper → Keeper) : (s.modKeeper f).bist = s.bist := rfl
@[simp] theorem State.modKeeper_tap (s : State) (f : Keeper → Keeper) : (s.modKeeper f).tap = s.tap := rfl
@[simp] theorem State.modKeeper_pins (s : State) (f : Keeper → Keeper) : (s.modKeeper f).pins = s.pins := rfl
@[simp] theorem State.modKeeper_ctr (s : State) (f : Keeper → Keeper) : (s.modKeeper f).ctr = s.ctr := rfl

/-! ### modBist -/

@[simp] theorem State.modBist_bist (s : State) (f : Bist → Bist) : (s.modBist f).bist = f s.bist := rfl
@[simp] theorem State.modBist_pending (s : State) (f : Bist → Bist) : (s.modBist f).pending = s.pending := rfl
@[simp] theorem State.modBist_free (s : State) (f : Bist → Bist) : (s.modBist f).free = s.free := rfl
@[simp] theorem State.modBist_ticket (s : State) (f : Bist → Bist) : (s.modBist f).ticket = s.ticket := rfl
@[simp] theorem State.modBist_stamp (s : State) (f : Bist → Bist) : (s.modBist f).stamp = s.stamp := rfl
@[simp] theorem State.modBist_mem (s : State) (f : Bist → Bist) : (s.modBist f).mem = s.mem := rfl
@[simp] theorem State.modBist_clearing (s : State) (f : Bist → Bist) : (s.modBist f).clearing = s.clearing := rfl
@[simp] theorem State.modBist_poison (s : State) (f : Bist → Bist) : (s.modBist f).poison = s.poison := rfl
@[simp] theorem State.modBist_table (s : State) (f : Bist → Bist) : (s.modBist f).table = s.table := rfl
@[simp] theorem State.modBist_rot (s : State) (f : Bist → Bist) : (s.modBist f).rot = s.rot := rfl
@[simp] theorem State.modBist_regs (s : State) (f : Bist → Bist) : (s.modBist f).regs = s.regs := rfl
@[simp] theorem State.modBist_live (s : State) (f : Bist → Bist) : (s.modBist f).live = s.live := rfl
@[simp] theorem State.modBist_truss (s : State) (f : Bist → Bist) : (s.modBist f).truss = s.truss := rfl
@[simp] theorem State.modBist_spars (s : State) (f : Bist → Bist) : (s.modBist f).spars = s.spars := rfl
@[simp] theorem State.modBist_ga (s : State) (f : Bist → Bist) : (s.modBist f).ga = s.ga := rfl
@[simp] theorem State.modBist_loft (s : State) (f : Bist → Bist) : (s.modBist f).loft = s.loft := rfl
@[simp] theorem State.modBist_obreqs (s : State) (f : Bist → Bist) : (s.modBist f).obreqs = s.obreqs := rfl
@[simp] theorem State.modBist_jobs (s : State) (f : Bist → Bist) : (s.modBist f).jobs = s.jobs := rfl
@[simp] theorem State.modBist_lastGen (s : State) (f : Bist → Bist) : (s.modBist f).lastGen = s.lastGen := rfl
@[simp] theorem State.modBist_joins (s : State) (f : Bist → Bist) : (s.modBist f).joins = s.joins := rfl
@[simp] theorem State.modBist_held (s : State) (f : Bist → Bist) : (s.modBist f).held = s.held := rfl
@[simp] theorem State.modBist_commit (s : State) (f : Bist → Bist) : (s.modBist f).commit = s.commit := rfl
@[simp] theorem State.modBist_bktWait (s : State) (f : Bist → Bist) : (s.modBist f).bktWait = s.bktWait := rfl
@[simp] theorem State.modBist_passes (s : State) (f : Bist → Bist) : (s.modBist f).passes = s.passes := rfl
@[simp] theorem State.modBist_cores (s : State) (f : Bist → Bist) : (s.modBist f).cores = s.cores := rfl
@[simp] theorem State.modBist_codes (s : State) (f : Bist → Bist) : (s.modBist f).codes = s.codes := rfl
@[simp] theorem State.modBist_written (s : State) (f : Bist → Bist) : (s.modBist f).written = s.written := rfl
@[simp] theorem State.modBist_gcause (s : State) (f : Bist → Bist) : (s.modBist f).gcause = s.gcause := rfl
@[simp] theorem State.modBist_ports (s : State) (f : Bist → Bist) : (s.modBist f).ports = s.ports := rfl
@[simp] theorem State.modBist_coord (s : State) (f : Bist → Bist) : (s.modBist f).coord = s.coord := rfl
@[simp] theorem State.modBist_mcl (s : State) (f : Bist → Bist) : (s.modBist f).mcl = s.mcl := rfl
@[simp] theorem State.modBist_evq (s : State) (f : Bist → Bist) : (s.modBist f).evq = s.evq := rfl
@[simp] theorem State.modBist_once (s : State) (f : Bist → Bist) : (s.modBist f).once = s.once := rfl
@[simp] theorem State.modBist_pwrc (s : State) (f : Bist → Bist) : (s.modBist f).pwrc = s.pwrc := rfl
@[simp] theorem State.modBist_keeper (s : State) (f : Bist → Bist) : (s.modBist f).keeper = s.keeper := rfl
@[simp] theorem State.modBist_boot (s : State) (f : Bist → Bist) : (s.modBist f).boot = s.boot := rfl
@[simp] theorem State.modBist_tap (s : State) (f : Bist → Bist) : (s.modBist f).tap = s.tap := rfl
@[simp] theorem State.modBist_pins (s : State) (f : Bist → Bist) : (s.modBist f).pins = s.pins := rfl
@[simp] theorem State.modBist_ctr (s : State) (f : Bist → Bist) : (s.modBist f).ctr = s.ctr := rfl

/-! ### modPins -/

@[simp] theorem State.modPins_pins (s : State) (f : Pins → Pins) : (s.modPins f).pins = f s.pins := rfl
@[simp] theorem State.modPins_pending (s : State) (f : Pins → Pins) : (s.modPins f).pending = s.pending := rfl
@[simp] theorem State.modPins_free (s : State) (f : Pins → Pins) : (s.modPins f).free = s.free := rfl
@[simp] theorem State.modPins_ticket (s : State) (f : Pins → Pins) : (s.modPins f).ticket = s.ticket := rfl
@[simp] theorem State.modPins_stamp (s : State) (f : Pins → Pins) : (s.modPins f).stamp = s.stamp := rfl
@[simp] theorem State.modPins_mem (s : State) (f : Pins → Pins) : (s.modPins f).mem = s.mem := rfl
@[simp] theorem State.modPins_clearing (s : State) (f : Pins → Pins) : (s.modPins f).clearing = s.clearing := rfl
@[simp] theorem State.modPins_poison (s : State) (f : Pins → Pins) : (s.modPins f).poison = s.poison := rfl
@[simp] theorem State.modPins_table (s : State) (f : Pins → Pins) : (s.modPins f).table = s.table := rfl
@[simp] theorem State.modPins_rot (s : State) (f : Pins → Pins) : (s.modPins f).rot = s.rot := rfl
@[simp] theorem State.modPins_regs (s : State) (f : Pins → Pins) : (s.modPins f).regs = s.regs := rfl
@[simp] theorem State.modPins_live (s : State) (f : Pins → Pins) : (s.modPins f).live = s.live := rfl
@[simp] theorem State.modPins_truss (s : State) (f : Pins → Pins) : (s.modPins f).truss = s.truss := rfl
@[simp] theorem State.modPins_spars (s : State) (f : Pins → Pins) : (s.modPins f).spars = s.spars := rfl
@[simp] theorem State.modPins_ga (s : State) (f : Pins → Pins) : (s.modPins f).ga = s.ga := rfl
@[simp] theorem State.modPins_loft (s : State) (f : Pins → Pins) : (s.modPins f).loft = s.loft := rfl
@[simp] theorem State.modPins_obreqs (s : State) (f : Pins → Pins) : (s.modPins f).obreqs = s.obreqs := rfl
@[simp] theorem State.modPins_jobs (s : State) (f : Pins → Pins) : (s.modPins f).jobs = s.jobs := rfl
@[simp] theorem State.modPins_lastGen (s : State) (f : Pins → Pins) : (s.modPins f).lastGen = s.lastGen := rfl
@[simp] theorem State.modPins_joins (s : State) (f : Pins → Pins) : (s.modPins f).joins = s.joins := rfl
@[simp] theorem State.modPins_held (s : State) (f : Pins → Pins) : (s.modPins f).held = s.held := rfl
@[simp] theorem State.modPins_commit (s : State) (f : Pins → Pins) : (s.modPins f).commit = s.commit := rfl
@[simp] theorem State.modPins_bktWait (s : State) (f : Pins → Pins) : (s.modPins f).bktWait = s.bktWait := rfl
@[simp] theorem State.modPins_passes (s : State) (f : Pins → Pins) : (s.modPins f).passes = s.passes := rfl
@[simp] theorem State.modPins_cores (s : State) (f : Pins → Pins) : (s.modPins f).cores = s.cores := rfl
@[simp] theorem State.modPins_codes (s : State) (f : Pins → Pins) : (s.modPins f).codes = s.codes := rfl
@[simp] theorem State.modPins_written (s : State) (f : Pins → Pins) : (s.modPins f).written = s.written := rfl
@[simp] theorem State.modPins_gcause (s : State) (f : Pins → Pins) : (s.modPins f).gcause = s.gcause := rfl
@[simp] theorem State.modPins_ports (s : State) (f : Pins → Pins) : (s.modPins f).ports = s.ports := rfl
@[simp] theorem State.modPins_coord (s : State) (f : Pins → Pins) : (s.modPins f).coord = s.coord := rfl
@[simp] theorem State.modPins_mcl (s : State) (f : Pins → Pins) : (s.modPins f).mcl = s.mcl := rfl
@[simp] theorem State.modPins_evq (s : State) (f : Pins → Pins) : (s.modPins f).evq = s.evq := rfl
@[simp] theorem State.modPins_once (s : State) (f : Pins → Pins) : (s.modPins f).once = s.once := rfl
@[simp] theorem State.modPins_pwrc (s : State) (f : Pins → Pins) : (s.modPins f).pwrc = s.pwrc := rfl
@[simp] theorem State.modPins_keeper (s : State) (f : Pins → Pins) : (s.modPins f).keeper = s.keeper := rfl
@[simp] theorem State.modPins_boot (s : State) (f : Pins → Pins) : (s.modPins f).boot = s.boot := rfl
@[simp] theorem State.modPins_bist (s : State) (f : Pins → Pins) : (s.modPins f).bist = s.bist := rfl
@[simp] theorem State.modPins_tap (s : State) (f : Pins → Pins) : (s.modPins f).tap = s.tap := rfl
@[simp] theorem State.modPins_ctr (s : State) (f : Pins → Pins) : (s.modPins f).ctr = s.ctr := rfl

/-! ### modCtr -/

@[simp] theorem State.modCtr_ctr (s : State) (f : Counters → Counters) : (s.modCtr f).ctr = f s.ctr := rfl
@[simp] theorem State.modCtr_pending (s : State) (f : Counters → Counters) : (s.modCtr f).pending = s.pending := rfl
@[simp] theorem State.modCtr_free (s : State) (f : Counters → Counters) : (s.modCtr f).free = s.free := rfl
@[simp] theorem State.modCtr_ticket (s : State) (f : Counters → Counters) : (s.modCtr f).ticket = s.ticket := rfl
@[simp] theorem State.modCtr_stamp (s : State) (f : Counters → Counters) : (s.modCtr f).stamp = s.stamp := rfl
@[simp] theorem State.modCtr_mem (s : State) (f : Counters → Counters) : (s.modCtr f).mem = s.mem := rfl
@[simp] theorem State.modCtr_clearing (s : State) (f : Counters → Counters) : (s.modCtr f).clearing = s.clearing := rfl
@[simp] theorem State.modCtr_poison (s : State) (f : Counters → Counters) : (s.modCtr f).poison = s.poison := rfl
@[simp] theorem State.modCtr_table (s : State) (f : Counters → Counters) : (s.modCtr f).table = s.table := rfl
@[simp] theorem State.modCtr_rot (s : State) (f : Counters → Counters) : (s.modCtr f).rot = s.rot := rfl
@[simp] theorem State.modCtr_regs (s : State) (f : Counters → Counters) : (s.modCtr f).regs = s.regs := rfl
@[simp] theorem State.modCtr_live (s : State) (f : Counters → Counters) : (s.modCtr f).live = s.live := rfl
@[simp] theorem State.modCtr_truss (s : State) (f : Counters → Counters) : (s.modCtr f).truss = s.truss := rfl
@[simp] theorem State.modCtr_spars (s : State) (f : Counters → Counters) : (s.modCtr f).spars = s.spars := rfl
@[simp] theorem State.modCtr_ga (s : State) (f : Counters → Counters) : (s.modCtr f).ga = s.ga := rfl
@[simp] theorem State.modCtr_loft (s : State) (f : Counters → Counters) : (s.modCtr f).loft = s.loft := rfl
@[simp] theorem State.modCtr_obreqs (s : State) (f : Counters → Counters) : (s.modCtr f).obreqs = s.obreqs := rfl
@[simp] theorem State.modCtr_jobs (s : State) (f : Counters → Counters) : (s.modCtr f).jobs = s.jobs := rfl
@[simp] theorem State.modCtr_lastGen (s : State) (f : Counters → Counters) : (s.modCtr f).lastGen = s.lastGen := rfl
@[simp] theorem State.modCtr_joins (s : State) (f : Counters → Counters) : (s.modCtr f).joins = s.joins := rfl
@[simp] theorem State.modCtr_held (s : State) (f : Counters → Counters) : (s.modCtr f).held = s.held := rfl
@[simp] theorem State.modCtr_commit (s : State) (f : Counters → Counters) : (s.modCtr f).commit = s.commit := rfl
@[simp] theorem State.modCtr_bktWait (s : State) (f : Counters → Counters) : (s.modCtr f).bktWait = s.bktWait := rfl
@[simp] theorem State.modCtr_passes (s : State) (f : Counters → Counters) : (s.modCtr f).passes = s.passes := rfl
@[simp] theorem State.modCtr_cores (s : State) (f : Counters → Counters) : (s.modCtr f).cores = s.cores := rfl
@[simp] theorem State.modCtr_codes (s : State) (f : Counters → Counters) : (s.modCtr f).codes = s.codes := rfl
@[simp] theorem State.modCtr_written (s : State) (f : Counters → Counters) : (s.modCtr f).written = s.written := rfl
@[simp] theorem State.modCtr_gcause (s : State) (f : Counters → Counters) : (s.modCtr f).gcause = s.gcause := rfl
@[simp] theorem State.modCtr_ports (s : State) (f : Counters → Counters) : (s.modCtr f).ports = s.ports := rfl
@[simp] theorem State.modCtr_coord (s : State) (f : Counters → Counters) : (s.modCtr f).coord = s.coord := rfl
@[simp] theorem State.modCtr_mcl (s : State) (f : Counters → Counters) : (s.modCtr f).mcl = s.mcl := rfl
@[simp] theorem State.modCtr_evq (s : State) (f : Counters → Counters) : (s.modCtr f).evq = s.evq := rfl
@[simp] theorem State.modCtr_once (s : State) (f : Counters → Counters) : (s.modCtr f).once = s.once := rfl
@[simp] theorem State.modCtr_pwrc (s : State) (f : Counters → Counters) : (s.modCtr f).pwrc = s.pwrc := rfl
@[simp] theorem State.modCtr_keeper (s : State) (f : Counters → Counters) : (s.modCtr f).keeper = s.keeper := rfl
@[simp] theorem State.modCtr_boot (s : State) (f : Counters → Counters) : (s.modCtr f).boot = s.boot := rfl
@[simp] theorem State.modCtr_bist (s : State) (f : Counters → Counters) : (s.modCtr f).bist = s.bist := rfl
@[simp] theorem State.modCtr_tap (s : State) (f : Counters → Counters) : (s.modCtr f).tap = s.tap := rfl
@[simp] theorem State.modCtr_pins (s : State) (f : Counters → Counters) : (s.modCtr f).pins = s.pins := rfl

/-! ### setTable -/

@[simp] theorem State.setTable_pending (s : State) (k v : Nat) : (s.setTable k v).pending = s.pending := rfl
@[simp] theorem State.setTable_free (s : State) (k v : Nat) : (s.setTable k v).free = s.free := rfl
@[simp] theorem State.setTable_ticket (s : State) (k v : Nat) : (s.setTable k v).ticket = s.ticket := rfl
@[simp] theorem State.setTable_stamp (s : State) (k v : Nat) : (s.setTable k v).stamp = s.stamp := rfl
@[simp] theorem State.setTable_mem (s : State) (k v : Nat) : (s.setTable k v).mem = s.mem := rfl
@[simp] theorem State.setTable_clearing (s : State) (k v : Nat) : (s.setTable k v).clearing = s.clearing := rfl
@[simp] theorem State.setTable_poison (s : State) (k v : Nat) : (s.setTable k v).poison = s.poison := rfl
@[simp] theorem State.setTable_rot (s : State) (k v : Nat) : (s.setTable k v).rot = s.rot := rfl
@[simp] theorem State.setTable_regs (s : State) (k v : Nat) : (s.setTable k v).regs = s.regs := rfl
@[simp] theorem State.setTable_live (s : State) (k v : Nat) : (s.setTable k v).live = s.live := rfl
@[simp] theorem State.setTable_truss (s : State) (k v : Nat) : (s.setTable k v).truss = s.truss := rfl
@[simp] theorem State.setTable_spars (s : State) (k v : Nat) : (s.setTable k v).spars = s.spars := rfl
@[simp] theorem State.setTable_ga (s : State) (k v : Nat) : (s.setTable k v).ga = s.ga := rfl
@[simp] theorem State.setTable_loft (s : State) (k v : Nat) : (s.setTable k v).loft = s.loft := rfl
@[simp] theorem State.setTable_obreqs (s : State) (k v : Nat) : (s.setTable k v).obreqs = s.obreqs := rfl
@[simp] theorem State.setTable_jobs (s : State) (k v : Nat) : (s.setTable k v).jobs = s.jobs := rfl
@[simp] theorem State.setTable_lastGen (s : State) (k v : Nat) : (s.setTable k v).lastGen = s.lastGen := rfl
@[simp] theorem State.setTable_joins (s : State) (k v : Nat) : (s.setTable k v).joins = s.joins := rfl
@[simp] theorem State.setTable_held (s : State) (k v : Nat) : (s.setTable k v).held = s.held := rfl
@[simp] theorem State.setTable_commit (s : State) (k v : Nat) : (s.setTable k v).commit = s.commit := rfl
@[simp] theorem State.setTable_bktWait (s : State) (k v : Nat) : (s.setTable k v).bktWait = s.bktWait := rfl
@[simp] theorem State.setTable_passes (s : State) (k v : Nat) : (s.setTable k v).passes = s.passes := rfl
@[simp] theorem State.setTable_cores (s : State) (k v : Nat) : (s.setTable k v).cores = s.cores := rfl
@[simp] theorem State.setTable_codes (s : State) (k v : Nat) : (s.setTable k v).codes = s.codes := rfl
@[simp] theorem State.setTable_written (s : State) (k v : Nat) : (s.setTable k v).written = s.written := rfl
@[simp] theorem State.setTable_gcause (s : State) (k v : Nat) : (s.setTable k v).gcause = s.gcause := rfl
@[simp] theorem State.setTable_ports (s : State) (k v : Nat) : (s.setTable k v).ports = s.ports := rfl
@[simp] theorem State.setTable_coord (s : State) (k v : Nat) : (s.setTable k v).coord = s.coord := rfl
@[simp] theorem State.setTable_mcl (s : State) (k v : Nat) : (s.setTable k v).mcl = s.mcl := rfl
@[simp] theorem State.setTable_evq (s : State) (k v : Nat) : (s.setTable k v).evq = s.evq := rfl
@[simp] theorem State.setTable_once (s : State) (k v : Nat) : (s.setTable k v).once = s.once := rfl
@[simp] theorem State.setTable_pwrc (s : State) (k v : Nat) : (s.setTable k v).pwrc = s.pwrc := rfl
@[simp] theorem State.setTable_keeper (s : State) (k v : Nat) : (s.setTable k v).keeper = s.keeper := rfl
@[simp] theorem State.setTable_boot (s : State) (k v : Nat) : (s.setTable k v).boot = s.boot := rfl
@[simp] theorem State.setTable_bist (s : State) (k v : Nat) : (s.setTable k v).bist = s.bist := rfl
@[simp] theorem State.setTable_tap (s : State) (k v : Nat) : (s.setTable k v).tap = s.tap := rfl
@[simp] theorem State.setTable_pins (s : State) (k v : Nat) : (s.setTable k v).pins = s.pins := rfl
@[simp] theorem State.setTable_ctr (s : State) (k v : Nat) : (s.setTable k v).ctr = s.ctr := rfl

/-! ### setRegRaw -/

@[simp] theorem State.setRegRaw_pending (s : State) (dom off : Nat) (v : Half) : (s.setRegRaw dom off v).pending = s.pending := rfl
@[simp] theorem State.setRegRaw_free (s : State) (dom off : Nat) (v : Half) : (s.setRegRaw dom off v).free = s.free := rfl
@[simp] theorem State.setRegRaw_ticket (s : State) (dom off : Nat) (v : Half) : (s.setRegRaw dom off v).ticket = s.ticket := rfl
@[simp] theorem State.setRegRaw_stamp (s : State) (dom off : Nat) (v : Half) : (s.setRegRaw dom off v).stamp = s.stamp := rfl
@[simp] theorem State.setRegRaw_mem (s : State) (dom off : Nat) (v : Half) : (s.setRegRaw dom off v).mem = s.mem := rfl
@[simp] theorem State.setRegRaw_clearing (s : State) (dom off : Nat) (v : Half) : (s.setRegRaw dom off v).clearing = s.clearing := rfl
@[simp] theorem State.setRegRaw_poison (s : State) (dom off : Nat) (v : Half) : (s.setRegRaw dom off v).poison = s.poison := rfl
@[simp] theorem State.setRegRaw_table (s : State) (dom off : Nat) (v : Half) : (s.setRegRaw dom off v).table = s.table := rfl
@[simp] theorem State.setRegRaw_rot (s : State) (dom off : Nat) (v : Half) : (s.setRegRaw dom off v).rot = s.rot := rfl
@[simp] theorem State.setRegRaw_live (s : State) (dom off : Nat) (v : Half) : (s.setRegRaw dom off v).live = s.live := rfl
@[simp] theorem State.setRegRaw_truss (s : State) (dom off : Nat) (v : Half) : (s.setRegRaw dom off v).truss = s.truss := rfl
@[simp] theorem State.setRegRaw_spars (s : State) (dom off : Nat) (v : Half) : (s.setRegRaw dom off v).spars = s.spars := rfl
@[simp] theorem State.setRegRaw_ga (s : State) (dom off : Nat) (v : Half) : (s.setRegRaw dom off v).ga = s.ga := rfl
@[simp] theorem State.setRegRaw_loft (s : State) (dom off : Nat) (v : Half) : (s.setRegRaw dom off v).loft = s.loft := rfl
@[simp] theorem State.setRegRaw_obreqs (s : State) (dom off : Nat) (v : Half) : (s.setRegRaw dom off v).obreqs = s.obreqs := rfl
@[simp] theorem State.setRegRaw_jobs (s : State) (dom off : Nat) (v : Half) : (s.setRegRaw dom off v).jobs = s.jobs := rfl
@[simp] theorem State.setRegRaw_lastGen (s : State) (dom off : Nat) (v : Half) : (s.setRegRaw dom off v).lastGen = s.lastGen := rfl
@[simp] theorem State.setRegRaw_joins (s : State) (dom off : Nat) (v : Half) : (s.setRegRaw dom off v).joins = s.joins := rfl
@[simp] theorem State.setRegRaw_held (s : State) (dom off : Nat) (v : Half) : (s.setRegRaw dom off v).held = s.held := rfl
@[simp] theorem State.setRegRaw_commit (s : State) (dom off : Nat) (v : Half) : (s.setRegRaw dom off v).commit = s.commit := rfl
@[simp] theorem State.setRegRaw_bktWait (s : State) (dom off : Nat) (v : Half) : (s.setRegRaw dom off v).bktWait = s.bktWait := rfl
@[simp] theorem State.setRegRaw_passes (s : State) (dom off : Nat) (v : Half) : (s.setRegRaw dom off v).passes = s.passes := rfl
@[simp] theorem State.setRegRaw_cores (s : State) (dom off : Nat) (v : Half) : (s.setRegRaw dom off v).cores = s.cores := rfl
@[simp] theorem State.setRegRaw_codes (s : State) (dom off : Nat) (v : Half) : (s.setRegRaw dom off v).codes = s.codes := rfl
@[simp] theorem State.setRegRaw_written (s : State) (dom off : Nat) (v : Half) : (s.setRegRaw dom off v).written = s.written := rfl
@[simp] theorem State.setRegRaw_gcause (s : State) (dom off : Nat) (v : Half) : (s.setRegRaw dom off v).gcause = s.gcause := rfl
@[simp] theorem State.setRegRaw_ports (s : State) (dom off : Nat) (v : Half) : (s.setRegRaw dom off v).ports = s.ports := rfl
@[simp] theorem State.setRegRaw_coord (s : State) (dom off : Nat) (v : Half) : (s.setRegRaw dom off v).coord = s.coord := rfl
@[simp] theorem State.setRegRaw_mcl (s : State) (dom off : Nat) (v : Half) : (s.setRegRaw dom off v).mcl = s.mcl := rfl
@[simp] theorem State.setRegRaw_evq (s : State) (dom off : Nat) (v : Half) : (s.setRegRaw dom off v).evq = s.evq := rfl
@[simp] theorem State.setRegRaw_once (s : State) (dom off : Nat) (v : Half) : (s.setRegRaw dom off v).once = s.once := rfl
@[simp] theorem State.setRegRaw_pwrc (s : State) (dom off : Nat) (v : Half) : (s.setRegRaw dom off v).pwrc = s.pwrc := rfl
@[simp] theorem State.setRegRaw_keeper (s : State) (dom off : Nat) (v : Half) : (s.setRegRaw dom off v).keeper = s.keeper := rfl
@[simp] theorem State.setRegRaw_boot (s : State) (dom off : Nat) (v : Half) : (s.setRegRaw dom off v).boot = s.boot := rfl
@[simp] theorem State.setRegRaw_bist (s : State) (dom off : Nat) (v : Half) : (s.setRegRaw dom off v).bist = s.bist := rfl
@[simp] theorem State.setRegRaw_tap (s : State) (dom off : Nat) (v : Half) : (s.setRegRaw dom off v).tap = s.tap := rfl
@[simp] theorem State.setRegRaw_pins (s : State) (dom off : Nat) (v : Half) : (s.setRegRaw dom off v).pins = s.pins := rfl
@[simp] theorem State.setRegRaw_ctr (s : State) (dom off : Nat) (v : Half) : (s.setRegRaw dom off v).ctr = s.ctr := rfl

/-! ### orReg -/

@[simp] theorem State.orReg_pending (s : State) (dom off : Nat) (m : Half) : (s.orReg dom off m).pending = s.pending := rfl
@[simp] theorem State.orReg_free (s : State) (dom off : Nat) (m : Half) : (s.orReg dom off m).free = s.free := rfl
@[simp] theorem State.orReg_ticket (s : State) (dom off : Nat) (m : Half) : (s.orReg dom off m).ticket = s.ticket := rfl
@[simp] theorem State.orReg_stamp (s : State) (dom off : Nat) (m : Half) : (s.orReg dom off m).stamp = s.stamp := rfl
@[simp] theorem State.orReg_mem (s : State) (dom off : Nat) (m : Half) : (s.orReg dom off m).mem = s.mem := rfl
@[simp] theorem State.orReg_clearing (s : State) (dom off : Nat) (m : Half) : (s.orReg dom off m).clearing = s.clearing := rfl
@[simp] theorem State.orReg_poison (s : State) (dom off : Nat) (m : Half) : (s.orReg dom off m).poison = s.poison := rfl
@[simp] theorem State.orReg_table (s : State) (dom off : Nat) (m : Half) : (s.orReg dom off m).table = s.table := rfl
@[simp] theorem State.orReg_rot (s : State) (dom off : Nat) (m : Half) : (s.orReg dom off m).rot = s.rot := rfl
@[simp] theorem State.orReg_live (s : State) (dom off : Nat) (m : Half) : (s.orReg dom off m).live = s.live := rfl
@[simp] theorem State.orReg_truss (s : State) (dom off : Nat) (m : Half) : (s.orReg dom off m).truss = s.truss := rfl
@[simp] theorem State.orReg_spars (s : State) (dom off : Nat) (m : Half) : (s.orReg dom off m).spars = s.spars := rfl
@[simp] theorem State.orReg_ga (s : State) (dom off : Nat) (m : Half) : (s.orReg dom off m).ga = s.ga := rfl
@[simp] theorem State.orReg_loft (s : State) (dom off : Nat) (m : Half) : (s.orReg dom off m).loft = s.loft := rfl
@[simp] theorem State.orReg_obreqs (s : State) (dom off : Nat) (m : Half) : (s.orReg dom off m).obreqs = s.obreqs := rfl
@[simp] theorem State.orReg_jobs (s : State) (dom off : Nat) (m : Half) : (s.orReg dom off m).jobs = s.jobs := rfl
@[simp] theorem State.orReg_lastGen (s : State) (dom off : Nat) (m : Half) : (s.orReg dom off m).lastGen = s.lastGen := rfl
@[simp] theorem State.orReg_joins (s : State) (dom off : Nat) (m : Half) : (s.orReg dom off m).joins = s.joins := rfl
@[simp] theorem State.orReg_held (s : State) (dom off : Nat) (m : Half) : (s.orReg dom off m).held = s.held := rfl
@[simp] theorem State.orReg_commit (s : State) (dom off : Nat) (m : Half) : (s.orReg dom off m).commit = s.commit := rfl
@[simp] theorem State.orReg_bktWait (s : State) (dom off : Nat) (m : Half) : (s.orReg dom off m).bktWait = s.bktWait := rfl
@[simp] theorem State.orReg_passes (s : State) (dom off : Nat) (m : Half) : (s.orReg dom off m).passes = s.passes := rfl
@[simp] theorem State.orReg_cores (s : State) (dom off : Nat) (m : Half) : (s.orReg dom off m).cores = s.cores := rfl
@[simp] theorem State.orReg_codes (s : State) (dom off : Nat) (m : Half) : (s.orReg dom off m).codes = s.codes := rfl
@[simp] theorem State.orReg_written (s : State) (dom off : Nat) (m : Half) : (s.orReg dom off m).written = s.written := rfl
@[simp] theorem State.orReg_gcause (s : State) (dom off : Nat) (m : Half) : (s.orReg dom off m).gcause = s.gcause := rfl
@[simp] theorem State.orReg_ports (s : State) (dom off : Nat) (m : Half) : (s.orReg dom off m).ports = s.ports := rfl
@[simp] theorem State.orReg_coord (s : State) (dom off : Nat) (m : Half) : (s.orReg dom off m).coord = s.coord := rfl
@[simp] theorem State.orReg_mcl (s : State) (dom off : Nat) (m : Half) : (s.orReg dom off m).mcl = s.mcl := rfl
@[simp] theorem State.orReg_evq (s : State) (dom off : Nat) (m : Half) : (s.orReg dom off m).evq = s.evq := rfl
@[simp] theorem State.orReg_once (s : State) (dom off : Nat) (m : Half) : (s.orReg dom off m).once = s.once := rfl
@[simp] theorem State.orReg_pwrc (s : State) (dom off : Nat) (m : Half) : (s.orReg dom off m).pwrc = s.pwrc := rfl
@[simp] theorem State.orReg_keeper (s : State) (dom off : Nat) (m : Half) : (s.orReg dom off m).keeper = s.keeper := rfl
@[simp] theorem State.orReg_boot (s : State) (dom off : Nat) (m : Half) : (s.orReg dom off m).boot = s.boot := rfl
@[simp] theorem State.orReg_bist (s : State) (dom off : Nat) (m : Half) : (s.orReg dom off m).bist = s.bist := rfl
@[simp] theorem State.orReg_tap (s : State) (dom off : Nat) (m : Half) : (s.orReg dom off m).tap = s.tap := rfl
@[simp] theorem State.orReg_pins (s : State) (dom off : Nat) (m : Half) : (s.orReg dom off m).pins = s.pins := rfl
@[simp] theorem State.orReg_ctr (s : State) (dom off : Nat) (m : Half) : (s.orReg dom off m).ctr = s.ctr := rfl

/-! ### setField -/

@[simp] theorem State.setField_pending (s : State) (dom off lo w v : Nat) : (s.setField dom off lo w v).pending = s.pending := rfl
@[simp] theorem State.setField_free (s : State) (dom off lo w v : Nat) : (s.setField dom off lo w v).free = s.free := rfl
@[simp] theorem State.setField_ticket (s : State) (dom off lo w v : Nat) : (s.setField dom off lo w v).ticket = s.ticket := rfl
@[simp] theorem State.setField_stamp (s : State) (dom off lo w v : Nat) : (s.setField dom off lo w v).stamp = s.stamp := rfl
@[simp] theorem State.setField_mem (s : State) (dom off lo w v : Nat) : (s.setField dom off lo w v).mem = s.mem := rfl
@[simp] theorem State.setField_clearing (s : State) (dom off lo w v : Nat) : (s.setField dom off lo w v).clearing = s.clearing := rfl
@[simp] theorem State.setField_poison (s : State) (dom off lo w v : Nat) : (s.setField dom off lo w v).poison = s.poison := rfl
@[simp] theorem State.setField_table (s : State) (dom off lo w v : Nat) : (s.setField dom off lo w v).table = s.table := rfl
@[simp] theorem State.setField_rot (s : State) (dom off lo w v : Nat) : (s.setField dom off lo w v).rot = s.rot := rfl
@[simp] theorem State.setField_live (s : State) (dom off lo w v : Nat) : (s.setField dom off lo w v).live = s.live := rfl
@[simp] theorem State.setField_truss (s : State) (dom off lo w v : Nat) : (s.setField dom off lo w v).truss = s.truss := rfl
@[simp] theorem State.setField_spars (s : State) (dom off lo w v : Nat) : (s.setField dom off lo w v).spars = s.spars := rfl
@[simp] theorem State.setField_ga (s : State) (dom off lo w v : Nat) : (s.setField dom off lo w v).ga = s.ga := rfl
@[simp] theorem State.setField_loft (s : State) (dom off lo w v : Nat) : (s.setField dom off lo w v).loft = s.loft := rfl
@[simp] theorem State.setField_obreqs (s : State) (dom off lo w v : Nat) : (s.setField dom off lo w v).obreqs = s.obreqs := rfl
@[simp] theorem State.setField_jobs (s : State) (dom off lo w v : Nat) : (s.setField dom off lo w v).jobs = s.jobs := rfl
@[simp] theorem State.setField_lastGen (s : State) (dom off lo w v : Nat) : (s.setField dom off lo w v).lastGen = s.lastGen := rfl
@[simp] theorem State.setField_joins (s : State) (dom off lo w v : Nat) : (s.setField dom off lo w v).joins = s.joins := rfl
@[simp] theorem State.setField_held (s : State) (dom off lo w v : Nat) : (s.setField dom off lo w v).held = s.held := rfl
@[simp] theorem State.setField_commit (s : State) (dom off lo w v : Nat) : (s.setField dom off lo w v).commit = s.commit := rfl
@[simp] theorem State.setField_bktWait (s : State) (dom off lo w v : Nat) : (s.setField dom off lo w v).bktWait = s.bktWait := rfl
@[simp] theorem State.setField_passes (s : State) (dom off lo w v : Nat) : (s.setField dom off lo w v).passes = s.passes := rfl
@[simp] theorem State.setField_cores (s : State) (dom off lo w v : Nat) : (s.setField dom off lo w v).cores = s.cores := rfl
@[simp] theorem State.setField_codes (s : State) (dom off lo w v : Nat) : (s.setField dom off lo w v).codes = s.codes := rfl
@[simp] theorem State.setField_written (s : State) (dom off lo w v : Nat) : (s.setField dom off lo w v).written = s.written := rfl
@[simp] theorem State.setField_gcause (s : State) (dom off lo w v : Nat) : (s.setField dom off lo w v).gcause = s.gcause := rfl
@[simp] theorem State.setField_ports (s : State) (dom off lo w v : Nat) : (s.setField dom off lo w v).ports = s.ports := rfl
@[simp] theorem State.setField_coord (s : State) (dom off lo w v : Nat) : (s.setField dom off lo w v).coord = s.coord := rfl
@[simp] theorem State.setField_mcl (s : State) (dom off lo w v : Nat) : (s.setField dom off lo w v).mcl = s.mcl := rfl
@[simp] theorem State.setField_evq (s : State) (dom off lo w v : Nat) : (s.setField dom off lo w v).evq = s.evq := rfl
@[simp] theorem State.setField_once (s : State) (dom off lo w v : Nat) : (s.setField dom off lo w v).once = s.once := rfl
@[simp] theorem State.setField_pwrc (s : State) (dom off lo w v : Nat) : (s.setField dom off lo w v).pwrc = s.pwrc := rfl
@[simp] theorem State.setField_keeper (s : State) (dom off lo w v : Nat) : (s.setField dom off lo w v).keeper = s.keeper := rfl
@[simp] theorem State.setField_boot (s : State) (dom off lo w v : Nat) : (s.setField dom off lo w v).boot = s.boot := rfl
@[simp] theorem State.setField_bist (s : State) (dom off lo w v : Nat) : (s.setField dom off lo w v).bist = s.bist := rfl
@[simp] theorem State.setField_tap (s : State) (dom off lo w v : Nat) : (s.setField dom off lo w v).tap = s.tap := rfl
@[simp] theorem State.setField_pins (s : State) (dom off lo w v : Nat) : (s.setField dom off lo w v).pins = s.pins := rfl
@[simp] theorem State.setField_ctr (s : State) (dom off lo w v : Nat) : (s.setField dom off lo w v).ctr = s.ctr := rfl

/-! ### mark -/

@[simp] theorem State.mark_pending (s : State) (u : Nat) (p : Bool) : (s.mark u p).pending = s.pending := rfl
@[simp] theorem State.mark_free (s : State) (u : Nat) (p : Bool) : (s.mark u p).free = s.free := rfl
@[simp] theorem State.mark_ticket (s : State) (u : Nat) (p : Bool) : (s.mark u p).ticket = s.ticket := rfl
@[simp] theorem State.mark_stamp (s : State) (u : Nat) (p : Bool) : (s.mark u p).stamp = s.stamp := rfl
@[simp] theorem State.mark_mem (s : State) (u : Nat) (p : Bool) : (s.mark u p).mem = s.mem := rfl
@[simp] theorem State.mark_clearing (s : State) (u : Nat) (p : Bool) : (s.mark u p).clearing = s.clearing := rfl
@[simp] theorem State.mark_table (s : State) (u : Nat) (p : Bool) : (s.mark u p).table = s.table := rfl
@[simp] theorem State.mark_rot (s : State) (u : Nat) (p : Bool) : (s.mark u p).rot = s.rot := rfl
@[simp] theorem State.mark_regs (s : State) (u : Nat) (p : Bool) : (s.mark u p).regs = s.regs := rfl
@[simp] theorem State.mark_live (s : State) (u : Nat) (p : Bool) : (s.mark u p).live = s.live := rfl
@[simp] theorem State.mark_truss (s : State) (u : Nat) (p : Bool) : (s.mark u p).truss = s.truss := rfl
@[simp] theorem State.mark_spars (s : State) (u : Nat) (p : Bool) : (s.mark u p).spars = s.spars := rfl
@[simp] theorem State.mark_ga (s : State) (u : Nat) (p : Bool) : (s.mark u p).ga = s.ga := rfl
@[simp] theorem State.mark_loft (s : State) (u : Nat) (p : Bool) : (s.mark u p).loft = s.loft := rfl
@[simp] theorem State.mark_obreqs (s : State) (u : Nat) (p : Bool) : (s.mark u p).obreqs = s.obreqs := rfl
@[simp] theorem State.mark_jobs (s : State) (u : Nat) (p : Bool) : (s.mark u p).jobs = s.jobs := rfl
@[simp] theorem State.mark_lastGen (s : State) (u : Nat) (p : Bool) : (s.mark u p).lastGen = s.lastGen := rfl
@[simp] theorem State.mark_joins (s : State) (u : Nat) (p : Bool) : (s.mark u p).joins = s.joins := rfl
@[simp] theorem State.mark_held (s : State) (u : Nat) (p : Bool) : (s.mark u p).held = s.held := rfl
@[simp] theorem State.mark_commit (s : State) (u : Nat) (p : Bool) : (s.mark u p).commit = s.commit := rfl
@[simp] theorem State.mark_bktWait (s : State) (u : Nat) (p : Bool) : (s.mark u p).bktWait = s.bktWait := rfl
@[simp] theorem State.mark_passes (s : State) (u : Nat) (p : Bool) : (s.mark u p).passes = s.passes := rfl
@[simp] theorem State.mark_cores (s : State) (u : Nat) (p : Bool) : (s.mark u p).cores = s.cores := rfl
@[simp] theorem State.mark_codes (s : State) (u : Nat) (p : Bool) : (s.mark u p).codes = s.codes := rfl
@[simp] theorem State.mark_written (s : State) (u : Nat) (p : Bool) : (s.mark u p).written = s.written := rfl
@[simp] theorem State.mark_gcause (s : State) (u : Nat) (p : Bool) : (s.mark u p).gcause = s.gcause := rfl
@[simp] theorem State.mark_ports (s : State) (u : Nat) (p : Bool) : (s.mark u p).ports = s.ports := rfl
@[simp] theorem State.mark_coord (s : State) (u : Nat) (p : Bool) : (s.mark u p).coord = s.coord := rfl
@[simp] theorem State.mark_mcl (s : State) (u : Nat) (p : Bool) : (s.mark u p).mcl = s.mcl := rfl
@[simp] theorem State.mark_evq (s : State) (u : Nat) (p : Bool) : (s.mark u p).evq = s.evq := rfl
@[simp] theorem State.mark_once (s : State) (u : Nat) (p : Bool) : (s.mark u p).once = s.once := rfl
@[simp] theorem State.mark_pwrc (s : State) (u : Nat) (p : Bool) : (s.mark u p).pwrc = s.pwrc := rfl
@[simp] theorem State.mark_keeper (s : State) (u : Nat) (p : Bool) : (s.mark u p).keeper = s.keeper := rfl
@[simp] theorem State.mark_boot (s : State) (u : Nat) (p : Bool) : (s.mark u p).boot = s.boot := rfl
@[simp] theorem State.mark_bist (s : State) (u : Nat) (p : Bool) : (s.mark u p).bist = s.bist := rfl
@[simp] theorem State.mark_tap (s : State) (u : Nat) (p : Bool) : (s.mark u p).tap = s.tap := rfl
@[simp] theorem State.mark_pins (s : State) (u : Nat) (p : Bool) : (s.mark u p).pins = s.pins := rfl
@[simp] theorem State.mark_ctr (s : State) (u : Nat) (p : Bool) : (s.mark u p).ctr = s.ctr := rfl

end Sys2Proof.Machine
end

