-- ==== Sys2Proof/Laws/Reports.lean ====
section
/-! SUPPORT. What counting and event reporting can do: nothing that shows in the quiet view, and no store leaves its canonical form. -/
namespace Sys2Proof.Machine

/-! ### Sparse stores seen through a filter -/

theorem Sparse.filter_del {α : Type} (p : Nat × α → Bool) (k : Nat) (h : ∀ v, p (k, v) = false) (m : List (Nat × α)) :
    (Sparse.del m k).filter p = m.filter p := by
  induction m with
  | nil => rfl
  | cons x m ih =>
    unfold Sparse.del
    split
    · simp only [List.filter_cons, ih]
    · split
      · next hk => rw [List.filter_cons, if_neg]; obtain ⟨a, v⟩ := x; simp only at hk; subst hk; simp [h]
      · rfl

theorem Sparse.filter_ins {α : Type} (p : Nat × α → Bool) (k : Nat) (v : α) (h : ∀ v, p (k, v) = false) (m : List (Nat × α)) :
    (Sparse.ins m k v).filter p = m.filter p := by
  induction m with
  | nil => simp [Sparse.ins, h]
  | cons x m ih =>
    unfold Sparse.ins
    split
    · simp only [List.filter_cons, ih]
    · split
      · next hk => obtain ⟨a, w⟩ := x; simp only at hk; subst hk; simp [h]
      · simp [List.filter_cons, h]

/-- A write at a key that a filter drops does not show through the filter. -/
theorem Sparse.filter_put {α : Type} [DecidableEq α] (z : α) (p : Nat × α → Bool) (k : Nat) (v : α) (h : ∀ v, p (k, v) = false)
    (m : List (Nat × α)) : (Sparse.put z m k v).filter p = m.filter p := by
  unfold Sparse.put
  split
  · exact Sparse.filter_del p k h m
  · exact Sparse.filter_ins p k v h m

/-! ### Registers -/

theorem State.Canonical.setRegRaw {s : State} (h : s.Canonical) (dom off : Nat) (v : Half) : (s.setRegRaw dom off v).Canonical :=
  ⟨h.1, h.2.1, h.2.2.1, h.2.2.2.1, Sparse.wf_put none _ _ h.2.2.2.2⟩

theorem State.Canonical.orReg {s : State} (h : s.Canonical) (dom off : Nat) (m : Half) : (s.orReg dom off m).Canonical := h.setRegRaw ..

theorem State.Canonical.setField {s : State} (h : s.Canonical) (dom off lo w v : Nat) : (s.setField dom off lo w v).Canonical :=
  h.setRegRaw ..

theorem State.setRegRaw_quiet (s : State) (dom off : Nat) (v : Half) (h : isReport (homeDom dom off * 0x10000 + off) = true) :
    (s.setRegRaw dom off v).quiet = s.quiet := by
  unfold State.setRegRaw State.quiet
  simp only
  rw [Sparse.filter_put]
  intro w; simp [h]

theorem homeDom_report (dom : Nat) : homeDom dom 0x8004 = dom := by
  unfold homeDom; split
  · next h => simp at h
  · rfl

theorem State.orReg_pcsat_quiet (s : State) (dom : Nat) (m : Half) : (s.orReg dom 0x8004 m).quiet = s.quiet := by
  apply State.setRegRaw_quiet
  rw [homeDom_report]
  simp only [isReport, Bool.or_eq_true, decide_eq_true_eq]; left; omega

theorem State.orReg_status_quiet (s : State) (m : Half) : (s.orReg 59 0 m).quiet = s.quiet :=
  State.setRegRaw_quiet _ _ _ _ (by decide)

/-! ### Counters -/

theorem State.addCount_quiet (s : State) (key n : Nat) : (s.addCount key n).1.quiet = s.quiet := by
  unfold State.addCount
  simp only
  split
  · rw [State.orReg_pcsat_quiet]; rfl
  · rfl

theorem State.Canonical.addCount {s : State} (h : s.Canonical) (key n : Nat) : (s.addCount key n).1.Canonical := by
  unfold State.addCount
  simp only
  split
  · exact State.Canonical.orReg (s := (s.modCtr _).modCtr _) h _ _ _
  · exact h

theorem State.bump_fold (l : List Nat) (n : Nat) (p : State × List Nat) :
    let r := l.foldl (fun (p : State × List Nat) key =>
      let (s, due) := p.1.addCount key n
      (s, if due then p.2 ++ [key] else p.2)) p
    r.1.quiet = p.1.quiet ∧ (p.1.Canonical → r.1.Canonical) := by
  induction l generalizing p with
  | nil => exact ⟨rfl, id⟩
  | cons k l ih =>
    simp only [List.foldl_cons]
    obtain ⟨h1, h2⟩ := ih (((p.1.addCount k n).1, if (p.1.addCount k n).2 then p.2 ++ [k] else p.2))
    exact ⟨h1.trans (State.addCount_quiet ..), fun h => h2 (h.addCount k n)⟩

theorem State.bump_quiet (s : State) (dom group index n : Nat) : (s.bump dom group index n).1.quiet = s.quiet :=
  (State.bump_fold _ n (s, [])).1

theorem State.Canonical.bump {s : State} (h : s.Canonical) (dom group index n : Nat) : (s.bump dom group index n).1.Canonical :=
  (State.bump_fold _ n (s, [])).2 h

/-! ### Events -/

theorem Keeper.hold_erased (k : Keeper) (e : Event) : { k.hold e with held := [], lost := 0 } = { k with held := [], lost := 0 } := by
  unfold Keeper.hold
  split
  · rfl
  · split <;> rfl

theorem State.numbered_quiet (s : State) (e : Event) : (s.numbered e).quiet = s.quiet := by
  simp only [State.numbered, State.quiet, State.modMcl, Keeper.hold_erased]

theorem State.toQueue_quiet (s : State) (e : Event) : (s.toQueue e).1.quiet = s.quiet := by
  unfold State.toQueue
  split
  · rfl
  · split
    · exact State.orReg_status_quiet ..
    · rfl

theorem State.Canonical.toQueue {s : State} (h : s.Canonical) (e : Event) : (s.toQueue e).1.Canonical := by
  unfold State.toQueue
  split
  · exact h
  · split
    · exact State.Canonical.orReg (s := s.modMcl _) h _ _ _
    · exact h

theorem State.post_quiet (s : State) (e : Event) : (s.post e).1.quiet = s.quiet :=
  (State.toQueue_quiet ..).trans (State.numbered_quiet ..)

theorem State.Canonical.post {s : State} (h : s.Canonical) (e : Event) : (s.post e).1.Canonical :=
  State.Canonical.toQueue (s := s.numbered e) h _

theorem State.postSat_fold (l : List Nat) (s : State) (f : State → Nat → Event) :
    (l.foldl (fun s key => (s.post (f s key)).1) s).quiet = s.quiet ∧
      (s.Canonical → (l.foldl (fun s key => (s.post (f s key)).1) s).Canonical) := by
  induction l generalizing s with
  | nil => exact ⟨rfl, id⟩
  | cons k l ih =>
    simp only [List.foldl_cons]
    obtain ⟨h1, h2⟩ := ih (s.post (f s k)).1
    exact ⟨h1.trans (State.post_quiet ..), fun h => h2 (h.post _)⟩

theorem State.postCount_fold (l : List (Nat × Nat)) (q : State × List Nat) :
    let r := l.foldl (fun (q : State × List Nat) x =>
      let (s, k) := q.1.bump x.1 1 x.2 1
      (s, q.2 ++ k)) q
    r.1.quiet = q.1.quiet ∧ (q.1.Canonical → r.1.Canonical) := by
  induction l generalizing q with
  | nil => exact ⟨rfl, id⟩
  | cons x l ih =>
    simp only [List.foldl_cons]
    obtain ⟨h1, h2⟩ := ih ((q.1.bump x.1 1 x.2 1).1, q.2 ++ (q.1.bump x.1 1 x.2 1).2)
    exact ⟨h1.trans (State.bump_quiet ..), fun h => h2 (h.bump ..)⟩

theorem State.raiseEv_quiet (s : State) (e : Event) : (s.raiseEv e).quiet = s.quiet := by
  unfold State.raiseEv
  simp only
  rw [(State.postSat_fold _ _ _).1, (State.postCount_fold _ _).1, State.post_quiet]

theorem State.Canonical.raiseEv {s : State} (h : s.Canonical) (e : Event) : (s.raiseEv e).Canonical := by
  unfold State.raiseEv
  simp only
  exact (State.postSat_fold _ _ _).2 ((State.postCount_fold _ _).2 (h.post e))

theorem State.raise_quiet (s : State) (code dom d0 d1 d2 : Nat) : (s.raise code dom d0 d1 d2).quiet = s.quiet :=
  State.raiseEv_quiet ..

theorem State.Canonical.raise {s : State} (h : s.Canonical) (code dom d0 d1 d2 : Nat) : (s.raise code dom d0 d1 d2).Canonical :=
  h.raiseEv _

/-- A chain of changes keeps what each of them keeps. -/
theorem State.each_induct {α : Type} (P : State → Prop) (l : List α) (f : State → α → State) (s : State) (h0 : P s)
    (hf : ∀ s, ∀ x ∈ l, P s → P (f s x)) : P (s.each l f) := by
  unfold State.each
  induction l generalizing s with
  | nil => exact h0
  | cons x l ih =>
    exact ih (f s x) (hf s x (List.mem_cons_self ..) h0) fun s y hy => hf s y (List.mem_cons_of_mem _ hy)

theorem State.raiseSat_quiet (s : State) (keys : List Nat) : (s.raiseSat keys).quiet = s.quiet :=
  State.each_induct (·.quiet = s.quiet) _ _ _ rfl fun _ _ _ h => (State.raise_quiet ..).trans h

theorem State.Canonical.raiseSat {s : State} (h : s.Canonical) (keys : List Nat) : (s.raiseSat keys).Canonical :=
  State.each_induct State.Canonical _ _ _ h fun _ _ _ h => h.raise ..

theorem State.tally_quiet (s : State) (key n : Nat) : (s.tally key n).quiet = s.quiet := by
  unfold State.tally
  simp only
  split
  · rw [State.raiseSat_quiet, State.addCount_quiet]
  · exact State.addCount_quiet ..

theorem State.Canonical.tally {s : State} (h : s.Canonical) (key n : Nat) : (s.tally key n).Canonical := by
  unfold State.tally
  simp only
  split
  · exact (h.addCount ..).raiseSat _
  · exact h.addCount ..

theorem State.occ_quiet (s : State) (dom i n : Nat) : (s.occ dom i n).quiet = s.quiet := by
  unfold State.occ
  split
  · rfl
  · simp only; rw [State.raiseSat_quiet, State.bump_quiet]

theorem State.Canonical.occ {s : State} (h : s.Canonical) (dom i n : Nat) : (s.occ dom i n).Canonical := by
  unfold State.occ
  split
  · exact h
  · exact (h.bump ..).raiseSat _

theorem State.charge_quiet (s : State) (dom u c n : Nat) : (s.charge dom u c n).quiet = s.quiet := by
  unfold State.charge
  split
  · rfl
  · simp only; rw [State.raiseSat_quiet, State.bump_quiet]

theorem State.Canonical.charge {s : State} (h : s.Canonical) (dom u c n : Nat) : (s.charge dom u c n).Canonical := by
  unfold State.charge
  split
  · exact h
  · exact (h.bump ..).raiseSat _

theorem State.lath_quiet (s : State) (d cls n : Nat) : (s.lath d cls n).quiet = s.quiet := by
  unfold State.lath
  simp only; rw [State.raiseSat_quiet, State.bump_quiet]

theorem State.Canonical.lath {s : State} (h : s.Canonical) (d cls n : Nat) : (s.lath d cls n).Canonical := (h.bump ..).raiseSat _

theorem State.lathControl_quiet (s : State) (dom n : Nat) : (s.lathControl dom n).quiet = s.quiet := by
  unfold State.lathControl; split
  · exact s.lath_quiet ..
  · rfl

theorem State.Canonical.lathControl {s : State} (h : s.Canonical) (dom n : Nat) : (s.lathControl dom n).Canonical := by
  unfold State.lathControl; split
  · exact h.lath ..
  · exact h

theorem State.common_quiet (s : State) (dom i n : Nat) : (s.common dom i n).quiet = s.quiet := by
  unfold State.common
  simp only; rw [State.raiseSat_quiet, State.bump_quiet]

theorem State.Canonical.common {s : State} (h : s.Canonical) (dom i n : Nat) : (s.common dom i n).Canonical :=
  (h.bump ..).raiseSat _

/-! ### What equal quiet views share -/

theorem State.pending_of_quiet {s t : State} (h : t.quiet = s.quiet) : t.pending = s.pending := by
  have := congrArg State.pending h; exact this
theorem State.free_of_quiet {s t : State} (h : t.quiet = s.quiet) : t.free = s.free := by
  have := congrArg State.free h; exact this
theorem State.ticket_of_quiet {s t : State} (h : t.quiet = s.quiet) : t.ticket = s.ticket := by
  have := congrArg State.ticket h; exact this
theorem State.stamp_of_quiet {s t : State} (h : t.quiet = s.quiet) : t.stamp = s.stamp := by
  have := congrArg State.stamp h; exact this
theorem State.mem_of_quiet {s t : State} (h : t.quiet = s.quiet) : t.mem = s.mem := by
  have := congrArg State.mem h; exact this
theorem State.poison_of_quiet {s t : State} (h : t.quiet = s.quiet) : t.poison = s.poison := by
  have := congrArg State.poison h; exact this
theorem State.table_of_quiet {s t : State} (h : t.quiet = s.quiet) : t.table = s.table := by
  have := congrArg State.table h; exact this
theorem State.rot_of_quiet {s t : State} (h : t.quiet = s.quiet) : t.rot = s.rot := by
  have := congrArg State.rot h; exact this
theorem State.live_of_quiet {s t : State} (h : t.quiet = s.quiet) : t.live = s.live := by
  have := congrArg State.live h; exact this
theorem State.truss_of_quiet {s t : State} (h : t.quiet = s.quiet) : t.truss = s.truss := by
  have := congrArg State.truss h; exact this
theorem State.spars_of_quiet {s t : State} (h : t.quiet = s.quiet) : t.spars = s.spars := by
  have := congrArg State.spars h; exact this
theorem State.ga_of_quiet {s t : State} (h : t.quiet = s.quiet) : t.ga = s.ga := by
  have := congrArg State.ga h; exact this
theorem State.loft_of_quiet {s t : State} (h : t.quiet = s.quiet) : t.loft = s.loft := by
  have := congrArg State.loft h; exact this
theorem State.obreqs_of_quiet {s t : State} (h : t.quiet = s.quiet) : t.obreqs = s.obreqs := by
  have := congrArg State.obreqs h; exact this
theorem State.jobs_of_quiet {s t : State} (h : t.quiet = s.quiet) : t.jobs = s.jobs := by
  have := congrArg State.jobs h; exact this
theorem State.lastGen_of_quiet {s t : State} (h : t.quiet = s.quiet) : t.lastGen = s.lastGen := by
  have := congrArg State.lastGen h; exact this
theorem State.joins_of_quiet {s t : State} (h : t.quiet = s.quiet) : t.joins = s.joins := by
  have := congrArg State.joins h; exact this
theorem State.held_of_quiet {s t : State} (h : t.quiet = s.quiet) : t.held = s.held := by
  have := congrArg State.held h; exact this
theorem State.commit_of_quiet {s t : State} (h : t.quiet = s.quiet) : t.commit = s.commit := by
  have := congrArg State.commit h; exact this
theorem State.bktWait_of_quiet {s t : State} (h : t.quiet = s.quiet) : t.bktWait = s.bktWait := by
  have := congrArg State.bktWait h; exact this
theorem State.passes_of_quiet {s t : State} (h : t.quiet = s.quiet) : t.passes = s.passes := by
  have := congrArg State.passes h; exact this
theorem State.cores_of_quiet {s t : State} (h : t.quiet = s.quiet) : t.cores = s.cores := by
  have := congrArg State.cores h; exact this
theorem State.ports_of_quiet {s t : State} (h : t.quiet = s.quiet) : t.ports = s.ports := by
  have := congrArg State.ports h; exact this
theorem State.coord_of_quiet {s t : State} (h : t.quiet = s.quiet) : t.coord = s.coord := by
  have := congrArg State.coord h; exact this
theorem State.clearing_of_quiet {s t : State} (h : t.quiet = s.quiet) : t.clearing = s.clearing := by
  have := congrArg State.clearing h; exact this
theorem State.codes_of_quiet {s t : State} (h : t.quiet = s.quiet) : t.codes = s.codes := by
  have := congrArg State.codes h; exact this
theorem State.written_of_quiet {s t : State} (h : t.quiet = s.quiet) : t.written = s.written := by
  have := congrArg State.written h; exact this
theorem State.gcause_of_quiet {s t : State} (h : t.quiet = s.quiet) : t.gcause = s.gcause := by
  have := congrArg State.gcause h; exact this
theorem State.once_of_quiet {s t : State} (h : t.quiet = s.quiet) : t.once = s.once := by
  have := congrArg State.once h; exact this
theorem State.pwrc_of_quiet {s t : State} (h : t.quiet = s.quiet) : t.pwrc = s.pwrc := by
  have := congrArg State.pwrc h; exact this
theorem State.boot_of_quiet {s t : State} (h : t.quiet = s.quiet) : t.boot = s.boot := by
  have := congrArg State.boot h; exact this
theorem State.bist_of_quiet {s t : State} (h : t.quiet = s.quiet) : t.bist = s.bist := by
  have := congrArg State.bist h; exact this
theorem State.tap_of_quiet {s t : State} (h : t.quiet = s.quiet) : t.tap = s.tap := by
  have := congrArg State.tap h; exact this
theorem State.pins_of_quiet {s t : State} (h : t.quiet = s.quiet) : t.pins = s.pins := by
  have := congrArg State.pins h; exact this
theorem State.mcl_wanted_of_quiet {s t : State} (h : t.quiet = s.quiet) : t.mcl.wanted = s.mcl.wanted := by
  have := congrArg (fun s : State => s.mcl.wanted) h; exact this
theorem State.mcl_snoop_of_quiet {s t : State} (h : t.quiet = s.quiet) : t.mcl.snoop = s.mcl.snoop := by
  have := congrArg (fun s : State => s.mcl.snoop) h; exact this
theorem State.mcl_link_of_quiet {s t : State} (h : t.quiet = s.quiet) : t.mcl.link = s.mcl.link := by
  have := congrArg (fun s : State => s.mcl.link) h; exact this
theorem State.mcl_out_of_quiet {s t : State} (h : t.quiet = s.quiet) : t.mcl.out = s.mcl.out := by
  have := congrArg (fun s : State => s.mcl.out) h; exact this
theorem State.mcl_uw_of_quiet {s t : State} (h : t.quiet = s.quiet) : t.mcl.uw = s.mcl.uw := by
  have := congrArg (fun s : State => s.mcl.uw) h; exact this
theorem State.mcl_inbox_of_quiet {s t : State} (h : t.quiet = s.quiet) : t.mcl.inbox = s.mcl.inbox := by
  have := congrArg (fun s : State => s.mcl.inbox) h; exact this
theorem State.mcl_shared_of_quiet {s t : State} (h : t.quiet = s.quiet) : t.mcl.shared = s.mcl.shared := by
  have := congrArg (fun s : State => s.mcl.shared) h; exact this
theorem State.mcl_windows_of_quiet {s t : State} (h : t.quiet = s.quiet) : t.mcl.windows = s.mcl.windows := by
  have := congrArg (fun s : State => s.mcl.windows) h; exact this

/-! ### Events raised once per ticket -/

theorem State.raiseOnce_quiet (s : State) (unit code dom d0 d1 d2 : Nat) :
    (s.raiseOnce unit code dom d0 d1 d2).quiet = { s.quiet with once := (s.raiseOnce unit code dom d0 d1 d2).once } := by
  unfold State.raiseOnce
  split
  · rfl
  · have h := State.raise_quiet { s with once := (code, unit, s.ticket) :: s.once } code dom d0 d1 d2
    rw [h, State.once_of_quiet h]
    rfl

theorem State.Canonical.raiseOnce {s : State} (h : s.Canonical) (unit code dom d0 d1 d2 : Nat) :
    (s.raiseOnce unit code dom d0 d1 d2).Canonical := by
  unfold State.raiseOnce
  split
  · exact h
  · exact State.Canonical.raise (s := { s with once := (code, unit, s.ticket) :: s.once }) h _ _ _ _ _

/-! ### What counting and raising leave as it was -/

@[simp] theorem State.occ_pending (s : State) (dom i n : Nat) : (s.occ dom i n).pending = s.pending := State.pending_of_quiet (s.occ_quiet dom i n)
@[simp] theorem State.occ_free (s : State) (dom i n : Nat) : (s.occ dom i n).free = s.free := State.free_of_quiet (s.occ_quiet dom i n)
@[simp] theorem State.occ_ticket (s : State) (dom i n : Nat) : (s.occ dom i n).ticket = s.ticket := State.ticket_of_quiet (s.occ_quiet dom i n)
@[simp] theorem State.occ_stamp (s : State) (dom i n : Nat) : (s.occ dom i n).stamp = s.stamp := State.stamp_of_quiet (s.occ_quiet dom i n)
@[simp] theorem State.occ_mem (s : State) (dom i n : Nat) : (s.occ dom i n).mem = s.mem := State.mem_of_quiet (s.occ_quiet dom i n)
@[simp] theorem State.occ_poison (s : State) (dom i n : Nat) : (s.occ dom i n).poison = s.poison := State.poison_of_quiet (s.occ_quiet dom i n)
@[simp] theorem State.occ_table (s : State) (dom i n : Nat) : (s.occ dom i n).table = s.table := State.table_of_quiet (s.occ_quiet dom i n)
@[simp] theorem State.occ_rot (s : State) (dom i n : Nat) : (s.occ dom i n).rot = s.rot := State.rot_of_quiet (s.occ_quiet dom i n)
@[simp] theorem State.occ_live (s : State) (dom i n : Nat) : (s.occ dom i n).live = s.live := State.live_of_quiet (s.occ_quiet dom i n)
@[simp] theorem State.occ_truss (s : State) (dom i n : Nat) : (s.occ dom i n).truss = s.truss := State.truss_of_quiet (s.occ_quiet dom i n)
@[simp] theorem State.occ_spars (s : State) (dom i n : Nat) : (s.occ dom i n).spars = s.spars := State.spars_of_quiet (s.occ_quiet dom i n)
@[simp] theorem State.occ_ga (s : State) (dom i n : Nat) : (s.occ dom i n).ga = s.ga := State.ga_of_quiet (s.occ_quiet dom i n)
@[simp] theorem State.occ_loft (s : State) (dom i n : Nat) : (s.occ dom i n).loft = s.loft := State.loft_of_quiet (s.occ_quiet dom i n)
@[simp] theorem State.occ_obreqs (s : State) (dom i n : Nat) : (s.occ dom i n).obreqs = s.obreqs := State.obreqs_of_quiet (s.occ_quiet dom i n)
@[simp] theorem State.occ_jobs (s : State) (dom i n : Nat) : (s.occ dom i n).jobs = s.jobs := State.jobs_of_quiet (s.occ_quiet dom i n)
@[simp] theorem State.occ_lastGen (s : State) (dom i n : Nat) : (s.occ dom i n).lastGen = s.lastGen := State.lastGen_of_quiet (s.occ_quiet dom i n)
@[simp] theorem State.occ_joins (s : State) (dom i n : Nat) : (s.occ dom i n).joins = s.joins := State.joins_of_quiet (s.occ_quiet dom i n)
@[simp] theorem State.occ_held (s : State) (dom i n : Nat) : (s.occ dom i n).held = s.held := State.held_of_quiet (s.occ_quiet dom i n)
@[simp] theorem State.occ_commit (s : State) (dom i n : Nat) : (s.occ dom i n).commit = s.commit := State.commit_of_quiet (s.occ_quiet dom i n)
@[simp] theorem State.occ_bktWait (s : State) (dom i n : Nat) : (s.occ dom i n).bktWait = s.bktWait := State.bktWait_of_quiet (s.occ_quiet dom i n)
@[simp] theorem State.occ_passes (s : State) (dom i n : Nat) : (s.occ dom i n).passes = s.passes := State.passes_of_quiet (s.occ_quiet dom i n)
@[simp] theorem State.occ_cores (s : State) (dom i n : Nat) : (s.occ dom i n).cores = s.cores := State.cores_of_quiet (s.occ_quiet dom i n)
@[simp] theorem State.occ_ports (s : State) (dom i n : Nat) : (s.occ dom i n).ports = s.ports := State.ports_of_quiet (s.occ_quiet dom i n)
@[simp] theorem State.occ_coord (s : State) (dom i n : Nat) : (s.occ dom i n).coord = s.coord := State.coord_of_quiet (s.occ_quiet dom i n)
@[simp] theorem State.occ_clearing (s : State) (dom i n : Nat) : (s.occ dom i n).clearing = s.clearing := State.clearing_of_quiet (s.occ_quiet dom i n)
@[simp] theorem State.occ_codes (s : State) (dom i n : Nat) : (s.occ dom i n).codes = s.codes := State.codes_of_quiet (s.occ_quiet dom i n)
@[simp] theorem State.occ_written (s : State) (dom i n : Nat) : (s.occ dom i n).written = s.written := State.written_of_quiet (s.occ_quiet dom i n)
@[simp] theorem State.occ_gcause (s : State) (dom i n : Nat) : (s.occ dom i n).gcause = s.gcause := State.gcause_of_quiet (s.occ_quiet dom i n)
@[simp] theorem State.occ_once (s : State) (dom i n : Nat) : (s.occ dom i n).once = s.once := State.once_of_quiet (s.occ_quiet dom i n)
@[simp] theorem State.occ_pwrc (s : State) (dom i n : Nat) : (s.occ dom i n).pwrc = s.pwrc := State.pwrc_of_quiet (s.occ_quiet dom i n)
@[simp] theorem State.occ_boot (s : State) (dom i n : Nat) : (s.occ dom i n).boot = s.boot := State.boot_of_quiet (s.occ_quiet dom i n)
@[simp] theorem State.occ_bist (s : State) (dom i n : Nat) : (s.occ dom i n).bist = s.bist := State.bist_of_quiet (s.occ_quiet dom i n)
@[simp] theorem State.occ_tap (s : State) (dom i n : Nat) : (s.occ dom i n).tap = s.tap := State.tap_of_quiet (s.occ_quiet dom i n)
@[simp] theorem State.occ_pins (s : State) (dom i n : Nat) : (s.occ dom i n).pins = s.pins := State.pins_of_quiet (s.occ_quiet dom i n)
@[simp] theorem State.occ_mcl_wanted (s : State) (dom i n : Nat) : (s.occ dom i n).mcl.wanted = s.mcl.wanted := State.mcl_wanted_of_quiet (s.occ_quiet dom i n)
@[simp] theorem State.occ_mcl_snoop (s : State) (dom i n : Nat) : (s.occ dom i n).mcl.snoop = s.mcl.snoop := State.mcl_snoop_of_quiet (s.occ_quiet dom i n)
@[simp] theorem State.occ_mcl_link (s : State) (dom i n : Nat) : (s.occ dom i n).mcl.link = s.mcl.link := State.mcl_link_of_quiet (s.occ_quiet dom i n)
@[simp] theorem State.occ_mcl_out (s : State) (dom i n : Nat) : (s.occ dom i n).mcl.out = s.mcl.out := State.mcl_out_of_quiet (s.occ_quiet dom i n)
@[simp] theorem State.occ_mcl_uw (s : State) (dom i n : Nat) : (s.occ dom i n).mcl.uw = s.mcl.uw := State.mcl_uw_of_quiet (s.occ_quiet dom i n)
@[simp] theorem State.occ_mcl_inbox (s : State) (dom i n : Nat) : (s.occ dom i n).mcl.inbox = s.mcl.inbox := State.mcl_inbox_of_quiet (s.occ_quiet dom i n)
@[simp] theorem State.occ_mcl_shared (s : State) (dom i n : Nat) : (s.occ dom i n).mcl.shared = s.mcl.shared := State.mcl_shared_of_quiet (s.occ_quiet dom i n)
@[simp] theorem State.occ_mcl_windows (s : State) (dom i n : Nat) : (s.occ dom i n).mcl.windows = s.mcl.windows := State.mcl_windows_of_quiet (s.occ_quiet dom i n)
@[simp] theorem State.common_pending (s : State) (dom i n : Nat) : (s.common dom i n).pending = s.pending := State.pending_of_quiet (s.common_quiet dom i n)
@[simp] theorem State.common_free (s : State) (dom i n : Nat) : (s.common dom i n).free = s.free := State.free_of_quiet (s.common_quiet dom i n)
@[simp] theorem State.common_ticket (s : State) (dom i n : Nat) : (s.common dom i n).ticket = s.ticket := State.ticket_of_quiet (s.common_quiet dom i n)
@[simp] theorem State.common_stamp (s : State) (dom i n : Nat) : (s.common dom i n).stamp = s.stamp := State.stamp_of_quiet (s.common_quiet dom i n)
@[simp] theorem State.common_mem (s : State) (dom i n : Nat) : (s.common dom i n).mem = s.mem := State.mem_of_quiet (s.common_quiet dom i n)
@[simp] theorem State.common_poison (s : State) (dom i n : Nat) : (s.common dom i n).poison = s.poison := State.poison_of_quiet (s.common_quiet dom i n)
@[simp] theorem State.common_table (s : State) (dom i n : Nat) : (s.common dom i n).table = s.table := State.table_of_quiet (s.common_quiet dom i n)
@[simp] theorem State.common_rot (s : State) (dom i n : Nat) : (s.common dom i n).rot = s.rot := State.rot_of_quiet (s.common_quiet dom i n)
@[simp] theorem State.common_live (s : State) (dom i n : Nat) : (s.common dom i n).live = s.live := State.live_of_quiet (s.common_quiet dom i n)
@[simp] theorem State.common_truss (s : State) (dom i n : Nat) : (s.common dom i n).truss = s.truss := State.truss_of_quiet (s.common_quiet dom i n)
@[simp] theorem State.common_spars (s : State) (dom i n : Nat) : (s.common dom i n).spars = s.spars := State.spars_of_quiet (s.common_quiet dom i n)
@[simp] theorem State.common_ga (s : State) (dom i n : Nat) : (s.common dom i n).ga = s.ga := State.ga_of_quiet (s.common_quiet dom i n)
@[simp] theorem State.common_loft (s : State) (dom i n : Nat) : (s.common dom i n).loft = s.loft := State.loft_of_quiet (s.common_quiet dom i n)
@[simp] theorem State.common_obreqs (s : State) (dom i n : Nat) : (s.common dom i n).obreqs = s.obreqs := State.obreqs_of_quiet (s.common_quiet dom i n)
@[simp] theorem State.common_jobs (s : State) (dom i n : Nat) : (s.common dom i n).jobs = s.jobs := State.jobs_of_quiet (s.common_quiet dom i n)
@[simp] theorem State.common_lastGen (s : State) (dom i n : Nat) : (s.common dom i n).lastGen = s.lastGen := State.lastGen_of_quiet (s.common_quiet dom i n)
@[simp] theorem State.common_joins (s : State) (dom i n : Nat) : (s.common dom i n).joins = s.joins := State.joins_of_quiet (s.common_quiet dom i n)
@[simp] theorem State.common_held (s : State) (dom i n : Nat) : (s.common dom i n).held = s.held := State.held_of_quiet (s.common_quiet dom i n)
@[simp] theorem State.common_commit (s : State) (dom i n : Nat) : (s.common dom i n).commit = s.commit := State.commit_of_quiet (s.common_quiet dom i n)
@[simp] theorem State.common_bktWait (s : State) (dom i n : Nat) : (s.common dom i n).bktWait = s.bktWait := State.bktWait_of_quiet (s.common_quiet dom i n)
@[simp] theorem State.common_passes (s : State) (dom i n : Nat) : (s.common dom i n).passes = s.passes := State.passes_of_quiet (s.common_quiet dom i n)
@[simp] theorem State.common_cores (s : State) (dom i n : Nat) : (s.common dom i n).cores = s.cores := State.cores_of_quiet (s.common_quiet dom i n)
@[simp] theorem State.common_ports (s : State) (dom i n : Nat) : (s.common dom i n).ports = s.ports := State.ports_of_quiet (s.common_quiet dom i n)
@[simp] theorem State.common_coord (s : State) (dom i n : Nat) : (s.common dom i n).coord = s.coord := State.coord_of_quiet (s.common_quiet dom i n)
@[simp] theorem State.common_clearing (s : State) (dom i n : Nat) : (s.common dom i n).clearing = s.clearing := State.clearing_of_quiet (s.common_quiet dom i n)
@[simp] theorem State.common_codes (s : State) (dom i n : Nat) : (s.common dom i n).codes = s.codes := State.codes_of_quiet (s.common_quiet dom i n)
@[simp] theorem State.common_written (s : State) (dom i n : Nat) : (s.common dom i n).written = s.written := State.written_of_quiet (s.common_quiet dom i n)
@[simp] theorem State.common_gcause (s : State) (dom i n : Nat) : (s.common dom i n).gcause = s.gcause := State.gcause_of_quiet (s.common_quiet dom i n)
@[simp] theorem State.common_once (s : State) (dom i n : Nat) : (s.common dom i n).once = s.once := State.once_of_quiet (s.common_quiet dom i n)
@[simp] theorem State.common_pwrc (s : State) (dom i n : Nat) : (s.common dom i n).pwrc = s.pwrc := State.pwrc_of_quiet (s.common_quiet dom i n)
@[simp] theorem State.common_boot (s : State) (dom i n : Nat) : (s.common dom i n).boot = s.boot := State.boot_of_quiet (s.common_quiet dom i n)
@[simp] theorem State.common_bist (s : State) (dom i n : Nat) : (s.common dom i n).bist = s.bist := State.bist_of_quiet (s.common_quiet dom i n)
@[simp] theorem State.common_tap (s : State) (dom i n : Nat) : (s.common dom i n).tap = s.tap := State.tap_of_quiet (s.common_quiet dom i n)
@[simp] theorem State.common_pins (s : State) (dom i n : Nat) : (s.common dom i n).pins = s.pins := State.pins_of_quiet (s.common_quiet dom i n)
@[simp] theorem State.common_mcl_wanted (s : State) (dom i n : Nat) : (s.common dom i n).mcl.wanted = s.mcl.wanted := State.mcl_wanted_of_quiet (s.common_quiet dom i n)
@[simp] theorem State.common_mcl_snoop (s : State) (dom i n : Nat) : (s.common dom i n).mcl.snoop = s.mcl.snoop := State.mcl_snoop_of_quiet (s.common_quiet dom i n)
@[simp] theorem State.common_mcl_link (s : State) (dom i n : Nat) : (s.common dom i n).mcl.link = s.mcl.link := State.mcl_link_of_quiet (s.common_quiet dom i n)
@[simp] theorem State.common_mcl_out (s : State) (dom i n : Nat) : (s.common dom i n).mcl.out = s.mcl.out := State.mcl_out_of_quiet (s.common_quiet dom i n)
@[simp] theorem State.common_mcl_uw (s : State) (dom i n : Nat) : (s.common dom i n).mcl.uw = s.mcl.uw := State.mcl_uw_of_quiet (s.common_quiet dom i n)
@[simp] theorem State.common_mcl_inbox (s : State) (dom i n : Nat) : (s.common dom i n).mcl.inbox = s.mcl.inbox := State.mcl_inbox_of_quiet (s.common_quiet dom i n)
@[simp] theorem State.common_mcl_shared (s : State) (dom i n : Nat) : (s.common dom i n).mcl.shared = s.mcl.shared := State.mcl_shared_of_quiet (s.common_quiet dom i n)
@[simp] theorem State.common_mcl_windows (s : State) (dom i n : Nat) : (s.common dom i n).mcl.windows = s.mcl.windows := State.mcl_windows_of_quiet (s.common_quiet dom i n)
@[simp] theorem State.raise_pending (s : State) (code dom d0 d1 d2 : Nat) : (s.raise code dom d0 d1 d2).pending = s.pending := State.pending_of_quiet (s.raise_quiet code dom d0 d1 d2)
@[simp] theorem State.raise_free (s : State) (code dom d0 d1 d2 : Nat) : (s.raise code dom d0 d1 d2).free = s.free := State.free_of_quiet (s.raise_quiet code dom d0 d1 d2)
@[simp] theorem State.raise_ticket (s : State) (code dom d0 d1 d2 : Nat) : (s.raise code dom d0 d1 d2).ticket = s.ticket := State.ticket_of_quiet (s.raise_quiet code dom d0 d1 d2)
@[simp] theorem State.raise_stamp (s : State) (code dom d0 d1 d2 : Nat) : (s.raise code dom d0 d1 d2).stamp = s.stamp := State.stamp_of_quiet (s.raise_quiet code dom d0 d1 d2)
@[simp] theorem State.raise_mem (s : State) (code dom d0 d1 d2 : Nat) : (s.raise code dom d0 d1 d2).mem = s.mem := State.mem_of_quiet (s.raise_quiet code dom d0 d1 d2)
@[simp] theorem State.raise_poison (s : State) (code dom d0 d1 d2 : Nat) : (s.raise code dom d0 d1 d2).poison = s.poison := State.poison_of_quiet (s.raise_quiet code dom d0 d1 d2)
@[simp] theorem State.raise_table (s : State) (code dom d0 d1 d2 : Nat) : (s.raise code dom d0 d1 d2).table = s.table := State.table_of_quiet (s.raise_quiet code dom d0 d1 d2)
@[simp] theorem State.raise_rot (s : State) (code dom d0 d1 d2 : Nat) : (s.raise code dom d0 d1 d2).rot = s.rot := State.rot_of_quiet (s.raise_quiet code dom d0 d1 d2)
@[simp] theorem State.raise_live (s : State) (code dom d0 d1 d2 : Nat) : (s.raise code dom d0 d1 d2).live = s.live := State.live_of_quiet (s.raise_quiet code dom d0 d1 d2)
@[simp] theorem State.raise_truss (s : State) (code dom d0 d1 d2 : Nat) : (s.raise code dom d0 d1 d2).truss = s.truss := State.truss_of_quiet (s.raise_quiet code dom d0 d1 d2)
@[simp] theorem State.raise_spars (s : State) (code dom d0 d1 d2 : Nat) : (s.raise code dom d0 d1 d2).spars = s.spars := State.spars_of_quiet (s.raise_quiet code dom d0 d1 d2)
@[simp] theorem State.raise_ga (s : State) (code dom d0 d1 d2 : Nat) : (s.raise code dom d0 d1 d2).ga = s.ga := State.ga_of_quiet (s.raise_quiet code dom d0 d1 d2)
@[simp] theorem State.raise_loft (s : State) (code dom d0 d1 d2 : Nat) : (s.raise code dom d0 d1 d2).loft = s.loft := State.loft_of_quiet (s.raise_quiet code dom d0 d1 d2)
@[simp] theorem State.raise_obreqs (s : State) (code dom d0 d1 d2 : Nat) : (s.raise code dom d0 d1 d2).obreqs = s.obreqs := State.obreqs_of_quiet (s.raise_quiet code dom d0 d1 d2)
@[simp] theorem State.raise_jobs (s : State) (code dom d0 d1 d2 : Nat) : (s.raise code dom d0 d1 d2).jobs = s.jobs := State.jobs_of_quiet (s.raise_quiet code dom d0 d1 d2)
@[simp] theorem State.raise_lastGen (s : State) (code dom d0 d1 d2 : Nat) : (s.raise code dom d0 d1 d2).lastGen = s.lastGen := State.lastGen_of_quiet (s.raise_quiet code dom d0 d1 d2)
@[simp] theorem State.raise_joins (s : State) (code dom d0 d1 d2 : Nat) : (s.raise code dom d0 d1 d2).joins = s.joins := State.joins_of_quiet (s.raise_quiet code dom d0 d1 d2)
@[simp] theorem State.raise_held (s : State) (code dom d0 d1 d2 : Nat) : (s.raise code dom d0 d1 d2).held = s.held := State.held_of_quiet (s.raise_quiet code dom d0 d1 d2)
@[simp] theorem State.raise_commit (s : State) (code dom d0 d1 d2 : Nat) : (s.raise code dom d0 d1 d2).commit = s.commit := State.commit_of_quiet (s.raise_quiet code dom d0 d1 d2)
@[simp] theorem State.raise_bktWait (s : State) (code dom d0 d1 d2 : Nat) : (s.raise code dom d0 d1 d2).bktWait = s.bktWait := State.bktWait_of_quiet (s.raise_quiet code dom d0 d1 d2)
@[simp] theorem State.raise_passes (s : State) (code dom d0 d1 d2 : Nat) : (s.raise code dom d0 d1 d2).passes = s.passes := State.passes_of_quiet (s.raise_quiet code dom d0 d1 d2)
@[simp] theorem State.raise_cores (s : State) (code dom d0 d1 d2 : Nat) : (s.raise code dom d0 d1 d2).cores = s.cores := State.cores_of_quiet (s.raise_quiet code dom d0 d1 d2)
@[simp] theorem State.raise_ports (s : State) (code dom d0 d1 d2 : Nat) : (s.raise code dom d0 d1 d2).ports = s.ports := State.ports_of_quiet (s.raise_quiet code dom d0 d1 d2)
@[simp] theorem State.raise_coord (s : State) (code dom d0 d1 d2 : Nat) : (s.raise code dom d0 d1 d2).coord = s.coord := State.coord_of_quiet (s.raise_quiet code dom d0 d1 d2)
@[simp] theorem State.raise_clearing (s : State) (code dom d0 d1 d2 : Nat) : (s.raise code dom d0 d1 d2).clearing = s.clearing := State.clearing_of_quiet (s.raise_quiet code dom d0 d1 d2)
@[simp] theorem State.raise_codes (s : State) (code dom d0 d1 d2 : Nat) : (s.raise code dom d0 d1 d2).codes = s.codes := State.codes_of_quiet (s.raise_quiet code dom d0 d1 d2)
@[simp] theorem State.raise_written (s : State) (code dom d0 d1 d2 : Nat) : (s.raise code dom d0 d1 d2).written = s.written := State.written_of_quiet (s.raise_quiet code dom d0 d1 d2)
@[simp] theorem State.raise_gcause (s : State) (code dom d0 d1 d2 : Nat) : (s.raise code dom d0 d1 d2).gcause = s.gcause := State.gcause_of_quiet (s.raise_quiet code dom d0 d1 d2)
@[simp] theorem State.raise_once (s : State) (code dom d0 d1 d2 : Nat) : (s.raise code dom d0 d1 d2).once = s.once := State.once_of_quiet (s.raise_quiet code dom d0 d1 d2)
@[simp] theorem State.raise_pwrc (s : State) (code dom d0 d1 d2 : Nat) : (s.raise code dom d0 d1 d2).pwrc = s.pwrc := State.pwrc_of_quiet (s.raise_quiet code dom d0 d1 d2)
@[simp] theorem State.raise_boot (s : State) (code dom d0 d1 d2 : Nat) : (s.raise code dom d0 d1 d2).boot = s.boot := State.boot_of_quiet (s.raise_quiet code dom d0 d1 d2)
@[simp] theorem State.raise_bist (s : State) (code dom d0 d1 d2 : Nat) : (s.raise code dom d0 d1 d2).bist = s.bist := State.bist_of_quiet (s.raise_quiet code dom d0 d1 d2)
@[simp] theorem State.raise_tap (s : State) (code dom d0 d1 d2 : Nat) : (s.raise code dom d0 d1 d2).tap = s.tap := State.tap_of_quiet (s.raise_quiet code dom d0 d1 d2)
@[simp] theorem State.raise_pins (s : State) (code dom d0 d1 d2 : Nat) : (s.raise code dom d0 d1 d2).pins = s.pins := State.pins_of_quiet (s.raise_quiet code dom d0 d1 d2)
@[simp] theorem State.raise_mcl_wanted (s : State) (code dom d0 d1 d2 : Nat) : (s.raise code dom d0 d1 d2).mcl.wanted = s.mcl.wanted := State.mcl_wanted_of_quiet (s.raise_quiet code dom d0 d1 d2)
@[simp] theorem State.raise_mcl_snoop (s : State) (code dom d0 d1 d2 : Nat) : (s.raise code dom d0 d1 d2).mcl.snoop = s.mcl.snoop := State.mcl_snoop_of_quiet (s.raise_quiet code dom d0 d1 d2)
@[simp] theorem State.raise_mcl_link (s : State) (code dom d0 d1 d2 : Nat) : (s.raise code dom d0 d1 d2).mcl.link = s.mcl.link := State.mcl_link_of_quiet (s.raise_quiet code dom d0 d1 d2)
@[simp] theorem State.raise_mcl_out (s : State) (code dom d0 d1 d2 : Nat) : (s.raise code dom d0 d1 d2).mcl.out = s.mcl.out := State.mcl_out_of_quiet (s.raise_quiet code dom d0 d1 d2)
@[simp] theorem State.raise_mcl_uw (s : State) (code dom d0 d1 d2 : Nat) : (s.raise code dom d0 d1 d2).mcl.uw = s.mcl.uw := State.mcl_uw_of_quiet (s.raise_quiet code dom d0 d1 d2)
@[simp] theorem State.raise_mcl_inbox (s : State) (code dom d0 d1 d2 : Nat) : (s.raise code dom d0 d1 d2).mcl.inbox = s.mcl.inbox := State.mcl_inbox_of_quiet (s.raise_quiet code dom d0 d1 d2)
@[simp] theorem State.raise_mcl_shared (s : State) (code dom d0 d1 d2 : Nat) : (s.raise code dom d0 d1 d2).mcl.shared = s.mcl.shared := State.mcl_shared_of_quiet (s.raise_quiet code dom d0 d1 d2)
@[simp] theorem State.raise_mcl_windows (s : State) (code dom d0 d1 d2 : Nat) : (s.raise code dom d0 d1 d2).mcl.windows = s.mcl.windows := State.mcl_windows_of_quiet (s.raise_quiet code dom d0 d1 d2)

end Sys2Proof.Machine
end

