-- ==== Sys2Proof/Laws/Memory.lean ====
section
/-! SUPPORT. Laws of device memory and of table space: a read after a write, what a write leaves alone, and the canonical form that every
memory operation keeps. -/
namespace Sys2Proof.Machine

/-! ### The canonical form -/

theorem State.Canonical.mem {s : State} (h : s.Canonical) : Memory.wf s.mem = true := h.1
theorem State.Canonical.poison {s : State} (h : s.Canonical) : Sparse.wf false s.poison = true := h.2.1
theorem State.Canonical.table {s : State} (h : s.Canonical) : Sparse.wf (0 : Word64) s.table = true := h.2.2.1
theorem State.Canonical.rot {s : State} (h : s.Canonical) : Sparse.wf none s.rot = true := h.2.2.2.1
theorem State.Canonical.regs {s : State} (h : s.Canonical) : Sparse.wf none s.regs = true := h.2.2.2.2

/-- The form depends on the five stores alone. -/
theorem State.Canonical.congr {s t : State} (h : s.Canonical) (hm : t.mem = s.mem) (hp : t.poison = s.poison) (ht : t.table = s.table)
    (hr : t.rot = s.rot) (hg : t.regs = s.regs) : t.Canonical := by
  unfold State.Canonical; rw [hm, hp, ht, hr, hg]; exact h

theorem State.reset_canonical : State.reset.Canonical := ⟨rfl, rfl, rfl, rfl, rfl⟩

theorem State.Canonical.mark {s : State} (h : s.Canonical) (u : Nat) (p : Bool) : (s.mark u p).Canonical :=
  ⟨h.1, Sparse.wf_put false _ _ h.2.1, h.2.2⟩

theorem State.Canonical.putByte {s : State} (h : s.Canonical) (a : Nat) (v : Byte) : (s.putByte a v).Canonical := by
  unfold State.putByte
  split
  · exact h
  · exact ⟨Sparse.wf_put emptyByte _ _ h.1, h.2⟩

theorem State.Canonical.putBytes {s : State} (h : s.Canonical) (a : Nat) (l : List Byte) : (s.putBytes a l).Canonical := by
  induction l generalizing s a with
  | nil => exact h
  | cons v l ih => exact ih (h.putByte a v) (a + 1)

theorem State.Canonical.each {α : Type} {s : State} (h : s.Canonical) (l : List α) (f : State → α → State)
    (hf : ∀ s, ∀ x ∈ l, s.Canonical → (f s x).Canonical) : (s.each l f).Canonical := State.each_induct State.Canonical l f s h hf

theorem State.Canonical.writeRaw {s : State} (h : s.Canonical) (a : Nat) (l : List Byte) : (s.writeRaw a l).Canonical :=
  (h.each _ _ fun _ _ _ h => h.mark _ _).putBytes a l

/-- The note of a write changes no store. -/
theorem State.noteWrite_eq (s : State) (a n writer : Nat) : ∃ l, s.noteWrite a n writer = { s with written := l } := by
  unfold State.noteWrite
  split
  · exact ⟨_, rfl⟩
  · exact ⟨_, rfl⟩

@[simp] theorem State.mem_noteWrite (s : State) (a n writer : Nat) : (s.noteWrite a n writer).mem = s.mem := by
  obtain ⟨l, h⟩ := s.noteWrite_eq a n writer; rw [h]

@[simp] theorem State.poison_noteWrite (s : State) (a n writer : Nat) : (s.noteWrite a n writer).poison = s.poison := by
  obtain ⟨l, h⟩ := s.noteWrite_eq a n writer; rw [h]

@[simp] theorem State.byte_noteWrite (s : State) (a n writer b : Nat) : (s.noteWrite a n writer).byte b = s.byte b := by simp [State.byte]

theorem State.Canonical.noteWrite {s : State} (h : s.Canonical) (a n writer : Nat) : (s.noteWrite a n writer).Canonical := by
  obtain ⟨l, he⟩ := s.noteWrite_eq a n writer
  rw [he]; exact h

theorem State.Canonical.write {s : State} (h : s.Canonical) (a : Nat) (l : List Byte) : (s.write a l).Canonical :=
  (h.writeRaw a l).noteWrite ..

theorem State.Canonical.writePoison {s : State} (h : s.Canonical) (a : Nat) (l : List Byte) : (s.writePoison a l).Canonical :=
  (h.write a l).each _ _ fun _ _ _ h => h.mark _ _

theorem State.Canonical.spoil {s : State} (h : s.Canonical) (c : TrapCause) (l : List Span) : (s.spoil c l).Canonical := by
  unfold State.spoil
  split
  · exact h.each _ _ fun s x _ h => State.Canonical.write (s := s.drawFree.2) (h.congr rfl rfl rfl rfl rfl) x.a (leBytes s.drawFree.1 x.n)
  · exact h

theorem State.Canonical.smear {s : State} (h : s.Canonical) (reads writes : List Span) : (s.smear reads writes).Canonical :=
  h.each _ _ fun s x _ h => State.Canonical.write (s := s.drawFree.2) (h.congr rfl rfl rfl rfl rfl) x.a (leBytes s.drawFree.1 x.n)

theorem State.Canonical.writeNat {s : State} (h : s.Canonical) (a x n : Nat) : (s.writeNat a x n).Canonical := h.write a _

theorem State.Canonical.writeRotate {s : State} (h : s.Canonical) (a : Nat) (l : List Byte) : (s.writeRotate a l).Canonical :=
  h.each _ _ fun _ _ _ h => h.putByte _ _

theorem State.Canonical.writeVia {s : State} (h : s.Canonical) (a : Nat) (l : List Byte) : (s.writeVia a l).Canonical := by
  unfold State.writeVia
  simp only
  split
  · exact h.write a l
  · exact h.putBytes _ _
  · exact h.putBytes _ _
  · exact h.writeRotate _ _

theorem State.Canonical.wipe {s : State} (h : s.Canonical) (lo hi : Nat) : (s.wipe lo hi).Canonical :=
  ⟨Sparse.wf_clear _ lo hi h.1, Sparse.wf_clear _ lo hi h.2.1, h.2.2⟩

theorem State.Canonical.setTable {s : State} (h : s.Canonical) (k v : Nat) : (s.setTable k v).Canonical :=
  ⟨h.1, h.2.1, Sparse.wf_put 0 _ _ h.2.2.1, h.2.2.2⟩

theorem State.Canonical.setTableBits {s : State} (h : s.Canonical) (k lo w v : Nat) : (s.setTableBits k lo w v).Canonical := h.setTable ..

theorem State.Canonical.want {s : State} (h : s.Canonical) (l : List Nat) : (s.want l).Canonical := by
  unfold State.want; split <;> exact h

theorem State.Canonical.memUncorr {s : State} (h : s.Canonical) (u : Nat) : (s.memUncorr u).Canonical := by
  unfold State.memUncorr
  refine State.Canonical.raise ?_ ..
  split
  · exact ((((h.orReg ..).setRegRaw ..).setRegRaw ..).setRegRaw ..).occ ..
  · exact (h.orReg ..).occ ..
  · exact (h.orReg ..).occ ..
  · exact (h.orReg ..).occ ..
  · exact h

theorem State.Canonical.touchLine {s : State} (h : s.Canonical) (line : Nat) (dirty alloc : Bool) : (s.touchLine line dirty alloc).Canonical := by
  unfold State.touchLine
  split
  · simp only
    split
    · exact h
    · split
      · exact State.Canonical.occ (s := s.modLoft _ _) h ..
      · have h1 := h.occ (32 + ‹Nat›) 1 1
        split
        · exact h1
        · split
          · exact h1
          · split
            · exact State.Canonical.occ (s := (s.occ _ 1).modLoft _ _) h1 ..
            · exact h1
  · exact h

theorem State.Canonical.cross {s : State} (h : s.Canonical) (m : Mover) (x : Span) : (s.cross m x).Canonical := by
  unfold State.cross
  simp only
  split
  · exact h
  · exact h.each _ _ fun _ _ _ h => h.lath ..

theorem State.Canonical.touch {s : State} (h : s.Canonical) (m : Mover) (l : List Span) (dirty alloc : Bool) :
    (s.touch m l dirty alloc).Canonical := by
  refine h.each _ _ fun s x _ h => ?_
  split
  · exact h
  · exact (h.cross m x).each _ _ fun _ _ _ h => h.touchLine ..

theorem State.Canonical.stream {s : State} (h : s.Canonical) (m : Mover) (l : List Span) : (s.stream m l).Canonical := by
  refine h.each _ _ fun s x _ h => ?_
  split
  · exact h
  · exact (h.cross m x).each _ _ fun _ _ _ h => h.touchLine ..

theorem State.Canonical.forRead {s : State} (h : s.Canonical) (l : List Span) (m : Mover) : (s.forRead l m).Canonical :=
  (h.want _).touch ..

theorem State.Canonical.forWrite {s : State} (h : s.Canonical) (l : List Span) (m : Mover) : (s.forWrite l m).Canonical :=
  (h.want _).touch ..

theorem State.Canonical.store {s : State} (h : s.Canonical) (a : Nat) (bs : List Byte) : (s.store a bs).Canonical :=
  (h.forWrite ..).write ..

theorem State.Canonical.memCorr {s : State} (h : s.Canonical) (a : Nat) : (s.memCorr a).Canonical := by
  unfold State.memCorr
  simp only
  split
  · exact (h.orReg ..).occ ..
  · exact (h.orReg ..).occ ..
  · exact (h.orReg ..).occ ..
  · exact (h.orReg ..).occ ..
  · exact h

theorem State.Canonical.corrected {s : State} (h : s.Canonical) (data : LineData) (l : List Span) : (s.corrected data l).Canonical := by
  unfold State.corrected
  split
  · split
    · exact h.memCorr _
    · exact h
  · exact h

theorem State.Canonical.storeBucket {s : State} (h : s.Canonical) (pre : Bool) (a : Nat) (bs : List Byte) : (s.storeBucket pre a bs).Canonical :=
  ((h.want _).write ..).touch ..

theorem State.Canonical.consume {s : State} (h : s.Canonical) (l : List Span) : (s.consume l).1.Canonical := by
  unfold State.consume
  split
  · exact h
  · exact (h.want _).each _ _ fun _ _ _ h => h.memUncorr _

theorem State.Canonical.copyMem {s : State} (h : s.Canonical) (src dst n : Nat) : (s.copyMem src dst n).Canonical :=
  ((((h.forRead ..).forWrite ..).each _ _ fun _ _ _ h => h.memUncorr _).write _ _).each _ _ fun _ _ _ h =>
    h.each _ _ fun _ _ _ h => h.mark _ _

theorem State.Canonical.publish {s : State} (h : s.Canonical) (n buf : Nat) : (s.publish n buf).Canonical := by
  unfold State.publish
  simp only
  split
  · exact h
  · exact h.copyMem ..

/-! ### Reads after writes -/

theorem State.byte_putByte (s : State) (hm : Memory.wf s.mem = true) (a b : Nat) (v : Byte) :
    (s.putByte a v).byte b = if b = a ∧ s.poisonAt a = false then v else s.byte b := by
  unfold State.putByte State.byte
  split
  · next h => simp [h]
  · next h =>
    simp only [Bool.not_eq_true] at h
    simp only [h, and_true]
    exact Sparse.get_put emptyByte a b v hm

theorem State.putByte_wf (s : State) (hm : Memory.wf s.mem = true) (a : Nat) (v : Byte) : Memory.wf (s.putByte a v).mem = true := by
  unfold State.putByte
  split
  · exact hm
  · exact Sparse.wf_put emptyByte _ _ hm

@[simp] theorem State.poison_putByte (s : State) (a : Nat) (v : Byte) : (s.putByte a v).poison = s.poison := by
  unfold State.putByte; split <;> rfl

theorem State.poisonAt_putByte (s : State) (a b : Nat) (v : Byte) : (s.putByte a v).poisonAt b = s.poisonAt b := by
  simp [State.poisonAt]

/-- Storing a list of bytes changes no byte outside it. -/
theorem State.byte_putBytes_outside (s : State) (hm : Memory.wf s.mem = true) (a : Nat) (l : List Byte) (b : Nat)
    (h : b < a ∨ a + l.length ≤ b) : (s.putBytes a l).byte b = s.byte b := by
  induction l generalizing s a with
  | nil => rfl
  | cons v l ih =>
    simp only [List.length_cons] at h
    rw [State.putBytes, ih _ (s.putByte_wf hm a v) _ (by omega), State.byte_putByte _ hm, if_neg (by omega)]

/-- Where no byte's unit is poisoned, every byte stored reads back. -/
theorem State.byte_putBytes_inside (s : State) (hm : Memory.wf s.mem = true) (a : Nat) (l : List Byte)
    (hp : ∀ i, i < l.length → s.poisonAt (a + i) = false) (i : Nat) (h : i < l.length) :
    (s.putBytes a l).byte (a + i) = l.getD i 0 := by
  induction l generalizing s a i with
  | nil => simp at h
  | cons v l ih =>
    rw [State.putBytes]
    cases i with
    | zero =>
      rw [State.byte_putBytes_outside _ (s.putByte_wf hm a v) _ _ _ (by omega), State.byte_putByte _ hm]
      have := hp 0 (by simp)
      simp only [Nat.add_zero] at this
      simp [this]
    | succ i =>
      simp only [List.length_cons] at h
      have := ih (s.putByte a v) (s.putByte_wf hm a v) (a + 1) (fun j hj => by
        rw [State.poisonAt_putByte, Nat.add_assoc]; exact hp (1 + j) (by simp; omega)) i (by omega)
      rw [show a + (i + 1) = a + 1 + i by omega, this]
      simp

@[simp] theorem State.mem_mark_each (s : State) (l : List Nat) (p : Bool) : (s.each l fun s u => s.mark u p).mem = s.mem :=
  State.each_induct (·.mem = s.mem) l _ s rfl fun _ _ _ h => h

/-- A write changes no byte outside its range. -/
theorem State.write_keepsOutside (s : State) (hm : Memory.wf s.mem = true) (a : Nat) (l : List Byte) :
    s.KeepsOutside (s.write a l) [{ a, n := l.length }] := by
  intro b hb
  have h := hb { a, n := l.length } (by simp)
  unfold State.write
  rw [State.byte_noteWrite]
  unfold State.writeRaw
  rw [State.byte_putBytes_outside _ (by simpa using hm) _ _ _ h]
  simp [State.byte]

/-! ### Places that keep what they kept -/

theorem State.KeepsOutside.refl (s : State) (l : List Span) : s.KeepsOutside s l := fun _ _ => rfl

theorem State.KeepsOutside.trans {s t u : State} {l : List Span} (h : s.KeepsOutside t l) (h' : t.KeepsOutside u l) : s.KeepsOutside u l :=
  fun a ha => (h' a ha).trans (h a ha)

theorem State.KeepsOutside.mono {s t : State} {l l' : List Span} (h : s.KeepsOutside t l) (hl : ∀ x ∈ l, x ∈ l') : s.KeepsOutside t l' :=
  fun a ha => h a fun x hx => ha x (hl x hx)

theorem State.KeepsOutside.of_mem {s t : State} (h : t.mem = s.mem) (l : List Span) : s.KeepsOutside t l :=
  fun a _ => by simp [State.byte, h]

/-! ### Table space -/

theorem State.tword_setTable (s : State) (h : Sparse.wf (0 : Word64) s.table = true) (k j v : Nat) (hv : v < 2 ^ 64) :
    (s.setTable k v).tword j = if j = k then v else s.tword j := by
  unfold State.tword State.setTable
  simp only
  rw [Sparse.get_put 0 k j _ h]
  split
  · simp only [BitVec.toNat_ofNat]; exact Nat.mod_eq_of_lt hv
  · rfl

/-! ### Commands that meet lines of the host -/

@[simp] theorem State.want_nil (s : State) : s.want [] = s := rfl

/-- A command that meets no line of the host has its effect. -/
theorem waitRecall_next (s t : State) (h : t.mcl.wanted = []) : waitRecall s (.next t) = .next t := by simp [waitRecall, h]

/-- One that does only recalls the lines. -/
theorem waitRecall_recall (s t : State) (h : t.mcl.wanted ≠ []) : waitRecall s (.next t) = .next (s.recall t.mcl.wanted) := by
  simp [waitRecall, h]

/-- What waits for a recall answers a next state, and no fault or refusal comes of it. -/
theorem waitRecall_isNext (s t : State) : ∃ u, waitRecall s (.next t) = .next u := by
  by_cases h : t.mcl.wanted = []
  · exact ⟨_, waitRecall_next s t h⟩
  · exact ⟨_, waitRecall_recall s t h⟩

/-- The shape of most completions: a meaning of the form waitRecall completes with the state that it computes. -/
theorem Completes.of_waitRecall {c : Instr} {s t : State} (h : exec c s = waitRecall s (.next t)) : Completes c s t :=
  ⟨fun hw => h.trans (waitRecall_next s t hw), fun hw => h.trans (waitRecall_recall s t hw)⟩

theorem State.Canonical.recall {s : State} (h : s.Canonical) (l : List Nat) : (s.recall l).Canonical := by
  refine h.each _ _ fun s n _ h => ?_
  split
  · exact State.Canonical.congr (s := s.occ 50 2) (h.occ ..) rfl rfl rfl rfl rfl
  · exact h

/-- Recalling lines changes the link alone, but for reports. -/
theorem State.recall_quiet (s : State) (l : List Nat) : (s.recall l).quiet = { s.quiet with mcl := (s.recall l).quiet.mcl } := by
  refine State.each_induct (fun t => t.quiet = { s.quiet with mcl := t.quiet.mcl }) l _ s rfl fun t n _ h => ?_
  split
  · have hq := t.occ_quiet 50 2 1
    show ((t.occ 50 2).modMcl _).quiet = _
    have : ∀ (u : State) (f : Mcl → Mcl), u.quiet = t.quiet → (u.modMcl f).quiet = { s.quiet with mcl := (u.modMcl f).quiet.mcl } := by
      intro u f hu
      have e : (u.modMcl f).quiet = { u.quiet with mcl := (u.modMcl f).quiet.mcl } := rfl
      rw [e, hu, h]
    exact this _ _ hq
  · exact h

end Sys2Proof.Machine
end

