-- ==== Sys2Proof/Laws/PerInstr.lean ====
section
/-! SUPPORT. One lemma per command of the table, by family of statement. -/
namespace Sys2Proof.Laws.OneRow

/-- No word spells the command: the table gives its row no bits, so it reaches the block by name alone. -/
def Statement (i : Instr) : Prop := ∀ nbits w, decodeTableWord nbits w ≠ some i

theorem fetchLine (d : TrussId) (data : LineData) : Statement (Instr.fetchLine d data) := fun _ _ => nofun
theorem instructionDecode (d : TrussId) : Statement (Instr.instructionDecode d) := fun _ _ => nofun
theorem instructionComplete (d : TrussId) (q : Fin 8) : Statement (Instr.instructionComplete d q) := fun _ _ => nofun
theorem sparSignalArrive (src dst : TrussId) : Statement (Instr.sparSignalArrive src dst) := fun _ _ => nofun
theorem nop (d : TrussId) : Statement (Instr.nop d) := fun _ _ => nofun
theorem syDload (d : TrussId) (data : LineData) : Statement (Instr.syDload d data) := fun _ _ => nofun
theorem syAlat (d : TrussId) : Statement (Instr.syAlat d) := fun _ _ => nofun
theorem syFence (d : TrussId) : Statement (Instr.syFence d) := fun _ _ => nofun
theorem sySpadd (d : TrussId) : Statement (Instr.sySpadd d) := fun _ _ => nofun
theorem sySpclr (d : TrussId) : Statement (Instr.sySpclr d) := fun _ _ => nofun
theorem mmLoadw (d : TrussId) (a : LocalId) : Statement (Instr.mmLoadw d a) := fun _ _ => nofun
theorem mmSwap (d : TrussId) (a : LocalId) : Statement (Instr.mmSwap d a) := fun _ _ => nofun
theorem mmRun (d : TrussId) (a : LocalId) (f : RunFaults) : Statement (Instr.mmRun d a f) := fun _ _ => nofun
theorem mmDefer (d : TrussId) : Statement (Instr.mmDefer d) := fun _ _ => nofun
theorem mmVqdrain (d : TrussId) : Statement (Instr.mmVqdrain d) := fun _ _ => nofun
theorem txCopy (d : TrussId) (f : LocalId) : Statement (Instr.txCopy d f) := fun _ _ => nofun
theorem txTrans (d : TrussId) (f : LocalId) : Statement (Instr.txTrans d f) := fun _ _ => nofun
theorem txQuant (d : TrussId) (f : LocalId) : Statement (Instr.txQuant d f) := fun _ _ => nofun
theorem txStash (d : TrussId) : Statement (Instr.txStash d) := fun _ _ => nofun
theorem txFetch (d : TrussId) : Statement (Instr.txFetch d) := fun _ _ => nofun
theorem txGather (d : TrussId) (data : LineData) : Statement (Instr.txGather d data) := fun _ _ => nofun
theorem rdNormf (d : TrussId) : Statement (Instr.rdNormf d) := fun _ _ => nofun
theorem rdNormb (d : TrussId) : Statement (Instr.rdNormb d) := fun _ _ => nofun
theorem rdSmaxf (d : TrussId) : Statement (Instr.rdSmaxf d) := fun _ _ => nofun
theorem rdSmaxb (d : TrussId) : Statement (Instr.rdSmaxb d) := fun _ _ => nofun
theorem coJoin (d : TrussId) : Statement (Instr.coJoin d) := fun _ _ => nofun
theorem coBucket (d : TrussId) : Statement (Instr.coBucket d) := fun _ _ => nofun
theorem coReduce (d : TrussId) : Statement (Instr.coReduce d) := fun _ _ => nofun
theorem coDispatch (d : TrussId) : Statement (Instr.coDispatch d) := fun _ _ => nofun
theorem coCombine (d : TrussId) : Statement (Instr.coCombine d) := fun _ _ => nofun
theorem coVote (d : TrussId) : Statement (Instr.coVote d) := fun _ _ => nofun
theorem coDrain (d : TrussId) : Statement (Instr.coDrain d) := fun _ _ => nofun
theorem upImm (d : TrussId) : Statement (Instr.upImm d) := fun _ _ => nofun
theorem upPassa (d : TrussId) : Statement (Instr.upPassa d) := fun _ _ => nofun
theorem upPassb (d : TrussId) : Statement (Instr.upPassb d) := fun _ _ => nofun
theorem upCommit (d : TrussId) : Statement (Instr.upCommit d) := fun _ _ => nofun
theorem obPin (d : TrussId) : Statement (Instr.obPin d) := fun _ _ => nofun
theorem obPromote (d : TrussId) : Statement (Instr.obPromote d) := fun _ _ => nofun
theorem obEvict (d : TrussId) : Statement (Instr.obEvict d) := fun _ _ => nofun
theorem obPrefetch (d : TrussId) : Statement (Instr.obPrefetch d) := fun _ _ => nofun
theorem obWait (d : TrussId) : Statement (Instr.obWait d) := fun _ _ => nofun
theorem pcSnap (d : TrussId) : Statement (Instr.pcSnap d) := fun _ _ => nofun
theorem pcFreeze (d : TrussId) : Statement (Instr.pcFreeze d) := fun _ _ => nofun
theorem pcMark (d : TrussId) : Statement (Instr.pcMark d) := fun _ _ => nofun
theorem setp (d : TrussId) : Statement (Instr.setp d) := fun _ _ => nofun
theorem trap (d : TrussId) : Statement (Instr.trap d) := fun _ _ => nofun
theorem sysStop (d : TrussId) : Statement (Instr.sysStop d) := fun _ _ => nofun
theorem runStart (d : TrussId) (r : Requester) : Statement (Instr.runStart d r) := fun _ _ => nofun
theorem runStop (d : TrussId) (r : Requester) : Statement (Instr.runStop d r) := fun _ _ => nofun
theorem abort (d : TrussId) (r : Requester) : Statement (Instr.abort d r) := fun _ _ => nofun
theorem abortComplete (d : TrussId) : Statement (Instr.abortComplete d) := fun _ _ => nofun
theorem spush (d : TrussId) (r : Requester) (n : Half) (mask : Half) : Statement (Instr.spush d r n mask) := fun _ _ => nofun
theorem stashReset (d : TrussId) (r : Requester) : Statement (Instr.stashReset d r) := fun _ _ => nofun
theorem watchdogTick (d : TrussId) : Statement (Instr.watchdogTick d) := fun _ _ => nofun
theorem shadowLoadEnd (i : ArrayId) (c : Fin 36) : Statement (Instr.shadowLoadEnd i c) := fun _ _ => nofun
theorem drainBoundary (i : ArrayId) : Statement (Instr.drainBoundary i) := fun _ _ => nofun
theorem recutDone (i : ArrayId) : Statement (Instr.recutDone i) := fun _ _ => nofun
theorem autoswap (i : ArrayId) (c : Fin 36) : Statement (Instr.autoswap i c) := fun _ _ => nofun
theorem fillVisit (d : TrussId) (a : LocalId) : Statement (Instr.fillVisit d a) := fun _ _ => nofun
theorem stashFullTimeout (d : TrussId) : Statement (Instr.stashFullTimeout d) := fun _ _ => nofun
theorem loftReconf (s : StackId) (r : Requester) (expert : Bool) (data mask : Half) : Statement (Instr.loftReconf s r expert data mask) := fun _ _ => nofun
theorem loftReconfDone (s : StackId) : Statement (Instr.loftReconfDone s) := fun _ _ => nofun
theorem objectRegister (n : Fin 16384) (w : Word64) : Statement (Instr.objectRegister n w) := fun _ _ => nofun
theorem objectDeregister (n : Fin 16384) (w : Word64) : Statement (Instr.objectDeregister n w) := fun _ _ => nofun
theorem promoteCopyEnd (n : Fin 16384) : Statement (Instr.promoteCopyEnd n) := fun _ _ => nofun
theorem evictCopyEnd (n : Fin 16384) : Statement (Instr.evictCopyEnd n) := fun _ _ => nofun
theorem join (p : Packet) : Statement (Instr.join p) := fun _ _ => nofun
theorem joinAck (p : Packet) : Statement (Instr.joinAck p) := fun _ _ => nofun
theorem bucketRs (p : Packet) : Statement (Instr.bucketRs p) := fun _ _ => nofun
theorem bucketAg (p : Packet) : Statement (Instr.bucketAg p) := fun _ _ => nofun
theorem agree (p : Packet) : Statement (Instr.agree p) := fun _ _ => nofun
theorem reduce (p : Packet) : Statement (Instr.reduce p) := fun _ _ => nofun
theorem dispatch (p : Packet) : Statement (Instr.dispatch p) := fun _ _ => nofun
theorem dispatchEnd (p : Packet) : Statement (Instr.dispatchEnd p) := fun _ _ => nofun
theorem combine (p : Packet) : Statement (Instr.combine p) := fun _ _ => nofun
theorem combineEnd (p : Packet) : Statement (Instr.combineEnd p) := fun _ _ => nofun
theorem vote (p : Packet) : Statement (Instr.vote p) := fun _ _ => nofun
theorem drain (p : Packet) : Statement (Instr.drain p) := fun _ _ => nofun
theorem abandon (p : Packet) : Statement (Instr.abandon p) := fun _ _ => nofun
theorem commitVote (p : Packet) : Statement (Instr.commitVote p) := fun _ _ => nofun
theorem outcome (p : Packet) : Statement (Instr.outcome p) := fun _ _ => nofun
theorem mirrored (p : Packet) : Statement (Instr.mirrored p) := fun _ _ => nofun
theorem confirm (p : Packet) : Statement (Instr.confirm p) := fun _ _ => nofun
theorem packetRelay (port : PortId) (stream : Bool) (p : Packet) : Statement (Instr.packetRelay port stream p) := fun _ _ => nofun
theorem bucketLanded (j : Fin 64) (b : Nat) : Statement (Instr.bucketLanded j b) := fun _ _ => nofun
theorem peerTimeout (j : Fin 64) : Statement (Instr.peerTimeout j) := fun _ _ => nofun
theorem drainForced (j : Fin 64) : Statement (Instr.drainForced j) := fun _ _ => nofun
theorem voteDeadline : Statement (Instr.voteDeadline) := fun _ _ => nofun
theorem covoteDeadline (j : Fin 64) (seq : BitVec 16) : Statement (Instr.covoteDeadline j seq) := fun _ _ => nofun
theorem outcomeTimeout : Statement (Instr.outcomeTimeout) := fun _ _ => nofun
theorem mirrorComplete : Statement (Instr.mirrorComplete) := fun _ _ => nofun
theorem mirrorAck : Statement (Instr.mirrorAck) := fun _ _ => nofun
theorem groupRegister (n : Fin 4096) (w : Word64) : Statement (Instr.groupRegister n w) := fun _ _ => nofun
theorem groupDeregister (n : Fin 4096) (w : Word64) : Statement (Instr.groupDeregister n w) := fun _ _ => nofun
theorem rowStepRegister (n : Fin 256) (w : Word64) : Statement (Instr.rowStepRegister n w) := fun _ _ => nofun
theorem rowStepDeregister (n : Fin 256) (w : Word64) : Statement (Instr.rowStepDeregister n w) := fun _ _ => nofun
theorem rollback (r : Requester) : Statement (Instr.rollback r) := fun _ _ => nofun
theorem repub (r : Requester) : Statement (Instr.repub r) := fun _ _ => nofun
theorem instanceStart : Statement (Instr.instanceStart) := fun _ _ => nofun
theorem gvpNop (g : SliceId) (c : CoreId) : Statement (Instr.gvpNop g c) := fun _ _ => nofun
theorem end_ (g : SliceId) (c : CoreId) : Statement (Instr.end_ g c) := fun _ _ => nofun
theorem puta (g : SliceId) (c : CoreId) : Statement (Instr.puta g c) := fun _ _ => nofun
theorem bnz (g : SliceId) (c : CoreId) : Statement (Instr.bnz g c) := fun _ _ => nofun
theorem bz (g : SliceId) (c : CoreId) : Statement (Instr.bz g c) := fun _ _ => nofun
theorem fault (g : SliceId) (c : CoreId) : Statement (Instr.fault g c) := fun _ _ => nofun
theorem plog (g : SliceId) (c : CoreId) : Statement (Instr.plog g c) := fun _ _ => nofun
theorem saddi (g : SliceId) (c : CoreId) : Statement (Instr.saddi g c) := fun _ _ => nofun
theorem sshli (g : SliceId) (c : CoreId) : Statement (Instr.sshli g c) := fun _ _ => nofun
theorem salu (g : SliceId) (c : CoreId) : Statement (Instr.salu g c) := fun _ _ => nofun
theorem scmp (g : SliceId) (c : CoreId) : Statement (Instr.scmp g c) := fun _ _ => nofun
theorem simm (g : SliceId) (c : CoreId) : Statement (Instr.simm g c) := fun _ _ => nofun
theorem rs (g : SliceId) (c : CoreId) : Statement (Instr.rs g c) := fun _ _ => nofun
theorem lane (g : SliceId) (c : CoreId) : Statement (Instr.lane g c) := fun _ _ => nofun
theorem ptail (g : SliceId) (c : CoreId) : Statement (Instr.ptail g c) := fun _ _ => nofun
theorem add (g : SliceId) (c : CoreId) : Statement (Instr.add g c) := fun _ _ => nofun
theorem sub (g : SliceId) (c : CoreId) : Statement (Instr.sub g c) := fun _ _ => nofun
theorem mul (g : SliceId) (c : CoreId) : Statement (Instr.mul g c) := fun _ _ => nofun
theorem fma (g : SliceId) (c : CoreId) : Statement (Instr.fma g c) := fun _ _ => nofun
theorem min (g : SliceId) (c : CoreId) : Statement (Instr.min g c) := fun _ _ => nofun
theorem max (g : SliceId) (c : CoreId) : Statement (Instr.max g c) := fun _ _ => nofun
theorem abs (g : SliceId) (c : CoreId) : Statement (Instr.abs g c) := fun _ _ => nofun
theorem neg (g : SliceId) (c : CoreId) : Statement (Instr.neg g c) := fun _ _ => nofun
theorem sel (g : SliceId) (c : CoreId) : Statement (Instr.sel g c) := fun _ _ => nofun
theorem cmp (g : SliceId) (c : CoreId) : Statement (Instr.cmp g c) := fun _ _ => nofun
theorem cvt (g : SliceId) (c : CoreId) : Statement (Instr.cvt g c) := fun _ _ => nofun
theorem div (g : SliceId) (c : CoreId) : Statement (Instr.div g c) := fun _ _ => nofun
theorem sqrt (g : SliceId) (c : CoreId) : Statement (Instr.sqrt g c) := fun _ _ => nofun
theorem rsqrt (g : SliceId) (c : CoreId) : Statement (Instr.rsqrt g c) := fun _ _ => nofun
theorem rcp (g : SliceId) (c : CoreId) : Statement (Instr.rcp g c) := fun _ _ => nofun
theorem exp2 (g : SliceId) (c : CoreId) : Statement (Instr.exp2 g c) := fun _ _ => nofun
theorem log2 (g : SliceId) (c : CoreId) : Statement (Instr.log2 g c) := fun _ _ => nofun
theorem exp (g : SliceId) (c : CoreId) : Statement (Instr.exp g c) := fun _ _ => nofun
theorem ln (g : SliceId) (c : CoreId) : Statement (Instr.ln g c) := fun _ _ => nofun
theorem rsum (g : SliceId) (c : CoreId) : Statement (Instr.rsum g c) := fun _ _ => nofun
theorem rssq (g : SliceId) (c : CoreId) : Statement (Instr.rssq g c) := fun _ _ => nofun
theorem rmax (g : SliceId) (c : CoreId) : Statement (Instr.rmax g c) := fun _ _ => nofun
theorem rmin (g : SliceId) (c : CoreId) : Statement (Instr.rmin g c) := fun _ _ => nofun
theorem ramax (g : SliceId) (c : CoreId) : Statement (Instr.ramax g c) := fun _ _ => nofun
theorem rnf (g : SliceId) (c : CoreId) : Statement (Instr.rnf g c) := fun _ _ => nofun
theorem srnd (g : SliceId) (c : CoreId) : Statement (Instr.srnd g c) := fun _ _ => nofun
theorem vld (g : SliceId) (c : CoreId) : Statement (Instr.vld g c) := fun _ _ => nofun
theorem vst (g : SliceId) (c : CoreId) : Statement (Instr.vst g c) := fun _ _ => nofun
theorem sld (g : SliceId) (c : CoreId) : Statement (Instr.sld g c) := fun _ _ => nofun
theorem sst (g : SliceId) (c : CoreId) : Statement (Instr.sst g c) := fun _ _ => nofun
theorem frame (port : PortId) (fec : Fec) (f : Frame) : Statement (Instr.frame port fec f) := fun _ _ => nofun
theorem trainingDone (port : PortId) (t : TrainInfo) : Statement (Instr.trainingDone port t) := fun _ _ => nofun
theorem trainingTimeout (port : PortId) : Statement (Instr.trainingTimeout port) := fun _ _ => nofun
theorem frameSilence (port : PortId) : Statement (Instr.frameSilence port) := fun _ _ => nofun
theorem laneLockLoss (port : PortId) : Statement (Instr.laneLockLoss port) := fun _ _ => nofun
theorem downRetrain (port : PortId) : Statement (Instr.downRetrain port) := fun _ _ => nofun
theorem pctlDisable (port : PortId) (r : Requester) : Statement (Instr.pctlDisable port r) := fun _ _ => nofun
theorem pctlEnable (port : PortId) (r : Requester) : Statement (Instr.pctlEnable port r) := fun _ _ => nofun
theorem pctlRetrain (port : PortId) (r : Requester) : Statement (Instr.pctlRetrain port r) := fun _ _ => nofun
theorem twinPresentChange (present : Bool) : Statement (Instr.twinPresentChange present) := fun _ _ => nofun
theorem coordApply : Statement (Instr.coordApply) := fun _ _ => nofun
theorem flit (f : Flit) : Statement (Instr.flit f) := fun _ _ => nofun
theorem mclTrainingEnd (laneBad : BitVec 32) : Statement (Instr.mclTrainingEnd laneBad) := fun _ _ => nofun
theorem mclRetrain : Statement (Instr.mclRetrain) := fun _ _ => nofun
theorem mclSilence : Statement (Instr.mclSilence) := fun _ _ => nofun
theorem mclLockLoss : Statement (Instr.mclLockLoss) := fun _ _ => nofun
theorem rd (tag : BitVec 16) (dpa : Word48) (len : Nat) : Statement (Instr.rd tag dpa len) := fun _ _ => nofun
theorem wr (tag : BitVec 16) (dpa : Word48) (poison : Bool) (data : List Byte) : Statement (Instr.wr tag dpa poison data) := fun _ _ => nofun
theorem rdshared (tag : BitVec 16) (dpa : Word48) : Statement (Instr.rdshared tag dpa) := fun _ _ => nofun
theorem rdown (tag : BitVec 16) (dpa : Word48) : Statement (Instr.rdown tag dpa) := fun _ _ => nofun
theorem wb (tag : BitVec 16) (dpa : Word48) (poison : Bool) (data : List Byte) : Statement (Instr.wb tag dpa poison data) := fun _ _ => nofun
theorem recallAck (dpa : Word48) (dirty : Bool) (poison : Bool) (data : List Byte) : Statement (Instr.recallAck dpa dirty poison data) := fun _ _ => nofun
theorem cpl (tag : BitVec 16) (status : BitVec 3) (poison : Bool) (data : List Byte) : Statement (Instr.cpl tag status poison data) := fun _ _ => nofun
theorem csrWr (tag : BitVec 16) (dpa : Word48) (data : List Byte) : Statement (Instr.csrWr tag dpa data) := fun _ _ => nofun
theorem ticketWrite (r : Requester) (w : Word64) : Statement (Instr.ticketWrite r w) := fun _ _ => nofun
theorem eventWrite : Statement (Instr.eventWrite) := fun _ _ => nofun
theorem doorbellTimer : Statement (Instr.doorbellTimer) := fun _ _ => nofun
theorem evcfgEnable (r : Requester) (data mask : Half) : Statement (Instr.evcfgEnable r data mask) := fun _ _ => nofun
theorem evconsWrite (r : Requester) (data mask : Half) : Statement (Instr.evconsWrite r data mask) := fun _ _ => nofun
theorem mailboxGo (r : Requester) : Statement (Instr.mailboxGo r) := fun _ _ => nofun
theorem info (tag : Word32) : Statement (Instr.info tag) := fun _ _ => nofun
theorem cert (tag : Word32) : Statement (Instr.cert tag) := fun _ _ => nofun
theorem mbAttest (tag : Word32) (nonce : List Byte) : Statement (Instr.mbAttest tag nonce) := fun _ _ => nofun
theorem mbBist (tag : Word32) (mask : Word64) : Statement (Instr.mbBist tag mask) := fun _ _ => nofun
theorem flerase (tag : Word32) (off : Word32) : Statement (Instr.flerase tag off) := fun _ _ => nofun
theorem flwrite (tag : Word32) (off : Word32) (data : List Byte) : Statement (Instr.flwrite tag off data) := fun _ _ => nofun
theorem seccommit (tag : Word32) : Statement (Instr.seccommit tag) := fun _ _ => nofun
theorem controlPeriod : Statement (Instr.controlPeriod) := fun _ _ => nofun
theorem estimate (watts : Nat) : Statement (Instr.estimate watts) := fun _ _ => nofun
theorem measurementWindow (watts : Nat) : Statement (Instr.measurementWindow watts) := fun _ _ => nofun
theorem droopDetect (n : DomainId) : Statement (Instr.droopDetect n) := fun _ _ => nofun
theorem stretchEnd (n : DomainId) : Statement (Instr.stretchEnd n) := fun _ _ => nofun
theorem islandTempRead (n : DomainId) (temp : BitVec 8) : Statement (Instr.islandTempRead n temp) := fun _ _ => nofun
theorem stackTempRead (s : StackId) (temp : BitVec 8) : Statement (Instr.stackTempRead s temp) := fun _ _ => nofun
theorem holdAbandon : Statement (Instr.holdAbandon) := fun _ _ => nofun
theorem dieTempCheck : Statement (Instr.dieTempCheck) := fun _ _ => nofun
theorem grantApply : Statement (Instr.grantApply) := fun _ _ => nofun
theorem grantSwitch : Statement (Instr.grantSwitch) := fun _ _ => nofun
theorem grantRampEnd : Statement (Instr.grantRampEnd) := fun _ _ => nofun
theorem pwrokRise : Statement (Instr.pwrokRise) := fun _ _ => nofun
theorem pwrokFall : Statement (Instr.pwrokFall) := fun _ _ => nofun
theorem resetNAssert : Statement (Instr.resetNAssert) := fun _ _ => nofun
theorem resetNRelease : Statement (Instr.resetNRelease) := fun _ _ => nofun
theorem p3v3aLow : Statement (Instr.p3v3aLow) := fun _ _ => nofun
theorem p12vLoss : Statement (Instr.p12vLoss) := fun _ _ => nofun
theorem refclk0Loss : Statement (Instr.refclk0Loss) := fun _ _ => nofun
theorem refclk1Loss : Statement (Instr.refclk1Loss) := fun _ _ => nofun
theorem refclk2Loss : Statement (Instr.refclk2Loss) := fun _ _ => nofun
theorem bootHeaderCheck : Statement (Instr.bootHeaderCheck) := fun _ _ => nofun
theorem bootBodyCheck : Statement (Instr.bootBodyCheck) := fun _ _ => nofun
theorem islandPowerUp : Statement (Instr.islandPowerUp) := fun _ _ => nofun
theorem bootBist : Statement (Instr.bootBist) := fun _ _ => nofun
theorem hbmTraining : Statement (Instr.hbmTraining) := fun _ _ => nofun
theorem memoryClear : Statement (Instr.memoryClear) := fun _ _ => nofun
theorem identityCheck : Statement (Instr.identityCheck) := fun _ _ => nofun
theorem linkStart : Statement (Instr.linkStart) := fun _ _ => nofun
theorem readyAssert : Statement (Instr.readyAssert) := fun _ _ => nofun
theorem bistGo (r : Requester) : Statement (Instr.bistGo r) := fun _ _ => nofun
theorem islandTestDone (sig : Word64) : Statement (Instr.islandTestDone sig) := fun _ _ => nofun
theorem attestSigned : Statement (Instr.attestSigned) := fun _ _ => nofun
theorem snap (r : Requester) : Statement (Instr.snap r) := fun _ _ => nofun
theorem deferredSnapshot : Statement (Instr.deferredSnapshot) := fun _ _ => nofun
theorem freeze (r : Requester) (on : Bool) : Statement (Instr.freeze r on) := fun _ _ => nofun
theorem clr (n : DomainId) (r : Requester) : Statement (Instr.clr n r) := fun _ _ => nofun
theorem bandwidthWindowEnd (port : PortId) : Statement (Instr.bandwidthWindowEnd port) := fun _ _ => nofun
theorem status : Statement (Instr.status) := fun _ _ => nofun
theorem evread : Statement (Instr.evread) := fun _ _ => nofun
theorem setcoord (c : BitVec 16) : Statement (Instr.setcoord c) := fun _ _ => nofun
theorem setgrant (step : BitVec 7) (now : Bool) : Statement (Instr.setgrant step now) := fun _ _ => nofun
theorem setcap (watts : Half) : Statement (Instr.setcap watts) := fun _ _ => nofun
theorem release : Statement (Instr.release) := fun _ _ => nofun
theorem telem : Statement (Instr.telem) := fun _ _ => nofun
theorem mcCsrrd (dpa : Word48) : Statement (Instr.mcCsrrd dpa) := fun _ _ => nofun
theorem mcCsrwr (dpa : Word48) (data : List Byte) : Statement (Instr.mcCsrwr dpa data) := fun _ _ => nofun
theorem mcBist (mask : Word64) : Statement (Instr.mcBist mask) := fun _ _ => nofun
theorem mcAttest (nonce : List Byte) : Statement (Instr.mcAttest nonce) := fun _ _ => nofun
theorem report (chunk : BitVec 8) : Statement (Instr.report chunk) := fun _ _ => nofun
theorem mcReset : Statement (Instr.mcReset) := fun _ _ => nofun
theorem spiRelease : Statement (Instr.spiRelease) := fun _ _ => nofun
theorem entdaa (addr : BitVec 7) : Statement (Instr.entdaa addr) := fun _ _ => nofun
theorem setdasa (static addr : BitVec 7) : Statement (Instr.setdasa static addr) := fun _ _ => nofun
theorem rstdaa : Statement (Instr.rstdaa) := fun _ _ => nofun
theorem getpid : Statement (Instr.getpid) := fun _ _ => nofun
theorem getbcr : Statement (Instr.getbcr) := fun _ _ => nofun
theorem getdcr : Statement (Instr.getdcr) := fun _ _ => nofun
theorem getstatus : Statement (Instr.getstatus) := fun _ _ => nofun
theorem getmrl : Statement (Instr.getmrl) := fun _ _ => nofun
theorem getmwl : Statement (Instr.getmwl) := fun _ _ => nofun
theorem bypass : Statement (Instr.bypass) := fun _ _ => nofun
theorem idcode : Statement (Instr.idcode) := fun _ _ => nofun
theorem samplePreload : Statement (Instr.samplePreload) := fun _ _ => nofun
theorem extest : Statement (Instr.extest) := fun _ _ => nofun
theorem shadowLoadBegin (i : ArrayId) (c : Fin 36) : Statement (Instr.shadowLoadBegin i c) := fun _ _ => nofun
theorem gaCfgWrite (i : ArrayId) (r : Requester) (expert : Bool) (data mask : Half) : Statement (Instr.gaCfgWrite i r expert data mask) := fun _ _ => nofun
theorem sharedWindowChange (r : Requester) (off : Half) (data mask : Half) : Statement (Instr.sharedWindowChange r off data mask) := fun _ _ => nofun
theorem csrRd (tag : BitVec 16) (dpa : Word48) (len : Nat) : Statement (Instr.csrRd tag dpa len) := fun _ _ => nofun
theorem snapshotEnd : Statement (Instr.snapshotEnd) := fun _ _ => nofun
theorem freezeApplied : Statement (Instr.freezeApplied) := fun _ _ => nofun
theorem trstNAssert : Statement (Instr.trstNAssert) := fun _ _ => nofun

end Sys2Proof.Laws.OneRow
end

