-- ==== Sys2Proof/Laws/Vectors.lean ====
section
/-! SUPPORT. What the choice of a reference vector's bits can be (R163, R411). -/
namespace Sys2Proof.Machine

/-- The encoding chosen stands for one of the integers from the bracket's floor to its ceiling, in the order of values. -/
theorem within_between (l : Layout) (b : Bracket) (v : Nat) (h : l.floorCode b.lo b.e ≤ l.ceilCode b.hi b.e) :
    ∃ k, l.floorCode b.lo b.e ≤ k ∧ k ≤ l.ceilCode b.hi b.e ∧ l.within b v = l.ofOrder k := by
  have hp : 0 < l.ceilCode b.hi b.e - l.floorCode b.lo b.e + 1 := by omega
  have h0 := Int.emod_nonneg (v : Int) (Int.ne_of_gt hp)
  have h1 := Int.emod_lt_of_pos (v : Int) hp
  exact ⟨_, by omega, by omega, rfl⟩

end Sys2Proof.Machine
end

