-- ==== Sys2Proof/Tests/Slice0.lean ====
section
/-! SUPPORT. Tests: ill-formed commands that the checks refuse, states that meet the hypotheses of each statement of
Certificates/Slice0/Obligations.lean, and single commands whose expected results are worked out from the rules named. -/
namespace Sys2Proof.Tests
open Sys2Proof.Machine

set_option Elab.async false

/-! ### Ill-formed commands -/

def noPacket : Packet :=
  { dest := 0, plevel := 1, hops := 0, job := 0, gen := 0, kind := 1, flags := 0, ticket := 0, src := 0, seq := 0, eb := 0,
    bucket := 0, first := 0, nblk := 0, maxq := 0, drops := 0, payload := [] }

def noCell : Cell := { used := false, first := false, last := false, stream := false, len := 0, crc := 0, bytes := List.replicate 252 0 }

def noFrame : Frame := { fseq := 0, aseq := 0, bcred := 0, ccred := 0, nak := false, cells := List.replicate 5 noCell }

def noFlit : Flit := { fseq := 0, aseq := 0, nak := false, cohCred := 0, bulkCred := 0, dbCred := 0, msg := List.replicate 240 0, crc := 0 }

theorem test_wf_frame : noFrame.wf = true ∧ { noFrame with cells := noFrame.cells.drop 1 }.wf = false ∧
    { noFrame with cells := { noCell with bytes := [] } :: noFrame.cells.drop 1 }.wf = false := by decide +kernel

theorem test_wf_flit : noFlit.wf = true ∧ { noFlit with msg := List.replicate 241 0 }.wf = false := by decide +kernel

theorem test_wf_packet : { noPacket with payload := List.replicate 4096 0 }.wf = true ∧
    { noPacket with payload := List.replicate 4097 0 }.wf = false := by decide +kernel

theorem test_wf_commands : (Instr.nop 0).wf = true ∧ (Instr.rd 0 0 256).wf = true ∧ (Instr.rd 0 0 257).wf = false ∧
    (Instr.csrRd 0 0 257).wf = false ∧ (Instr.wr 0 0 false (List.replicate 257 0)).wf = false ∧
    (Instr.fetchLine 0 (.underlay true (List.replicate 257 0))).wf = false ∧ (Instr.mcCsrwr 0 (List.replicate 9 0)).wf = false ∧
    (Instr.mbAttest 0 []).wf = false ∧ (Instr.flwrite 0 0 (List.replicate 4097 0)).wf = false := by decide +kernel

theorem test_ill_formed_faults : exec (.rd 0 0 257) State.reset = .fault .malformed ∧
    exec (.frame 0 { corrected := 0, uncorr := false } { noFrame with cells := [] }) State.reset = .fault .malformed := ⟨rfl, rfl⟩

theorem test_no_word_spells_a_command : decodeTableWord 64 0 = none := rfl

/-! ### States to start from -/

/-- A powered, booted device with nothing in progress. -/
def on : State :=
  { State.reset with live := Vector.replicate 60 true, keeper := { State.reset.keeper with bstate := 1 }, boot := { order := 10 } }

/-- An instruction word (R208), its fields from the top: opcode, X, MOD, WA, WB, SG, DA, DB, CR. -/
def iw (op : Nat) (m : Nat := 0) (wa : Nat := 0) (wb : Nat := 0) (sg : Nat := 0) (da : Nat := 0) (db : Nat := 0) (cr : Nat := 0) : Word64 :=
  BitVec.ofNat 64 (op * 2 ^ 56 + m * 2 ^ 48 + wa * 2 ^ 42 + wb * 2 ^ 36 + sg * 2 ^ 30 + da * 2 ^ 18 + db * 2 ^ 6 + cr)

/-- Truss 0 runs with a word at decode. -/
def atDec (w : Word64) : State := on.modTr 0 fun t => { t with run := true, fbuf := [{ line := 0, words := [w] }], avail := 1 }

/-- Truss 0 runs with a word at the head of a queue. -/
def atQ (q : Nat) (w : Word64) (s : State := on) : State :=
  s.modTr 0 fun t => { t with run := true, queues := vmod t.queues q fun _ => [{ w0 := w }], nextSeq := 1 }

/-- The fields of a descriptor word (R214). -/
def put (l : List (Nat × Nat)) : Nat := l.foldl (fun a x => a + x.2 * 2 ^ x.1) 0

/-! ### Witnesses: steps, waits and the stream -/

theorem witness_EmptyQueueStepIsOneCycle : on.pending = [] ∧ on.pins.pwrok = true ∧
    ({ on with pins := { on.pins with pwrok := false } } : State).pending = [] := ⟨rfl, rfl, rfl⟩

theorem witness_StepKeepsCanonical : ∃ t, on.Canonical ∧ step { on with pending := [.mclRetrain, .status] } = .next t ∧ on.mcl.wanted = [] :=
  ⟨_, ⟨rfl, rfl, rfl, rfl, rfl⟩, rfl, rfl⟩

theorem witness_WellFormedCommandsAnswer : (Instr.syFence 0).wf = true ∧ exec (.rd 0 0 257) on = .fault .malformed := ⟨rfl, rfl⟩

/-- An instruction that waits twice on spar 63, which counts 2, and one at the head of Q_TIER that waits on spars 1 and 2. -/
theorem witness_WaitsAreTakenTogether :
    (∃ e s1, ((atDec (iw 0 (wa := 63) (wb := 63))).modTr 0 fun t => { t with spcnt := vmod t.spcnt 63 fun _ => 2 }).AtDecode 0 0 e s1 ∧
      e.wa = 63 ∧ e.wb = 63) ∧ (on.tr 0).decTaken = none ∧
    (∃ e, ((atQ 6 (iw 0x90 (da := 1) (wa := 1) (wb := 2))).modTr 0 fun t =>
      { t with spcnt := vmod (vmod t.spcnt 1 fun _ => 1) 2 fun _ => 1 }).AtHead 0 6 0x90 e ∧ e.wa = 1 ∧ e.wb = 2) :=
  ⟨⟨_, _, rfl, rfl, rfl⟩, rfl, ⟨_, rfl, rfl, rfl⟩⟩

def full : State := on.modTr 0 fun t => { t with spcnt := vmod t.spcnt 63 fun _ => 0xFFFF }

theorem witness_SparCountsSaturate : 0xFFFF < (full.tr 0).spar 63 + 1 ∧ (full.tr 0).trap.cause = 0 ∧
    (full.tr 0).skips .sparOvf = false ∧ (on.tr 0).spar 1 + 0xFFFF ≤ 0xFFFF ∧
    ((full.addSpar 0 63 1).tr 0).trap.cause ≠ 0 ∧ 0xFFFF < ((full.addSpar 0 63 1).tr 0).spar 63 + 1 := by decide +kernel

theorem witness_FirstTrapIsRecorded : (on.tr 0).trap.cause = 0 ∧ ((full.addSpar 0 63 1).tr 0).trap.cause ≠ 0 := by decide +kernel

theorem witness_InlineInstructionsComplete :
    (∃ e s1, (atDec (iw 0)).AtDecode 0 0x00 e s1) ∧
    (∃ e s1, (atDec (iw 3 (m := 0x7F))).AtDecode 0 0x03 e s1 ∧
      ∀ q, 1 ≤ q → q ≤ 7 → e.mod.testBit (q - 1) = true → (s1.tr 0).queueEmpty q = true) ∧
    (∃ e s1, (atDec (iw 4 (db := 0xFFF) (cr := 63))).AtDecode 0 0x04 e s1) ∧
    (∃ e s1, (atDec (iw 5 (cr := 63))).AtDecode 0 0x05 e s1) ∧
    (∃ e s1, (atDec (iw 0xF0 (cr := 63) (db := 15))).AtDecode 0 0xF0 e s1 ∧ e.m 0 = false ∧ e.cr ≠ 0) ∧
    (∃ e s1, (atDec (iw 0xF0 (cr := 0) (db := 15))).AtDecode 0 0xF0 e s1 ∧ e.m 0 = false ∧ e.cr = 0) ∧
    (∃ e s1, (atDec (iw 0xF0 (m := 1) (cr := 56) (db := 15))).AtDecode 0 0xF0 e s1 ∧ e.m 0 = true) ∧
    (∃ e s1, (atDec (iw 0xA2 (db := 0xFFF))).AtDecode 0 0xA2 e s1) :=
  ⟨⟨_, _, rfl⟩, ⟨_, _, rfl, by intro q h h'; interval_cases q <;> decide +kernel⟩, ⟨_, _, rfl⟩, ⟨_, _, rfl⟩,
    ⟨_, _, rfl, rfl, by decide +kernel⟩, ⟨_, _, rfl, rfl, rfl⟩, ⟨_, _, rfl, rfl⟩, ⟨_, _, rfl⟩⟩

theorem witness_InlineInstructionsComplete_rest :
    (∃ e s1, ((atDec (iw 0xA0)).setField 51 0x100 0 1 1).AtDecode 0 0xA0 e s1 ∧ s1.userEn = true) ∧
    (∃ e s1, ((atDec (iw 0xA1 (m := 1))).setField 51 0x100 0 1 1).AtDecode 0 0xA1 e s1 ∧ s1.userEn = true) ∧
    (∃ e s1, (atDec (iw 0xA0)).AtDecode 0 0xA0 e s1 ∧ s1.userEn = false) ∧
    (∃ e s1, (atDec (iw 0xA1)).AtDecode 0 0xA1 e s1 ∧ s1.userEn = false) ∧
    (∃ e s1, (atDec (iw 0xF2)).AtDecode 0 0xF2 e s1) ∧ (∃ e s1, (atDec (iw 0xF1 (db := 0xFFF))).AtDecode 0 0xF1 e s1) :=
  ⟨⟨_, _, rfl, rfl⟩, ⟨_, _, rfl, rfl⟩, ⟨_, _, rfl, rfl⟩, ⟨_, _, rfl, rfl⟩, ⟨_, _, rfl⟩, ⟨_, _, rfl⟩⟩

theorem witness_LatchAndDescriptorsAreLoaded :
    (∃ e s1, (atDec (iw 2 (m := 1) (da := 0xFFF) (db := 0xFFF))).AtDecode 0 0x02 e s1) ∧
    (∃ e s1, (atDec (iw 1 (da := 4095))).AtDecode 0 0x01 e s1 ∧ s1.interlocked 0 e = false ∧ e.db = 0 ∧
      let src := (on.tr 0).alat.toNat / 64 * 64
      (placeOf src).region.isMem = true ∧ (placeOf src).twist = 0 ∧ s1.rangeOk src 64 = true ∧ s1.badUnits [{ a := src, n := 64 }] = [] ∧
      s1.snooped [{ a := src, n := 64 }] false = [] ∧ s1.mcl.wanted = []) ∧ Sparse.wf 0 (on.tr 0).desc = true :=
  ⟨⟨_, _, rfl⟩, ⟨_, _, rfl, by decide +kernel⟩, rfl⟩

theorem witness_StreamMovesOn :
    (let s := on.modTr 0 fun t => { t with run := true, avail := 1 }
     (s.tr 0).nextFetch = some 0 ∧ s.rangeOk 0 256 = true ∧ s.badUnits [{ a := 0, n := 256 }] = [] ∧
       s.snooped [{ a := 0, n := 256 }] false = []) ∧
    (∃ e i, ((atDec (iw 0x90 (da := 1))).tr 0).decoding = true ∧ ((atDec (iw 0x90)).tr 0).decTaken = none ∧
      ((atDec (iw 0x90)).tr 0).decTrap = false ∧ ((atDec (iw 0x90 (da := 1))).tr 0).atDecode false = .ins e ∧ decodeWord false e = .ok i ∧ queueOf i e = 6) ∧
    (∃ i, ((on.modTr 0 fun t => { t with issued := [{ q := 7, e := { w0 := iw 0x60 }, done := true }] }).tr 0).oldest 7 = some i ∧
      i.done = true) :=
  ⟨by decide +kernel, ⟨_, _, rfl, rfl, rfl, rfl, rfl, rfl⟩, ⟨_, rfl, rfl⟩⟩

theorem witness_PushAddsLines : on.isLive 19 = true ∧ on.heard .keeper = true ∧ on.mcl.wanted = [] ∧ on.heard .host = false ∧
    writerOf (.spush 0 .host 0xFFFF 0xFFFF) = some .host := by decide +kernel

theorem witness_RunControlsTheStream : on.heard .keeper = true ∧ (on.tr 0).run = false ∧ (on.tr 0).ringNew = false ∧ on.isLive 16 = true ∧
    ((on.modTr 0 fun t => { t with ringNew := true }).tr 0).run = false := by decide +kernel

theorem witness_AbortEndsTheStream : let s := on.modTr 3 fun t => { t with aborting := true }
    s.heard .keeper = true ∧ (s.tr 3).aborting = true ∧ (s.tr 3).issued = [] ∧ (s.tr 3).decTaken = none ∧ (∀ v ∈ (s.tr 3).valley, v.visiting = none) ∧ s.isLive 19 = true := by decide +kernel

/-- Truss 0 waits on spar 1 at decode, with its watchdog one tick from the limit, and far from it. -/
theorem witness_WatchdogCountsIdleTicks :
    let s := (atDec (iw 0 (wa := 1))).modTr 0 fun t => { t with idle := 7629 }
    let waits := !(s.tr 0).progress && !((s.trussBoundary 0).waiting 0).isEmpty
    waits = true ∧ (s.tr 0).idle + 1 = 0x1DCE ∧ s.level 16 4 = false ∧ on.isLive 16 = true ∧ ((on.trussBoundary 0).waiting 0).isEmpty = true := by
  decide +kernel

/-! ### Witnesses: arrays, formats and moves -/

/-- The words of a valid descriptor: format, base over 256, rows, columns. -/
def dw (fmt base rows cols : Nat) (bp : Nat := 1) : List Word64 :=
  [BitVec.ofNat 64 (1 + 4 * fmt), BitVec.ofNat 64 base, 0, BitVec.ofNat 64 (rows + cols * 0x100000000), BitVec.ofNat 64 bp, 0, 0, 0]

/-- Descriptors 1 up, of views of one element, each 64 KiB after the other from a base: the store of GA[0]. -/
def withDesc (fmts : List Nat) (s : State := on) (base : Nat := 0x90000000) : State :=
  s.each ((List.range fmts.length).zip fmts) fun s p => s.setDesc 0 (p.1 + 1) (dw p.2 (base + 0x100 * p.1) 1 1)

def tile : Bank := { valid := true, kw := 1, nw := 1, fmt := 5, data := [[Num.one]] }

def load0 : Load := { ins := ⟨0, 0⟩, e := { w0 := iw 0x10 (da := 1) }, stat := dw 5 0 1 1, edge := 0, bank := { tile with valid := false } }

theorem witness_ShadowLoadFillsTheShadowBank :
    (∃ e, (atQ 2 (iw 0x10 (da := 1) (cr := 0)) (withDesc [5])).AtHead 0 2 0x10 e ∧
      let s := atQ 2 (iw 0x10 (da := 1)) (withDesc [5])
      ((s.gaAt 1).course 0).load = none ∧ ((s.gaAt 1).course 0).fgShadow = false ∧ (s.desc 0 e.da).check arrayFmt = none ∧
      (isMx (s.desc 0 e.da).fmt = true → e.m 3 = true) ∧ (s.gaAt 1).edgeBad (bits e.mod 1 2) = false ∧ bits e.mod 1 2 = (s.gaAt 1).cut) ∧
    (let s := on.modCourse 7 35 fun k => { k with load := some load0 }
     ((s.gaAt 7).course 35).load = some load0 ∧ load0.began = false ∧ (s.gaAt 7).held = false) ∧
    ({ load0 with began := true } : Load).trap = none ∧
    (let l : Load := { load0 with began := true, trap := some .dataError }
     let s := on.modCourse 7 35 fun k => { k with load := some l }
     ((s.gaAt 7).course 35).load = some l ∧ l.began = true ∧ l.trap = some .dataError ∧ (s.gaAt 7).ops = []) :=
  ⟨⟨_, rfl, by decide +kernel⟩, by decide +kernel, rfl, by decide +kernel⟩

def ready2 : State := on.modCourse 0 0 fun k => { k with shadow := tile, live := tile }

theorem witness_SwapTakesTheShadowBank :
    (∃ e, (atQ 1 (iw 0x11) ready2).AtHead 0 1 0x11 e ∧ e.m 1 = false ∧ e.cr < 36 ∧
      let g := (atQ 1 (iw 0x11) ready2).gaAt 0
      g.autoswap = false ∧ g.recut = false ∧ g.ops = [] ∧ (g.course 0).load = none ∧ (g.course 0).fgShadow = true ∧
      (g.course 0).failed = false ∧ ready2.pwrc.hold = false) ∧
    (∃ e, (atQ 1 (iw 0x11 (m := 2)) ready2).AtHead 0 1 0x11 e ∧ e.m 1 = true ∧
      let g := (atQ 1 (iw 0x11 (m := 2)) ready2).gaAt 0
      g.autoswap = false ∧ g.recut = false ∧ g.ops = [] ∧ (∀ c ∈ g.all, (g.course c).load = none ∧ (g.course c).failed = false) ∧
      ∃ c ∈ g.all, (g.course c).fgShadow = true) ∧
    (let s := ready2.modGa 0 fun g => { g with autoswap := true }
     (∃ e, (atQ 1 (iw 0x11) s).AtHead 0 1 0x11 e) ∧ (s.gaAt 0).autoswap = true ∧ (s.gaAt 0).recut = false ∧
     (s.gaAt 0).ops = [] ∧ ((s.gaAt 0).course 0).fgShadow = true ∧ ((s.gaAt 0).course 0).halted = false) :=
  ⟨⟨_, rfl, by decide +kernel⟩, ⟨_, rfl, by decide +kernel⟩, ⟨_, rfl⟩, by decide +kernel⟩

def runnable : State := withDesc [5, 7, 8, 8] ready2

theorem witness_RunStoresItsResults : ∃ e, (atQ 1 (iw 0x12 (da := 1) (db := 2)) runnable).AtHead 0 1 0x12 e ∧ e.cr < 36 ∧
    let s := atQ 1 (iw 0x12 (da := 1) (db := 2)) runnable
    let g := s.gaAt 0
    let k := g.course e.cr
    g.held = false ∧ g.ops = [] ∧ g.bindsShadow e.cr = false ∧ k.live.valid = true ∧ k.halted = false ∧ s.pwrc.hold = false ∧
    Memory.wf s.mem = true ∧
    runTraps g (some k.live) (s.desc 0 e.da) (s.desc 0 e.db) (s.desc 0 (partIdx (s.desc 0 e.db) e.db))
      (s.desc 0 (descIdx (partIdx (s.desc 0 e.db) e.db + 1))) e = none :=
  ⟨_, rfl, by decide +kernel⟩

theorem witness_ProductsFoldInAscendingGroups : let t := tileGeo tile 768 1
    t.k0 = 0 ∧ t.k1 = t.kc ∧ 0 < t.kc ∧ t.kc ≤ 65536 ∧ (t.q = 32 ∨ t.q = 64) := by decide +kernel

/-- GA[0] with a change of its edge to 384 asked for, at the drain boundary; with a change of profile that keeps the cut; in a recut. -/
theorem witness_ArraySettingsWaitForTheBoundary :
    (let s := on.modGa 0 fun g => { g with pendEdge := some 1 }
     (s.gaAt 0).pending = true ∧ (s.gaAt 0).recut = false ∧ (s.gaAt 0).drained = true ∧ (s.gaTarget 0 (s.gaAt 0)).cut ≠ (s.gaAt 0).cut) ∧
    (let s := on.modGa 0 fun g => { g with pendCsr := true }
     (s.gaAt 0).pending = true ∧ (s.gaAt 0).drained = true ∧ (s.gaTarget 0 (s.gaAt 0)).cut = (s.gaAt 0).cut ∧ s.mcl.wanted = []) ∧
    ((on.modGa 0 fun g => { g with recut := true }).gaAt 0).recut = true ∧ on.isLive 0 = true ∧ on.heard .keeper = true := by decide +kernel

theorem witness_ContainerTruncatesToBinary32 : 
    ∃ n m e, ofContainer 0x3F80000000000000 = .fin n m e := ⟨_, _, _, rfl⟩

theorem witness_ContainerTruncatesToBinary32_specials : (∃ n, ofContainer 0x7F80000000000000 = .inf n) ∧
    (0x7FC0000000000000#64).toNat / 2 ^ 24 = Layout.z40.nanCode := ⟨⟨_, rfl⟩, by decide +kernel⟩

theorem witness_RepresentableValuesConvertExactly : (Layout.e2m1.decode 15).isNan = false ∧ 15 < 2 ^ Layout.e2m1.width ∧
    (Layout.binary32.decode 0x7F800000).isNan = false := by decide +kernel

theorem witness_ScalesActAsTheFormatSays : (layoutOf 3).decode 0x7F = .nan ∧ ((layoutOf 3).decode 0x7C = .inf false) ∧ (0 : Nat) ≠ 0xFF :=
  ⟨by decide +kernel, by decide +kernel, by decide⟩

def deferring : State := (atDec (iw 0x13 (da := 1))).modTr 0 fun t => { t with desc := ((withDesc [5, 5, 8]).tr 0).desc }

def entry (v : Option Nat) : VEntry :=
  { e := { w0 := iw 0x13 (da := 1) }, stat := dw 5 0 1 1, mov := dw 5 0 1 1, dst := dw 8 0 1 1, bound := some false, visiting := v }

theorem witness_ValleyEntriesAreVisited :
    (∃ e s1, deferring.AtDecode 0 0x13 e s1 ∧
      s1.deferTraps 0 e (s1.desc 0 (descIdx e.da)) (s1.desc 0 (descIdx (e.da + 1))) (s1.desc 0 (descIdx (e.da + 2))) = none ∧
      (deferring.tr 0).valley.length < 64) ∧
    (∃ e s1, (atDec (iw 0x14)).AtDecode 0 0x14 e s1 ∧ ((atDec (iw 0x14)).tr 0).valley = []) ∧
    (let s := on.modTr 0 fun t => { t with valley := [entry none] }
     let u := s.markUrgent 0
     (u.tr 0).candidate 0 = some (0, entry none) ∧ (s.tr 0).trapped = false ∧ (s.tr 0).aborting = false ∧ s.isLive 0 = true ∧
     s.cfgBits 16 0x200 1 1 ≠ 1 ∧ (entry none).edge = (s.gaAt 0).cut ∧ (s.gaAt 0).held = false ∧ s.pwrc.hold = false ∧
     u.fillable 0 0 false (entry none) = some 0 ∧ ({ entry none with bound := some false } : VEntry).holds 0 ((s.gaAt 0).course 0).live = false) ∧
    (let b : Bank := { tile with fill := some ⟨0, 0⟩ }
     let s := (on.modTr 0 fun t => { t with valley := [entry none] }).modCourse 0 0 fun k => { k with live := b }
     ((s.markUrgent 0).tr 0).candidate 0 = some (0, entry none) ∧ (s.markUrgent 0).fillable 0 0 false (entry none) = some 0 ∧
     ({ entry none with bound := some false } : VEntry).holds 0 ((s.gaAt 0).course 0).live = true) ∧
    (let b : Bank := { tile with fill := some ⟨0, 0⟩ }
     (entry none).holds 0 b = true ∧
     let s := (on.modTr 0 fun t => { t with valley := [entry (some 0)] }).modCourse 0 0 fun k => { k with shadow := b }
     ((s.markUrgent 0).tr 0).candidate 0 = some (0, entry (some 0)) ∧ ((s.gaAt 0).course 0).halted = false ∧ (s.gaAt 0).liveRuns 0 = [] ∧
     (entry (some 0)).holds 0 ((s.gaAt 0).course 0).shadow = true) :=
  ⟨⟨_, _, rfl, by decide +kernel⟩, ⟨_, _, rfl, rfl⟩, by decide +kernel, by decide +kernel, by decide +kernel⟩

theorem witness_FeederMovesStoreIntoDestinations :
    (∃ e, (atQ 3 (iw 0x30 (da := 1) (db := 2)) (withDesc [5, 5])).AtHead 0 3 0x30 e ∧
      copyTraps ((withDesc [5, 5]).desc 0 e.da) ((withDesc [5, 5]).desc 0 e.db) false = none) ∧
    (∃ e, (atQ 4 (iw 0x31 (da := 1) (db := 2)) (withDesc [5, 5])).AtHead 0 4 0x31 e ∧
      copyTraps ((withDesc [5, 5]).desc 0 e.da) ((withDesc [5, 5]).desc 0 e.db) true = none) ∧
    (∃ e, (atQ 3 (iw 0x32 (da := 1) (db := 2)) (withDesc [7, 5])).AtHead 0 3 0x32 e ∧ e.m 3 = false ∧
      quantTraps ((withDesc [7, 5]).desc 0 e.da) [(withDesc [7, 5]).desc 0 e.db] (e.m 1 || e.m 3) = none) ∧
    (∃ e, (atQ 3 (iw 0x32 (m := 8) (da := 1) (db := 2)) (withDesc [7, 5, 5])).AtHead 0 3 0x32 e ∧ e.m 3 = true ∧
      quantTraps ((withDesc [7, 5, 5]).desc 0 e.da) [(withDesc [7, 5, 5]).desc 0 e.db, (withDesc [7, 5, 5]).desc 0 (descIdx (e.db + 1))]
        (e.m 1 || e.m 3) = none) :=
  ⟨⟨_, rfl, by decide +kernel⟩, ⟨_, rfl, by decide +kernel⟩, ⟨_, rfl, by decide +kernel⟩, ⟨_, rfl, by decide +kernel⟩⟩

/-! ### Witnesses: Ridges, tiers and objects -/

theorem witness_RidgeInstructionsStoreTheirOutputs :
    let forms : List (Nat × Nat × List Nat) :=
      [(0x50, 0, [5, 5, 5, 5, 8]), (0x51, 0, [5, 5, 5, 8, 5, 5, 5]), (0x52, 0, [5, 5, 8, 5]), (0x53, 0, [5, 5, 8, 5, 5])]
    ∀ f ∈ forms, let s := atQ 5 (iw f.1 (m := f.2.1) (da := 1)) (withDesc f.2.2)
      ((s.ready 0 5 f.1).map fun e => (s.tr 0).atWork 5 < 2 && decide ((e.window ((s.desc 0 e.da).rowsT (e.m 6))).1 < (e.window
        ((s.desc 0 e.da).rowsT (e.m 6))).2) && ((firstTrap (match f.1 with
        | 0x50 => s.normFTraps 0 e | 0x51 => s.normBTraps 0 e | 0x52 => s.smaxFTraps 0 e | _ => s.smaxBTraps 0 e)) == none)) = some true := by
  decide +kernel

/-- Truss 0 with a stash of 2 pages over 1 pool page and 1 spill page. -/
def stashed (m : List (Nat × Page)) (nospill : Bool := false) : State := on.modTr 0 fun t =>
  { t with stash := { range := 0x4000000000, rpages := 2, ppages := 1, quota := 1, spill := 0x10000, nospill, map := m } }

theorem witness_StashTakesLowestPage :
    (let m := ((stashed []).tr 0).stash
     Sparse.wf .empty m.map = true ∧ 0 < m.ppages ∧ ∀ q ∈ m.map, q.2 ≠ .pool 0) ∧
    (let m := ((stashed [(1, .pool 0)]).tr 0).stash
     Sparse.wf .empty m.map = true ∧ (¬ ∀ q ∈ m.map, q.2 ≠ .pool 0) ∧ m.ppages = 1 ∧ m.nospill = false ∧ 0 < m.quota ∧
       ∀ q ∈ m.map, q.2 ≠ .spill 0) ∧
    (let m := ((stashed [(1, .pool 0)] true).tr 0).stash
     Sparse.wf .empty m.map = true ∧ (¬ ∀ q ∈ m.map, q.2 ≠ .pool 0) ∧ m.nospill = true) := by decide +kernel

theorem witness_TierMovesStoreIntoDestinations :
    (∀ op ∈ [0x38, 0x39], let s := atQ 6 (iw op (da := 1) (db := 2)) (withDesc [5, 5])
      Memory.wf s.mem = true ∧ (s.tr 0).stash.stalled = [] ∧ (s.tr 0).stash.range % pageBytes = 0 ∧
      ((s.ready 0 6 op).map fun e =>
        let src := s.desc 0 e.da
        let dst := s.desc 0 e.db
        let l := src.spans 0 (min src.rows dst.rows) 0 (min src.cols dst.cols) ++ dst.blockSpans 0 (min src.rows dst.rows) 0 (min src.cols dst.cols)
        (tierTraps src dst == none) && l.all (s.tierSpan (some 0)) &&
          !((s.tr 0).stash.pages l).any fun p => (s.tr 0).stash.look p = .empty) = some true) ∧
    (let s := atQ 6 (iw 0x3A (da := 1) (db := 2)) (withDesc [5, 7, 5] on 0)
     ((s.ready 0 6 0x3A).map fun e =>
      let src := s.desc 0 e.da
      let dst := s.desc 0 e.db
      let out := s.desc 0 (descIdx (e.db + 1))
      (gatherTraps src dst out == none) && !decide ((placeOf dst.base).region = .underlay) &&
        (dst.runSpan :: out.blockSpans 0 (min dst.rows out.rows) 0 out.cols).all (s.tierSpan none) && tableOk src.all &&
        src.all.all (fun x => s.rangeOk x.a x.n) &&
        indexAtHand ((placeOf dst.base).region = .underlay) (4 * min dst.rows out.rows) (.memory none)) = some true) := by decide +kernel

def stall (raised : Bool) : StashStall := { ins := ⟨0, 1⟩, src := dw 5 0 1 1, dst := dw 5 0 1 1, raised }

theorem witness_StashResetsAndReports : on.isLive 19 = true ∧ on.heard .keeper = true ∧ (on.tr 3).stash.stalled = [] ∧
    [stall true, stall false].find? (!·.raised) = some (stall false) := by decide +kernel

/-- Slice 7 asks for mode 1; slice 0 for what is in force. -/
theorem witness_LoftModeChangesClearTheScratchpad :
    let w := (on.reached 39).regWrite .keeper 39 0 2 0xFFFFFFFF
    on.heard .keeper = true ∧ on.isLive 39 = true ∧ Sparse.wf false on.poison = true ∧ Memory.wf on.mem = true ∧ w.loftDiffers 7 = true ∧
    ((on.reached 32).regWrite .keeper 32 0 0 0).loftDiffers 0 = false ∧
    ((on.modLoft 7 fun l => { l with reconf := true }).loftAt 7).reconf = true := by decide +kernel

/-- Object n with a word 0; its size is 256 and its home at DPA 0. -/
def withObj (n w : Nat) : State := (on.setTable (obKey n 0) w).setTable (obKey n 1) 256

theorem canonical_withObj : (withObj 1 0x11).Canonical := ⟨rfl, rfl, rfl, rfl, rfl⟩

/-- HUBNOC, which holds the tables, is dark. -/
def hubDark : State := { on with live := vmod on.live 59 fun _ => false }

/-- HBM home (1), no upper tier (3): word 0 is 1 + 1 * 2 + 3 * 8 = 0x1B; RESIDENT is 0x100, a pin of Truss 0 0x800. -/
theorem witness_ObjectsAreRegisteredWhenLegal :
    on.isLive 59 = true ∧ hubDark.isLive 59 = false ∧
    (let s := on.setTable (obKey 1 1) 256
     let o := Obj.ofWords 0x1B (s.tword (obKey 1 1)) (s.tword (obKey 1 2)) (s.tword (obKey 1 3))
     (s.obj 1).valid = false ∧ s.objOk o = true ∧ s.objOk (Obj.ofWords 0x1B 0 0 0) = false) ∧
    (let s := withObj 16383 0x11B
     (s.obj 16383).valid = true ∧ (s.obj 16383).state = 1 ∧ (s.obj 16383).upauth = false ∧ (s.obj 16383).pins = 0 ∧
       s.obreqs = []) ∧
    ((withObj 1 0x91B).obj 1).pins ≠ 0 := by decide +kernel

theorem calm_of {s : State} (h : s.mcl.wanted = [] ∧ s.mcl.snoop = [] ∧ s.pwrc.hold = false ∧ s.clearing = false) (hl : s.loft = Vector.replicate 8 {}) : s.Calm := by
  refine ⟨h.1, h.2.1, h.2.2.1, h.2.2.2, fun k => ?_⟩
  unfold State.loftAt vget
  rw [hl]
  split
  · rw [Vector.getElem_replicate]; exact ⟨rfl, rfl⟩
  · exact ⟨rfl, rfl⟩

/-- Home HBM, upper tier Loft (0): RESIDENT at home 0x103, with write-back 0x123, authoritative above 0x503, PROMOTING 0x203, EVICTING above
0x703. -/
theorem witness_ObjectRequestsRun :
    (∀ r ∈ [(0x90, 0, 0x103), (0x91, 0, 0x103), (0x92, 1, 0x503), (0x93, 0, 0x103), (0x94, 1, 0x103)],
      let s := atQ 6 (iw r.1 (m := r.2.1) (da := 1)) (withObj 1 r.2.2)
      let o := s.obj 1
      s.obreqs = [] ∧ o.valid = true ∧
      (s.ready 0 6 r.1).isSome = true ∧ bits r.2.1 0 2 = r.2.1 ∧
      (r.1 = 0x91 → r.2.1 = o.up ∧ r.2.1 ≠ o.home ∧ o.state = 1 ∧ o.pending = false ∧ o.upauth = false ∧ s.slotFree 1 = true ∧ o.home = 1) ∧
      (r.1 = 0x92 → r.2.1 = o.home ∧ o.state = 1 ∧ o.pending = false ∧ o.upauth = true ∧ o.pins = 0) ∧
      (r.1 = 0x94 → o.tier = r.2.1)) ∧
    ((withObj 1 0x203).obj 1).state = 2 ∧ ((withObj 1 0x203).obj 1).home = 1 ∧ ((withObj 1 0x703).obj 1).state = 3 ∧
    (withObj 1 0x703).uwBusy ⟨0, 0⟩ = false := by decide +kernel

theorem witness_ObjectRequestsRun_alone : ∀ op m w, w ∈ [0x103, 0x503, 0x203, 0x703] →
    (atQ 6 (iw op (m := m) (da := 1)) (withObj 1 w)).Canonical ∧ (atQ 6 (iw op (m := m) (da := 1)) (withObj 1 w)).Calm := by
  intro op m w h
  simp only [List.mem_cons, List.not_mem_nil, or_false] at h
  rcases h with rfl | rfl | rfl | rfl <;> exact ⟨⟨rfl, rfl, rfl, rfl, rfl⟩, calm_of ⟨rfl, rfl, rfl, rfl⟩ rfl⟩

/-! ### Witnesses: jobs, packets, groups -/

/-- Job 5 of generation 0, OPEN in context 0 with this device as its one member; Truss 0 is its home. -/
def job5 : JobCtx := { state := 1, job := 5, members := [0], jr := { spaceLen := 1, landing := 0x10000 } }

def withJob (c : JobCtx := job5) (s : State := on) : State := s.modJob 0 fun _ => c

/-- A record of all zeros but for its CHECK, 0xa66359f1, at DPA 0. -/
def joining : State :=
  ({ on with keeper := { on.keeper with toplevel := 1 } } : State).write 252 (leBytes 0xa66359f1 4)

def crcRun (l : List Byte) (c : Nat) : Nat := l.foldl (fun c b => (List.range 8).foldl (fun c _ => crc32Step c) (c ^^^ b.toNat)) c

theorem crc32_zeros : crc32 (List.replicate 252 0) = 0xa66359f1 := by
  have h1 : crcRun (List.replicate 84 0) 0xFFFFFFFF = 0x8b331589 := by decide +kernel
  have h2 : crcRun (List.replicate 84 0) 0x8b331589 = 0xf116c36b := by decide +kernel
  have h3 : crcRun (List.replicate 84 0) 0xf116c36b = 0x599ca60e := by decide +kernel
  have e : crcRun (List.replicate 84 0 ++ (List.replicate 84 0 ++ List.replicate 84 0)) 0xFFFFFFFF = 0x599ca60e := by
    rw [crcRun, List.foldl_append, List.foldl_append]
    show crcRun (List.replicate 84 0) (crcRun (List.replicate 84 0) (crcRun (List.replicate 84 0) 0xFFFFFFFF)) = _
    rw [h1, h2, h3]
  have z : List.replicate 252 (0 : Byte) = List.replicate 84 0 ++ (List.replicate 84 0 ++ List.replicate 84 0) := by decide +kernel
  have u (l : List Byte) : crc32 l = crcRun l 0xFFFFFFFF ^^^ 0xFFFFFFFF := rfl
  rw [z, u, e]
  decide +kernel

theorem witness_CollectiveInstructionsStart_join :
    let s := atQ 7 (iw 0x60) joining
    let u := (s.issue 0 7 { w0 := iw 0x60 }).access .hub Region.isMem [{ a := 0, n := 256 }] []
    let rec' := List.replicate 252 0 ++ leBytes 0xa66359f1 4
    let u2 := u.1.access .hub Region.isMem [{ a := 0, n := 2 }] []
    s.AtHead 0 7 0x60 { w0 := iw 0x60 } ∧ s.ctxOf 0 = none ∧ Sparse.get none s.lastGen 0 ≠ some 0 ∧
    (List.range 64).find? (fun j => (s.job j).state = 0) = some 0 ∧ u.2 = none ∧ u.1.bytes 0 256 = rec' ∧ u2.2 = none ∧
    u2.1.joinBad rec' [0] (JobRec.ofBytes rec' 1) 0 0 = false := by
  refine ⟨rfl, by decide +kernel, by decide +kernel, by decide +kernel, by decide +kernel, by decide +kernel, by decide +kernel, ?_⟩
  unfold State.joinBad
  have z : (List.replicate 252 (0 : Byte) ++ leBytes 0xa66359f1 4).take 252 = List.replicate 252 0 := by decide +kernel
  rw [z, crc32_zeros]
  decide +kernel

theorem witness_CollectiveInstructionsStart_joined : let s := atQ 7 (iw 0x60 (da := 5)) withJob
    (s.ready 0 7 0x60).isSome = true ∧ s.ctxOf 5 = some 0 ∧ (s.job 0).state = 1 ∧ (s.job 0).gen = 0 := by decide +kernel

/-- Group 1 of job 5: VALID, offset 0, length 1. -/
def grouped : State := (withJob.setTable (gKey 1 0) 0x501).setTable (gKey 1 2) 1

def dispatched : Disp :=
  { ins := ⟨0, 0⟩, seq := 0, cap := 1, kr := 1, rows := dw 5 0 1 1, run := [], recv := [], started := true, complete := true }

theorem witness_CollectiveInstructionsStart_bucket : let s := atQ 7 (iw 0x61 (da := 1) (db := 1)) (withDesc [7] grouped)
    s.inert = false ∧ (s.desc 0 1).check (fun f => f = 7 || isZ40 f) = none ∧ s.gValid 1 = true ∧ s.openJob (s.gJob 1) = some 0 ∧
    ((s.ready 0 7 0x61).map fun e =>
      let idx := (s.desc 0 1).elements.map (·.1)
      !(idx.any (fun i => bits (s.gw 1 2) 0 40 ≤ i || (s.job 0).jr.spaceLen ≤ i || s.contributed 0 i) ||
        decide (idx.eraseDups.length ≠ idx.length)) && (((s.issue 0 7 e).access .collective coPlace (s.desc 0 1).all []).2 == none)) = some true := by
  decide +kernel

theorem witness_CollectiveInstructionsStart_rest :
    (let s := atQ 7 (iw 0x62 (da := 5) (db := 1)) (withDesc [7] withJob)
     (s.desc 0 1).check (fun f => f = 7 || f = 9) = none ∧ (s.desc 0 1).rows * (s.desc 0 1).cols ≤ 1024 ∧
     ((s.ready 0 7 0x62).map fun e => (s.jobAt e == some 0) &&
       ((((s.issue 0 7 e).takeOrd 0 .reduce 0).1.access .collective coPlace (s.desc 0 1).all ((s.desc 0 1).blockSpans 0 1 0 1)).2 == none)) = some true) ∧
    (let s := atQ 7 (iw 0x65 (da := 5)) withJob
     (s.ready 0 7 0x65).map s.jobAt = some (some 0)) ∧
    (let s := atQ 7 (iw 0x63 (da := 5) (db := 1)) (withDesc [5, 7, 5] withJob)
     firstTrap [(s.desc 0 1).check wireFmt, (s.desc 0 2).checkRun, (s.desc 0 3).check wireFmt] = none ∧
     (s.desc 0 1).fmt = (s.desc 0 3).fmt ∧ (s.desc 0 1).cols = (s.desc 0 3).cols ∧
     ((s.ready 0 7 0x63).map fun e => (s.jobAt e == some 0) &&
       ((((s.issue 0 7 e).takeOrd 0 .dispatch 0).1.access .collective coPlace ({ a := (s.desc 0 2).base, n := 4 } :: (s.desc 0 1).all)
         ((s.desc 0 3).blockSpans 0 1 0 1)).2 == none)) = some true) ∧
    (let s := atQ 7 (iw 0x64 (da := 5) (db := 1)) (withDesc [5, 5, 5] (withJob { job5 with disps := [dispatched] }))
     ((s.job 0).disps.filter fun y => y.complete && y.ins.d = 0).getLast? = some dispatched ∧
     firstTrap [(s.desc 0 1).check wireFmt, (s.desc 0 3).check fmtOk] = none ∧ (s.desc 0 4).valid = false ∧
     ((s.ready 0 7 0x64).map fun e => (s.jobAt e == some 0) &&
       ((((s.issue 0 7 e).takeOrd 0 .combine 0).1.access .collective coPlace (s.desc 0 1).all ((s.desc 0 3).blockSpans 0 1 0 1)).2 == none)) = some true) ∧
    (let s := atQ 7 (iw 0x66 (da := 5)) withJob
     (s.ready 0 7 0x66).map s.jobAt = some (some 0)) := by decide +kernel

/-- UP.COMMIT from the home Truss; a second one; and one from Truss 0 where Truss 1 is the home. -/
theorem witness_UpCommitComesFromHomeOnce :
    (let s := atQ 7 (iw 0x83 (da := 5)) withJob
     (s.ready 0 7 0x83).map s.jobAt = some (some 0) ∧ (s.job 0).home = 0 ∧ s.commit.cjob = none ∧ s.commit.ins = none ∧
       s.commit.owed = false) ∧
    (let s := (atQ 7 (iw 0x83 (da := 5)) withJob).modCommit fun m => { m with cjob := some 0, ins := some ⟨0, 9⟩ }
     (s.ready 0 7 0x83).map s.jobAt = some (some 0) ∧ s.commit.cjob = some 0 ∧ s.commit.ins.isSome = true) ∧
    (let s := atQ 7 (iw 0x83 (da := 5)) (withJob { job5 with home := 1 })
     (s.ready 0 7 0x83).map s.jobAt = some (some 0) ∧ (s.job 0).home ≠ 0) := by decide +kernel

theorem witness_AbandonmentKeepsTheCastVote : let s := on.modCommit fun m => { m with ins := some ⟨0, 0⟩, cast := some true }
    s.commit.ins.isSome = true ∧ s.commit.cast = some true := ⟨rfl, rfl⟩

theorem witness_OutcomeFlipsArmedGroups : let s : State := { grouped.setTable (gKey 1 0) 0x200000501 with pins := { on.pins with twin := false } }
    Sparse.wf (0 : Word64) s.table = true ∧ s.pins.twin = false ∧ s.gValid 1 = true ∧ s.gArmed 1 = true ∧ grouped.gArmed 1 = false := by
  decide +kernel

theorem witness_UpInstructionsStart : let s := atQ 7 (iw 0x80 (m := 1) (cr := 31)) grouped
    (s.ready 0 7 0x80).isSome = true ∧ s.inert = false ∧
    ((atQ 7 (iw 0x81 (da := 1)) grouped).ready 0 7 0x81).isSome = true ∧ ((atQ 7 (iw 0x82 (da := 1)) grouped).ready 0 7 0x82).isSome = true ∧
    grouped.gValid 1 = true ∧ (grouped.openJob (grouped.gJob 1)).isSome = true := by decide +kernel

/-- A packet of job 5 from its one member, of some kind, in attempt 0. -/
def packet5 : Packet := { noPacket with job := 5 }

def twoMembers : JobCtx := { job5 with members := [0, 1], jr := { compat := 1 } }

theorem witness_PacketsActByKind : on.isLive 46 = true ∧ on.pins.resetN = true ∧
    (∀ k ∈ [Kind.joinAck, .agree, .reduce, .vote, .dispatch, .dispatchEnd, .combine, .combineEnd, .drain, .abandon],
      ∃ j ∈ [0], ∃ m ∈ [1], (withJob twoMembers).gutterSettle.verdict (ofKind k { packet5 with src := 1 }) = .lands j m) ∧
    (∀ n ∈ [1, 2, 3, 4], (withJob twoMembers).gutterSettle.verdict (ofPhase n { packet5 with src := 1 }) = .lands 0 1) := by decide +kernel

theorem witness_PacketsActByKind_buckets : ∀ k ∈ [Kind.bucketRs, .bucketAg],
    (withJob { job5 with members := [0, 1], buckets := [(0, some { eb := some 0, own := [(0, {})] })] }).gutterSettle.verdict
      (ofKind k { packet5 with src := 1 }) = .lands 0 1 := by decide +kernel

/-- A packet of each kind finds room and nothing before it; two held ones of 128 KiB each leave a third none. -/
theorem witness_PacketsActByKind_room :
    (let s := (withJob twoMembers).gutterSettle
     packet5.dest = s.coord.inForce ∧ ({ packet5 with dest := 9 } : Packet).dest ≠ s.coord.inForce ∧
     (∀ k ∈ [Kind.join, .joinAck, .bucketRs, .reduce, .commit], let p := ofKind k { packet5 with src := 1 }
      s.pathOf p = none ∧ (s.noRoom (s.pathOf p) p || s.notHead (s.pathOf p) p) = false ∧
      (s.takeInbox (s.pathOf p) p).behind (s.pathOf p) p = false) ∧
     ∀ k ∈ [Kind.joinAck, .reduce], let p := ofKind k { packet5 with src := 1 }
      (s.takeInbox (s.pathOf p) p).fate (s.pathOf p) p = .lands 0 1) ∧
    (let p := ofKind .reduce { packet5 with src := 1, flags := 0x10 }
     let h := (List.range 8192).map fun _ => (p, (none : Path))
     ({ withJob twoMembers with held := h } : State).noRoom none p = true) := by decide +kernel

theorem witness_StrayPacketsChangeNothing : (withJob).verdict { packet5 with kind := 0 } = .badKind ∧ on.verdict packet5 = .noJob ∧
    withJob.verdict { packet5 with gen := 1 } = .oldGen ∧ withJob.verdict { packet5 with src := 1, kind := 6 } = .notMember ∧
    (withJob { job5 with attempt := 1 }).verdict { packet5 with kind := 6 } = .stale 0 ∧
    withJob.verdict { packet5 with kind := 6, flags := 0x10 } = .held ∧ (job5.index 0).isSome = true ∧
    skipsAge { packet5 with kind := 6 } = false ∧ ({ packet5 with flags := 0xF0 } : Packet).attempt = 15 := by decide +kernel

/-- Job 5 of three members with this device at index `k`, its commit job, its vote cast. -/
def voted (k : Nat) : State :=
  (withJob { job5 with members := [0, 1, 2], self := k }).modCommit fun m => { m with cjob := some 0, cast := some true, ins := some ⟨0, 0⟩ }

def andVote : Red := { ins := ⟨0, 0⟩, op := 3, seq := 9, view := [], own := [(0, 0, [Num.one])] }

theorem witness_CollectiveTimersAct :
    (let s := withJob { job5 with buckets := [(0, some { landed := (List.range (job5.jr.blocks 0)).map fun j => (j, {}) })] }
     (s.job 0).state ≠ 0 ∧ ((s.job 0).bucket 0).isLanded = false ∧ ((s.job 0).bucket 0).landed.length = (s.job 0).jr.blocks 0 ∧
       0 < (s.job 0).jr.blocks 0 ∧ Memory.wf s.mem = true ∧ ∀ u ∈ touchedUnits ((s.job 0).jr.entry 0) 16, s.poisonAt u = false) ∧
    ((withJob { job5 with reds := [andVote] }).waitsPackets 0 = true ∧ on.commit.abandoned = false) ∧
    (let s := withJob { job5 with state := 2, members := [0, 1], drainer := some ⟨0, 0⟩ }
     (s.job 0).state = 2 ∧ (s.job 0).drainer.isSome = true ∧ (s.job 0).drained = false) ∧
    (((voted 0).commitJob).map (·.self) = some 0 ∧ ((voted 2).commitJob).map (·.self) = some 2 ∧ (voted 0).commit.cast.isSome = true ∧
      ((voted 2).commitJob).map (·.state) = some 1) ∧
    ((withJob { job5 with reds := [andVote] }).job 0).red .vote 9 = some andVote ∧
    (∃ m ∈ [({ slot := 0, ticket := 0, no := 1, size := 0 } : MirrorIn)], m.size ≤ 2048 * m.got.length) ∧
    (∀ k ∈ [20, 21], ∀ x ∈ (on.port k).inbox, x.2.kind ≠ mirrorAckKind) := by decide +kernel

/-- A packet for coordinate 7 comes to a device of coordinate 0 whose port 0 is UP and whose path entry 0 names it for every job. -/
def relaying : State :=
  ((on.modPort 0 fun q => { q with state := .up, nlevel := 1 }).setTable 0 0xFFFF00070003).setTable 1 1

theorem witness_CollectiveTimersAct_relay : let p := { noPacket with dest := 7 }
    p.wf = true ∧ p.dest ≠ relaying.coord.inForce ∧ (relaying.port 3).inbox.contains (false, p) = false ∧ p.hops.toNat < 6 ∧
    6 ≤ ({ p with hops := 6 } : Packet).hops.toNat ∧ (relaying.takeRelay 3 false p).pathEntry 7 0 = some 0 ∧
    ((relaying.takeRelay 3 false p).eligible 0 p.plevel.toNat).head? = some 0 := by decide +kernel

/-! ### Witnesses: table entries, program runs, cores -/

/-- The entry of group 1 as written before its VALID: buffers at 0x100000 and 0x200000 of 256 bytes, one element, NREC at 0. -/
def groupWords : State := ((on.setTable (gKey 1 2) 1).setTable (gKey 1 3) 0x100000).setTable (gKey 1 4) 0x200000 |>.setTable (gKey 1 5) 256

theorem witness_GroupsAreRegisteredWhenLegal : on.isLive 59 = true ∧ hubDark.isLive 59 = false ∧
    groupWords.gValid 1 = false ∧ groupWords.groupOk 1 0x501 = true ∧ on.gValid 4095 = false ∧ on.groupOk 4095 1 = false ∧
    grouped.gValid 1 = true ∧ grouped.gArmed 1 = false ∧ grouped.inPass 1 = false ∧ (grouped.setTable (gKey 1 0) 0x200000501).gArmed 1 = true ∧
    (let s := ((on.setTable (rKey 255 0) 3).setTable (rKey 255 1) 0x100000001).setTable (rKey 255 2) 0x80000000000
     (s.rowStep 255).valid = true ∧ (s.rowStep 255).ok = true ∧ (∀ m ∈ s.groups, s.gRse m ≠ 255)) ∧
    (let s := (on.setTable (rKey 255 0) 3).setTable (gKey 1 0) 0xFF0000000001
     (s.rowStep 255).valid = true ∧ ∃ m ∈ s.groups, s.gRse m = 255) ∧ (on.rowStep 0).valid = false := by decide +kernel

theorem canonical_grouped : grouped.Canonical := ⟨rfl, by decide +kernel, by decide +kernel, rfl, rfl⟩

theorem witness_RollbackUndoesTheLastFlip :
    let s : State := ({ (grouped.setTable (gKey 1 15) 5) with ticket := 6, jobs := on.jobs }).modCommit fun m => { m with rollReady := true }
    s.commit.rollReady = true ∧ s.heard .keeper = true ∧ s.jobActive = false ∧ s.isLive 46 = true ∧ s.gValid 1 = true ∧ bits (s.gw 1 15) 0 48 = 5 ∧
    s.ticket.toNat = 6 ∧ s.gValid 0 = false ∧ grouped.commit.rollReady = false ∧ grouped.jobActive = true := by decide +kernel

/-- A pass A over group 1, whose one bucket has landed; its program at 0x100 is a single NOP. -/
def passing : State :=
  let c : JobCtx := { job5 with buckets := [(0, some { landed := [(0, {})], isLanded := true })] }
  let s := ((withJob c).setTable (gKey 1 0) 0x501).setTable (gKey 1 2) 1 |>.setTable (gKey 1 6) 1
  { s.write 0x100 [0x5A, 0x47, 0x56, 0x31, 1] with
    passes := [{ ins := ⟨0, 0⟩, b := false, slices := 1, imm := List.replicate 32 0, groups := [1],
                 work := [{ group := 1, k := 0, bucket := 0, first := 0, len := 1 }], seeds := List.replicate 4 (0, true, 12) }] }

theorem witness_ProgramRunsStart :
    (passing.nextInstance.map fun x => (x.2.1.group, x.2.2, passing.gProg 1 x.1.b)) = some (1, 0, 0x100) ∧
    ((headerOf (passing.bytes 0x100 256)).map fun x => (x.1, x.2.1)) = some (1, 0) ∧ passing.inBuffer 0x100 260 = true ∧
    passing.snooped [{ a := 0x100, n := 260 }] false = [] ∧ passing.mcl.wanted = [] ∧ passing.badUnits [{ a := 0x100, n := 260 }] = [] ∧
    passing.imageAt 0 ⟨0, 0⟩ 0x100 = none ∧ passing.inBuffer 0x100 256 = true ∧ passing.badUnits [] = [] ∧
    (let im : Image := { ins := ⟨0, 0⟩, addr := 0x100, code := [0], planes := [], datab := 0 }
     ({ passing with codes := vmod passing.codes 0 fun _ => [im] } : State).imageAt 0 ⟨0, 0⟩ 0x100 = some im) ∧
    on.nextInstance = none := by decide +kernel

def inst0 (b : Bool) (w : Nat) (row : Option Nat := none) : Inst :=
  { ins := ⟨0, 0⟩, b, w := { group := 1, k := 0, bucket := 0, first := 0, len := 1, row }, code := [BitVec.ofNat 32 w],
    planes := List.replicate 8 (0, 5, 0), datab := 0, missed := 0, count := 0 }

/-- Core 63 of a device in pass A or B stands at a word. -/
def atWord (b : Bool) (w : Nat) (row : Option Nat := none) : State :=
  (match passing.passes with
   | p :: _ => { passing with passes := [{ p with b, work := [{ group := 1, k := 0, bucket := 0, first := 0, len := 1, started := true },
                                                                   { group := 1, k := 1, bucket := 0, first := 0, len := 1 }] }] }
   | [] => passing).modCore 63 fun c => { c with inst := some (inst0 b w row), s := vmod c.s 1 fun _ => 1 }

def runs (s : State) (op : Nat) : Bool := match s.atCore 63 op with | .run _ _ _ => true | _ => false

/-- Each instruction of the tables with fields of zero stands at core 63; the first list is that of the lane-wise ones. -/
theorem witness_core_instructions :
    (∀ op ∈ [0x10, 0x11, 0x12, 0x13, 0x14, 0x15, 0x16, 0x17, 0x1A, 0x20, 0x21, 0x22, 0x23, 0x24, 0x25, 0x26, 0x27],
      runs (atWord false (op * 2 ^ 26)) op = true ∧ runs (atWord false (op * 2 ^ 26 + 0x80)) op = true) ∧
    (∀ op ∈ [0x00, 0x01, 0x02, 0x03, 0x04, 0x05, 0x07, 0x08, 0x09, 0x0A, 0x0B, 0x0C, 0x0E, 0x0F, 0x18, 0x19, 0x28, 0x29, 0x2A, 0x2B, 0x2C, 0x2D,
      0x30], runs (atWord false (op * 2 ^ 26)) op = true) := by decide +kernel

theorem witness_CoreInstructionsWriteTheirDestination :
    ((atWord false 0).passOf (inst0 false 0)).isSome = true ∧ (inst0 true 0 (some 7)).w.row = some 7 ∧
    (∀ f ∈ [0, 4, 5], runs (atWord true (0x0D * 2 ^ 26 + 32 * f) (some 7)) 0x0D = true ∧ gF (0x0D * 2 ^ 26 + 32 * f) = f) ∧
    (∀ f ∈ [0, 1, 2], runs (atWord false (0x0E * 2 ^ 26 + 32 * f)) 0x0E = true ∧ gF (0x0E * 2 ^ 26 + 32 * f) = f) ∧
    (inst0 false 0).planes.getD 7 (0, 15, 0) = (0, 5, 0) := by decide +kernel

theorem witness_BranchesFaultAndEnd :
    (let i := inst0 false 0xFFFF
     ((0 + 1 : Nat) : Int) + (BitVec.ofNat 16 0xFFFF).toInt = 0 ∧ (0 : Int) < i.code.length ∧
     ((0 + 1 : Nat) : Int) + (BitVec.ofNat 16 0).toInt = i.code.length) ∧
    ((atWord false 0).core 63).inst = some (inst0 false 0) ∧ (on.regRaw 49 0x52C).getLsbD 5 = false ∧
    (let s := atWord false 0x4000000
     Memory.wf s.mem = true ∧ s.rangeOk (s.gNrec 1) 32 = true ∧ s.badUnits [{ a := s.gNrec 1, n := 32 }] = [] ∧
     s.snooped [{ a := s.gNrec 1, n := 32 }] true = [] ∧ s.mcl.wanted = [] ∧ (∀ q ∈ s.passes, q.b = false) ∧
     ((s.passOf (inst0 false 0)).any fun p => p.work.any fun y => y.group = 1 && y.k ≠ 0 && !y.finished) = true) ∧
    (∀ op ∈ [3, 4], runs (atWord false (op * 2 ^ 26 + 2 ^ 16 + 0xFFFF)) op = true) ∧ ((atWord false 0).core 63).sr 1 ≠ 0 := by decide +kernel

/-- The window 4 (scratch), plane 0: a load with every lane active, a scalar load and the stores. -/
theorem witness_CoreLoadsAndStores :
    ∀ op ∈ [0x38, 0x39, 0x3A, 0x3B], let w := op * 2 ^ 26 + 4 * 2 ^ 13
      let s := (atWord false w).modCore 63 fun c => { c with inst := some { inst0 false w with datab := 512 } }
      let i := { inst0 false w with datab := 512 }
      let sc := op = 0x3A ∨ op = 0x3B
      runs s op = true ∧ Memory.wf s.mem = true ∧ gW w = 4 ∧ s.windowBad i 4 0 (decide (op % 2 = 1)) = false ∧
      ((lanesOf (decide sc) ((s.core 63).pr (gMp w))).all fun j => (s.spot (s.core 63) i 4 0 (laneElem (s.core 63) w j (decide sc))).isSome) = true ∧
      ((lanesOf (decide sc) ((s.core 63).pr (gMp w))).all fun j =>
        ((s.spot (s.core 63) i 4 0 (laneElem (s.core 63) w j (decide sc))).map (s.loadOpen 63 4)).getD false == false) = true ∧ s.mcl.wanted = [] := by
  decide +kernel

/-! ### Witnesses: ports, the link, power, the Keeper -/

def train (twin : Bool) (bad : BitVec 8 := 0) : TrainInfo :=
  { peerCoord := 9, peerTwin := twin, peerLevel := 1, laneBad := bad, credBulk := 16, credCtrl := 16 }

def port (k : Nat) (f : Port → Port) (s : State := on) : State := { s with coord := { valid := true, inForce := 3, pending := none } }.modPort k f

theorem witness_PortsTrainAndFall :
    (let s := port 19 fun q => { q with state := .training, advert := 1 }
     s.Calm ∧ s.isLive (portDom 19) = true ∧ s.heard .keeper = true ∧ (s.port 19).state = .training ∧
     s.coordAt 19 = true ∧ (train false).peerTwin = isTwin 19 ∧ (s.port 19).advert ≠ 0 ∧ (train false).peerLevel ≠ 0 ∧
     lanesOk (s.port 19).degrade (train false).laneBad = true ∧ (train true).peerTwin ≠ isTwin 19) ∧
    (let s := port 21 fun q => { q with state := .training, advert := 1 }
     (s.port 21).state = .training ∧ s.coordAt 21 = true ∧ (train true).peerTwin = isTwin 21 ∧ (s.port 21).advert ≠ 0 ∧ s.isLive (portDom 21) = true) ∧
    lanesOk true 0xF0 = true ∧ lanesOk false 0xF0 = false ∧
    (((port 0 fun q => { q with state := .up }).port 0).state = .up ∧ (port 0 fun q => { q with state := .up }).coordAt 0 = true ∧ (on.port 0).replay = [] ∧ (on.port 0).waiting = []) ∧
    (let q := (port 0 fun q => { q with state := .down, retrains := 2 }).port 0
     q.state = .down ∧ q.retrains < q.maxRetrains) ∧
    ((port 0 fun q => { q with state := .disabled }).port 0).state = .disabled ∧
    (on.isLive 45 = true ∧ (on.port 20).state ≠ .up ∧ (on.port 21).state ≠ .up) ∧
    (let s := (port 20 fun q => { q with state := .disabled }).modPort 21 fun q => { q with state := .disabled }
     ∀ y, y = 20 ∨ y = 21 → (s.port y).state = .disabled ∧ (s.port y).disable = false) ∧
    (let s : State := { on with coord := { valid := false, inForce := 0, pending := some 5 } }
     s.coord.pending = some 5 ∧ s.jobActive = false ∧ (withJob job5 s).jobActive = true ∧ ∀ y < 22, (s.port y).state ≠ .up) := by
  refine ⟨⟨calm_of ⟨rfl, rfl, rfl, rfl⟩ rfl, by decide +kernel⟩, by decide +kernel, by decide +kernel, by decide +kernel, by decide +kernel,
    by decide +kernel, by decide +kernel, by decide +kernel, ?_, by decide +kernel⟩
  rintro s y (rfl | rfl) <;> decide +kernel

def upPort : State := port 19 fun q => { q with state := .up, replay := [(noFrame, [])] }

theorem witness_FramesAdvanceInOrder : noFrame.wf = true ∧ upPort.mcl.wanted = [] ∧ (upPort.port 19).state = .up ∧
    upPort.isLive (portDom 19) = true ∧ noFrame.fseq = (upPort.port 19).rxSeq ∧ (∀ c ∈ noFrame.cells, c.used = false) ∧ noFrame.nak = false ∧
    ({ noFrame with fseq := 0xFFF } : Frame).fseq ≠ (upPort.port 19).rxSeq ∧ (upPort.port 19).waiting = [] ∧ (upPort.port 19).retBulk = 0 ∧
    (upPort.port 19).retCtrl = 0 ∧ (upPort.port 19).nakDue = false ∧ ((upPort.port 19).replay.map fun x => x.1.fseq) = [noFrame.aseq] ∧
    (on.port 0).state ≠ .up := by decide +kernel

/-- A used cell with a CRC one above its own. -/
theorem witness_FramesAdvanceInOrder_crc : ∃ c : Cell, c.used = true ∧ c.wf = true ∧ c.crcOf ≠ c.crc.toNat := by
  have same (c : Cell) (x : BitVec 16) : ({ c with crc := x } : Cell).crcOf = c.crcOf := rfl
  have keep (c : Cell) (x : BitVec 16) : ({ c with crc := x } : Cell).wf = c.wf := rfl
  have h (c : Cell) : ({ c with crc := BitVec.ofNat 16 (c.crcOf + 1) } : Cell).crcOf ≠ (BitVec.ofNat 16 (c.crcOf + 1)).toNat := by
    rw [same, BitVec.toNat_ofNat]
    omega
  exact ⟨{ ({ noCell with used := true } : Cell) with crc := _ }, rfl, (keep _ _).trans (by decide +kernel), h _⟩

theorem witness_TicketAndAbsentRegisters : (on.jobActive = false ∧ on.heard .keeper = true ∧ hubDark.isLive 59 = false) ∧ on.isLive 59 = true ∧ withJob.jobActive = true ∧ on.Canonical ∧
    (60 ≤ 0x3C0000 / 0x10000 ∧ 0xFFFFFFC < 0x10000000 ∧ 0xFFFFFFC % 4 = 0) ∧ (on.isLive 0 = true ∧ findReg 0 (decodeOff 0 0x7FFC) = none) ∧
    (findReg 0 (decodeOff 0 0)).isSome = true ∧ ([0, 0, 0, 0] : List Byte).length = 4 :=
  ⟨by decide +kernel, by decide +kernel, by decide +kernel, ⟨rfl, rfl, rfl, rfl, rfl⟩, by decide +kernel, by decide +kernel, by decide +kernel, rfl⟩

/-- The link is UP. -/
def linked : State := on.modMcl fun m => { m with link := 2, evSize := 64 }

def served (s : State) : Bool := match s.hostRange 0 256 with | .served => true | _ => false
def isUnmapped (s : State) : Bool := match s.hostRange 0xFFFFFFFFFF00 1 with | .unmapped => true | _ => false
/-- Bytes of stack 7's slice, which is dark. -/
def isDark (s : State) : Bool := match ({ s with live := Vector.replicate 60 false } : State).hostRange 0x8038000000 1 with | .dark _ => true | _ => false

theorem witness_HostAccessesAreAnswered : linked.mclUp = true ∧ linked.Calm ∧ linked.Canonical ∧
    served linked = true ∧ isUnmapped linked = true ∧ isDark linked = true ∧ linked.mcl.wrAhead = false ∧ linked.mcl.recalling = false ∧ (placeOf 0).twist = 0 ∧ linked.mcl.snoop = [] ∧ linked.mcl.snoop.length < 262144 ∧
    linked.badUnits [{ a := 0, n := 256 }] = [] ∧ linked.mcl.uw.find? (·.tag = 9) = none ∧ (placeOf 0xF000000000).region.isWord = true ∧
    (placeOf 0).region.isWord = false ∧
    (let r : UwReq := { tag := 9, ins := ⟨0, 0⟩, kind := .write, len := 64 }
     [r].find? (·.tag = 9) = some r) ∧
    ([({ line := 0, own := true } : Snoop)].any fun x => x.line = 0) = true :=
  ⟨rfl, calm_of ⟨rfl, rfl, rfl, rfl⟩ rfl, ⟨rfl, rfl, rfl, rfl, rfl⟩, by decide +kernel⟩

theorem crc_of_zeros (n : Nat) : (List.replicate n 0).foldl (crcByte 64 0x42F0E1EBA9EA3693) 0 = 0 := by
  induction n with
  | zero => rfl
  | succ n ih =>
    have h : crcByte 64 0x42F0E1EBA9EA3693 0 0 = 0 := by decide +kernel
    rw [List.replicate_succ, List.foldl_cons, h, ih]

/-- The CRC-64 of a flit of zeros is zero: a right one and a wrong one. -/
theorem witness_LinkRingAndMailbox_crc : noFlit.crcOf = noFlit.crc.toNat ∧ ({ noFlit with crc := 1 } : Flit).crcOf ≠ 1 := by
  have h : noFlit.crcOf = 0 := by
    have z : noFlit.msg ++ leBytes noFlit.ctrl 8 = List.replicate 248 0 := by decide +kernel
    rw [Flit.crcOf, z, crc_of_zeros]
  exact ⟨h, by show noFlit.crcOf ≠ 1; rw [h]; decide⟩

theorem witness_LinkRingAndMailbox : (linked.heard .host = true ∧ on.heard .keeper = true ∧ decodeOff 50 4 = 4 ∧ decodeOff 50 0x8C = 0x8C ∧
    (findReg 50 0x8C).isSome = false) ∧ on.isLive 50 = true ∧ on.pins.resetN = true ∧ on.mcl.wanted = [] ∧ noFlit.wf = true ∧ linked.mcl.link = 2 ∧
    noFlit.fseq = linked.mcl.rxSeq ∧ on.mcl.link = 0 ∧ 9 ≤ on.boot.order ∧ linked.mcl.uw = [] ∧
    (on.modMcl fun m => { m with link := 1 }).mcl.link = 1 ∧ ((0xFFFF0000 : BitVec 32) &&& 0xFFFF = 0) ∧
    (let s : State := { linked.setField 50 0x64 0 1 1 with evq := [linked.mkEvent 0x282 16 0 0 0] }
     s.evEnabled = true ∧ s.mcl.lost = 0 ∧ s.ringRoom ≠ 0) ∧
    (let m := (linked.modMcl fun m => { m with dbWait := true, dbOwed := true }).mcl
     m.link = 2 ∧ m.dbWait = true ∧ m.dbOwed = true) ∧
    (decodeOff 50 0x80 = 0x80 ∧ (findReg 50 0x80).isSome = true ∧ (findReg 50 0).isSome = true) ∧ on.mcl.snoop = [] := by decide +kernel

theorem witness_PowerFollowsItsRules : on.pwrcRuns = true ∧
    (let p : Pwrc := { on.pwrc with gpend := some 46 }
     p.gpend = some 46 ∧ p.ramp = none ∧ p.gNow = false ∧ on.jobActive = false ∧ withJob.jobActive = true) ∧
    (let p : Pwrc := { on.pwrc with ramp := some 46 }
     p.switched = false ∧ p.gnow < 46 ∧ (0 : Nat) ≤ p.gnow) ∧
    on.isLive 59 = true ∧ on.stretched 59 = false ∧ on.sensed 59 = true ∧ on.pwrc.trip = false ∧ on.sensed (24 + 7) = true ∧
    on.isLive 46 = true ∧ ({ on.pwrc with hold := true } : Pwrc).holdDone = false ∧ on.pwrc.arr ≤ 256 ∧ on.pwrc.hold = false := by decide +kernel

theorem witness_CountersSnapshotFreezeClear : Sparse.wf 0 on.ctr.val = true ∧ Sparse.wf 0 on.ctr.snap = true ∧ Sparse.wf false on.ctr.sat = true ∧
    2 ^ 48 - 1 ≤ on.count 0 + (2 ^ 48 - 1) ∧ on.isLive 51 = true ∧ on.ctr.snapBusy = false ∧ on.ctr.snapNext = [] ∧
    (on.modCtr fun c => { c with snapBusy := true, frzBusy := true }).ctr.snapBusy = true ∧
    (on.modCtr fun c => { c with snapNext := [(1, 1)] }).ctr.snapNext = (1, 1) :: [] ∧ keyDom 16 = 1 ∧ on.isLive (portDom 21) = true ∧
    on.heard .keeper = true ∧ on.mayCount .keeper = true ∧ linked.heard .host = true ∧ linked.mayCount .host = false := by decide +kernel

theorem witness_ResetsKeepAndClear : on.pins.pwrok = true ∧ on.pins.resetN = true ∧ on.pwrc.trip = false ∧ on.mcl.link ≠ 2 ∧
    (on.modPins fun p => { p with pwrok := false }).pins.pwrok = false ∧ (on.modPins fun p => { p with resetN := false }).pins.resetN = false ∧
    ({ on with pwrc := { on.pwrc with trip := true } } : State).pwrc.trip = true ∧
    on.mcl.snoop = [] ∧ on.tap.extest = false ∧ (on.modLoft 7 fun l => { l with reconf := true }).loftAt 7 ≠ on.loftAt 7 := by decide +kernel

/-- A device that boots, its order last completed given. -/
def booting (n : Nat) (warm : Bool := false) : State := { on with keeper := State.reset.keeper, boot := { order := n, warm } }

theorem witness_BootRunsInOrder : on.pins.pwrok = true ∧ on.pins.resetN = true ∧ on.pins.p12v = true ∧ on.pins.ref0 = true ∧
    (booting 2).reads = true ∧ (booting 9).keeper.bstate = 0 ∧ (booting 9).boot.order = 9 ∧ (booting 4).boot.warm = false ∧ (booting 6 true).boot.warm = true ∧
    (booting 4).bist.busy = false ∧ (booting 4).wantsBist = false ∧ (booting 2).hdr false = false ∧ (booting 2).hdr true = false ∧
    (booting 2).pins.ready = false ∧ ({ on.keeper with bstate := 2 } : Keeper).bstate = 2 := by decide +kernel

theorem witness_SelfTestAndMailboxServices : (on.heard .keeper = true ∧ on.heard .host = false ∧ on.mcl.wanted = [] ∧ on.mbReady = false ∧
    on.keeper.signing = []) ∧ on.isLive 57 = true ∧ on.bist.busy = false ∧ withJob.jobActive = true ∧
    ((on.modTr 3 fun t => { t with run := true }).truss.toList.any (·.run)) = true ∧
    (let b : Bist := { busy := true, cur := 59, todo := [] }
     b.busy = true ∧ b.cur < 60) ∧ on.isLive 51 = true ∧
    (let s : State := { linked.modMcl fun m => { m with mbox := some 0 } with keeper := { on.keeper with spirel := true } }
     s.mbReady = true ∧ s.flashDenied 0 0x10000 = true ∧
     ({ s with keeper := { s.keeper with spirel := false } } : State).flashDenied 0x1000000 0x10000 = false ∧ s.keeper.fallback = false ∧ ({ s.keeper with fallback := true } : Keeper).fallback = true) ∧
    (List.replicate 32 (0 : Byte)).length = 32 := by decide +kernel

theorem witness_SidebandAndTapCommands : (on.pins.pwrok = true ∧ on.pins.resetN = true ∧ on.pins.p12v = true ∧ on.pins.ref0 = true ∧
    on.pwrc.hold = false ∧ on.mcl.wanted = [] ∧ on.jobActive = false ∧ withJob.jobActive = true) ∧ on.keeper.bstate = 1 ∧ on.keeper.held = [] ∧ on.keeper.i3cAddr = none ∧
    ({ on.keeper with i3cAddr := some 0x08 } : Keeper).i3cAddr.isSome = true ∧ (placeOf 0xF000000000).region.isWord = true ∧
    (placeOf 0).region.isWord = false := by decide +kernel

theorem witness_FramesOfCommands : (∃ t, exec .getbcr on = .next t) ∧ (∃ t, exec .bypass on = .next t) ∧
    (∃ t, exec (.objectRegister 1 0) on = .next t) ∧ (∃ t, exec (.add 0 0) on = .next t) ∧ (∃ t, exec (.vld 0 0) on = .next t) ∧
    (∃ t, exec .status on = .next t) ∧ (∃ t, exec (.rd 0 0 4) on = .next t) ∧ (∃ t, exec (.estimate 9) on = .next t) :=
  ⟨⟨_, rfl⟩, ⟨_, rfl⟩, ⟨_, rfl⟩, ⟨_, rfl⟩, ⟨_, rfl⟩, ⟨_, rfl⟩, ⟨_, rfl⟩, ⟨_, rfl⟩⟩

theorem witness_ProtectedStateHasItsWriters : (∃ t, exec (.csrWr 0 0 []) on = .next t) ∧ (∃ t, exec (.flerase 0 0) on = .next t) :=
  ⟨⟨_, rfl⟩, ⟨_, rfl⟩⟩

/-- SHAKE256 of the empty string, as FIPS 202 publishes it. -/
def emptyDigest : List Byte := [0x46, 0xb9, 0xdd, 0x2b, 0x0b, 0xa8, 0x8d, 0x13, 0x23, 0x3b, 0x3f, 0xeb, 0x74, 0x3e, 0xeb, 0x24,
  0x3f, 0xcd, 0x52, 0xea, 0x62, 0xb8, 0x1b, 0x82, 0xb5, 0x0c, 0x27, 0x64, 0x6e, 0xd5, 0x76, 0x2f]

theorem test_shake256 : shake256 [] = emptyDigest := by decide +kernel

/-- A device at order 2 whose slot A holds an image without a body, its header found valid. -/
def imaged : State :=
  { on with
    keeper := { State.reset.keeper with
      flash := [.write 0 (List.replicate 32 0 ++ emptyDigest ++ List.replicate 192 0), .erase 0] }
    boot := { order := 2, hdrA := true } }

theorem witness_BootRunsInOrder_good : imaged.keeper.bstate = 0 ∧ imaged.boot.order = 2 ∧ imaged.reads = true ∧
    imaged.hdr false = true ∧ imaged.bodyOk false = true := by
  refine ⟨rfl, rfl, rfl, rfl, ?_⟩
  have h : imaged.flash (slotAt false) 256 = List.replicate 32 0 ++ emptyDigest ++ List.replicate 192 0 := by decide +kernel
  have n : fieldOf (List.replicate 32 0 ++ emptyDigest ++ List.replicate 192 0) 16 4 = 0 := by decide +kernel
  have d : ((List.replicate 32 0 ++ emptyDigest ++ List.replicate 192 0).drop 32).take 32 = emptyDigest := by decide +kernel
  simp only [State.bodyOk, h, n, d]
  exact decide_eq_true test_shake256

/-! ### Worked examples of spec/, and single commands -/

/-- A decimal number, given in 10000ths, to 30 fraction bits. -/
def dec (neg : Bool) (x : Nat) : Machine.Num := .fin neg ((x * 2 ^ 30 + 5000) / 10000) (-30)

/-- 03_number_formats.md: one MXFP4 block of 7.6 and 0.3 under both rules. -/
theorem test_mxfp4_block :
    let x (rule : Nat) : Desc := Desc.ofWords [BitVec.ofNat 64 (3 + 4 * 4 + 256 * rule), 0, 0, 0x100000001, 1, 0, 0, 0]
    let l := dec false 76000 :: dec false 3000 :: List.replicate 30 Machine.Num.zero
    mxScale (x 0) l = 0x7F ∧ (mxElem (x 0) 0x7F .rne (dec false 76000)).code = 7 ∧ (mxElem (x 0) 0x7F .rne (dec false 3000)).code = 1 ∧
    mxScale (x 1) l = 0x80 ∧ (mxElem (x 1) 0x80 .rne (dec false 76000)).code = 6 ∧ (mxElem (x 1) 0x80 .rne (dec false 3000)).code = 0 := by
  decide +kernel

/-- 03_number_formats.md: one ZB8 block at E_b = -10, escaped by its lane 2. -/
theorem test_zb8_block : let k := (on.encodeBlock 0 false (-10) ([dec false 371, dec true 42, dec false 1300] ++ List.replicate 29 Machine.Num.zero)).2
    k.esc = true ∧ k.lanes.take 4 = [38, -4, 133, 0] ∧ k.wire.take 7 = [0x40, 0x26, 0, 0xFC, 0xFF, 0x85, 0] ∧ k.wire.length = 65 := by
  decide +kernel

/-- 03_number_formats.md: 0.1 plus 1e-9 stays in binary32, and moves by 34 units in Z40. -/
theorem test_small_update : let w := dec false 1000
    let u : Machine.Num := .fin false 1152921505 (-60)
    toB32 ((rneB32 w).add u) = toB32 w ∧ toZ40 ((rneZ40 w).add u) = toZ40 w + 34 := by decide +kernel

/-- 10_collectives.md: lane 7 of a block round a ring of four, 58 + 54 + 38 + 32, and under DROP 58 + 0 + 38 + 32. -/
theorem test_ring_of_four :
    let own (v : Int) (d : Nat) : Block := { lanes := [v] ++ List.replicate 31 0, drops := d }
    let a := adder (some (adder none (own 58 0))) (own 54 0)
    let b := adder (some a) (own 38 0)
    let c := adder (some b) (own 32 0)
    a.lanes.head? = some 112 ∧ a.esc = false ∧ a.maxq = 112 ∧ b.lanes.head? = some 150 ∧ b.esc = true ∧ c.lanes.head? = some 182 ∧
    c.maxq = 182 ∧
    let d := adder (some (adder (some (adder (some (adder none (own 58 0))) (own 0 1))) (own 38 0))) (own 32 0)
    d.lanes.head? = some 128 ∧ d.esc = true ∧ d.drops = 1 := by decide +kernel

/-- 04_accumulation_and_scaling.md: the tensor scale of E5M2 with MARGIN 1 for 3.1, 2.9, 4.4, 3.8 and 9.0. -/
theorem test_scale_exponents : ([31000, 29000, 44000, 38000, 90000].map fun x => scaleExp 1 (dec false x) 1) = [13, 13, 12, 12, 11] := by
  decide +kernel

/-- 05_backward_pass.md: element (70, 65) of a BF16 tensor of pitch 3 stands at BASE + 16,770. -/
theorem test_element_address : (Desc.ofWords (dw 5 0x100 100 70 3)).elem 70 65 = 0x10000 + 16770 := by decide +kernel

/-- 13_fabric_and_twin_links.md: two path entries, jobs 5 and 9. -/
theorem test_two_routes :
    let s := (((on.setTable 14 0xFFFF0A120055).setTable 15 0xF0).setTable 16 0xFF000A000003).setTable 17 0x1000
    s.pathEntry 0x0A12 5 = some 7 ∧ s.pathEntry 0x0A30 9 = some 8 ∧ s.pathEntry 0x0A12 9 = some 8 ∧ s.spread 7 = true ∧
    (s.modPort 12 fun q => { q with state := .up, nlevel := 1 }).pathAt 0x0A30 9 2 = false ∧
    (s.modPort 12 fun q => { q with state := .up, nlevel := 1 }).pathAt 0x0A30 9 1 = true := by decide +kernel

/-- 15_power_and_clocking.md: the cap is halved to 1,400 W; n goes 115, 154, 167, 171, 173, 173. -/
theorem test_cap_halved :
    let next (n : Nat) : Nat := ({ on.pwrc with mcCap := 1400, n } : Pwrc).update 16 (800 * 256 + 1850 * (256 - n)) 256
    next 0 = 115 ∧ next 115 = 154 ∧ next 154 = 167 ∧ next 167 = 171 ∧ next 171 = 173 ∧ next 173 = 173 := by decide +kernel

/-- 16_registers.md: a masked write of VISIT_MAX through an alias, clamped to 128. -/
theorem test_masked_write :
    let s := (on.setField 18 0x200 0 1 1).wordWrite .host 0x00F000120604 [0xC8, 0, 0xFF, 0]
    (s.wordRead .host 0x00F000120204 4).2 = 0x180 := by decide +kernel

/-- 06_execution_model.md: the weight of spar 5 set by a masked write. -/
theorem test_spar_weight : let s := on.wordWrite .host 0x00F000110084 [0x20, 0, 0xF0, 0]
    (s.regRaw 17 0x84).toNat = 0x1121 := by decide +kernel

/-- A step answers a next state that passes a check. -/
def gives (c : Instr) (s : State) (p : State → Bool) : Bool := match step { s with pending := [c] } with | .next t => p t | _ => false

/-- R227: the two halves of the latch. -/
theorem test_alat : gives (.syAlat 0) (atDec (iw 2 (m := 1) (da := 0xABC) (db := 0xDEF))) (fun t => (t.tr 0).alat = 0xABCDEF000000) = true := by
  decide +kernel

/-- R230, R190: SY.SPADD adds DB to the count of spar CR, and R231 clears it. -/
theorem test_spadd : gives (.sySpadd 0) (atDec (iw 4 (db := 7) (cr := 3))) (fun t => (t.tr 0).spar 3 = 7 && (t.tr 0).word = 1) = true := by
  decide +kernel
theorem test_spclr : gives (.sySpclr 0) ((atDec (iw 5 (cr := 3))).addSpar 0 3 9) (fun t => (t.tr 0).spar 3 = 0) = true := by decide +kernel

/-- R187: an unsatisfied wait holds the NOP at decode. -/
theorem test_nop_waits : gives (.nop 0) (atDec (iw 0 (wa := 4))) (fun t => (t.tr 0).word = 0) = true := by decide +kernel

/-- R282: TRAP halts the Truss with cause SOFTWARE (0x12). -/
theorem test_trap : gives (.trap 0) (atDec (iw 0xF1 (db := 5))) (fun t => (t.tr 0).trapped && (t.tr 0).trap.cause = 0x12) = true := by
  decide +kernel

/-- R212: a reserved opcode takes OPCODE (0x01) at decode. -/
theorem test_reserved_opcode : gives (.instructionDecode 0) (atDec (iw 0xB0)) (fun t => (t.tr 0).trap.cause = 1) = true := by decide +kernel

/-- R107, R108: a BF16 product of 1.5 and 1 sums to 1.5. -/
theorem test_product : let s := runnable.write 0x9000000000 [0xC0, 0x3F]
    let x : TileRun := { mo := false, mov := s.desc 0 1, dst := s.desc 0 2, part := s.desc 0 3, total := s.desc 0 4, tr := false, seeded := false,
                         rows := (0, 1), seed := 0 }
    toB32 (s.accAt tile (tileGeo tile 768 1) x 0 0).total = 0x3FC00000 := by decide +kernel

/-- R404: SADDI of the immediate 0xFFFE, that is -2, to s1 = 1 gives -1. -/
theorem test_core_saddi : gives (.saddi 3 15) (atWord false (0x08 * 2 ^ 26 + 2 * 2 ^ 21 + 1 * 2 ^ 16 + 0xFFFE))
    (fun t => (t.core 63).sr 2 = 0xFFFFFFFFFFFFFFFF) = true := by decide +kernel

/-- R410: ADD of containers under SC: 1.0 + 1.0 = 2.0. -/
theorem test_core_add : gives (.add 3 15)
    ((atWord false (0x10 * 2 ^ 26 + 2 * 2 ^ 21 + 4 * 2 ^ 16 + 4 * 2 ^ 11 + 0x80)).modCore 63 fun c => c.setS 4 0x3F80000000000000)
    (fun t => (t.core 63).sr 2 = 0x4000000000000000) = true := by decide +kernel

/-- R411: the bits of EXP at 1 and of EXP2 at 3 lie within one unit of e = 2.B7E151628AED (hexadecimal) and of 8. -/
theorem test_special_brackets :
    let ends (n m : Nat) := (specialBracket n false m 0).map fun b => (Layout.z40.floorCode b.lo b.e, Layout.z40.ceilCode b.hi b.e)
    ends 3 1 = some (0x402DF85458, 0x402DF85459) ∧ ends 1 3 = some (0x40FFFFFFFF, 0x4100000001) := by decide +kernel

/-- R39: TICKET holds 48 bits. -/
theorem test_ticket_write : gives (.ticketWrite .host 0xFFFF000000000005) linked (fun t => t.ticket = 5) = true := by decide +kernel

/-- R563: the IDCODE. -/
theorem test_idcode : gives .idcode on (fun t => t.tap.dr = 0x10C883D5) = true := by decide +kernel

/-- R488: 125 degrees latches the trip. -/
theorem test_trip : gives (.islandTempRead 7 125) on (fun t => t.pwrc.trip && !t.isLive 7 && t.isLive 51) = true := by decide +kernel

/-- R467: a step above 46 is clamped. -/
theorem test_setgrant : gives (.setgrant 100 false) on (fun t => t.pwrc.gpend = some 46) = true := by decide +kernel

/-- R513: a saturated counter stays and sets SAT. -/
theorem test_counter_saturates : ((on.addCount 17 (2 ^ 48)).1).count 17 = 2 ^ 48 - 1 := by decide +kernel


/-- Three BF16 vectors (two beats each, R45) over a tile of one K slate and two column slates: 12 slots retire, the other 574 of each
of the six cycles are wasted (R525). -/
theorem test_run_counts_slots :
    let t : TileGeo := { kc := 32, k0 := 0, k1 := 32, kEnd := 768, q := 32, n0 := 0, n1 := 33 }
    let s := State.reset.injected 0 0 t false (3 * beatsOf 5)
    (s.count (keySlot 0 0), s.count (keySlot 0 1), s.count (keySlot 0 2), s.count (keyCyc 0)) = (12, 3444, 0, 6) := by decide

end Sys2Proof.Tests
end

section
/-! SUPPORT. A register read after a write, the bits of HUBNOC.STATUS, which no counting and no report clears (R495, R506), accesses of CSR space where
no register stands, and the TICKET word (R39). -/
namespace Sys2Proof.Machine

/-! ### A register read after a write -/

theorem State.regRaw_setRegRaw_same (s : State) (hs : s.Canonical) (dom off : Nat) (v : Half) :
    (s.setRegRaw dom off v).regRaw dom off = v := by
  obtain ⟨-, -, -, -, hregs⟩ := hs
  simp only [State.regRaw, State.setRegRaw, Sparse.get_put none _ _ _ hregs, if_true]
  by_cases hv : v = ((findReg (homeDom dom off) off).map RegDef.resetVal).getD 0
  · rw [if_pos hv]
    exact hv.symm
  · rw [if_neg hv]

theorem State.regRaw_setRegRaw_other (s : State) {dom off dom' off' : Nat} (v : Half)
    (h : homeDom dom' off' * 0x10000 + off' ≠ homeDom dom off * 0x10000 + off) :
    (s.setRegRaw dom off v).regRaw dom' off' = s.regRaw dom' off' := by
  simp only [State.regRaw, State.setRegRaw, Sparse.get_put_ne none h]

/-! ### Bits of HUBNOC.STATUS that are set -/

/-- Bit `k` of HUBNOC.STATUS is set, in a state whose stores are in canonical form. -/
def State.HasStatus (k : Nat) (s : State) : Prop := s.Canonical ∧ (s.regRaw 59 0).getLsbD k = true

theorem State.HasStatus.of_regs {k : Nat} {s t : State} (h : s.HasStatus k) (hc : t.Canonical) (hr : t.regs = s.regs) : t.HasStatus k := by
  refine ⟨hc, ?_⟩
  rw [← h.2]
  simp only [State.regRaw, hr]

/-- Setting bits of HUBNOC.STATUS sets them. -/
theorem State.hasStatus_orReg {s : State} (hs : s.Canonical) (m : Half) {k : Nat} (hk : m.getLsbD k = true) :
    (s.orReg 59 0 m).HasStatus k :=
  ⟨hs.orReg .., by simp [State.orReg, State.regRaw_setRegRaw_same s hs, hk]⟩

/-- Setting further bits of HUBNOC.STATUS clears none. -/
theorem State.HasStatus.orStatus {s : State} {k : Nat} (h : s.HasStatus k) (m : Half) : (s.orReg 59 0 m).HasStatus k := by
  obtain ⟨hs, hbit⟩ := h
  exact ⟨hs.orReg .., by simp [State.orReg, State.regRaw_setRegRaw_same s hs, hbit]⟩

/-- Setting bits of a PCSAT register leaves HUBNOC.STATUS alone. -/
theorem State.HasStatus.orPcsat {s : State} {k : Nat} (h : s.HasStatus k) (dom : Nat) (m : Half) : (s.orReg dom 0x8004 m).HasStatus k := by
  obtain ⟨hs, hbit⟩ := h
  refine ⟨hs.orReg .., ?_⟩
  rw [State.orReg, State.regRaw_setRegRaw_other]
  · exact hbit
  · rw [homeDom_report]
    omega

/-! ### Counting and reporting clear no bit of HUBNOC.STATUS -/

theorem State.HasStatus.addCount {s : State} {k : Nat} (h : s.HasStatus k) (key n : Nat) : (s.addCount key n).1.HasStatus k := by
  unfold State.addCount
  simp only
  split
  · exact (h.of_regs (t := (s.modCtr _).modCtr _) h.1 rfl).orPcsat ..
  · exact h.of_regs h.1 rfl

theorem State.HasStatus.bump {s : State} {k : Nat} (h : s.HasStatus k) (dom group index n : Nat) :
    (s.bump dom group index n).1.HasStatus k :=
  List.foldlRecOn (motive := fun p : State × List Nat => p.1.HasStatus k) _ _ h fun _ hp key _ => hp.addCount key n

theorem State.HasStatus.numbered {s : State} {k : Nat} (h : s.HasStatus k) (e : Event) : (s.numbered e).HasStatus k := h.of_regs h.1 rfl

theorem State.HasStatus.toQueue {s : State} {k : Nat} (h : s.HasStatus k) (e : Event) : (s.toQueue e).1.HasStatus k := by
  unfold State.toQueue
  split
  · exact h.of_regs h.1 rfl
  · split
    · exact (h.of_regs (t := s.modMcl _) h.1 rfl).orStatus _
    · exact h.of_regs h.1 rfl

theorem State.HasStatus.post {s : State} {k : Nat} (h : s.HasStatus k) (e : Event) : (s.post e).1.HasStatus k := (h.numbered e).toQueue _

theorem State.HasStatus.raiseEv {s : State} {k : Nat} (h : s.HasStatus k) (e : Event) : (s.raiseEv e).HasStatus k := by
  have counted := List.foldlRecOn (motive := fun q : State × List Nat => q.1.HasStatus k) (s.postItems (s.post e).1 e.domain.toNat (s.post e).2)
    (fun q x => ((q.1.bump x.1 1 x.2 1).1, q.2 ++ (q.1.bump x.1 1 x.2 1).2)) (b := ((s.post e).1, [])) (h.post e) fun _ hq x _ => hq.bump x.1 1 x.2 1
  exact List.foldlRecOn (motive := State.HasStatus k) _ _ counted fun _ ht _ _ => ht.post _

theorem State.HasStatus.raiseSat {s : State} {k : Nat} (h : s.HasStatus k) (keys : List Nat) : (s.raiseSat keys).HasStatus k :=
  State.each_induct (State.HasStatus k) _ _ _ h fun _ _ _ ht => ht.raiseEv _

theorem State.HasStatus.occ {s : State} {k : Nat} (h : s.HasStatus k) (dom i n : Nat) : (s.occ dom i n).HasStatus k := by
  unfold State.occ
  split
  · exact h
  · exact (h.bump ..).raiseSat _

/-! ### Accesses of CSR space (R492 to R497) -/

theorem State.badCsr_quiet (s : State) : s.badCsr.quiet = s.quiet := (State.occ_quiet ..).trans (State.orReg_status_quiet ..)

theorem State.hasStatus_badCsr {s : State} (hs : s.Canonical) : s.badCsr.HasStatus 2 := (State.hasStatus_orReg hs 4 (by decide)).occ ..

theorem State.reached_quiet (s : State) (dom : Nat) : (s.reached dom).quiet = s.quiet :=
  (State.lathControl_quiet ..).trans (State.common_quiet ..)

theorem State.Canonical.reached {s : State} (h : s.Canonical) (dom : Nat) : (s.reached dom).Canonical := (h.common ..).lathControl ..

theorem placeOf_csr {off : Nat} (h : off < 0x10000000) : (placeOf (0xF000000000 + off)).region = .csr := by
  have hi : (0xF000000000 + off) / 0x100000000 = 0xF0 := by omega
  have lo : (0xF000000000 + off) % 0x100000000 = off := by omega
  have notHbm : ¬ 0xF000000000 + off < 0x8000000000 := by omega
  simp [placeOf, notHbm, hi, lo, h]

/-- An offset of the block region decodes to one of the block region. -/
theorem decodeOff_lt {o : Nat} (dom : Nat) (h : o < 0x8000) : decodeOff dom o < 0x8000 := by
  rw [decodeOff, if_pos h]
  exact (Nat.mod_le ..).trans_lt h

/-- An access of no register: window `off / 0x10000` is unassigned, or is an island's whose block region has none at the offset (R495). -/
def State.NoRegAt (s : State) (off : Nat) : Prop :=
  60 ≤ off / 0x10000 ∨ (s.isLive (off / 0x10000) = true ∧ off % 0x10000 < 0x8000 ∧
    findReg (off / 0x10000) (decodeOff (off / 0x10000) (off % 0x10000)) = none)

/-- The state that counting an access of a window leaves: an unassigned window counts none. -/
def State.accessed (s : State) (dom : Nat) : State := if dom < 60 then s.reached dom else s

theorem State.accessed_quiet (s : State) (dom : Nat) : (s.accessed dom).quiet = s.quiet := by
  unfold State.accessed
  split
  · exact s.reached_quiet dom
  · rfl

theorem State.Canonical.accessed {s : State} (h : s.Canonical) (dom : Nat) : (s.accessed dom).Canonical := by
  unfold State.accessed
  split
  · exact h.reached dom
  · exact h

/-- An access where no register stands reaches none and is a bad one. -/
theorem State.csrAt_noReg {s : State} {off : Nat} (r : Requester) (ha : off % 4 = 0) (h : s.NoRegAt off) :
    s.csrAt r off 4 = ((s.accessed (off / 0x10000)).badCsr, none) := by
  by_cases hdom : 60 ≤ off / 0x10000
  · simp [State.csrAt, State.accessed, hdom, Nat.not_lt.mpr hdom]
  · obtain ⟨hlive, ho, hreg⟩ := h.resolve_left hdom
    simp [State.csrAt, State.accessed, State.reach, ha, hdom, Nat.not_le.mp hdom, hlive, ho, hreg]

/-- An access where a register stands after decoding reaches it, and is counted. -/
theorem State.csrAt_reg {s : State} {off : Nat} (r : Requester) (ha : off % 4 = 0) (hdom : off / 0x10000 < 60)
    (hlive : s.isLive (off / 0x10000) = true)
    (hreg : (findReg (off / 0x10000) (decodeOff (off / 0x10000) (off % 0x10000))).isSome = true) :
    s.csrAt r off 4 = (s.accessed (off / 0x10000), some (off / 0x10000, decodeOff (off / 0x10000) (off % 0x10000))) := by
  simp [State.csrAt, State.accessed, State.reach, ha, hdom, Nat.not_le.mpr hdom, hlive, hreg]

theorem State.wordRead_csr (s : State) (r : Requester) {off : Nat} (h : off < 0x10000000) (n : Nat) :
    s.wordRead r (0xF000000000 + off) n =
      ((s.csrAt r off n).1, ((s.csrAt r off n).2.map fun p => ((s.csrAt r off n).1.regRead p.1 p.2).toNat).getD 0) := by
  have lo : (0xF000000000 + off) % 0x100000000 = off := by omega
  simp only [State.wordRead, placeOf_csr h, lo]
  cases (s.csrAt r off n).2 <;> rfl

/-- A write where no register stands changes what the access itself changes. -/
theorem State.wordWrite_noReg {s : State} (r : Requester) {off : Nat} (h : off < 0x10000000) (ha : off % 4 = 0) {data : List Byte}
    (hd : data.length = 4) (hno : s.NoRegAt off) :
    s.wordWrite r (0xF000000000 + off) data = (s.accessed (off / 0x10000)).badCsr := by
  have lo : (0xF000000000 + off) % 0x100000000 = off := by omega
  simp only [State.wordWrite, placeOf_csr h, lo, hd]
  rw [if_neg, State.csrAt_noReg r ha hno]
  simp only [Bool.and_eq_true, decide_eq_true_eq]
  rintro ⟨⟨⟨-, hdom⟩, hclear⟩, -⟩
  obtain ⟨-, ho, -⟩ := hno.resolve_left (Nat.not_le.mpr hdom)
  exact (decodeOff_lt _ ho).ne hclear

/-! ### TICKET (R39, R503) -/

theorem State.setTicket_quiet (s : State) (t : Word48) : (s.setTicket t).quiet = ({ s with ticket := t } : State).quiet := by
  unfold State.setTicket
  simp only
  split
  · exact State.raise_quiet ..
  · rfl

/-- What the record of an access to a dark island leaves alone (R503). -/
theorem State.darkAccess_keeps (s : State) (r : Requester) (window off : Nat) :
    (s.darkAccess r window off).ticket = s.ticket ∧ (s.darkAccess r window off).table = s.table ∧ (s.darkAccess r window off).mem = s.mem := by
  unfold State.darkAccess
  split
  · exact ⟨rfl, rfl, rfl⟩
  · simp only
    split <;> simp

theorem State.wordRead_ticket (s : State) (r : Requester) (h : s.isLive 59 = true) : (s.wordRead r 0xF100000000 8).2 = s.ticket.toNat := by
  have region : (placeOf 0xF100000000).region = .counter := by decide
  simp [State.wordRead, region, State.ctrRead, State.ctrWord, h]

theorem exec_ticketWrite (r : Requester) (w : Word64) (s : State) :
    exec (.ticketWrite r w) s = .next (if s.heard r then s.ctrWrite r 0 w.toNat else s) := rfl

theorem State.ctrWrite_ticket_live {s : State} (h : s.isLive 59 = true) (r : Requester) (v : Nat) :
    s.ctrWrite r 0 v = s.writeTicket v := by simp [State.ctrWrite, h]

theorem State.ctrWrite_ticket_dark {s : State} (h : s.isLive 59 = false) (r : Requester) (v : Nat) :
    s.ctrWrite r 0 v = s.darkAccess r 0x83B 0 := by simp [State.ctrWrite, h]

theorem ticketWrite_dark {s : State} (r : Requester) (w : Word64) (dark : s.isLive 59 = false) :
    ∃ t, exec (.ticketWrite r w) s = .next t ∧ t.ticket = s.ticket ∧ t.table = s.table ∧ t.mem = s.mem := by
  refine ⟨_, exec_ticketWrite r w s, ?_⟩
  split
  · rw [State.ctrWrite_ticket_dark dark]
    exact s.darkAccess_keeps ..
  · exact ⟨rfl, rfl, rfl⟩

theorem ticketWrite_jobActive {s : State} (r : Requester) (w : Word64) (live : s.isLive 59 = true) (active : s.jobActive = true) :
    exec (.ticketWrite r w) s = .next s := by
  rw [exec_ticketWrite, State.ctrWrite_ticket_live live, State.writeTicket, if_pos active, ite_self]

theorem ticketWrite_idle {s : State} {r : Requester} (w : Word64) (live : s.isLive 59 = true) (idle : s.jobActive = false)
    (heard : s.heard r = true) : EndsIn (exec (.ticketWrite r w) s) { s with ticket := w.setWidth 48 } := by
  rw [exec_ticketWrite, if_pos heard, State.ctrWrite_ticket_live live, State.writeTicket, if_neg (by simp [idle])]
  exact ⟨_, rfl, s.setTicket_quiet _⟩

/-- Settles O50: a TICKET write goes by HUBNOC's supply and the jobs, and an access of no register leaves `badCsr`, whose BADCSR bit
the counting that follows keeps. -/
theorem ticketAndAbsentRegisters : Obligations.TicketAndAbsentRegisters := by
  refine ⟨fun s r w => ⟨fun live => ?_, ticketWrite_dark r w, ticketWrite_jobActive r w, ticketWrite_idle w⟩,
    fun s r off data hoff haligned hdata hs => ⟨fun hno => ?_, fun hdom hlive hreg => ?_⟩⟩
  · rw [s.wordRead_ticket r live]
    exact ⟨rfl, s.ticket.isLt⟩
  · have absent : s.NoRegAt off := hno
    have hread : s.wordRead r (0xF000000000 + off) 4 = ((s.accessed (off / 0x10000)).badCsr, 0) := by
      rw [s.wordRead_csr r hoff, State.csrAt_noReg r haligned absent]
      rfl
    obtain ⟨-, hbit⟩ := State.hasStatus_badCsr (hs.accessed (off / 0x10000))
    exact ⟨hread, State.wordWrite_noReg r hoff haligned hdata absent, (State.badCsr_quiet _).trans (s.accessed_quiet _), hbit⟩
  · show (s.wordRead r (0xF000000000 + off) 4).1 = s.accessed (off / 0x10000)
    rw [s.wordRead_csr r hoff, State.csrAt_reg r haligned hdom hlive hreg]

end Sys2Proof.Machine
end

section
/-! SUPPORT. Encodings by their fields: what a layout with infinities reads from sign, exponent and fraction (R78 to R80), the fields that a container
word shares with its upper half (R97), and where the scales of R89 and R92 act. -/
namespace Sys2Proof.Machine

/-! ### An encoding by its fields (R78) -/

/-- The encoding with sign `s`, exponent field `e` and fraction field `f`. -/
def Layout.fieldCode (l : Layout) (s : Bool) (e f : Nat) : Nat := s.toNat * l.signBit + (e * 2 ^ l.mbits + f)

/-- The value that a layout with infinities gives these fields. -/
def Layout.fieldValue (l : Layout) (s : Bool) (e f : Nat) : Num :=
  if e = 2 ^ l.ebits - 1 then (if f = 0 then .inf s else .nan)
  else if e = 0 then .fin s f (if f = 0 then 0 else 1 - l.bias - l.mbits)
  else .fin s (2 ^ l.mbits + f) ((e : Int) - l.bias - l.mbits)

section
variable {l : Layout} {s : Bool} {e f : Nat}

theorem Layout.fieldValue_top (h : e = 2 ^ l.ebits - 1) : l.fieldValue s e f = if f = 0 then .inf s else .nan := if_pos h

theorem Layout.fieldValue_subnormal (h : 0 ≠ 2 ^ l.ebits - 1) :
    l.fieldValue s 0 f = .fin s f (if f = 0 then 0 else 1 - l.bias - l.mbits) := by
  rw [Layout.fieldValue, if_neg h, if_pos rfl]

theorem Layout.fieldValue_normal (htop : e ≠ 2 ^ l.ebits - 1) (hsub : e ≠ 0) :
    l.fieldValue s e f = .fin s (2 ^ l.mbits + f) ((e : Int) - l.bias - l.mbits) := by
  rw [Layout.fieldValue, if_neg htop, if_neg hsub]

end

theorem Layout.two_pow_width (l : Layout) : 2 ^ l.width = 2 * l.signBit := by
  rw [Layout.width, Layout.signBit, Nat.add_assoc, Nat.pow_add, Nat.pow_one]

/-- Exponent and fraction fields lie below the sign bit. -/
theorem Layout.magnitude_lt_signBit (l : Layout) {e f : Nat} (he : e < 2 ^ l.ebits) (hf : f < 2 ^ l.mbits) :
    e * 2 ^ l.mbits + f < l.signBit :=
  calc e * 2 ^ l.mbits + f < (e + 1) * 2 ^ l.mbits := by rw [Nat.succ_mul]; omega
    _ ≤ 2 ^ l.ebits * 2 ^ l.mbits := Nat.mul_le_mul_right _ he
    _ = l.signBit := (Nat.pow_add ..).symm

theorem Layout.decode_fieldCode {l : Layout} (hinf : l.hasInf = true) (s : Bool) {e f : Nat} (he : e < 2 ^ l.ebits) (hf : f < 2 ^ l.mbits) :
    l.decode (l.fieldCode s e f) = l.fieldValue s e f := by
  have hb := l.magnitude_lt_signBit he hf
  have hwidth : l.fieldCode s e f % 2 ^ l.width = l.fieldCode s e f := by
    refine Nat.mod_eq_of_lt ?_
    rw [l.two_pow_width, Layout.fieldCode]
    cases s <;> simp <;> omega
  have hsign : decide (l.signBit ≤ l.fieldCode s e f) = s := by
    cases s <;> simp [Layout.fieldCode, hb]
  have hmag : l.fieldCode s e f % l.signBit = e * 2 ^ l.mbits + f := by
    rw [Layout.fieldCode, Nat.mul_add_mod_self_right, Nat.mod_eq_of_lt hb]
  have hexp : (e * 2 ^ l.mbits + f) / 2 ^ l.mbits = e := by
    rw [Nat.add_comm, Nat.add_mul_div_right _ _ (Nat.two_pow_pos _), Nat.div_eq_of_lt hf, Nat.zero_add]
  have hfrac : (e * 2 ^ l.mbits + f) % 2 ^ l.mbits = f := by
    rw [Nat.mul_add_mod_self_right, Nat.mod_eq_of_lt hf]
  have hl : l ≠ .e4m3 := by rintro rfl; cases hinf
  simp only [Layout.decode, Layout.fieldValue, hwidth, hsign, hmag, hexp, hfrac, hl, hinf, false_and, true_and, if_false]

/-! ### A container word and its upper half (R96, R97) -/

/-- The upper half of a container word has the sign and exponent fields of the Z40 encoding, and its fraction without the eight lowest bits. -/
theorem container_fields (w : Word64) : ∃ s e f, e < 2 ^ 8 ∧ f < 2 ^ 31 ∧
    w.toNat / 2 ^ 24 = Layout.z40.fieldCode s e f ∧ w.toNat / 2 ^ 32 = Layout.binary32.fieldCode s e (f / 256) := by
  have hw := w.isLt
  refine ⟨decide (2 ^ 63 ≤ w.toNat), w.toNat / 2 ^ 55 % 2 ^ 8, w.toNat / 2 ^ 24 % 2 ^ 31, by omega, by omega, ?_⟩
  simp only [Layout.fieldCode, Layout.signBit, Layout.ebits, Layout.mbits]
  by_cases hs : 2 ^ 63 ≤ w.toNat
  · rw [decide_eq_true hs, Bool.toNat_true]
    omega
  · rw [decide_eq_false hs, Bool.toNat_false]
    omega

theorem container_values (w : Word64) : ∃ (s : Bool) (e f : Nat),
    ofContainer w = Layout.z40.fieldValue s e f ∧ ofB32 (w.toNat / 2 ^ 32) = Layout.binary32.fieldValue s e (f / 256) := by
  obtain ⟨s, e, f, he, hf, hz, hb⟩ := container_fields w
  have hcut : f / 256 < 2 ^ 23 := by omega
  exact ⟨s, e, f, by rw [ofContainer, hz, Layout.decode_fieldCode rfl s he hf], by rw [ofB32, hb, Layout.decode_fieldCode rfl s he hcut]⟩

/-- Z40 and binary32 have one exponent range, so a Z40 fraction without its eight lowest bits is the binary32 fraction. -/
theorem binary32_fieldValue_of_z40_fin {s neg : Bool} {e f m : Nat} {x : Int} (h : Layout.z40.fieldValue s e f = .fin neg m x) :
    Layout.binary32.fieldValue s e (f / 256) = if m / 256 = 0 then .fin neg 0 0 else .fin neg (m / 256) (x + 8) := by
  by_cases htop : e = 255
  · rw [Layout.fieldValue_top htop] at h
    split at h <;> cases h
  · by_cases hsub : e = 0
    · rw [hsub, Layout.fieldValue_subnormal (by decide)] at h ⊢
      cases h
      by_cases hcut : f / 256 = 0
      · simp [hcut]
      · have hf : f ≠ 0 := by rintro rfl; exact hcut rfl
        simp [hcut, hf, Layout.bias, Layout.mbits]
    · rw [Layout.fieldValue_normal htop hsub] at h ⊢
      cases h
      have hm : (2 ^ Layout.z40.mbits + f) / 256 = 2 ^ Layout.binary32.mbits + f / 256 := by
        simp only [Layout.mbits]
        omega
      have hx : (e : Int) - Layout.z40.bias - Layout.z40.mbits + 8 = e - Layout.binary32.bias - Layout.binary32.mbits := by
        simp only [Layout.bias, Layout.mbits]
        omega
      have hne : 2 ^ Layout.binary32.mbits + f / 256 ≠ 0 := by positivity
      rw [hm, hx, if_neg hne]

theorem binary32_fieldValue_of_z40_inf {s neg : Bool} {e f : Nat} (h : Layout.z40.fieldValue s e f = .inf neg) :
    Layout.binary32.fieldValue s e (f / 256) = .inf neg := by
  by_cases htop : e = 255
  · rw [Layout.fieldValue_top htop] at h ⊢
    split at h
    next hf =>
      rw [hf, if_pos rfl]
      exact h
    next => cases h
  · by_cases hsub : e = 0
    · rw [hsub, Layout.fieldValue_subnormal (by decide)] at h
      cases h
    · rw [Layout.fieldValue_normal htop hsub] at h
      cases h

/-- Settles O21: the upper half keeps sign and exponent and drops the eight lowest fraction bits. -/
theorem containerTruncatesToBinary32 : Obligations.ContainerTruncatesToBinary32 := by
  intro w
  obtain ⟨s, e, f, hz, hb⟩ := container_values w
  rw [hz, hb]
  refine ⟨fun _ _ _ => binary32_fieldValue_of_z40_fin, fun _ => binary32_fieldValue_of_z40_inf, fun hnan => ?_⟩
  simp only [Layout.nanCode] at hnan ⊢
  omega

/-! ### Where a scale acts (R89, R92) -/

theorem bits_lt (x lo n : Nat) : bits x lo n < 2 ^ n := Nat.mod_lt _ (Nat.two_pow_pos n)

/-- A two's-complement field of 8 bits. -/
theorem signedOf_eight_bounds {x : Nat} (h : x < 2 ^ 8) : -128 ≤ signedOf x 8 ∧ signedOf x 8 ≤ 127 := by
  unfold signedOf
  split <;> omega

theorem isScaled_of_isMx {f : Nat} (h : isMx f = true) : isScaled f = false := by
  simp only [isMx, isScaled, Bool.or_eq_true, Bool.or_eq_false_iff, decide_eq_true_eq, decide_eq_false_iff_not] at h ⊢
  omega

theorem decodeElem_of_isScaled {f : Nat} (h : isScaled f = true) (sexp : Int) (scale code : Nat) :
    decodeElem f sexp scale code = ((layoutOf f).decode code).scale (-sexp) := if_pos h

/-- Outside the formats of R89 the tensor exponent has no part in an element's value. -/
theorem decodeElem_sexp_irrel {f : Nat} (h : isScaled f = false) (s t : Int) (scale code : Nat) :
    decodeElem f s scale code = decodeElem f t scale code := by
  rw [decodeElem, decodeElem, h]
  rfl

theorem decodeElem_of_isMx {f : Nat} (h : isMx f = true) (sexp : Int) (scale code : Nat) :
    decodeElem f sexp scale code = if scale = 0xFF then .nan else ((layoutOf f).decode code).scale ((scale : Int) - 127) := by
  rw [decodeElem, isScaled_of_isMx h, h]
  rfl

theorem convertTo_of_isScaled {x : Desc} (h : isScaled x.fmt = true) (sexp : Int) (rd : Round) (v : Num) :
    convertTo x sexp rd v = (layoutOf x.fmt).convert (!x.nonsat) rd (v.scale sexp) := by
  rw [convertTo, if_pos h]

theorem convertTo_sexp_irrel {x : Desc} (h : isScaled x.fmt = false) (s t : Int) (rd : Round) (v : Num) :
    convertTo x s rd v = convertTo x t rd v := by
  rw [convertTo, convertTo, h]
  rfl

/-- Within a block of finite scale each element has its own value times the block's scale; a NaN and an infinity stay what they are. -/
theorem decodeElem_mx_block {f : Nat} (h : isMx f = true) (s : Int) (x c : Nat) :
    (x ≠ 0xFF → decodeElem f s x c = ((layoutOf f).decode c).scale ((x : Int) - 127)) ∧
    decodeElem f s 0xFF c = .nan ∧
    (x ≠ 0xFF → (layoutOf f).decode c = .nan → decodeElem f s x c = .nan) ∧
    (∀ neg, x ≠ 0xFF → (layoutOf f).decode c = .inf neg → decodeElem f s x c = .inf neg) := by
  have scaled (hx : x ≠ 0xFF) := (decodeElem_of_isMx h s x c).trans (if_neg hx)
  refine ⟨scaled, (decodeElem_of_isMx h s 0xFF c).trans (if_pos rfl), fun hx hnan => ?_, fun neg hx hinf => ?_⟩
  · rw [scaled hx, hnan]
    rfl
  · rw [scaled hx, hinf]
    rfl

/-- Settles O23: each clause by the class of its format codes, those of R89 with a tensor exponent, the MX formats of R92, and the rest. -/
theorem scalesActAsTheFormatSays : Obligations.ScalesActAsTheFormatSays := by
  have scaled : ∀ f ∈ [0, 1, 6], isScaled f = true := by decide
  have unscaled : ∀ f ∈ [2, 3, 4, 5, 7, 8, 9], isScaled f = false := by decide
  have plain : ∀ f ∈ [5, 7, 8, 9], isScaled f = false := by decide
  have mx : ∀ f ∈ [2, 3, 4], isMx f = true := by decide
  exact ⟨fun _ => signedOf_eight_bounds (bits_lt ..), fun f hf => decodeElem_of_isScaled (scaled f hf),
    fun x s r v hx => convertTo_of_isScaled (scaled x.fmt hx) s r v, fun f hf => decodeElem_sexp_irrel (unscaled f hf),
    fun x s t r v hx => convertTo_sexp_irrel (plain x.fmt hx) s t r v, fun f hf => decodeElem_mx_block (mx f hf)⟩

end Sys2Proof.Machine
end

section
/-! SUPPORT. The counts of the spars (R185 to R190): what a pair of waits asks of them and takes. -/
namespace Sys2Proof.Machine

/-! ### Counts and waits (R185, R187) -/

theorem Truss.spar_of_ne_zero (t : Truss) {k : Nat} (hk : k ≠ 0) : t.spar k = (vget t.spcnt k 0).toNat := if_neg hk

theorem Truss.spar_congr {t u : Truss} (h : t.spcnt = u.spcnt) (k : Nat) : t.spar k = u.spar k := by rw [Truss.spar, Truss.spar, h]

theorem Truss.lt_of_spar_pos {t : Truss} {k : Nat} (hk : k ≠ 0) (h : 0 < t.spar k) : k < 64 := by
  by_contra hge
  simp [Truss.spar, hk, vget, hge] at h

/-- How often the waits `a` and `b` name the spar `k`. -/
def waitsOn (a b k : Nat) : Nat := (if k = a then 1 else 0) + if k = b then 1 else 0

/-- Waits are satisfied where every count but the open spar's covers them. -/
theorem Truss.waitsOk_iff {t : Truss} {a b : Nat} : t.waitsOk a b = true ↔ ∀ k, k ≠ 0 → waitsOn a b k ≤ t.spar k := by
  unfold Truss.waitsOk waitsOn
  constructor
  · intro h k hk
    split at h
    next hab =>
      subst hab
      by_cases hka : k = a
      · subst hka
        simpa [hk] using h
      · simp [hka]
    next hab =>
      simp only [Bool.and_eq_true, Bool.or_eq_true, decide_eq_true_eq] at h
      obtain ⟨ha, hb⟩ := h
      by_cases hka : k = a
      · subst hka
        simpa [hab] using ha.resolve_left hk
      · by_cases hkb : k = b
        · subst hkb
          simpa [hka] using hb.resolve_left hk
        · simp [hka, hkb]
  · intro h
    split
    next hab =>
      subst hab
      by_cases ha : a = 0
      · simp [ha]
      · simpa [ha] using h a ha
    next hab =>
      simp only [Bool.and_eq_true, Bool.or_eq_true, decide_eq_true_eq]
      refine ⟨or_iff_not_imp_left.mpr fun ha => ?_, or_iff_not_imp_left.mpr fun hb => ?_⟩
      · simpa [hab] using h a ha
      · simpa [Ne.symm hab] using h b hb

theorem Truss.waitsOk_mono {t u : Truss} {a b : Nat} (hle : ∀ k, t.spar k ≤ u.spar k) (h : t.waitsOk a b = true) : u.waitsOk a b = true :=
  Truss.waitsOk_iff.mpr fun k hk => (Truss.waitsOk_iff.mp h k hk).trans (hle k)

theorem Truss.spar_takeSpar {t : Truss} {a k : Nat} (hk : k ≠ 0) (h : k = a → 0 < t.spar k) :
    (t.takeSpar a).spar k + (if k = a then 1 else 0) = t.spar k := by
  by_cases hka : k = a
  · subst hka
    have hlt := Truss.lt_of_spar_pos hk (h rfl)
    have hpos := h rfl
    rw [Truss.takeSpar, if_neg hk, Truss.spar_of_ne_zero _ hk, vget_vmod_same _ _ _ _ hlt]
    rw [Truss.spar_of_ne_zero _ hk] at hpos ⊢
    rw [if_pos rfl]
    bv_omega
  · rw [if_neg hka, Nat.add_zero, Truss.takeSpar]
    split
    · rfl
    · rw [Truss.spar_of_ne_zero _ hk, Truss.spar_of_ne_zero _ hk, vget_vmod_other _ _ _ _ _ (Ne.symm hka)]

/-- Satisfied waits are taken together: one from a count for each wait that names its spar. -/
theorem Truss.spar_takeWaits {t : Truss} {a b k : Nat} (h : t.waitsOk a b = true) (hk : k ≠ 0) :
    (t.takeWaits a b).spar k + waitsOn a b k = t.spar k := by
  have hcover := Truss.waitsOk_iff.mp h k hk
  unfold waitsOn at hcover ⊢
  have hA : (t.takeSpar a).spar k + (if k = a then 1 else 0) = t.spar k := Truss.spar_takeSpar hk fun hka => by
    rw [if_pos hka] at hcover
    omega
  have hB : (t.takeWaits a b).spar k + (if k = b then 1 else 0) = (t.takeSpar a).spar k := Truss.spar_takeSpar hk fun hkb => by
    rw [if_pos hkb] at hcover
    omega
  omega

theorem Truss.spar_takeWaits_le {t : Truss} {a b : Nat} (h : t.waitsOk a b = true) (k : Nat) : (t.takeWaits a b).spar k ≤ t.spar k := by
  by_cases hk : k = 0
  · rw [hk]
    rfl
  · have := Truss.spar_takeWaits h hk
    omega

/-- The queues that take their waits earlier in a Truss cycle leave a later one no more than stands (R189). -/
theorem State.spar_leftFor_le (s : State) (d q k : Nat) : (s.leftFor d q).spar k ≤ (s.tr d).spar k := by
  refine List.foldlRecOn (motive := fun t : Truss => t.spar k ≤ (s.tr d).spar k) _ _ le_rfl fun t ht p _ => ?_
  split
  · split
    next hok => exact (Truss.spar_takeWaits_le hok k).trans ht
    next => exact ht
  · exact ht

theorem State.waitsOk_of_leftFor {s : State} {d q a b : Nat} (h : (s.leftFor d q).waitsOk a b = true) : (s.tr d).waitsOk a b = true :=
  Truss.waitsOk_mono (s.spar_leftFor_le d q) h

/-! ### An instruction takes its waits -/

/-- An in-line instruction that has just decoded found its waits satisfied, and its Truss has decoded it and taken them (R180, R187). -/
theorem State.inline_decodes {s s1 : State} {d op : Nat} {e : QEntry} (h : s.inline d op = some (e, s1)) (hd : (s.tr d).decTaken = none) :
    (s.tr d).waitsOk e.wa e.wb = true ∧
      s1 = ((s.trussBoundary d).decoded d e).modTr d fun t => { t.takeWaits e.wa e.wb with decTaken := some e } := by
  simp only [State.inline, hd] at h
  split at h
  next => cases h
  next =>
    split at h
    next hok =>
      cases h
      simp only [Bool.and_eq_true] at hok
      exact ⟨State.waitsOk_of_leftFor hok.2, rfl⟩
    next => cases h

/-- An instruction that may issue from the head of a queue finds its waits satisfied (R187, R189). -/
theorem State.waitsOk_of_ready {s : State} {d q op : Nat} {e : QEntry} (h : s.ready d q op = some e) : (s.tr d).waitsOk e.wa e.wb = true := by
  simp only [State.ready] at h
  split at h
  next => cases h
  next =>
    split at h
    next hok =>
      cases h
      simp only [Bool.and_eq_true] at hok
      exact State.waitsOk_of_leftFor hok.2
    next => cases h

theorem State.spcnt_trussBoundary (s : State) (d : TrussId) : ((s.trussBoundary d).tr d).spcnt = (s.tr d).spcnt := by
  rw [State.trussBoundary, State.tr_modTr_same]

theorem State.tr_occ (s : State) (x dom i n : Nat) : (s.occ dom i n).tr x = s.tr x := by rw [State.tr, State.occ_truss, State.tr]

theorem State.tr_decoded (s : State) (d : TrussId) (e : QEntry) : (s.decoded d e).tr d = (s.tr d).advance e.x := by
  unfold State.decoded
  simp only
  split
  · rw [State.tr_occ, State.tr_occ, State.tr_modTr_same]
  · rw [State.tr_occ, State.tr_modTr_same]

theorem State.spar_decoded_takeWaits {s : State} {d : TrussId} {e : QEntry} (h : (s.tr d).waitsOk e.wa e.wb = true) {k : Nat} (hk : k ≠ 0) :
    (((s.trussBoundary d).decoded d e).tr d |>.takeWaits e.wa e.wb).spar k + waitsOn e.wa e.wb k = (s.tr d).spar k := by
  have hspar (j : Nat) : (((s.trussBoundary d).decoded d e).tr d).spar j = (s.tr d).spar j := by
    rw [State.tr_decoded]
    exact Truss.spar_congr (s.spcnt_trussBoundary d) j
  rw [Truss.spar_takeWaits (Truss.waitsOk_mono (fun j => (hspar j).ge) h) hk, hspar]

/-- Settles O6: the waits that an instruction found satisfied are taken from the counts as they stood. -/
theorem waitsAreTakenTogether : Obligations.WaitsAreTakenTogether := by
  refine fun s d op e => ⟨fun s1 hdec hfree k hk _ => ?_, fun q hhead k hk _ => ?_⟩
  · obtain ⟨hok, rfl⟩ := State.inline_decodes hdec hfree
    rw [State.tr_modTr_same]
    exact State.spar_decoded_takeWaits hok (Nat.ne_of_gt hk)
  · rw [State.issue, State.tr_modTr_same]
    exact Truss.spar_takeWaits (State.waitsOk_of_ready hhead) (Nat.ne_of_gt hk)

end Sys2Proof.Machine
end

section
/-! SUPPORT. What failing a step attempt leaves of the Trusses (R200, R348): the instructions in flight end, and their immediate words may be written;
all else of every Truss stays. -/
namespace Sys2Proof.Machine

/-- A Truss less its instructions in flight and its immediate words. -/
def Truss.lessFlight (t : Truss) : Truss := { t with issued := [], imm := Vector.replicate 32 0 }

/-- The Trusses less their instructions in flight and their immediate words. -/
def State.lessFlight (s : State) : Vector Truss 4 := s.truss.map Truss.lessFlight

theorem State.lessFlight_tr {s t : State} (h : t.lessFlight = s.lessFlight) (x : TrussId) : (t.tr x).lessFlight = (s.tr x).lessFlight := by
  have := congrArg (·[x.val]) h
  simpa [State.lessFlight, State.tr, vget, x.isLt] using this

theorem State.lessFlight_of_truss {s t : State} (h : t.truss = s.truss) : t.lessFlight = s.lessFlight := congrArg (Vector.map Truss.lessFlight) h

theorem State.lessFlight_of_quiet {s t : State} (h : t.quiet = s.quiet) : t.lessFlight = s.lessFlight :=
  State.lessFlight_of_truss (State.truss_of_quiet h)

/-- A change to what is left out of each Truss does not show. -/
theorem State.lessFlight_modTr (s : State) (d : Nat) {f : Truss → Truss} (hf : ∀ t, (f t).lessFlight = t.lessFlight) :
    (s.modTr d f).lessFlight = s.lessFlight := by
  ext i hi : 1
  simp only [State.lessFlight, State.modTr, vmod, Vector.getElem_map]
  split
  · by_cases hdi : d = i
    · subst hdi
      simp [hf]
    · simp [hdi]
  · rfl

theorem State.lessFlight_each {α : Type} {f : State → α → State} (hf : ∀ s x, (f s x).lessFlight = s.lessFlight) (s : State) (l : List α) :
    (s.each l f).lessFlight = s.lessFlight :=
  State.each_induct (·.lessFlight = s.lessFlight) l f s rfl fun t x _ h => (hf t x).trans h

theorem State.lessFlight_ite {c : Prop} [Decidable c] {s t u : State} (ht : t.lessFlight = s.lessFlight) (hu : u.lessFlight = s.lessFlight) :
    (if c then t else u).lessFlight = s.lessFlight := by
  split
  · exact ht
  · exact hu

/-! ### Counting, reports and registers -/

@[simp] theorem State.lessFlight_occ (s : State) (dom i n : Nat) : (s.occ dom i n).lessFlight = s.lessFlight :=
  State.lessFlight_of_quiet (s.occ_quiet ..)
@[simp] theorem State.lessFlight_lath (s : State) (d cls n : Nat) : (s.lath d cls n).lessFlight = s.lessFlight :=
  State.lessFlight_of_quiet (s.lath_quiet ..)
@[simp] theorem State.lessFlight_raise (s : State) (code dom d0 d1 d2 : Nat) : (s.raise code dom d0 d1 d2).lessFlight = s.lessFlight :=
  State.lessFlight_of_quiet (s.raise_quiet ..)
@[simp] theorem State.lessFlight_setRegRaw (s : State) (dom off : Nat) (v : Half) : (s.setRegRaw dom off v).lessFlight = s.lessFlight :=
  State.lessFlight_of_truss rfl
@[simp] theorem State.lessFlight_orReg (s : State) (dom off : Nat) (m : Half) : (s.orReg dom off m).lessFlight = s.lessFlight :=
  State.lessFlight_of_truss rfl
@[simp] theorem State.lessFlight_setTable (s : State) (k v : Nat) : (s.setTable k v).lessFlight = s.lessFlight :=
  State.lessFlight_of_truss rfl
@[simp] theorem State.lessFlight_setTableBits (s : State) (k lo w v : Nat) : (s.setTableBits k lo w v).lessFlight = s.lessFlight :=
  State.lessFlight_of_truss rfl
@[simp] theorem State.lessFlight_modCommit (s : State) (f : Commit → Commit) : (s.modCommit f).lessFlight = s.lessFlight :=
  State.lessFlight_of_truss rfl
@[simp] theorem State.lessFlight_modMcl (s : State) (f : Mcl → Mcl) : (s.modMcl f).lessFlight = s.lessFlight :=
  State.lessFlight_of_truss rfl
@[simp] theorem State.lessFlight_modPwrc (s : State) (f : Pwrc → Pwrc) : (s.modPwrc f).lessFlight = s.lessFlight :=
  State.lessFlight_of_truss rfl
@[simp] theorem State.lessFlight_modPort (s : State) (k : Nat) (f : Port → Port) : (s.modPort k f).lessFlight = s.lessFlight :=
  State.lessFlight_of_truss rfl
@[simp] theorem State.lessFlight_modLoft (s : State) (k : Nat) (f : Loft → Loft) : (s.modLoft k f).lessFlight = s.lessFlight :=
  State.lessFlight_of_truss rfl
@[simp] theorem State.lessFlight_mark (s : State) (u : Nat) (p : Bool) : (s.mark u p).lessFlight = s.lessFlight :=
  State.lessFlight_of_truss rfl

@[simp] theorem State.lessFlight_occPort (s : State) (k i n : Nat) : (s.occPort k i n).lessFlight = s.lessFlight := s.lessFlight_occ ..

@[simp] theorem State.lessFlight_raiseOnce (s : State) (unit code dom d0 d1 d2 : Nat) :
    (s.raiseOnce unit code dom d0 d1 d2).lessFlight = s.lessFlight :=
  State.lessFlight_ite rfl (State.lessFlight_raise ..)

@[simp] theorem State.lessFlight_setTicket (s : State) (t : Word48) : (s.setTicket t).lessFlight = s.lessFlight :=
  State.lessFlight_ite (State.lessFlight_raise ..) rfl

/-! ### Memory -/

@[simp] theorem State.lessFlight_want (s : State) (l : List Nat) : (s.want l).lessFlight = s.lessFlight := State.lessFlight_ite rfl rfl

@[simp] theorem State.lessFlight_putByte (s : State) (a : Nat) (v : Byte) : (s.putByte a v).lessFlight = s.lessFlight := State.lessFlight_ite rfl rfl

@[simp] theorem State.lessFlight_putBytes (s : State) (a : Nat) (l : List Byte) : (s.putBytes a l).lessFlight = s.lessFlight := by
  induction l generalizing s a with
  | nil => rfl
  | cons v l ih => exact (ih ..).trans (s.lessFlight_putByte ..)

@[simp] theorem State.lessFlight_write (s : State) (a : Nat) (l : List Byte) : (s.write a l).lessFlight = s.lessFlight := by
  obtain ⟨w, hw⟩ := (s.writeRaw a l).noteWrite_eq a l.length 0
  rw [State.write, hw]
  exact (State.lessFlight_putBytes ..).trans (State.lessFlight_each (fun s u => s.lessFlight_mark u false) ..)

@[simp] theorem State.lessFlight_memUncorr (s : State) (u : Nat) : (s.memUncorr u).lessFlight = s.lessFlight := by
  unfold State.memUncorr
  simp only [State.lessFlight_raise]
  split <;> simp

@[simp] theorem State.lessFlight_touchLine (s : State) (line : Nat) (dirty alloc : Bool) :
    (s.touchLine line dirty alloc).lessFlight = s.lessFlight := by
  unfold State.touchLine
  split
  · simp only
    refine State.lessFlight_ite rfl ?_
    split
    · simp
    · refine State.lessFlight_ite (s.lessFlight_occ ..) ?_
      split
      · simp
      · exact State.lessFlight_ite (by simp) (by simp)
  · rfl

@[simp] theorem State.lessFlight_cross (s : State) (m : Mover) (x : Span) : (s.cross m x).lessFlight = s.lessFlight :=
  State.lessFlight_ite rfl (State.lessFlight_each (fun s _ => s.lessFlight_lath ..) ..)

@[simp] theorem State.lessFlight_touch (s : State) (m : Mover) (l : List Span) (dirty alloc : Bool) :
    (s.touch m l dirty alloc).lessFlight = s.lessFlight :=
  State.lessFlight_each (fun s x => State.lessFlight_ite rfl
    ((State.lessFlight_each (fun s _ => s.lessFlight_touchLine ..) ..).trans (s.lessFlight_cross m x))) ..

@[simp] theorem State.lessFlight_forRead (s : State) (l : List Span) (m : Mover) : (s.forRead l m).lessFlight = s.lessFlight := by
  simp [State.forRead]
@[simp] theorem State.lessFlight_forWrite (s : State) (l : List Span) (m : Mover) : (s.forWrite l m).lessFlight = s.lessFlight := by
  simp [State.forWrite]

@[simp] theorem State.lessFlight_copyMem (s : State) (src dst n : Nat) : (s.copyMem src dst n).lessFlight = s.lessFlight :=
  (State.lessFlight_each (fun _ _ => State.lessFlight_each (fun s v => s.lessFlight_mark v true) ..) ..).trans
    ((State.lessFlight_write ..).trans ((State.lessFlight_each State.lessFlight_memUncorr ..).trans (by simp)))

@[simp] theorem State.lessFlight_publish (s : State) (n buf : Nat) : (s.publish n buf).lessFlight = s.lessFlight :=
  State.lessFlight_ite rfl (State.lessFlight_copyMem ..)

/-! ### Sending -/

@[simp] theorem State.lessFlight_pump (s : State) (k n : Nat) : (s.pump k n).lessFlight = s.lessFlight := by
  induction n generalizing s with
  | zero => rfl
  | succ n ih => exact State.lessFlight_ite (by simp [ih]) (State.lessFlight_ite (s.lessFlight_occPort ..) rfl)

@[simp] theorem State.lessFlight_emit (s : State) (k : Nat) (stream : Bool) (p : Packet) (own : Bool) :
    (s.emit k stream p own).lessFlight = s.lessFlight := by simp [State.emit]

@[simp] theorem State.lessFlight_sendRaw (s : State) (p : Packet) : (s.sendRaw p).1.lessFlight = s.lessFlight := by
  unfold State.sendRaw
  split
  · rfl
  · simp only
    split
    · exact State.lessFlight_each (fun s k => State.lessFlight_ite (by simp) (by simp)) ..
    · split
      · split
        · rfl
        · exact State.lessFlight_emit ..
      · split
        · rfl
        · exact State.lessFlight_emit ..

@[simp] theorem State.lessFlight_forceNo (s : State) (cause : Nat) : (s.forceNo cause).lessFlight = s.lessFlight :=
  State.lessFlight_of_truss rfl

@[simp] theorem State.lessFlight_noPathNote (s : State) : s.noPathNote.lessFlight = s.lessFlight := by simp [State.noPathNote]

/-! ### Abandonment (R348) -/

@[simp] theorem State.lessFlight_finish (s : State) (d seq : Nat) (trap : Option TrapCause) : (s.finish d seq trap).lessFlight = s.lessFlight :=
  s.lessFlight_modTr d fun _ => rfl

@[simp] theorem State.lessFlight_finishRef (s : State) (r : InsRef) (trap : Option TrapCause) : (s.finishRef r trap).lessFlight = s.lessFlight :=
  s.lessFlight_finish ..

@[simp] theorem State.lessFlight_setImm (s : State) (d k : Nat) (v : Word32) : (s.setImm d k v).lessFlight = s.lessFlight :=
  s.lessFlight_modTr d fun _ => rfl

@[simp] theorem State.lessFlight_endInstructions (s : State) : s.endInstructions.lessFlight = s.lessFlight := by
  show (State.each (State.each s _ _) _ _).lessFlight = s.lessFlight
  rw [State.lessFlight_each, State.lessFlight_each]
  · exact fun s r => s.lessFlight_setImm ..
  · exact fun s d => s.lessFlight_modTr d fun _ => rfl

@[simp] theorem State.lessFlight_sendAbandons (s : State) : s.sendAbandons.lessFlight = s.lessFlight :=
  State.lessFlight_each (fun _ _ => State.lessFlight_each (fun s _ =>
    State.lessFlight_ite (s.lessFlight_sendRaw _) ((State.lessFlight_noPathNote _).trans (s.lessFlight_sendRaw _))) ..) ..

@[simp] theorem State.lessFlight_abandonActs (s : State) (cause : Nat) : (s.abandonActs cause).lessFlight = s.lessFlight := by
  refine State.lessFlight_ite rfl ?_
  rw [State.lessFlight_endInstructions, State.lessFlight_each (fun s c => s.lessFlight_raise ..), State.lessFlight_occ, State.lessFlight_orReg]
  exact (State.lessFlight_sendAbandons _).trans (s.lessFlight_modCommit _)

@[simp] theorem State.lessFlight_noPathActs (s : State) : s.noPathActs.lessFlight = s.lessFlight := by simp [State.noPathActs]

@[simp] theorem State.lessFlight_sendCommit (s : State) (p : Packet) : (s.sendCommit p).lessFlight = s.lessFlight :=
  State.lessFlight_ite (s.lessFlight_sendRaw p) ((State.lessFlight_noPathActs _).trans (s.lessFlight_sendRaw p))

/-! ### The vote and its outcome (R378 to R382) -/

@[simp] theorem State.lessFlight_setFold (s : State) (code : Nat) (f : Fold) : (s.setFold code f).lessFlight = s.lessFlight :=
  State.lessFlight_of_truss rfl

@[simp] theorem State.lessFlight_foldGo (s : State) (c : JobCtx) (code ph : Nat) (l : List Ring) :
    (s.foldGo c code ph l).1.lessFlight = s.lessFlight := by
  induction l generalizing s ph with
  | nil => rfl
  | cons r l ih =>
    unfold State.foldGo
    simp only
    split
    · rfl
    · split
      · simp
      · split
        · simp
        · simp [ih]

@[simp] theorem State.lessFlight_foldOwn (s : State) (c : JobCtx) (code : Nat) (v : FoldVal) :
    (s.foldOwn c code v).1.lessFlight = s.lessFlight := by simp [State.foldOwn]

@[simp] theorem State.lessFlight_castOn (s : State) (c : JobCtx) (phase : Nat) (v : FoldVal) : (s.castOn c phase v).lessFlight = s.lessFlight :=
  State.lessFlight_each (fun s _ => s.lessFlight_sendCommit _) ..

@[simp] theorem State.lessFlight_clearArmed (s : State) : s.clearArmed.lessFlight = s.lessFlight :=
  State.lessFlight_each (fun s _ => s.lessFlight_setTableBits ..) ..

@[simp] theorem State.lessFlight_newAttempt (s : State) (keep : List NoCause) : (s.newAttempt keep).lessFlight = s.lessFlight :=
  (State.lessFlight_clearArmed _).trans s.lessFlight_endInstructions

@[simp] theorem State.lessFlight_flip (s : State) : s.flip.lessFlight = s.lessFlight := by
  unfold State.flip
  simp only [State.lessFlight_modCommit, State.lessFlight_modPwrc]
  rw [apply_ite State.lessFlight, State.lessFlight_setTicket, ite_self, State.lessFlight_each, State.lessFlight_each]
  · exact fun s n => s.lessFlight_publish ..
  · simp

@[simp] theorem State.lessFlight_sendTwin (s : State) (k : Nat) (p : Packet) : (s.sendTwin k p).lessFlight = s.lessFlight := by
  unfold State.sendTwin
  simp only
  split
  · rfl
  · exact State.lessFlight_emit ..

@[simp] theorem State.lessFlight_mirrorRead (s : State) : s.mirrorRead.lessFlight = s.lessFlight :=
  (State.lessFlight_each State.lessFlight_memUncorr ..).trans (State.lessFlight_forRead ..)

@[simp] theorem State.lessFlight_sendMirror (s : State) (n : Nat) : (s.sendMirror n).lessFlight = s.lessFlight :=
  (State.lessFlight_each (fun s _ => s.lessFlight_sendTwin ..) ..).trans s.lessFlight_mirrorRead

@[simp] theorem State.lessFlight_mirrorLost (s : State) : s.mirrorLost.lessFlight = s.lessFlight := by simp [State.mirrorLost]

@[simp] theorem State.lessFlight_mirrorStart (s : State) : s.mirrorStart.lessFlight = s.lessFlight :=
  State.lessFlight_ite rfl (State.lessFlight_ite s.lessFlight_mirrorLost (State.lessFlight_sendMirror ..))

@[simp] theorem State.lessFlight_applyOutcome (s : State) (yes : Bool) (extra : List Nat) :
    (s.applyOutcome yes extra).lessFlight = s.lessFlight := by
  unfold State.applyOutcome
  simp only
  rw [apply_ite State.lessFlight, State.lessFlight_mirrorStart, ite_self, State.lessFlight_modCommit, State.lessFlight_newAttempt]
  refine (apply_ite State.lessFlight _ _ _).trans ?_
  rw [State.lessFlight_flip, ite_self]
  split
  · simp [apply_ite State.lessFlight]
  · simp [apply_ite State.lessFlight]

@[simp] theorem State.lessFlight_sendMirrored (s : State) : s.sendMirrored.lessFlight = s.lessFlight := by
  unfold State.sendMirrored
  split
  · rfl
  · refine State.lessFlight_ite rfl ?_
    simp only
    split
    · simp
    · exact State.lessFlight_ite (by simp) (by simp)

@[simp] theorem State.lessFlight_outcomeOnce (s : State) (c : JobCtx) (v : FoldVal) (extra : List Nat) :
    (s.outcomeOnce c v extra).lessFlight = s.lessFlight := by simp [State.outcomeOnce]

@[simp] theorem State.lessFlight_outcomeAs (s : State) (c : JobCtx) (v : FoldVal) (extra : List Nat) :
    (s.outcomeAs c v extra).lessFlight = s.lessFlight :=
  State.lessFlight_ite (s.lessFlight_outcomeOnce ..) (State.lessFlight_ite (by simp) (by simp))

@[simp] theorem State.lessFlight_outcome (s : State) (c : JobCtx) (yes : Bool) (extra : List Nat) :
    (s.outcome c yes extra).lessFlight = s.lessFlight := s.lessFlight_outcomeAs ..

@[simp] theorem State.lessFlight_tryCast (s : State) : s.tryCast.lessFlight = s.lessFlight := by
  unfold State.tryCast
  split
  · refine State.lessFlight_ite rfl ?_
    extract_lets c why yes cast told no sent
    have hcast : cast.lessFlight = s.lessFlight := s.lessFlight_modCommit _
    have htold : told.lessFlight = s.lessFlight :=
      State.lessFlight_ite ((State.lessFlight_raiseOnce ..).trans ((State.lessFlight_orReg ..).trans hcast)) hcast
    have hsent : sent.lessFlight = s.lessFlight := State.lessFlight_ite ((State.lessFlight_sendCommit ..).trans htold) htold
    have hfold (v : FoldVal) : (sent.foldOwn c 1 v).1.lessFlight = s.lessFlight := (State.lessFlight_foldOwn ..).trans hsent
    refine State.lessFlight_ite ((State.lessFlight_outcome ..).trans (hfold _)) ?_
    split
    · exact State.lessFlight_ite ((State.lessFlight_outcome ..).trans (hfold _)) (hfold _)
    · exact hfold _
  · rfl

@[simp] theorem State.lessFlight_abandon (s : State) (cause : Nat) : (s.abandon cause).lessFlight = s.lessFlight := by
  refine State.lessFlight_ite rfl ?_
  simp only
  split
  · exact State.lessFlight_ite (by simp) (by simp)
  · simp

@[simp] theorem State.lessFlight_failTicket (s : State) : s.failTicket.lessFlight = s.lessFlight :=
  State.lessFlight_ite rfl (by simp [State.failAttempt])

end Sys2Proof.Machine
end

section
/-! SUPPORT. What a trap leaves on every Truss (R198 to R201), and what an addition to a spar does to the counts (R188, R190). -/
namespace Sys2Proof.Machine

/-! ### A trap (R198 to R201) -/

/-- A Truss with a trap in its registers: the first is recorded, a later one sets MULTI (R201). -/
def Truss.recordTrap (t : Truss) (c : TrapCause) (w : TrapAt) : Truss :=
  { t with
    trap := if t.trap.cause = 0 then
        { cause := BitVec.ofNat 8 c.code, queue := BitVec.ofNat 3 w.queue, line := BitVec.ofNat 16 w.line,
          word := BitVec.ofNat 5 w.word, spar := BitVec.ofNat 6 w.spar, skipped := t.skips c }
      else t.trap
    multi := t.multi || decide (t.trap.cause ≠ 0) }

/-- What a trap leaves of the Truss that takes it: one of a class that does not skip stops it as well (R198, R199). -/
def Truss.takeTrap (t : Truss) (c : TrapCause) (w : TrapAt) : Truss :=
  if t.skips c then t.recordTrap c w else { t.recordTrap c w with trapped := true }

theorem State.tr_raise (s : State) (x code dom d0 d1 d2 : Nat) : (s.raise code dom d0 d1 d2).tr x = s.tr x := by
  rw [State.tr, State.raise_truss, State.tr]

theorem State.trap_lessFlight_same (s : State) (d : TrussId) (c : TrapCause) (w : TrapAt) :
    ((s.trap d c w).tr d).lessFlight = ((s.tr d).takeTrap c w).lessFlight := by
  unfold State.trap
  extract_lets t skip recorded d0 d1 told
  have hrecorded : recorded.tr d = t.recordTrap c w := by
    simp only [recorded, Truss.recordTrap]
    split
    next h => rw [State.tr_modTr_same, decide_eq_false (not_not.mpr h), Bool.or_false]
    next h => rw [State.tr_occ, State.tr_modTr_same, decide_eq_true h, Bool.or_true]
  have htold : told.tr d = t.takeTrap c w := by
    simp only [told, Truss.takeTrap]
    split
    · rw [State.tr_raise, State.tr_occ, hrecorded]
    · rw [State.tr_raise, State.tr_modTr_same, hrecorded]
  rw [State.lessFlight_tr told.lessFlight_failTicket, htold]

theorem State.trap_lessFlight_other (s : State) {d x : TrussId} (h : x ≠ d) (c : TrapCause) (w : TrapAt) :
    ((s.trap d c w).tr x).lessFlight = (s.tr x).lessFlight := by
  have kept (u : State) (f : Truss → Truss) : (u.modTr d f).tr x = u.tr x := State.tr_modTr_other _ _ _ _ fun hv => h (Fin.ext hv.symm)
  unfold State.trap
  extract_lets t skip recorded d0 d1 told
  have hrecorded : recorded.tr x = s.tr x := by
    simp only [recorded]
    split
    · exact kept ..
    · exact (State.tr_occ ..).trans (kept ..)
  have htold : told.tr x = s.tr x := by
    simp only [told]
    split
    · rw [State.tr_raise, State.tr_occ, hrecorded]
    · rw [State.tr_raise, kept, hrecorded]
  rw [State.lessFlight_tr told.lessFlight_failTicket, htold]

theorem Truss.takeTrap_eq (t : Truss) (c : TrapCause) (w : TrapAt) :
    t.takeTrap c w = { t.recordTrap c w with trapped := t.trapped || !t.skips c } := by
  unfold Truss.takeTrap
  split
  next h => simp [h, Truss.recordTrap]
  next h => simp [h]

section
variable (s : State) (d : TrussId) (c : TrapCause) (w : TrapAt)

theorem State.trap_trap : ((s.trap d c w).tr d).trap = ((s.tr d).recordTrap c w).trap :=
  (congrArg Truss.trap (s.trap_lessFlight_same d c w) :).trans (by rw [Truss.takeTrap_eq]; rfl)

theorem State.trap_multi : ((s.trap d c w).tr d).multi = ((s.tr d).recordTrap c w).multi :=
  (congrArg Truss.multi (s.trap_lessFlight_same d c w) :).trans (by rw [Truss.takeTrap_eq]; rfl)

theorem State.trap_trapped : ((s.trap d c w).tr d).trapped = ((s.tr d).trapped || !(s.tr d).skips c) :=
  (congrArg Truss.trapped (s.trap_lessFlight_same d c w) :).trans (by rw [Truss.takeTrap_eq]; rfl)

/-- A trap leaves the counts of every Truss. -/
theorem State.trap_spcnt (x : TrussId) : ((s.trap d c w).tr x).spcnt = (s.tr x).spcnt := by
  by_cases hx : x = d
  · subst hx
    exact (congrArg Truss.spcnt (s.trap_lessFlight_same x c w) :).trans (by rw [Truss.takeTrap_eq]; rfl)
  · exact (congrArg Truss.spcnt (s.trap_lessFlight_other hx c w) :)

end

/-! ### An addition to a count (R188, R190) -/

section
variable (s : State) (d : TrussId) {k : Nat} (n : Nat)

/-- Marking urgent entries changes the valley queue alone. -/
theorem State.tr_markUrgent_same : ∃ v, (s.markUrgent d).tr d = { s.tr d with valley := v } := by
  unfold State.markUrgent
  split
  · exact ⟨_, rfl⟩
  · exact ⟨_, State.tr_modTr_same ..⟩

theorem State.tr_markUrgent_other {x : TrussId} (h : x ≠ d) : (s.markUrgent d).tr x = s.tr x := by
  unfold State.markUrgent
  split
  · rfl
  · exact State.tr_modTr_other _ _ _ _ fun hv => h (Fin.ext hv.symm)

/-- The state with `n` added to a count, which stays at 0xFFFF, before any trap (R190). -/
def State.withCount (s : State) (d k n : Nat) : State :=
  (s.markUrgent d).modTr d fun t =>
    { t with spcnt := vmod t.spcnt k fun _ => BitVec.ofNat 16 (min ((s.tr d).spar k + n) 0xFFFF), progress := true, turn := none }

theorem State.spar_markUrgent : ((s.markUrgent d).tr d).spar k = (s.tr d).spar k := by
  obtain ⟨v, hv⟩ := s.tr_markUrgent_same d
  rw [hv]
  rfl

/-- Where an overflow stands: at the instruction then at decode, in queue 0 (R190, R201). -/
def Truss.overflowAt (t : Truss) (k : Nat) : TrapAt := { queue := 0, line := t.decodeAt.1, word := t.decodeAt.2, spar := k }

/-- An addition is a trap on top of the new count where the sum is above 0xFFFF, and the new count alone elsewhere. -/
theorem State.addSpar_eq (hk : k ≠ 0) : s.addSpar d k n =
    if (s.tr d).spar k + n ≤ 0xFFFF then s.withCount d k n else (s.withCount d k n).trap d .sparOvf ((s.tr d).overflowAt k) := by
  simp only [State.addSpar, if_neg hk, s.spar_markUrgent d]
  obtain ⟨v, hv⟩ := s.tr_markUrgent_same d
  rw [hv]
  rfl

theorem State.tr_withCount_same : ∃ v, (s.withCount d k n).tr d =
    { s.tr d with valley := v, spcnt := vmod (s.tr d).spcnt k fun _ => BitVec.ofNat 16 (min ((s.tr d).spar k + n) 0xFFFF), progress := true, turn := none } := by
  obtain ⟨v, hv⟩ := s.tr_markUrgent_same d
  refine ⟨v, ?_⟩
  rw [State.withCount, State.tr_modTr_same, hv]

theorem State.tr_withCount_other {x : TrussId} (h : x ≠ d) : (s.withCount d k n).tr x = s.tr x := by
  rw [State.withCount, State.tr_modTr_other _ _ _ _ fun hv => h (Fin.ext hv.symm), s.tr_markUrgent_other d h]

theorem State.spcnt_addSpar (hk : k ≠ 0) (x : TrussId) : ((s.addSpar d k n).tr x).spcnt = ((s.withCount d k n).tr x).spcnt := by
  rw [s.addSpar_eq d n hk]
  split
  · rfl
  · exact State.trap_spcnt ..

theorem State.spar_addSpar_same (hk : k ≠ 0) (hlt : k < 64) : ((s.addSpar d k n).tr d).spar k = min ((s.tr d).spar k + n) 0xFFFF := by
  obtain ⟨v, hv⟩ := s.tr_withCount_same d (k := k) n
  rw [Truss.spar_congr (s.spcnt_addSpar d n hk d), hv, Truss.spar_of_ne_zero _ hk, vget_vmod_same _ _ _ _ hlt]
  exact Nat.mod_eq_of_lt ((Nat.min_le_right ..).trans_lt (by decide))

theorem State.spar_addSpar_other (hk : k ≠ 0) {j : Nat} (hj : j ≠ k) : ((s.addSpar d k n).tr d).spar j = (s.tr d).spar j := by
  obtain ⟨v, hv⟩ := s.tr_withCount_same d (k := k) n
  rw [Truss.spar_congr (s.spcnt_addSpar d n hk d), hv]
  simp only [Truss.spar, vget_vmod_other _ _ _ _ _ hj.symm]

theorem State.trap_addSpar_of_fits (hk : k ≠ 0) (h : (s.tr d).spar k + n ≤ 0xFFFF) : ((s.addSpar d k n).tr d).trap = (s.tr d).trap := by
  obtain ⟨v, hv⟩ := s.tr_withCount_same d (k := k) n
  rw [s.addSpar_eq d n hk, if_pos h, hv]

/-- Where the sum is above 0xFFFF the Truss takes SPAR_OVF. -/
theorem State.addSpar_overflow (hk : k ≠ 0) (h : 0xFFFF < (s.tr d).spar k + n) :
    ((s.addSpar d k n).tr d).trap = ((s.tr d).recordTrap .sparOvf ((s.tr d).overflowAt k)).trap ∧
    ((s.addSpar d k n).tr d).multi = ((s.tr d).recordTrap .sparOvf ((s.tr d).overflowAt k)).multi ∧
    ((s.addSpar d k n).tr d).trapped = ((s.tr d).trapped || !(s.tr d).skips .sparOvf) := by
  obtain ⟨v, hv⟩ := s.tr_withCount_same d (k := k) n
  rw [s.addSpar_eq d n hk, if_neg h.not_ge, State.trap_trap, State.trap_multi, State.trap_trapped, hv]
  exact ⟨rfl, rfl, rfl⟩

end

/-! ### The open spar (R185) -/

theorem blockOf_truss (d : TrussId) : blockOf (16 + d) = .truss := by
  revert d
  decide

/-- A field of the whole register leaves nothing of what stood there. -/
theorem Field.set_whole (t : FTy) (x : Half) (v : Nat) : Field.set { lo := 0, w := 16, ty := t } x v = BitVec.ofNat 16 v := by
  have mask : BitVec.ofNat 16 (2 ^ 16 - 1) = BitVec.allOnes 16 := rfl
  simp only [Field.set, pow_zero, mul_one, mask, BitVec.not_allOnes, BitVec.and_zero, BitVec.zero_or, BitVec.and_allOnes]

theorem State.regRead_openSpar (s : State) (d : TrussId) : s.regRead (16 + d) 0x100 = 0xFFFF := by
  have shown : s.hwFields (16 + d) 0x100 = [(0, 16, 0xFFFF)] := by
    simp [State.hwFields, blockOf_truss, Truss.spar]
  rw [State.regRead, shown]
  exact Field.set_whole ..

/-- Settles O7: an addition that fits is the new count alone, and any other is a trap on top of the count 0xFFFF; a trap leaves the counts. -/
theorem sparCountsSaturate : Obligations.SparCountsSaturate := by
  refine ⟨fun s d t => ⟨rfl, rfl, rfl, s.regRead_openSpar d⟩, fun s d k n hpos hlt => ?_⟩
  have hk : k ≠ 0 := Nat.ne_of_gt hpos
  refine ⟨s.spar_addSpar_same d n hk hlt, fun j => s.spar_addSpar_other d n hk, fun x hx => ?_, fun hover hfirst => ?_, fun hover hlater => ?_,
    fun hover hhalt => ?_, s.trap_addSpar_of_fits d n hk⟩
  · rw [s.spcnt_addSpar d n hk, s.tr_withCount_other d n hx]
  · obtain ⟨htrap, -, -⟩ := s.addSpar_overflow d n hk hover
    rw [htrap, Truss.recordTrap, if_pos hfirst]
    exact ⟨rfl, rfl, Nat.mod_eq_of_lt hlt⟩
  · obtain ⟨-, hmulti, -⟩ := s.addSpar_overflow d n hk hover
    rw [hmulti, Truss.recordTrap, decide_eq_true hlater, Bool.or_true]
  · obtain ⟨-, -, htrapped⟩ := s.addSpar_overflow d n hk hover
    rw [htrapped, hhalt, Bool.not_false, Bool.or_true]

end Sys2Proof.Machine
end

section
/-! SUPPORT. What an issue leaves for the checks that follow it (R181), and UP.COMMIT by the Truss that it comes from and the state of the commit
job (R275). -/
namespace Sys2Proof.Machine

/-! ### An issue changes its Truss only (R181) -/

section
variable (s : State) (d q : Nat) (e : QEntry)

@[simp] theorem State.issue_commit : (s.issue d q e).commit = s.commit := rfl
@[simp] theorem State.issue_job (j : Nat) : (s.issue d q e).job j = s.job j := rfl
@[simp] theorem State.issue_jobAt (x : QEntry) : (s.issue d q e).jobAt x = s.jobAt x := rfl
@[simp] theorem State.issue_level (dom lvl : Nat) : (s.issue d q e).level dom lvl = s.level dom lvl := rfl
@[simp] theorem State.issue_cfg (dom off : Nat) : (s.issue d q e).cfg dom off = s.cfg dom off := rfl

end

/-! ### UP.COMMIT (R275) -/

theorem Completes.of_upCommit {d : TrussId} {s t : State} (h : upCommit d s = .next t) : Completes (.upCommit d) s t :=
  Completes.of_waitRecall (congrArg (waitRecall s) h)

/-- The commit state once UP.COMMIT `e` of context `j` is accepted on Truss `d`: it is held until the outcome, with its YES bit and the settings in
force. -/
def State.commitHeld (s : State) (d : TrussId) (e : QEntry) (j : Nat) (m : Commit) : Commit :=
  { m with expert := s.level 46 0x400, skipConf := (s.cfg 46 0x404).getLsbD 0, cjob := some j,
           cmjob := BitVec.ofNat 16 (s.job j).d0, ins := some ⟨d, e.seq⟩, yesBit := e.m 0 }

section
variable {s : State} {d : TrussId} {e : QEntry} {j : Nat}

theorem upCommit_not_home (hhead : s.AtHead d 7 0x83 e) (hjob : s.jobAt e = some j) (haway : (s.job j).home ≠ d) :
    upCommit d s = .next ((s.issue d 7 e).issueTrap d 7 e .jobState) := by
  simp [upCommit, hhead, hjob, haway]

theorem upCommit_twice (hhead : s.AtHead d 7 0x83 e) (hjob : s.jobAt e = some j) (hhome : (s.job j).home = d)
    (hcjob : s.commit.cjob = some j) (hpending : s.commit.ins.isSome = true) :
    upCommit d s = .next ((s.issue d 7 e).issueTrap d 7 e .commitTwice) := by
  simp [upCommit, hhead, hjob, hhome, hcjob, hpending]

theorem upCommit_first (hhead : s.AtHead d 7 0x83 e) (hjob : s.jobAt e = some j) (hhome : (s.job j).home = d)
    (hcjob : s.commit.cjob = none ∨ s.commit.cjob = some j) (hnone : s.commit.ins = none) (howed : s.commit.owed = false) :
    upCommit d s = .next ((s.issue d 7 e).modCommit (s.commitHeld d e j)).sendMirrored.fenceMoved := by
  rcases hcjob with hcjob | hcjob
  all_goals simp [upCommit, hhead, hjob, hhome, hcjob, hnone, howed, State.modCommit, State.commitHeld, QEntry.ref]

end

/-- Settles O34: the home Truss is checked first, then an instruction whose outcome is pending, and what passes both is held until its outcome. -/
theorem upCommitComesFromHomeOnce : Obligations.UpCommitComesFromHomeOnce := by
  refine fun s d e j hhead hjob => ⟨fun haway => ?_, fun hhome hcjob hpending => ?_, fun hhome hcjob hnone howed => ?_⟩
  · exact Completes.of_upCommit (upCommit_not_home hhead hjob haway)
  · exact Completes.of_upCommit (upCommit_twice hhead hjob hhome hcjob hpending)
  · exact Completes.of_upCommit (upCommit_first hhead hjob hhome hcjob hnone howed)

end Sys2Proof.Machine
end

section
/-! SUPPORT. What abandoning a step attempt leaves of the commit state (R348, R349): all but the mark of abandonment and the causes that force
a no. -/
namespace Sys2Proof.Machine

/-- The commit state less whether the attempt is abandoned and the causes that force a no. -/
def Commit.lessFailure (c : Commit) : Commit := { c with abandoned := false, causes := [] }

theorem Commit.ins_of_lessFailure {c m : Commit} (h : m.lessFailure = c.lessFailure) : m.ins = c.ins := (congrArg Commit.ins h :)

theorem Commit.cast_of_lessFailure {c m : Commit} (h : m.lessFailure = c.lessFailure) : m.cast = c.cast := (congrArg Commit.cast h :)

/-- What each act of a list leaves, the list leaves. -/
theorem State.each_keeps {α β : Type} (view : State → β) {f : State → α → State} (hf : ∀ s x, view (f s x) = view s) (s : State) (l : List α) :
    view (s.each l f) = view s :=
  State.each_induct (view · = view s) l f s rfl fun t x _ h => (hf t x).trans h

/-! ### Sending leaves the commit state (R436, R437) -/

@[simp] theorem State.occPort_commit (s : State) (k i n : Nat) : (s.occPort k i n).commit = s.commit := s.occ_commit ..

@[simp] theorem State.pump_commit (s : State) (k n : Nat) : (s.pump k n).commit = s.commit := by
  induction n generalizing s with
  | zero => rfl
  | succ n ih =>
    unfold State.pump
    simp only
    split
    · simp [ih]
    · split
      · exact s.occPort_commit ..
      · rfl

@[simp] theorem State.emit_commit (s : State) (k : Nat) (stream : Bool) (p : Packet) (own : Bool) :
    (s.emit k stream p own).commit = s.commit := by simp [State.emit]

@[simp] theorem State.sendRaw_commit (s : State) (p : Packet) : (s.sendRaw p).1.commit = s.commit := by
  unfold State.sendRaw
  split
  · rfl
  · simp only
    split
    · refine State.each_keeps State.commit (fun s k => ?_) ..
      split <;> simp
    · split
      · split
        · rfl
        · exact State.emit_commit ..
      · split
        · rfl
        · exact State.emit_commit ..

/-! ### The acts of abandonment (R348) -/

theorem State.raiseOnce_commit (s : State) (unit code dom d0 d1 d2 : Nat) : (s.raiseOnce unit code dom d0 d1 d2).commit = s.commit := by
  unfold State.raiseOnce
  split
  · rfl
  · exact State.raise_commit ..

theorem State.forceNo_lessFailure (s : State) (cause : Nat) : (s.forceNo cause).commit.lessFailure = s.commit.lessFailure := by
  rw [State.forceNo, State.modCommit_commit]
  split
  · rfl
  · rfl

theorem State.noPathNote_lessFailure (s : State) : s.noPathNote.commit.lessFailure = s.commit.lessFailure := by
  rw [State.noPathNote, State.forceNo_lessFailure, State.raiseOnce_commit, State.occPort_commit]

/-- A packet sent and, where no port takes it, noted (R438). -/
theorem State.sendOrNote_lessFailure (s : State) (p : Packet) :
    (if (s.sendRaw p).2 then (s.sendRaw p).1 else (s.sendRaw p).1.noPathNote).commit.lessFailure = s.commit.lessFailure := by
  split
  · rw [State.sendRaw_commit]
  · rw [State.noPathNote_lessFailure, State.sendRaw_commit]

theorem State.sendAbandons_lessFailure (s : State) : s.sendAbandons.commit.lessFailure = s.commit.lessFailure := by
  refine State.each_keeps (·.commit.lessFailure) (fun s c => State.each_keeps (·.commit.lessFailure) (fun s i => ?_) ..) ..
  exact s.sendOrNote_lessFailure _

theorem State.endInstructions_commit (s : State) : s.endInstructions.commit = s.commit :=
  calc s.endInstructions.commit
    _ = (State.each s _ _).commit := State.each_keeps State.commit (fun s d => s.modTr_commit d _) ..
    _ = s.commit := State.each_keeps State.commit (fun s (r : Red) => s.modTr_commit r.ins.d _) ..

theorem State.abandonActs_lessFailure (s : State) (cause : Nat) : (s.abandonActs cause).commit.lessFailure = s.commit.lessFailure := by
  unfold State.abandonActs
  split
  · rfl
  · simp only
    rw [State.endInstructions_commit, State.each_keeps State.commit (fun s c => s.raise_commit ..), State.occ_commit, State.orReg_commit]
    exact State.sendAbandons_lessFailure _

/-! ### The vote already cast (R349) -/

/-- A vote already cast is not cast again (R377). -/
theorem State.tryCast_of_cast {s : State} (h : s.commit.cast.isSome = true) : s.tryCast = s := by
  unfold State.tryCast
  split
  · simp [h]
  · rfl

/-- With UP.COMMIT issued and its vote cast, abandonment is its acts alone: neither a decision of the root (R379) nor a cast (R377) follows. -/
theorem State.abandon_of_cast {s : State} (cause : Nat) (hissued : s.commit.ins.isSome = true) (hcast : s.commit.cast.isSome = true) :
    s.abandon cause = s.abandonActs cause := by
  have hacts := s.abandonActs_lessFailure cause
  have hvoted : (s.abandonActs cause).voted = true := (congrArg Option.isSome (Commit.ins_of_lessFailure hacts)).trans hissued
  have hnocast : (s.abandonActs cause).tryCast = s.abandonActs cause :=
    State.tryCast_of_cast ((congrArg Option.isSome (Commit.cast_of_lessFailure hacts)).trans hcast)
  unfold State.abandon
  split
  next h => rw [State.abandonActs, if_pos h]
  next =>
    simp only
    split
    · simp [hvoted, hnocast]
    · exact hnocast

/-- Settles O35: abandonment is its acts alone, and they leave the vote. -/
theorem abandonmentKeepsTheCastVote : Obligations.AbandonmentKeepsTheCastVote := by
  intro s cause v hissued hcast
  rw [State.abandon_of_cast cause hissued (by rw [hcast]; rfl), Commit.cast_of_lessFailure (s.abandonActs_lessFailure cause), hcast]

end Sys2Proof.Machine
end

section
/-! SUPPORT. The boot sequence (R533 to R535): the place at which each of its commands acts, the images that order 3 may run, BSTAT.STATE, the
ports that order 9 starts, and what the Keeper serves once it has FAILED. -/
namespace Sys2Proof.Machine

/-! ### The place of a command (R533, R534, R558) -/

/-- Power, reset, main supply and its clock are as the whole sequence needs them. -/
def State.Supplied (s : State) : Prop := s.pins.pwrok = true ∧ s.pins.resetN = true ∧ s.pins.p12v = true ∧ s.pins.ref0 = true

/-- The Keeper boots, and `n` is the order last completed. -/
def State.BootsAfter (s : State) (n : Nat) : Prop := s.keeper.bstate = 0 ∧ s.boot.order = n

theorem State.bootAt_of_bootsAfter {s : State} {n : Nat} (hs : s.Supplied) (hb : s.BootsAfter n) (cold warm : Option Nat) :
    s.bootAt cold warm = decide (some n = if s.boot.warm then warm else cold) := by
  obtain ⟨hpwrok, hreset, hp12v, href0⟩ := hs
  obtain ⟨hstate, horder⟩ := hb
  simp [State.bootAt, hpwrok, hreset, hp12v, href0, hstate, horder]

theorem State.bootAt_of_not_booting {s : State} (h : s.keeper.bstate ≠ 0) (cold warm : Option Nat) : s.bootAt cold warm = false := by
  simp [State.bootAt, h]

/-- A Keeper that does not boot runs no order. -/
theorem exec_bootCommand_of_not_booting {s : State} (h : s.keeper.bstate ≠ 0) : ∀ c ∈ [Instr.bootHeaderCheck, .bootBodyCheck, .islandPowerUp,
    .bootBist, .hbmTraining, .memoryClear, .identityCheck, .linkStart, .readyAssert], exec c s = .next s := by
  have off := State.bootAt_of_not_booting h
  simp only [List.forall_mem_cons]
  exact ⟨if_pos (by simp [off]), if_pos (by simp [off]), if_pos (by simp [off]), if_pos (by simp [off]), if_neg (by simp [off]),
    if_pos (by simp [off]), if_pos (by simp [off]), if_pos (by simp [off]), if_pos (by simp [off]), List.forall_mem_nil _⟩

/-! ### Orders 2 and 3: the images (R535 to R537) -/

/-- The image of a slot is valid: the Keeper reads it, its header was found valid, and its body matches. -/
def State.ImageValid (s : State) (b : Bool) : Prop := s.reads = true ∧ s.hdr b = true ∧ s.bodyOk b = true

theorem State.imageValid_iff {s : State} {b : Bool} : (s.reads && s.hdr b && s.bodyOk b) = true ↔ s.ImageValid b := by
  simp [State.ImageValid, and_assoc]

/-- The choice of order 3, the place once given. -/
theorem bootBodyCheck_eq {s : State} (hat : s.bootAt (some 2) (some 2) = true) : exec .bootBodyCheck s =
    if s.reads && s.hdr s.firstSlot && s.bodyOk s.firstSlot then .next (s.runImage s.firstSlot false)
    else if s.reads && s.hdr (!s.firstSlot) && s.bodyOk (!s.firstSlot) then .next (s.runImage (!s.firstSlot) true)
    else .next (s.modKeeper fun k => { k with bstate := 2 }) := if_neg (by simp [hat])

section
variable {s : State} (hs : s.Supplied)
include hs

theorem bootHeaderCheck_after1 (hb : s.BootsAfter 1) : exec .bootHeaderCheck s =
    .next { s with boot := { s.boot with order := 2, hdrA := s.reads && s.headerOk false, hdrB := s.reads && s.headerOk true } } :=
  if_neg (by simp [State.bootAt_of_bootsAfter hs hb])

theorem State.bootAt_after2 (hb : s.BootsAfter 2) : s.bootAt (some 2) (some 2) = true := by simp [State.bootAt_of_bootsAfter hs hb]

theorem bootBodyCheck_chosen (hb : s.BootsAfter 2) (hfirst : s.ImageValid s.firstSlot) :
    exec .bootBodyCheck s = .next (s.runImage s.firstSlot false) := by
  rw [bootBodyCheck_eq (State.bootAt_after2 hs hb), if_pos (State.imageValid_iff.mpr hfirst)]

theorem bootBodyCheck_fallback (hb : s.BootsAfter 2) (hfirst : ¬ s.ImageValid s.firstSlot) (hother : s.ImageValid (!s.firstSlot)) :
    exec .bootBodyCheck s = .next (s.runImage (!s.firstSlot) true) := by
  rw [bootBodyCheck_eq (State.bootAt_after2 hs hb), if_neg (mt State.imageValid_iff.mp hfirst), if_pos (State.imageValid_iff.mpr hother)]

theorem bootBodyCheck_failed (hb : s.BootsAfter 2) (hfirst : ¬ s.ImageValid s.firstSlot) (hother : ¬ s.ImageValid (!s.firstSlot)) :
    exec .bootBodyCheck s = .next (s.modKeeper fun k => { k with bstate := 2 }) := by
  rw [bootBodyCheck_eq (State.bootAt_after2 hs hb), if_neg (mt State.imageValid_iff.mp hfirst), if_neg (mt State.imageValid_iff.mp hother)]

end

/-! ### Orders 4 to 8 and 10 -/

/-- Reports leave IDERR. -/
theorem State.raise_iderr (s : State) (code dom d0 d1 d2 : Nat) : (s.raise code dom d0 d1 d2).keeper.iderr = s.keeper.iderr :=
  congrArg (·.keeper.iderr) (s.raise_quiet code dom d0 d1 d2)

section
variable {s : State} (hs : s.Supplied)
include hs

theorem islandPowerUp_after3 (hb : s.BootsAfter 3) (hcold : s.boot.warm = false) :
    ∃ t, exec .islandPowerUp s = .next t ∧ t.boot.order = 4 ∧ t.clearing = true ∧ ∀ n : DomainId, vget t.live n false = true := by
  refine ⟨_, if_neg (by simp [State.bootAt_of_bootsAfter hs hb, hcold]), rfl, rfl, fun n => ?_⟩
  simp [State.bootTo, vget]

theorem bootBist_after4_unwanted (hb : s.BootsAfter 4) (hcold : s.boot.warm = false) (hidle : s.bist.busy = false)
    (hno : s.wantsBist = false) : exec .bootBist s = .next { s with boot := { s.boot with order := 5 } } :=
  (if_neg (by simp [State.bootAt_of_bootsAfter hs hb, hcold, hidle])).trans (if_pos (by simp [hno]))

theorem bootBist_after4_wanted (hb : s.BootsAfter 4) (hcold : s.boot.warm = false) (hidle : s.bist.busy = false)
    (hyes : s.wantsBist = true) :
    ∃ t, exec .bootBist s = .next t ∧ t.bist.busy = true ∧ t.bist.boot = true ∧ t.keeper.bootbist = true :=
  ⟨_, (if_neg (by simp [State.bootAt_of_bootsAfter hs hb, hcold, hidle])).trans (if_neg (by simp [hyes])), rfl, rfl, rfl⟩

/-- The stacks are trained after self-test, straight after order 3 in a warm sequence, and after order 4 where no self-test is asked for. -/
theorem hbmTraining_at_its_place (h : s.BootsAfter 5 ∧ s.boot.warm = false ∨ s.BootsAfter 3 ∧ s.boot.warm = true ∨
      s.BootsAfter 4 ∧ s.boot.warm = false ∧ s.wantsBist = false) :
    exec .hbmTraining s = .next { s with boot := { s.boot with order := 6 } } := by
  refine if_pos ?_
  rcases h with ⟨hb, hcold⟩ | ⟨hb, hwarm⟩ | ⟨hb, hcold, hno⟩
  · simp [State.bootAt_of_bootsAfter hs hb, hcold]
  · simp [State.bootAt_of_bootsAfter hs hb, hwarm]
  · simp [State.bootAt_of_bootsAfter hs hb, hcold, hno]

theorem memoryClear_after6 (hb : s.BootsAfter 6) (hcold : s.boot.warm = false) : ∃ t, exec .memoryClear s = .next t ∧ t.boot.order = 7 ∧
    t.clearing = false ∧ ∀ b, t.byte b = 0 ∧ t.poisonAt b = false :=
  ⟨_, if_neg (by simp [State.bootAt_of_bootsAfter hs hb, hcold]), rfl, rfl, fun _ => ⟨rfl, rfl⟩⟩

/-- The identity is checked after order 7, or after order 6 in a warm sequence, which clears no memory. -/
theorem identityCheck_at_its_place (hb : s.BootsAfter (if s.boot.warm then 6 else 7)) : ∃ t, exec .identityCheck s = .next t ∧
    t.boot.order = 8 ∧ t.keeper.iderr = (s.keeper.iderr || !(s.reads && s.certOk)) := by
  have hat : s.bootAt (some 7) (some 6) = true := by
    rw [State.bootAt_of_bootsAfter hs hb]
    cases s.boot.warm <;> rfl
  refine ⟨_, if_neg (by simp [hat]), ?_⟩
  have same : ((s.bootTo 8).reads && (s.bootTo 8).certOk) = (s.reads && s.certOk) := rfl
  rw [same]
  cases s.reads && s.certOk with
  | true => exact ⟨rfl, (Bool.or_false _).symm⟩
  | false => exact ⟨congrArg Boot.order (State.raise_boot ..), (State.raise_iderr ..).trans (Bool.or_true _).symm⟩

theorem readyAssert_after9 (hb : s.BootsAfter 9) :
    ∃ t, exec .readyAssert s = .next t ∧ t.boot.order = 10 ∧ t.pins.ready = true ∧ t.keeper.bstate = 1 :=
  ⟨_, if_neg (by simp [State.bootAt_of_bootsAfter hs hb]), rfl, rfl, rfl⟩

end

/-! ### BSTAT.STATE -/

/-- The bits under `k` of a word with its bits under `m` replaced. -/
theorem merged_and (x y m k : Half) : (x &&& ~~~m ||| y &&& m) &&& k = x &&& k &&& ~~~(m &&& k) ||| y &&& (m &&& k) := by
  ext i hi
  simp only [BitVec.getElem_and, BitVec.getElem_or, BitVec.getElem_not]
  cases x[i] <;> cases m[i] <;> cases k[i] <;> simp

/-- A field above bit 2 leaves bits 0 to 2. -/
theorem Field.set_and_7_of_above (t : FTy) {lo w : Nat} (hlo : 3 ≤ lo) (x : Half) (v : Nat) :
    Field.set { lo, w, ty := t } x v &&& 7 = x &&& 7 := by
  have mask : BitVec.ofNat 16 ((2 ^ w - 1) * 2 ^ lo) &&& 7 = 0 := by
    refine BitVec.eq_of_toNat_eq ?_
    rw [BitVec.toNat_and, BitVec.toNat_ofNat]
    refine (Nat.and_two_pow_sub_one_eq_mod _ 3).trans ?_
    rw [Nat.mod_mod_of_dvd _ (by decide)]
    exact Nat.mod_eq_zero_of_dvd ((pow_dvd_pow 2 hlo).mul_left _)
  have none (y : Half) : y &&& 0 = 0 := BitVec.and_zero
  have all : ~~~(0 : Half) = BitVec.allOnes 16 := rfl
  rw [Field.set, merged_and, mask, none, all, BitVec.and_allOnes]
  exact BitVec.or_zero

/-- The field of bits 0 to 2 reads as it was set. -/
theorem Field.set_and_7_of_state (t : FTy) (x : Half) (v : Nat) :
    Field.set { lo := 0, w := 3, ty := t } x v &&& 7 = BitVec.ofNat 16 v &&& 7 := by
  have mask : BitVec.ofNat 16 ((2 ^ 3 - 1) * 2 ^ 0) &&& 7 = 7 := rfl
  rw [Field.set, merged_and, mask, BitVec.and_assoc, BitVec.and_not_self]
  simp

/-- BSTAT.STATE is the state of the Keeper. -/
theorem State.regRead_bstat (s : State) : s.regRead 51 0 &&& 7 = BitVec.ofNat 16 s.keeper.bstate &&& 7 := by
  have shown : s.hwFields 51 0 = [(0, 3, s.keeper.bstate), (3, 1, flag s.keeper.slot), (4, 1, flag s.keeper.fallback), (5, 1, flag s.keeper.iderr),
      (6, 1, flag s.keeper.bootbist), (7, 1, flag s.keeper.spirel)] := rfl
  simp only [State.regRead, shown, List.foldl_cons, List.foldl_nil]
  iterate 5 rw [Field.set_and_7_of_above _ (by decide)]
  exact Field.set_and_7_of_state ..

/-! ### Order 9: the ports (R428) -/

/-- A port enters TRAINING; one of the twin link is DISABLED where no twin is present. -/
def State.startPort (s : State) (k : Nat) : State :=
  if isTwin k && !s.pins.twin then s.modPort k fun q => q.quiet .disabled else s.enterTraining k

theorem State.startPort_eq (s : State) (k : Nat) : ∃ f : Port → Port, s.startPort k = s.modPort k f ∧
    ∀ q, (f q).state = if isTwin k && !s.pins.twin then .disabled else .training := by
  unfold State.startPort
  split
  · exact ⟨_, rfl, fun _ => rfl⟩
  · exact ⟨_, rfl, fun _ => rfl⟩

theorem State.startPorts_keeps {β : Type} (view : State → β) (hview : ∀ (s : State) k f, view (s.modPort k f) = view s) (s : State)
    (l : List Nat) : view (s.each l State.startPort) = view s := by
  refine State.each_keeps view (fun s k => ?_) s l
  obtain ⟨f, hf, -⟩ := s.startPort_eq k
  rw [hf, hview]

/-- Each of the first `n` ports is in the state that its start gives it: no later start touches it. -/
theorem State.port_startPorts (s : State) {n : Nat} {p : PortId} (hp : p.val < n) :
    ((s.each (List.range n) State.startPort).port p).state = if isTwin p && !s.pins.twin then .disabled else .training := by
  induction n with
  | zero => exact absurd hp (Nat.not_lt_zero _)
  | succ n ih =>
    have last : s.each (List.range (n + 1)) State.startPort = (s.each (List.range n) State.startPort).startPort n := by
      simp [State.each, List.range_succ]
    obtain ⟨f, hf, hstate⟩ := (s.each (List.range n) State.startPort).startPort_eq n
    rw [last, hf]
    by_cases hn : p.val = n
    · subst hn
      rw [State.port_modPort_same, hstate, State.startPorts_keeps State.pins (fun _ _ _ => rfl)]
    · rw [State.port_modPort_other _ _ _ _ (Ne.symm hn), ih (by omega)]

/-- TOPLEVEL is set from the running image, and every port is started. -/
def State.portsStarted (s : State) : State :=
  ((s.modKeeper fun k => { k with toplevel := toplevelOf k.header }).bootTo 9).each (List.range 22) State.startPort

theorem State.portsStarted_boot (s : State) : s.portsStarted.boot.order = 9 :=
  congrArg Boot.order (State.startPorts_keeps State.boot (fun _ _ _ => rfl) ..)

theorem State.portsStarted_toplevel (s : State) : s.portsStarted.keeper.toplevel = toplevelOf s.keeper.header :=
  congrArg Keeper.toplevel (State.startPorts_keeps State.keeper (fun _ _ _ => rfl) ..)

theorem State.portsStarted_port (s : State) (p : PortId) :
    (s.portsStarted.port p).state = if isTwin p && !s.pins.twin then .disabled else .training :=
  State.port_startPorts _ p.isLt

theorem State.port_mclTrain (s : State) (k : Nat) : s.mclTrain.port k = s.port k := rfl

theorem linkStart_after8 {s : State} (hs : s.Supplied) (hb : s.BootsAfter 8) : ∃ t, exec .linkStart s = .next t ∧ t.boot.order = 9 ∧
    t.mcl.link = 1 ∧ t.keeper.toplevel = toplevelOf s.keeper.header ∧
    ∀ p : PortId, (t.port p).state = if isTwin p && !s.pins.twin then .disabled else .training :=
  ⟨s.portsStarted.mclTrain, if_neg (by simp [State.bootAt_of_bootsAfter hs hb]), s.portsStarted_boot, rfl, s.portsStarted_toplevel,
    fun p => (congrArg Port.state (State.port_mclTrain ..)).trans (s.portsStarted_port p)⟩

/-! ### What a FAILED Keeper serves (R535, R544) -/

theorem State.answer_status (s : State) (status : Nat) (payload : List Byte) :
    (s.answer status payload).keeper.answer = some { status, payload } :=
  congrArg (·.keeper.answer) (State.occ_quiet ..)

theorem State.answer_wanted (s : State) (status : Nat) (payload : List Byte) : (s.answer status payload).mcl.wanted = s.mcl.wanted :=
  State.occ_mcl_wanted ..

theorem State.mcServes_failed {s : State} (h : s.keeper.bstate = 2) (c : McClass) : s.mcServes c = (c = .always || c = .spi) := by
  simp [State.mcServes, h]

theorem mcCommand_unserved {c : McClass} {s : State} {f : State → State × Nat × List Byte} (hpwrok : s.pins.pwrok = true)
    (h : s.mcServes c = false) : mcCommand c s f = .next (s.answer 4 []) := by
  simp [mcCommand, hpwrok, h]

/-- A command that is served, and meets no line of the host, is answered. -/
theorem mcCommand_served {c : McClass} {s : State} {f : State → State × Nat × List Byte} (hpwrok : s.pins.pwrok = true)
    (h : s.mcServes c = true) (hwanted : (f s).1.mcl.wanted = []) :
    mcCommand c s f = .next ((f s).1.answer (f s).2.1 (f s).2.2) := by
  have hnone : ((f s).1.answer (f s).2.1 (f s).2.2).mcl.wanted = [] := (State.answer_wanted ..).trans hwanted
  simp [mcCommand, hpwrok, h, waitRecall_next _ _ hnone]

/-- An outcome that leaves an answer of status 0 to be read. -/
def Succeeds (r : Host.Outcome State Fault Refusal) : Prop := ∃ t x, r = .next t ∧ t.keeper.answer = some x ∧ x.status = 0

theorem succeeds_answer (s : State) (payload : List Byte) : Succeeds (.next (s.answer 0 payload)) :=
  ⟨_, _, rfl, s.answer_status 0 payload, rfl⟩

section
variable {s : State} (hpwrok : s.pins.pwrok = true)
include hpwrok

theorem failed_answers_notReady (hfailed : s.keeper.bstate = 2) (x : BitVec 16) (st : BitVec 7) (b : Bool) (d : Word48) (w : Word64)
    (l : List Byte) (n : BitVec 8) : ∀ c ∈ [Instr.evread, .setcoord x, .setgrant st b, .setcap x, .release, .telem, .mcCsrrd d,
      .mcCsrwr d l, .mcBist w, .mcAttest l, .report n], exec c s = .next (s.answer 4 []) := by
  have unserved (c : McClass) (hc : c = .ready ∨ c = .read ∨ c = .write) : s.mcServes c = false := by
    rw [State.mcServes_failed hfailed]
    rcases hc with rfl | rfl | rfl <;> rfl
  have ready {f} : mcCommand .ready s f = .next (s.answer 4 []) := mcCommand_unserved hpwrok (unserved _ (.inl rfl))
  have read {f} : mcCommand .read s f = .next (s.answer 4 []) := mcCommand_unserved hpwrok (unserved _ (.inr (.inl rfl)))
  have write {f} : mcCommand .write s f = .next (s.answer 4 []) := mcCommand_unserved hpwrok (unserved _ (.inr (.inr rfl)))
  simp only [List.forall_mem_cons]
  show execEvread s = _ ∧ execSetcoord x s = _ ∧ execSetgrant st b s = _ ∧ execSetcap x s = _ ∧ execRelease s = _ ∧ execTelem s = _ ∧
    execMcCsrrd d s = _ ∧ execMcCsrwr d l s = _ ∧ execMcBist w s = _ ∧ execMcAttest l s = _ ∧ execReport n s = _ ∧ _
  exact ⟨ready, ready, ready, ready, write, ready, read, write, ready, ready, ready, List.forall_mem_nil _⟩

/-- RESET is answered whether it is ignored, the trip being latched (R531), or not. -/
theorem mcReset_succeeds : Succeeds (execMcReset s) := by
  rw [execMcReset, if_neg (by simp [hpwrok])]
  split
  · exact succeeds_answer ..
  · exact succeeds_answer ..

theorem failed_serves (hfailed : s.keeper.bstate = 2) (hwanted : s.mcl.wanted = []) :
    ∀ c ∈ [Instr.status, .spiRelease, .mcReset], Succeeds (exec c s) := by
  have served (c : McClass) (hc : c = .always ∨ c = .spi) : s.mcServes c = true := by
    rw [State.mcServes_failed hfailed]
    rcases hc with rfl | rfl <;> rfl
  simp only [List.forall_mem_cons]
  show Succeeds (execStatus s) ∧ Succeeds (execSpiRelease s) ∧ Succeeds (execMcReset s) ∧ _
  refine ⟨?_, ?_, mcReset_succeeds hpwrok, List.forall_mem_nil _⟩
  · rw [execStatus, mcCommand_served hpwrok (served _ (.inl rfl)) hwanted]
    exact succeeds_answer ..
  · rw [execSpiRelease, mcCommand_served hpwrok (served _ (.inr rfl)) ?_]
    · exact succeeds_answer ..
    · exact (State.raise_mcl_wanted ..).trans hwanted

end

/-- Settles O56: each order acts at its place (`State.bootAt_of_bootsAfter`), and a FAILED Keeper is at none. -/
theorem bootRunsInOrder : Obligations.BootRunsInOrder := by
  intro s hpwrok hreset hp12v href0 at' a good
  have hs : s.Supplied := ⟨hpwrok, hreset, hp12v, href0⟩
  refine ⟨bootHeaderCheck_after1 hs, fun hb hfirst => ⟨_, bootBodyCheck_chosen hs hb hfirst, rfl, rfl, rfl⟩,
    fun hb hfirst hother => ⟨_, bootBodyCheck_fallback hs hb hfirst hother, rfl, rfl, rfl⟩, fun hb hfirst hother hready => ?_,
    fun hfailed => ⟨exec_bootCommand_of_not_booting (by simp [hfailed]), fun x st b d w l n c hc _ => ?_, failed_serves hpwrok hfailed⟩,
    islandPowerUp_after3 hs, fun hb hcold hidle => ⟨bootBist_after4_unwanted hs hb hcold hidle, bootBist_after4_wanted hs hb hcold hidle⟩,
    hbmTraining_at_its_place hs, memoryClear_after6 hs, identityCheck_at_its_place hs, linkStart_after8 hs, readyAssert_after9 hs⟩
  · have state2 : (2 : Half) &&& 7 = 2 := by decide
    refine ⟨_, bootBodyCheck_failed hs hb hfirst hother, (State.regRead_bstat _).trans state2, ?_, hready, fun hextest => ?_, rfl, rfl⟩
    · simp [State.alertN, State.modKeeper]
    · simp [State.readyPin, State.modKeeper, hextest, hready]
  · exact failed_answers_notReady hpwrok hfailed x st b d w l n c hc

end Sys2Proof.Machine
end

section
/-! SUPPORT. Every command whose lists have the lengths of its interface answers a next state. -/
namespace Sys2Proof.Machine
open Host (Outcome)

/-- What a command may end in, `ok` saying that its lists have the lengths of its interface: a next state, or the fault that
malformed lists have. No other fault and no refusal is among them. -/
def Answers (ok : Bool) (r : Outcome State Fault Refusal) : Prop :=
  (∃ t, r = .next t) ∨ (ok = false ∧ r = .fault .malformed)

@[simp] theorem answers_next (ok : Bool) (t : State) : Answers ok (.next t) := .inl ⟨t, rfl⟩

@[simp] theorem answers_malformed (ok : Bool) : Answers ok (.fault .malformed) ↔ ok = false := by simp [Answers]

@[simp] theorem answers_ite {ok : Bool} {c : Prop} [Decidable c] {a b : Outcome State Fault Refusal} :
    Answers ok (if c then a else b) ↔ (c → Answers ok a) ∧ (¬c → Answers ok b) := by
  split <;> simp [*]

/-- Waiting for a recall keeps whether a command answers. -/
@[simp] theorem answers_waitRecall {ok : Bool} {s : State} {r : Outcome State Fault Refusal} (h : Answers ok r) :
    Answers ok (waitRecall s r) := by
  obtain ⟨t, rfl⟩ | ⟨hok, rfl⟩ := h
  · exact .inl (waitRecall_isNext s t)
  · exact .inr ⟨hok, rfl⟩

theorem fetchLine_answers (d : TrussId) (data : LineData) (s : State) :
    Answers (data.wf 256) (fetchLine d data s) := by
  unfold fetchLine
  dsimp only
  repeat' split
  all_goals simp_all

theorem syDload_answers (d : TrussId) (data : LineData) (s : State) :
    Answers (data.wf 262144) (syDload d data s) := by
  unfold syDload
  dsimp only
  repeat' split
  all_goals simp_all

theorem inlineRun_answers {ok : Bool} (d : TrussId) (op : Nat) (f : State → QEntry → State) (s : State) :
    Answers ok (inlineRun d op f s) := by
  unfold inlineRun
  repeat' split
  all_goals simp_all

theorem mmRun_answers {ok : Bool} (d : TrussId) (a : LocalId) (f : RunFaults) (s : State) :
    Answers ok (mmRun d a f s) := by
  unfold mmRun
  dsimp only
  repeat' split
  all_goals simp_all

theorem fillVisit_answers {ok : Bool} (d : TrussId) (a : LocalId) (s : State) :
    Answers ok (fillVisit d a s) := by
  unfold fillVisit
  dsimp only
  repeat' split
  all_goals simp_all

theorem runCopy_answers {ok : Bool} (d : TrussId) (f : LocalId) (t : Bool) (s : State) :
    Answers ok (runCopy d f t s) := by
  unfold runCopy
  dsimp only
  repeat' split
  all_goals simp_all

theorem txQuant_answers {ok : Bool} (d : TrussId) (f : LocalId) (s : State) :
    Answers ok (txQuant d f s) := by
  unfold txQuant
  dsimp only
  repeat' split
  all_goals simp_all

theorem runRidge_answers {ok : Bool} (d : TrussId) (op : Nat) (f : State → QEntry → List (Option TrapCause)) (g) (r) (s : State) :
    Answers ok (runRidge d op f g r s) := by
  unfold runRidge
  dsimp only
  repeat' split
  all_goals simp_all

theorem tierMove_answers {ok : Bool} (d : TrussId) (f : Bool) (s : State) :
    Answers ok (tierMove d f s) := by
  unfold tierMove
  dsimp only
  repeat' split
  all_goals simp_all

theorem txGather_answers {ok : Bool} (d : TrussId) (data : LineData) (s : State) :
    Answers ok (txGather d data s) := by
  unfold txGather
  dsimp only
  repeat' split
  all_goals simp_all

theorem obIssue_answers {ok : Bool} (d : TrussId) (op k : Nat) (s : State) :
    Answers ok (obIssue d op k s) := by
  unfold obIssue
  dsimp only
  repeat' split
  all_goals simp_all

theorem coJoin_answers {ok : Bool} (d : TrussId) (s : State) :
    Answers ok (coJoin d s) := by
  unfold coJoin
  dsimp only
  repeat' split
  all_goals simp_all

theorem coBucket_answers {ok : Bool} (d : TrussId) (s : State) :
    Answers ok (coBucket d s) := by
  unfold coBucket
  dsimp only
  repeat' split
  all_goals simp_all

theorem coReduce_answers {ok : Bool} (d : TrussId) (s : State) :
    Answers ok (coReduce d s) := by
  unfold coReduce
  dsimp only
  repeat' split
  all_goals simp_all

theorem coDispatch_answers {ok : Bool} (d : TrussId) (s : State) :
    Answers ok (coDispatch d s) := by
  unfold coDispatch
  dsimp only
  repeat' split
  all_goals simp_all

theorem coCombine_answers {ok : Bool} (d : TrussId) (s : State) :
    Answers ok (coCombine d s) := by
  unfold coCombine
  dsimp only
  repeat' split
  all_goals simp_all

theorem upPass_answers {ok : Bool} (d : TrussId) (b : Bool) (s : State) :
    Answers ok (upPass d b s) := by
  unfold upPass
  dsimp only
  repeat' split
  all_goals simp_all

theorem upCommit_answers {ok : Bool} (d : TrussId) (s : State) :
    Answers ok (upCommit d s) := by
  unfold upCommit
  dsimp only
  repeat' split
  all_goals simp_all

theorem linkLost_answers {ok : Bool} (p : PortId) (c : Nat) (s : State) :
    Answers ok (linkLost p c s) := by
  unfold linkLost
  repeat' split
  all_goals simp_all

theorem mclFails_answers {ok : Bool} (s : State) :
    Answers ok (mclFails s) := by
  unfold mclFails
  repeat' split
  all_goals simp_all

theorem coreRun_answers {ok : Bool} (g : SliceId) (c : CoreId) (op : Nat) (f : State → GCore → Inst → Nat → State × GRes) (s : State) :
    Answers ok (coreRun g c op f s) := by
  unfold coreRun
  dsimp only
  repeat' split
  all_goals simp_all

theorem mcCommand_answers {ok : Bool} (c : McClass) (s : State) (f : State → State × Nat × List Byte) :
    Answers ok (mcCommand c s f) := by
  unfold mcCommand
  dsimp only
  repeat' split
  all_goals simp_all

theorem mbServe_answers {ok : Bool} (cmd len : Nat) (tag : Word32) {f : State → Outcome State Fault Refusal} (s : State)
    (hf : ∀ t, Answers ok (f t)) : Answers ok (mbServe cmd len tag f s) := by
  unfold mbServe
  dsimp only
  repeat' split
  all_goals simp [hf]

theorem coreOnly_answers {ok : Bool} (g : SliceId) (c : CoreId) (op : Nat) (f : GCore → Inst → Nat → GRes) (s : State) :
    Answers ok (coreOnly g c op f s) := coreRun_answers ..

theorem mbCommand_answers {ok : Bool} (cmd len : Nat) (tag : Word32) (f : State → State × Nat × List Byte) (s : State) :
    Answers ok (mbCommand cmd len tag f s) := mbServe_answers _ _ _ _ fun _ => answers_next ..

/-- Whatever its shape, the meaning of a command ends in a next state: at once, behind a recall, or in the part that it shares
with the others of its group. Only the guards on lists fault. -/
theorem exec_answers (c : Instr) (s : State) : Answers c.wf (exec c s) := by
  cases c
  case runStart | runStop | spush | loftReconf | objectRegister | objectDeregister | groupRegister | groupDeregister |
    rowStepRegister | rowStepDeregister | ticketWrite | evcfgEnable | evconsWrite | mailboxGo | stretchEnd | p3v3aLow | snap |
    freeze | clr | entdaa | setdasa | rstdaa | getpid | getbcr | getdcr | getstatus | getmrl | getmwl | bypass | idcode |
    samplePreload | extest | trstNAssert => exact answers_next ..
  case abort | stashReset | promoteCopyEnd | evictCopyEnd | join | joinAck | bucketRs | bucketAg | agree | reduce | dispatch |
    dispatchEnd | combine | combineEnd | vote | drain | abandon | commitVote | outcome | mirrored | confirm | bucketLanded |
    rollback | repub | instanceStart | pctlDisable | pctlEnable | pctlRetrain | twinPresentChange | bistGo | gaCfgWrite => exact answers_waitRecall (answers_next ..)
  case nop | syAlat | sySpadd | sySpclr | pcSnap | pcFreeze | pcMark | sysStop =>
    simp only [exec, execNop, execSyAlat, execSySpadd, execSySpclr, execPcSnap, execPcFreeze, execPcMark, execSysStop]
    exact inlineRun_answers ..
  case obPin | obPromote | obEvict | obPrefetch | obWait =>
    simp only [exec, execObPin, execObPromote, execObEvict, execObPrefetch, execObWait]
    exact obIssue_answers ..
  case fetchLine =>
    simp only [exec, execFetchLine]
    exact answers_waitRecall (fetchLine_answers ..)
  case syDload =>
    simp only [exec, execSyDload]
    exact answers_waitRecall (syDload_answers ..)
  case mmRun =>
    simp only [exec, execMmRun]
    exact answers_waitRecall (mmRun_answers ..)
  case txCopy | txTrans =>
    simp only [exec, execTxCopy, execTxTrans]
    exact answers_waitRecall (runCopy_answers ..)
  case txQuant =>
    simp only [exec, execTxQuant]
    exact answers_waitRecall (txQuant_answers ..)
  case txStash | txFetch =>
    simp only [exec, execTxStash, execTxFetch]
    exact answers_waitRecall (tierMove_answers ..)
  case txGather =>
    simp only [exec, execTxGather]
    exact answers_waitRecall (txGather_answers ..)
  case rdNormf | rdNormb | rdSmaxf | rdSmaxb =>
    simp only [exec, execRdNormf, execRdNormb, execRdSmaxf, execRdSmaxb]
    exact answers_waitRecall (runRidge_answers ..)
  case coJoin =>
    simp only [exec, execCoJoin]
    exact answers_waitRecall (coJoin_answers ..)
  case coBucket =>
    simp only [exec, execCoBucket]
    exact answers_waitRecall (coBucket_answers ..)
  case coReduce =>
    simp only [exec, execCoReduce]
    exact answers_waitRecall (coReduce_answers ..)
  case coDispatch =>
    simp only [exec, execCoDispatch]
    exact answers_waitRecall (coDispatch_answers ..)
  case coCombine =>
    simp only [exec, execCoCombine]
    exact answers_waitRecall (coCombine_answers ..)
  case upPassa | upPassb =>
    simp only [exec, execUpPassa, execUpPassb]
    exact answers_waitRecall (upPass_answers ..)
  case upCommit =>
    simp only [exec, execUpCommit]
    exact answers_waitRecall (upCommit_answers ..)
  case fillVisit =>
    simp only [exec, execFillVisit]
    exact answers_waitRecall (fillVisit_answers ..)
  case gvpNop | puta | bnz | bz | fault | plog | saddi | sshli | salu | scmp | lane | ptail | add | sub | mul | fma | min | max
    | abs | neg | sel | cmp | cvt | div | sqrt | rsqrt | rcp | exp2 | log2 | exp | ln | rsum | rssq | rmax | rmin | ramax | rnf =>
    simp only [exec, execGvpNop, execPuta, execBnz, execBz, execFault, execPlog, execSaddi, execSshli, execSalu, execScmp,
    execLane, execPtail, execAdd, execSub, execMul, execFma, execMin, execMax, execAbs, execNeg, execSel, execCmp, execCvt,
    execDiv, execSqrt, execRsqrt, execRcp, execExp2, execLog2, execExp, execLn, execRsum, execRssq, execRmax, execRmin,
    execRamax, execRnf]
    exact coreOnly_answers ..
  case simm | rs | srnd =>
    simp only [exec, execSimm, execRs, execSrnd]
    exact coreRun_answers ..
  case vld | vst | sld | sst =>
    simp only [exec, execVld, execVst, execSld, execSst]
    exact answers_waitRecall (coreRun_answers ..)
  case frameSilence | laneLockLoss =>
    simp only [exec, execFrameSilence, execLaneLockLoss]
    exact linkLost_answers ..
  case mclSilence | mclLockLoss =>
    simp only [exec, execMclSilence, execMclLockLoss]
    exact mclFails_answers ..
  case info | cert | flerase | flwrite | seccommit =>
    simp only [exec, execInfo, execCert, execFlerase, execFlwrite, execSeccommit]
    exact mbCommand_answers ..
  case mbAttest =>
    simp only [exec, execMbAttest]
    exact mbServe_answers _ _ _ _ fun _ => answers_next ..
  case status | evread | setcoord | setgrant | setcap | release | telem | mcCsrrd | mcCsrwr | mcBist | mcAttest | report |
    spiRelease =>
    simp only [exec, execStatus, execEvread, execSetcoord, execSetgrant, execSetcap, execRelease, execTelem, execMcCsrrd,
    execMcCsrwr, execMcBist, execMcAttest, execReport, execSpiRelease]
    exact mcCommand_answers ..
  case mbBist =>
    simp only [exec, execMbBist]
    exact mbServe_answers _ _ _ _ fun _ => answers_waitRecall (answers_next ..)
  case frame | flit | rd | wr | wb | recallAck | cpl | csrWr | csrRd =>
    simp only [Instr.wf, exec, execFrame, execFlit, execRd, execWr, execWb, execRecallAck, execCpl, execCsrWr, execCsrRd]
    repeat' split
    all_goals simp_all
  case instructionDecode | instructionComplete | sparSignalArrive | syFence | mmLoadw | mmSwap | mmDefer | mmVqdrain | coVote |
    coDrain | upImm | setp | trap | abortComplete | watchdogTick | shadowLoadEnd | drainBoundary | recutDone | autoswap |
    stashFullTimeout | loftReconfDone | packetRelay | peerTimeout | drainForced | voteDeadline | covoteDeadline | outcomeTimeout
    | mirrorComplete | mirrorAck | trainingDone | trainingTimeout | downRetrain | coordApply | mclTrainingEnd | mclRetrain |
    rdshared | rdown | eventWrite | doorbellTimer | controlPeriod | estimate | measurementWindow | droopDetect | islandTempRead
    | stackTempRead | holdAbandon | dieTempCheck | grantApply | grantSwitch | grantRampEnd | pwrokRise | pwrokFall |
    resetNAssert | resetNRelease | p12vLoss | refclk0Loss | refclk1Loss | refclk2Loss | bootHeaderCheck | bootBodyCheck |
    islandPowerUp | bootBist | hbmTraining | memoryClear | identityCheck | linkStart | readyAssert | islandTestDone |
    attestSigned | deferredSnapshot | bandwidthWindowEnd | mcReset | shadowLoadBegin | sharedWindowChange | snapshotEnd |
    freezeApplied | end_ =>
    simp only [exec, execInstructionDecode, execInstructionComplete, execSparSignalArrive, execSyFence, execMmLoadw, execMmSwap,
    execMmDefer, execMmVqdrain, execCoVote, execCoDrain, execUpImm, execSetp, execTrap, execAbortComplete, execWatchdogTick,
    execShadowLoadEnd, execDrainBoundary, execRecutDone, execAutoswap, execStashFullTimeout, execLoftReconfDone,
    execPacketRelay, execPeerTimeout, execDrainForced, execVoteDeadline, execCovoteDeadline, execOutcomeTimeout,
    execMirrorComplete, execMirrorAck, execTrainingDone, execTrainingTimeout, execDownRetrain, execCoordApply,
    execMclTrainingEnd, execMclRetrain, execRdshared, execRdown, execEventWrite, execDoorbellTimer, execControlPeriod,
    execEstimate, execMeasurementWindow, execDroopDetect, execIslandTempRead, execStackTempRead, execHoldAbandon,
    execDieTempCheck, execGrantApply, execGrantSwitch, execGrantRampEnd, execPwrokRise, execPwrokFall, execResetNAssert,
    execResetNRelease, execP12vLoss, execRefclk0Loss, execRefclk1Loss, execRefclk2Loss, execBootHeaderCheck, execBootBodyCheck,
    execIslandPowerUp, execBootBist, execHbmTraining, execMemoryClear, execIdentityCheck, execLinkStart, execReadyAssert,
    execIslandTestDone, execAttestSigned, execDeferredSnapshot, execBandwidthWindowEnd, execMcReset, execShadowLoadBegin,
    execSharedWindowChange, execSnapshotEnd, execFreezeApplied, execEnd]
    repeat' split
    all_goals simp

/-- Settles O5: a command that answers no next state is one with malformed lists, and then it faults. -/
theorem wellFormedCommandsAnswer : Obligations.WellFormedCommandsAnswer := by
  intro c s
  obtain ⟨t, ht⟩ | ⟨hwf, hf⟩ := exec_answers c s
  · simp [ht]
  · simp [hwf, hf]

end Sys2Proof.Machine
end

section
/-! SUPPORT. What a change of the state can touch: the parts of a state, and the relation `Changes K s t` that `t` differs from `s` in the
parts `K` at most and keeps the canonical form of every store. -/
namespace Sys2Proof.Machine

/-- The parts of a state of which frames speak. `reports` is what counting and event reporting leave behind; `mcl`, `keeper`, `ctr` and `regs` are
meant without it; `wanted`, `grant`, `gone`, `flash` and `fuse` are single fields that few operations write. -/
inductive Part where
  | pending | free | ticket | stamp | mem | clearing | poison | table | rot | regs | live | truss | spars | ga | loft | obreqs | jobs | lastGen
  | joins | held | commit | bktWait | passes | cores | codes | written | gcause | ports | coord | gone | mcl | wanted | reports | once | pwrc
  | grant | keeper | flash | fuse | boot | bist | tap | pins | ctr
deriving DecidableEq

/-- What the failure of an attempt touches (R348), and with it every command that may take a trap. -/
def Part.attempt : List Part :=
  [.commit, .ports, .reports, .rot, .once, .jobs, .regs, .truss, .bktWait, .passes, .cores, .mcl, .loft, .poison, .mem, .written, .table, .ticket,
    .pwrc]

/-- The Keeper less the records that it holds for the MC. -/
def Keeper.lessReports (k : Keeper) : Keeper := { k with held := [], lost := 0 }

/-- The link less the numbers and the losses of events. -/
def Mcl.lessReports (m : Mcl) : Mcl := { m with seq := 0, lost := 0, lostAfter := 0 }

/-- The counters less their counts. -/
def Counters.lessReports (c : Counters) : Counters := { c with val := [], sat := [] }

/-- The registers less those that reports write. -/
def State.lessReportRegs (s : State) : List (Nat × Option Half) := s.regs.filter fun p => !isReport p.1

/-- What counting and event reporting write. -/
def State.reports (s : State) : List Event × (List (Nat × Nat) × List (Nat × Bool)) × (List Event × Nat) × (Nat × Nat × Nat) × List (Nat × Option Half) :=
  (s.evq, (s.ctr.val, s.ctr.sat), (s.keeper.held, s.keeper.lost), (s.mcl.seq, s.mcl.lost, s.mcl.lostAfter), s.regs)

/-- A part is the same in two states. The wanted lines count as the same where none are wanted after unless some were before. -/
def Part.same (s t : State) : Part → Prop
  | .pending => t.pending = s.pending
  | .free => t.free = s.free
  | .ticket => t.ticket = s.ticket
  | .stamp => t.stamp = s.stamp
  | .mem => t.mem = s.mem
  | .clearing => t.clearing = s.clearing
  | .poison => t.poison = s.poison
  | .table => t.table = s.table
  | .rot => t.rot = s.rot
  | .regs => t.lessReportRegs = s.lessReportRegs
  | .live => t.live = s.live
  | .truss => t.truss = s.truss
  | .spars => t.spars = s.spars
  | .ga => t.ga = s.ga
  | .loft => t.loft = s.loft
  | .obreqs => t.obreqs = s.obreqs
  | .jobs => t.jobs = s.jobs
  | .lastGen => t.lastGen = s.lastGen
  | .joins => t.joins = s.joins
  | .held => t.held = s.held
  | .commit => t.commit = s.commit
  | .bktWait => t.bktWait = s.bktWait
  | .passes => t.passes = s.passes
  | .cores => t.cores = s.cores
  | .codes => t.codes = s.codes
  | .written => t.written = s.written
  | .gcause => t.gcause = s.gcause
  | .ports => t.ports = s.ports
  | .coord => (t.coord.valid, t.coord.inForce, t.coord.pending) = (s.coord.valid, s.coord.inForce, s.coord.pending)
  | .gone => t.coord.gone = s.coord.gone
  | .mcl => t.mcl.lessReports = s.mcl.lessReports
  | .wanted => s.mcl.wanted = [] → t.mcl.wanted = []
  | .reports => t.reports = s.reports
  | .once => t.once = s.once
  | .pwrc => t.pwrc = s.pwrc
  | .grant => t.pwrc.grant = s.pwrc.grant
  | .keeper => t.keeper.lessReports = s.keeper.lessReports
  | .flash => t.keeper.flash = s.keeper.flash
  | .fuse => t.keeper.fuseMin = s.keeper.fuseMin
  | .boot => t.boot = s.boot
  | .bist => t.bist = s.bist
  | .tap => t.tap = s.tap
  | .pins => t.pins = s.pins
  | .ctr => t.ctr.lessReports = s.ctr.lessReports

/-- `t` differs from `s` in the parts `K` at most, and its stores are in canonical form where those of `s` are. -/
structure Changes (K : List Part) (s t : State) : Prop where
  canonical : s.Canonical → t.Canonical
  kept : ∀ p, p ∉ K → p.same s t

theorem Part.same_refl (s : State) (p : Part) : p.same s s := by
  cases p
  case wanted => exact id
  all_goals rfl

theorem Part.same_trans {s t u : State} {p : Part} (h : p.same s t) (h' : p.same t u) : p.same s u := by
  cases p
  case wanted => exact fun hs => h' (h hs)
  all_goals exact Eq.trans h' h

namespace Changes

variable {α : Type} {K K' : List Part} {s t u : State}

theorem refl : Changes [] s s := ⟨id, fun p _ => p.same_refl s⟩

/-- One change after another touches the parts of both. -/
theorem andThen (h : Changes K s t) (h' : Changes K' t u) : Changes (K ++ K') s u :=
  ⟨fun hs => h'.canonical (h.canonical hs), fun p hp => by
    rw [List.mem_append, not_or] at hp
    exact Part.same_trans (h.kept p hp.1) (h'.kept p hp.2)⟩

theorem mono (h : Changes K s t) (hK : K ⊆ K' := by decide) : Changes K' s t := ⟨h.canonical, fun p hp => h.kept p fun h => hp (hK h)⟩

/-- Two changes that touch the same parts. -/
theorem trans (h : Changes K s t) (h' : Changes K t u) : Changes K s u :=
  mono (andThen h h') (List.append_subset.2 ⟨List.Subset.refl _, List.Subset.refl _⟩)

theorem ite {c : Prop} [Decidable c] (ht : Changes K s t) (hu : Changes K' s u) : Changes (K ++ K') s (if c then t else u) := by
  split
  · exact ht.mono (List.subset_append_left ..)
  · exact hu.mono (List.subset_append_right ..)

/-- A state that is given with a value. -/
theorem pair {x : α} (h : Changes K s t) : Changes K s (t, x).1 := h

theorem ite_fst {c : Prop} [Decidable c] {p q : State × α} (hp : Changes K s p.1) (hq : Changes K' s q.1) :
    Changes (K ++ K') s (if c then p else q).1 := by
  split
  · exact hp.mono (List.subset_append_left ..)
  · exact hq.mono (List.subset_append_right ..)

theorem ite_snd {c : Prop} [Decidable c] {p q : α × State} (hp : Changes K s p.2) (hq : Changes K' s q.2) :
    Changes (K ++ K') s (if c then p else q).2 := by
  split
  · exact hp.mono (List.subset_append_left ..)
  · exact hq.mono (List.subset_append_right ..)

theorem dite {c : Prop} [Decidable c] {f : c → State} {g : ¬c → State} (hf : ∀ h, Changes K s (f h)) (hg : ∀ h, Changes K' s (g h)) :
    Changes (K ++ K') s (if h : c then f h else g h) := by
  split
  · exact (hf _).mono (List.subset_append_left ..)
  · exact (hg _).mono (List.subset_append_right ..)

/-- The parts that a change touches, named where they do not follow from the terms. -/
theorem of (K : List Part) (h : Changes K s t) : Changes K s t := h

/-- The state of a pair that a case distinction has taken apart. -/
theorem fst {p : State × α} {x : α} (h : Changes K s p.1) (hp : p = (t, x) := by assumption) : Changes K s t := by
  subst hp
  exact h

theorem snd {p : α × State} {x : α} (h : Changes K s p.2) (hp : p = (x, t)) : Changes K s t := by
  subst hp
  exact h

/-- A chain of changes touches what each of them touches. -/
theorem each {l : List α} {f : State → α → State} (hf : ∀ s x, Changes K s (f s x)) : Changes K s (s.each l f) :=
  State.each_induct (Changes K s) l f s (refl.mono (List.nil_subset _)) fun t x _ h =>
    h.trans (hf t x)

theorem foldl {l : List α} {f : State → α → State} (hf : ∀ s x, Changes K s (f s x)) : Changes K s (l.foldl f s) := each hf

/-- A fold that carries a value beside the state. -/
theorem foldl_fst {β γ : Type} {l : List γ} {f : State × β → γ → State × β} (hf : ∀ p x, Changes K p.1 (f p x).1) {p : State × β} :
    Changes K p.1 (l.foldl f p).1 := by
  induction l generalizing p with
  | nil => exact mono refl (List.nil_subset _)
  | cons x l ih => exact trans (hf p x) ih

/-- What leaves the stores leaves their form. -/
theorem of_stores (hm : t.mem = s.mem) (hp : t.poison = s.poison) (ht : t.table = s.table) (hr : t.rot = s.rot) (hg : t.regs = s.regs)
    (h : ∀ p, p ∉ K → p.same s t) : Changes K s t := ⟨fun hs => hs.congr hm hp ht hr hg, h⟩

/-- A change of several fields, none of them a store. -/
theorem fields (K : List Part) (hm : t.mem = s.mem := by rfl) (hp : t.poison = s.poison := by rfl) (ht : t.table = s.table := by rfl)
    (hr : t.rot = s.rot := by rfl) (hg : t.regs = s.regs := by rfl)
    (h : ∀ p, p ∉ K → p.same s t := by intro p hp; cases p <;> simp_all [Part.same, State.reports, State.lessReportRegs]) : Changes K s t :=
  of_stores hm hp ht hr hg h

end Changes

end Sys2Proof.Machine
end

section
/-! SUPPORT. What each single update of the state touches. -/
namespace Sys2Proof.Machine

set_option Elab.async false

/-- Filling flits leaves the numbers and losses of events and the wanted lines. -/
theorem Mcl.gather_same (m : Mcl) (n : Nat) : ((m.gather n).seq, (m.gather n).lost, (m.gather n).lostAfter) = (m.seq, m.lost, m.lostAfter) ∧
    (m.gather n).wanted = m.wanted := by
  induction n generalizing m with
  | zero => exact ⟨rfl, rfl⟩
  | succ n ih =>
    rw [Mcl.gather]
    split
    · exact ⟨rfl, rfl⟩
    · split
      · exact ⟨rfl, rfl⟩
      · exact ih _

/-- So does sending them. -/
theorem Mcl.pump_same (m : Mcl) (n : Nat) : ((m.pump n).seq, (m.pump n).lost, (m.pump n).lostAfter) = (m.seq, m.lost, m.lostAfter) ∧
    (m.pump n).wanted = m.wanted := by
  induction n generalizing m with
  | zero => exact ⟨rfl, rfl⟩
  | succ n ih =>
    rw [Mcl.pump]
    split
    · obtain ⟨hr, hw⟩ := ih m.flitOut
      obtain ⟨hr', hw'⟩ := m.gather_same 15
      exact ⟨hr.trans hr', hw.trans hw'⟩
    · exact ⟨rfl, rfl⟩

/-- So does taking an acknowledgement. -/
theorem Mcl.acked_same (m : Mcl) (a : BitVec 12) : ((m.acked a).seq, (m.acked a).lost, (m.acked a).lostAfter) = (m.seq, m.lost, m.lostAfter) ∧
    (m.acked a).wanted = m.wanted := by
  unfold Mcl.acked
  split <;> exact ⟨rfl, rfl⟩

/-- Holding a record for the MC leaves flash and fuses. -/
theorem Keeper.hold_same (k : Keeper) (e : Event) : (k.hold e).flash = k.flash ∧ (k.hold e).fuseMin = k.fuseMin := by
  unfold Keeper.hold
  split
  · exact ⟨rfl, rfl⟩
  · split <;> exact ⟨rfl, rfl⟩

end Sys2Proof.Machine

namespace Sys2Proof.Machine.Changes

variable {α : Type} {K : List Part} {s : State}

/-! ### Fields -/

theorem pending {v} : Changes [.pending] s { s with pending := v } :=
  of_stores rfl rfl rfl rfl rfl fun p hp => by cases p <;> simp_all [Part.same, State.reports, State.lessReportRegs]
theorem free {v} : Changes [.free] s { s with free := v } :=
  of_stores rfl rfl rfl rfl rfl fun p hp => by cases p <;> simp_all [Part.same, State.reports, State.lessReportRegs]
theorem ticket {v} : Changes [.ticket] s { s with ticket := v } :=
  of_stores rfl rfl rfl rfl rfl fun p hp => by cases p <;> simp_all [Part.same, State.reports, State.lessReportRegs]
theorem stamp {v} : Changes [.stamp] s { s with stamp := v } :=
  of_stores rfl rfl rfl rfl rfl fun p hp => by cases p <;> simp_all [Part.same, State.reports, State.lessReportRegs]
theorem clearing {v} : Changes [.clearing] s { s with clearing := v } :=
  of_stores rfl rfl rfl rfl rfl fun p hp => by cases p <;> simp_all [Part.same, State.reports, State.lessReportRegs]
theorem live {v} : Changes [.live] s { s with live := v } :=
  of_stores rfl rfl rfl rfl rfl fun p hp => by cases p <;> simp_all [Part.same, State.reports, State.lessReportRegs]
theorem truss {v} : Changes [.truss] s { s with truss := v } :=
  of_stores rfl rfl rfl rfl rfl fun p hp => by cases p <;> simp_all [Part.same, State.reports, State.lessReportRegs]
theorem spars {v} : Changes [.spars] s { s with spars := v } :=
  of_stores rfl rfl rfl rfl rfl fun p hp => by cases p <;> simp_all [Part.same, State.reports, State.lessReportRegs]
theorem ga {v} : Changes [.ga] s { s with ga := v } :=
  of_stores rfl rfl rfl rfl rfl fun p hp => by cases p <;> simp_all [Part.same, State.reports, State.lessReportRegs]
theorem loft {v} : Changes [.loft] s { s with loft := v } :=
  of_stores rfl rfl rfl rfl rfl fun p hp => by cases p <;> simp_all [Part.same, State.reports, State.lessReportRegs]
theorem obreqs {v} : Changes [.obreqs] s { s with obreqs := v } :=
  of_stores rfl rfl rfl rfl rfl fun p hp => by cases p <;> simp_all [Part.same, State.reports, State.lessReportRegs]
theorem jobs {v} : Changes [.jobs] s { s with jobs := v } :=
  of_stores rfl rfl rfl rfl rfl fun p hp => by cases p <;> simp_all [Part.same, State.reports, State.lessReportRegs]
theorem lastGen {v} : Changes [.lastGen] s { s with lastGen := v } :=
  of_stores rfl rfl rfl rfl rfl fun p hp => by cases p <;> simp_all [Part.same, State.reports, State.lessReportRegs]
theorem joins {v} : Changes [.joins] s { s with joins := v } :=
  of_stores rfl rfl rfl rfl rfl fun p hp => by cases p <;> simp_all [Part.same, State.reports, State.lessReportRegs]
theorem held {v} : Changes [.held] s { s with held := v } :=
  of_stores rfl rfl rfl rfl rfl fun p hp => by cases p <;> simp_all [Part.same, State.reports, State.lessReportRegs]
theorem commit {v} : Changes [.commit] s { s with commit := v } :=
  of_stores rfl rfl rfl rfl rfl fun p hp => by cases p <;> simp_all [Part.same, State.reports, State.lessReportRegs]
theorem bktWait {v} : Changes [.bktWait] s { s with bktWait := v } :=
  of_stores rfl rfl rfl rfl rfl fun p hp => by cases p <;> simp_all [Part.same, State.reports, State.lessReportRegs]
theorem passes {v} : Changes [.passes] s { s with passes := v } :=
  of_stores rfl rfl rfl rfl rfl fun p hp => by cases p <;> simp_all [Part.same, State.reports, State.lessReportRegs]
theorem cores {v} : Changes [.cores] s { s with cores := v } :=
  of_stores rfl rfl rfl rfl rfl fun p hp => by cases p <;> simp_all [Part.same, State.reports, State.lessReportRegs]
theorem codes {v} : Changes [.codes] s { s with codes := v } :=
  of_stores rfl rfl rfl rfl rfl fun p hp => by cases p <;> simp_all [Part.same, State.reports, State.lessReportRegs]
theorem written {v} : Changes [.written] s { s with written := v } :=
  of_stores rfl rfl rfl rfl rfl fun p hp => by cases p <;> simp_all [Part.same, State.reports, State.lessReportRegs]
theorem gcause {v} : Changes [.gcause] s { s with gcause := v } :=
  of_stores rfl rfl rfl rfl rfl fun p hp => by cases p <;> simp_all [Part.same, State.reports, State.lessReportRegs]
theorem ports {v} : Changes [.ports] s { s with ports := v } :=
  of_stores rfl rfl rfl rfl rfl fun p hp => by cases p <;> simp_all [Part.same, State.reports, State.lessReportRegs]
theorem once {v} : Changes [.once] s { s with once := v } :=
  of_stores rfl rfl rfl rfl rfl fun p hp => by cases p <;> simp_all [Part.same, State.reports, State.lessReportRegs]
theorem boot {v} : Changes [.boot] s { s with boot := v } :=
  of_stores rfl rfl rfl rfl rfl fun p hp => by cases p <;> simp_all [Part.same, State.reports, State.lessReportRegs]
theorem bist {v} : Changes [.bist] s { s with bist := v } :=
  of_stores rfl rfl rfl rfl rfl fun p hp => by cases p <;> simp_all [Part.same, State.reports, State.lessReportRegs]
theorem tap {v} : Changes [.tap] s { s with tap := v } :=
  of_stores rfl rfl rfl rfl rfl fun p hp => by cases p <;> simp_all [Part.same, State.reports, State.lessReportRegs]
theorem pins {v} : Changes [.pins] s { s with pins := v } :=
  of_stores rfl rfl rfl rfl rfl fun p hp => by cases p <;> simp_all [Part.same, State.reports, State.lessReportRegs]

/-- Memory, markers, table words, rotations and registers stay in canonical form where the new store is. -/
theorem mem {v} (hv : Memory.wf s.mem = true → Memory.wf v = true) : Changes [.mem] s { s with mem := v } :=
  ⟨fun hs => ⟨hv hs.mem, hs.2⟩, fun p hp => by cases p <;> simp_all [Part.same, State.reports, State.lessReportRegs]⟩

theorem poison {v} (hv : Sparse.wf false s.poison = true → Sparse.wf false v = true) : Changes [.poison] s { s with poison := v } :=
  ⟨fun hs => ⟨hs.mem, hv hs.poison, hs.2.2⟩, fun p hp => by cases p <;> simp_all [Part.same, State.reports, State.lessReportRegs]⟩

theorem table {v} (hv : Sparse.wf 0 s.table = true → Sparse.wf 0 v = true) : Changes [.table] s { s with table := v } :=
  ⟨fun hs => ⟨hs.mem, hs.poison, hv hs.table, hs.2.2.2⟩, fun p hp => by cases p <;> simp_all [Part.same, State.reports, State.lessReportRegs]⟩

theorem rot {v} (hv : Sparse.wf none s.rot = true → Sparse.wf none v = true) : Changes [.rot] s { s with rot := v } :=
  ⟨fun hs => ⟨hs.mem, hs.poison, hs.table, hv hs.rot, hs.regs⟩, fun p hp => by cases p <;> simp_all [Part.same, State.reports, State.lessReportRegs]⟩

theorem regs {v} (hv : Sparse.wf none s.regs = true → Sparse.wf none v = true) : Changes [.regs, .reports] s { s with regs := v } :=
  ⟨fun hs => ⟨hs.mem, hs.poison, hs.table, hs.rot, hv hs.regs⟩, fun p hp => by cases p <;> simp_all [Part.same]⟩

/-! ### Records in which parts are told apart -/

/-- A change of the coordinate record that keeps which copies are lost, or not. -/
theorem coord {v} (hg : v.gone = s.coord.gone) : Changes [.coord] s { s with coord := v } :=
  of_stores rfl rfl rfl rfl rfl fun p hp => by cases p <;> simp_all [Part.same, State.reports, State.lessReportRegs]

/-- A change of the lost copies of the coordinate alone. -/
theorem gone {v} : Changes [.gone] s { s with coord := { s.coord with gone := v } } :=
  of_stores rfl rfl rfl rfl rfl fun p hp => by cases p <;> simp_all [Part.same, State.reports, State.lessReportRegs]

theorem evq {v} : Changes [.reports] s { s with evq := v } :=
  of_stores rfl rfl rfl rfl rfl fun p hp => by cases p <;> simp_all [Part.same, State.reports, State.lessReportRegs]

/-- A change of the whole coordinate record. -/
theorem coordinate (v) : Changes [.coord, .gone] s { s with coord := v } :=
  of_stores rfl rfl rfl rfl rfl fun p hp => by cases p <;> simp_all [Part.same, State.reports, State.lessReportRegs]

theorem mcl {v : Mcl} (hr : (v.seq, v.lost, v.lostAfter) = (s.mcl.seq, s.mcl.lost, s.mcl.lostAfter)) (hw : s.mcl.wanted = [] → v.wanted = []) :
    Changes [.mcl] s { s with mcl := v } :=
  of_stores rfl rfl rfl rfl rfl fun p hp => by cases p <;> simp_all [Part.same, State.reports, State.lessReportRegs]

/-- A change of the link that may leave lines wanted. -/
theorem wanted {v : Mcl} (hr : (v.seq, v.lost, v.lostAfter) = (s.mcl.seq, s.mcl.lost, s.mcl.lostAfter)) :
    Changes [.mcl, .wanted] s { s with mcl := v } :=
  of_stores rfl rfl rfl rfl rfl fun p hp => by cases p <;> simp_all [Part.same, State.reports, State.lessReportRegs]

theorem pwrc {v : Pwrc} (hg : v.grant = s.pwrc.grant) : Changes [.pwrc] s { s with pwrc := v } :=
  of_stores rfl rfl rfl rfl rfl fun p hp => by cases p <;> simp_all [Part.same, State.reports, State.lessReportRegs]

theorem keeper {v : Keeper} (hr : (v.held, v.lost) = (s.keeper.held, s.keeper.lost)) (hf : v.flash = s.keeper.flash)
    (hm : v.fuseMin = s.keeper.fuseMin) : Changes [.keeper] s { s with keeper := v } :=
  of_stores rfl rfl rfl rfl rfl fun p hp => by cases p <;> simp_all [Part.same, State.reports, State.lessReportRegs]

theorem ctr {v : Counters} (hr : (v.val, v.sat) = (s.ctr.val, s.ctr.sat)) : Changes [.ctr] s { s with ctr := v } :=
  of_stores rfl rfl rfl rfl rfl fun p hp => by cases p <;> simp_all [Part.same, State.reports, State.lessReportRegs]

/-- A change of the grant. -/
theorem grant {v : Pwrc} : Changes [.pwrc, .grant] s { s with pwrc := v } :=
  of_stores rfl rfl rfl rfl rfl fun p hp => by cases p <;> simp_all [Part.same, State.reports, State.lessReportRegs]

/-- A change of the counts. -/
theorem counts {v w} : Changes [.reports] s { s with ctr := { s.ctr with val := v, sat := w } } :=
  of_stores rfl rfl rfl rfl rfl fun p hp => by cases p <;> simp_all [Part.same, State.reports, State.lessReportRegs, Counters.lessReports]

/-- What the Keeper holds for the MC is a report. -/
theorem hold {e} : Changes [.reports] s { s with keeper := s.keeper.hold e } := by
  refine of_stores rfl rfl rfl rfl rfl fun p hp => ?_
  cases p
  case keeper | flash | fuse =>
    simp only [Part.same, Keeper.hold]
    split
    · rfl
    · split <;> rfl
  all_goals simp_all [Part.same, State.reports, State.lessReportRegs]

/-- The Keeper may change with what it holds for the MC. -/
theorem reportKeeper {v : Keeper} (hf : v.flash = s.keeper.flash) (hm : v.fuseMin = s.keeper.fuseMin) :
    Changes [.keeper, .reports] s { s with keeper := v } :=
  of_stores rfl rfl rfl rfl rfl fun p hp => by cases p <;> simp_all [Part.same, State.reports, State.lessReportRegs]

/-- A change of the Keeper with its flash. -/
theorem flash {v : Keeper} (hr : (v.held, v.lost) = (s.keeper.held, s.keeper.lost)) (hm : v.fuseMin = s.keeper.fuseMin) :
    Changes [.keeper, .flash] s { s with keeper := v } :=
  of_stores rfl rfl rfl rfl rfl fun p hp => by cases p <;> simp_all [Part.same, State.reports, State.lessReportRegs]

/-- A change of the Keeper with its fuses. -/
theorem fuse {v : Keeper} (hr : (v.held, v.lost) = (s.keeper.held, s.keeper.lost)) (hf : v.flash = s.keeper.flash) :
    Changes [.keeper, .fuse] s { s with keeper := v } :=
  of_stores rfl rfl rfl rfl rfl fun p hp => by cases p <;> simp_all [Part.same, State.reports, State.lessReportRegs]

/-- The numbers and losses of events are reports; the rest of the link may change with them. -/
theorem reportMcl {v : Mcl} (hw : s.mcl.wanted = [] → v.wanted = [] := by exact id) : Changes [.mcl, .reports] s { s with mcl := v } :=
  of_stores rfl rfl rfl rfl rfl fun p hp => by cases p <;> simp_all [Part.same, State.reports, State.lessReportRegs]

/-- What leaves the quiet view as it was, and every store in canonical form, touches reports alone. -/
theorem of_quiet {t : State} (hq : t.quiet = s.quiet) (hc : s.Canonical → t.Canonical) : Changes [.reports] s t := by
  refine ⟨hc, fun p hp => ?_⟩
  have h : p.same s.quiet t.quiet := by rw [hq]; exact p.same_refl _
  cases p
  case reports => exact absurd (List.mem_singleton.2 rfl) hp
  case regs => exact congrArg State.regs hq
  all_goals exact h

/-! ### Counting and reporting -/

theorem occ {dom i n} : Changes [.reports] s (s.occ dom i n) := of_quiet (s.occ_quiet ..) (·.occ ..)
theorem raise {code dom d0 d1 d2} : Changes [.reports] s (s.raise code dom d0 d1 d2) := of_quiet (s.raise_quiet ..) (·.raise ..)
theorem raiseSat {keys} : Changes [.reports] s (s.raiseSat keys) := of_quiet (s.raiseSat_quiet ..) (·.raiseSat ..)
theorem bump {dom group index n} : Changes [.reports] s (s.bump dom group index n).1 := of_quiet (s.bump_quiet ..) (·.bump ..)
theorem addCount {key n} : Changes [.reports] s (s.addCount key n).1 := of_quiet (s.addCount_quiet ..) (·.addCount ..)
theorem tally {key n} : Changes [.reports] s (s.tally key n) := of_quiet (s.tally_quiet ..) (·.tally ..)
theorem charge {dom u c n} : Changes [.reports] s (s.charge dom u c n) := of_quiet (s.charge_quiet ..) (·.charge ..)
theorem lath {d cls n} : Changes [.reports] s (s.lath d cls n) := of_quiet (s.lath_quiet ..) (·.lath ..)
theorem lathControl {dom n} : Changes [.reports] s (s.lathControl dom n) := of_quiet (s.lathControl_quiet ..) (·.lathControl ..)
theorem common {dom i n} : Changes [.reports] s (s.common dom i n) := of_quiet (s.common_quiet ..) (·.common ..)

/-! ### Components -/

theorem modTr {d f} : Changes [.truss] s (s.modTr d f) := truss
theorem modGa {i f} : Changes [.ga] s (s.modGa i f) := ga
theorem modLoft {k f} : Changes [.loft] s (s.modLoft k f) := loft
theorem modJob {j f} : Changes [.jobs] s (s.modJob j f) := jobs
theorem modCore {k f} : Changes [.cores] s (s.modCore k f) := cores
theorem modPort {k f} : Changes [.ports] s (s.modPort k f) := ports
theorem modCommit {f} : Changes [.commit] s (s.modCommit f) := commit
theorem modBist {f} : Changes [.bist] s (s.modBist f) := bist
theorem modPins {f} : Changes [.pins] s (s.modPins f) := pins
theorem modMcl {f : Mcl → Mcl} (hr : ∀ m, ((f m).seq, (f m).lost, (f m).lostAfter) = (m.seq, m.lost, m.lostAfter) := by exact fun _ => rfl)
    (hw : ∀ m, m.wanted = [] → (f m).wanted = [] := by exact fun _ h => h) : Changes [.mcl] s (s.modMcl f) := mcl (hr _) (hw _)
theorem modPwrc {f : Pwrc → Pwrc} (hg : ∀ p, (f p).grant = p.grant := by exact fun _ => rfl) : Changes [.pwrc] s (s.modPwrc f) := pwrc (hg _)
theorem modKeeper {f : Keeper → Keeper} (hr : ∀ k, ((f k).held, (f k).lost) = (k.held, k.lost) := by exact fun _ => rfl)
    (hf : ∀ k, (f k).flash = k.flash := by exact fun _ => rfl) (hm : ∀ k, (f k).fuseMin = k.fuseMin := by exact fun _ => rfl) :
    Changes [.keeper] s (s.modKeeper f) := keeper (hr _) (hf _) (hm _)
theorem setRegRaw {dom off v} : Changes [.regs, .reports] s (s.setRegRaw dom off v) := regs (Sparse.wf_put none _ _)
theorem setTable {k v} : Changes [.table] s (s.setTable k v) := table (Sparse.wf_put 0 _ _)
theorem mark {u p} : Changes [.poison] s (s.mark u p) := poison (Sparse.wf_put false _ _)
theorem modCtr {f : Counters → Counters} (hr : ∀ c, ((f c).val, (f c).sat) = (c.val, c.sat) := by exact fun _ => rfl) :
    Changes [.ctr] s (s.modCtr f) := ctr (hr _)

theorem writeFlash {l : Keeper → List FlashOp} : Changes [.keeper, .flash] s (s.modKeeper fun k => { k with flash := l k }) := flash rfl rfl

/-- Where no line is wanted in the end, whatever wanted some before does not count. -/
theorem settled {t} (h : Changes K s t) (hw : t.mcl.wanted = []) : Changes (K.filter (· ≠ .wanted)) s t := by
  refine ⟨h.canonical, fun p hp => ?_⟩
  by_cases hpw : p = .wanted
  · subst hpw
    exact fun _ => hw
  · exact h.kept p (by simpa [hpw] using hp)

/-- Clearing the wanted lines makes up for what wanted some. -/
theorem unwanted {t} (h : Changes K s t) : Changes ((K ++ [Part.mcl]).filter (· ≠ .wanted)) s (t.modMcl fun m => { m with wanted := [] }) :=
  settled (h.andThen (mcl rfl fun _ => rfl)) rfl

end Sys2Proof.Machine.Changes
end

section
/-! SUPPORT. What each operation of the model on a state touches. -/
namespace Sys2Proof.Machine.Changes

set_option Elab.async false

variable {α : Type} {K : List Part} {s t : State}

theorem drawFree : Changes [.free] s s.drawFree.2 := free

theorem orReg {dom off m} : Changes [.regs, .reports] s (s.orReg dom off m) := mono setRegRaw

theorem setField {dom off lo w v} : Changes [.regs, .reports] s (s.setField dom off lo w v) := mono setRegRaw

theorem keepDerived {dom lvl} : Changes [.regs, .reports] s (s.keepDerived dom lvl) := mono (foldl (fun _ _ => setRegRaw))

theorem regWrite {r dom off data mask} : Changes [.regs, .reports] s (s.regWrite r dom off data mask) := by
  unfold State.regWrite
  dsimp only
  split
  exacts [mono refl, mono <| andThen (ite keepDerived refl) setRegRaw]

theorem numbered {e} : Changes [.reports] s (s.numbered e) := of_quiet (s.numbered_quiet _) id

theorem toQueue {e} : Changes [.reports] s (s.toQueue e).1 := of_quiet (s.toQueue_quiet _) (·.toQueue _)

theorem post {e} : Changes [.reports] s (s.post e).1 := of_quiet (s.post_quiet _) (·.post _)

theorem raiseEv {e} : Changes [.reports] s (s.raiseEv e) := of_quiet (s.raiseEv_quiet _) (·.raiseEv _)

theorem setTicket {t} : Changes [.ticket, .reports] s (s.setTicket t) := mono <| andThen ticket (ite raise refl)

theorem raiseOnce {unit code dom d0 d1 d2} : Changes [.once, .reports] s (s.raiseOnce unit code dom d0 d1 d2) :=
    mono (ite refl (andThen once raise))

theorem putByte {a v} : Changes [.mem] s (s.putByte a v) := mono <| ite refl (mem (Sparse.wf_put emptyByte _ _))

theorem putBytes {a l} : Changes [.mem] s (s.putBytes a l) := by
  induction l generalizing s a with
  | nil => exact mono refl
  | cons v l ih => exact mono <| andThen putByte ih

theorem writeRaw {a bs} : Changes [.poison, .mem] s (s.writeRaw a bs) := mono <| andThen (each (fun _ _ => mark)) putBytes

theorem noteWrite {a n writer} : Changes [.written] s (s.noteWrite a n writer) := mono (ite refl written)

theorem write {a bs} : Changes [.poison, .mem, .written] s (s.write a bs) := mono <| andThen writeRaw noteWrite

theorem writePoison {a bs} : Changes [.poison, .mem, .written] s (s.writePoison a bs) := mono <| andThen write (each (fun _ _ => mark))

theorem writeNat {a x n} : Changes [.poison, .mem, .written] s (s.writeNat a x n) := mono write

theorem writeRotate {a bs} : Changes [.mem] s (s.writeRotate a bs) := mono (each (fun _ _ => putByte))

theorem writeVia {a bs} : Changes [.poison, .mem, .written] s (s.writeVia a bs) := by
  unfold State.writeVia
  dsimp only
  split
  exacts [mono write, mono putBytes, mono putBytes, mono writeRotate]

theorem memUncorr {u} : Changes [.regs, .reports] s (s.memUncorr u) := by
  unfold State.memUncorr
  dsimp only
  exact mono <| andThen (of [.regs,
      .reports] (by split; exacts [mono <| andThen orReg <| andThen setRegRaw <| andThen setRegRaw <| andThen setRegRaw occ, mono <| andThen orReg occ, mono <| andThen orReg occ, mono <| andThen orReg occ, mono refl])) raise

theorem want {l} : Changes [.mcl, .wanted] s (s.want l) :=
  mono <| ite refl <| wanted rfl

theorem consume {l} : Changes [.mcl, .wanted, .regs, .reports] s (s.consume l).1 :=
    mono (ite_fst (pair refl) (pair (andThen want (each (fun _ _ => memUncorr)))))

theorem touchLine {line dirty alloc} : Changes [.loft, .reports] s (s.touchLine line dirty alloc) := by
  unfold State.touchLine
  dsimp only
  split
  exacts [mono (ite refl (of [.loft,
      .reports] (by split; exacts [mono <| andThen modLoft occ, mono <| andThen occ (ite refl (of [.loft, .reports] (by split; exacts [mono modLoft, mono <| andThen modLoft (ite occ refl)])))]))), mono refl]

theorem cross {m x} : Changes [.reports] s (s.cross m x) := mono (ite refl (each (fun _ _ => lath)))

theorem touch {m l dirty alloc} : Changes [.reports, .loft] s (s.touch m l dirty alloc) :=
    mono (each (fun _ _ => ite refl (andThen cross (each (fun _ _ => touchLine)))))

theorem stream {m l} : Changes [.reports, .loft] s (s.stream m l) :=
    mono (each (fun _ _ => ite refl (andThen cross (each (fun _ _ => touchLine)))))

theorem forRead {l m} : Changes [.mcl, .wanted, .reports, .loft] s (s.forRead l m) := mono <| andThen want touch

theorem forWrite {l m} : Changes [.mcl, .wanted, .reports, .loft] s (s.forWrite l m) := mono <| andThen want touch

theorem storeBucket {pre a bs} : Changes [.mcl, .wanted, .poison, .mem, .written, .reports, .loft] s (s.storeBucket pre a bs) := mono <|
    andThen want <| andThen write touch

theorem store {a bs} : Changes [.mcl, .wanted, .reports, .loft, .poison, .mem, .written] s (s.store a bs) := mono <| andThen forWrite write

theorem memCorr {a} : Changes [.regs, .reports] s (s.memCorr a) := by
  unfold State.memCorr
  dsimp only
  split
  exacts [mono <| andThen orReg occ, mono <| andThen orReg occ, mono <| andThen orReg occ, mono <| andThen orReg occ, mono refl]

theorem corrected {data l} : Changes [.regs, .reports] s (s.corrected data l) := by
  unfold State.corrected
  split
  exacts [mono (ite memCorr refl), mono refl]

theorem occPort {k i n} : Changes [.reports] s (s.occPort k i n) := mono occ

theorem pump {k n} : Changes [.ports, .reports] s (s.pump k n) := by
  induction n generalizing s with
  | zero => exact mono refl
  | succ n ih => exact mono <| ite (andThen modPort <| andThen occPort <| andThen occPort ih) (ite occPort refl)

theorem keepAlive {k} : Changes [.ports, .reports] s (s.keepAlive k) :=
    mono (ite refl (ite modPort (andThen modPort (ite refl (andThen modPort <| andThen occPort occPort)))))

theorem emit {k stream p own} : Changes [.ports, .reports] s (s.emit k stream p own) := mono <| andThen modPort pump

theorem setTableBits {k lo w v} : Changes [.table] s (s.setTableBits k lo w v) := mono setTable

theorem sendRaw {p} : Changes [.ports, .reports, .rot] s (s.sendRaw p).1 := by
  unfold State.sendRaw
  dsimp only
  split
  exacts [mono refl, mono (ite_fst (pair (each (fun _ _ => andThen emit (ite emit refl)))) (ite_fst (of [.rot, .ports,
      .reports] (by split; exacts [mono refl, mono <| andThen (rot (Sparse.wf_put none _ _)) emit])) (of [.ports, .reports] (by split; exacts [mono refl, mono emit]))))]

theorem finish {d seq trap} : Changes [.truss] s (s.finish d seq trap) := mono modTr

theorem finishRef {r trap} : Changes [.truss] s (s.finishRef r trap) := mono finish

theorem setImm {d k v} : Changes [.truss] s (s.setImm d k v) := mono modTr

theorem clearArmed : Changes [.table] s (s.clearArmed) := mono (each (fun _ _ => setTableBits))

theorem copyMem {src dst n} : Changes [.mcl, .wanted, .reports, .loft, .regs, .poison, .mem, .written] s (s.copyMem src dst n) := mono <|
    andThen forRead <| andThen forWrite <| andThen (each (fun _ _ => memUncorr)) <| andThen write (each (fun _ _ => each (fun _ _ => mark)))

theorem publish {n buf} : Changes [.mcl, .wanted, .reports, .loft, .regs, .poison, .mem, .written] s (s.publish n buf) :=
    mono (ite refl copyMem)

theorem passEnd : Changes [.passes, .truss] s (s.passEnd) := mono (each (fun _ _ => ite refl (ite (andThen passes finishRef) refl)))

theorem armFree : Changes [.table, .passes, .truss] s (s.armFree) := mono (ite refl (andThen (each (fun _ _ => setTableBits)) <|
    andThen passes passEnd))

theorem endInstructions : Changes [.truss, .jobs, .bktWait, .passes, .cores] s (s.endInstructions) := by
  unfold State.endInstructions
  dsimp only
  exact mono <| andThen (each (fun _ _ => setImm)) <| andThen (each (fun _ _ => modTr)) (fields [.jobs, .bktWait, .passes, .cores])

theorem forceNo {cause} : Changes [.commit] s (s.forceNo cause) := mono modCommit

theorem noPathNote : Changes [.reports, .once, .commit] s (s.noPathNote) := mono <| andThen occPort <| andThen raiseOnce forceNo

theorem sendAbandons : Changes [.ports, .reports, .rot, .once, .commit] s (s.sendAbandons) :=
    mono (each (fun _ _ => each (fun _ _ => andThen sendRaw (ite refl noPathNote))))

theorem abandonActs {cause} : Changes [.commit, .ports, .reports, .rot, .once, .jobs, .regs, .truss, .bktWait, .passes,
    .cores] s (s.abandonActs cause) := mono (ite refl (andThen modCommit <| andThen sendAbandons <| andThen jobs <| andThen orReg <|
    andThen occ <| andThen (each (fun _ _ => raise)) endInstructions))

theorem noPathActs : Changes [.reports, .once, .commit, .ports, .rot, .jobs, .regs, .truss, .bktWait, .passes, .cores] s (s.noPathActs) :=
    mono <| andThen noPathNote abandonActs

theorem sendCommit {p} : Changes [.ports, .reports, .rot, .once, .commit, .jobs, .regs, .truss, .bktWait, .passes,
    .cores] s (s.sendCommit p) := mono <| andThen sendRaw (ite refl noPathActs)

theorem setFold {code f} : Changes [.commit] s (s.setFold code f) := mono modCommit

theorem foldGo {a0 a1 a2 a3} : Changes [.commit, .ports, .reports, .rot, .once, .jobs, .regs, .truss, .bktWait, .passes,
    .cores] s (s.foldGo a0 a1 a2 a3).1 := by
  induction a3 generalizing s a0 a1 a2 with
  | nil => exact mono refl
  | cons x l ih =>
    rw [State.foldGo]
    split
    exacts [mono refl, mono (ite_fst (pair (andThen setFold sendCommit)) (ite_fst (pair setFold) (andThen setFold ih)))]

theorem foldOwn {c code v} : Changes [.commit, .ports, .reports, .rot, .once, .jobs, .regs, .truss, .bktWait, .passes,
    .cores] s (s.foldOwn c code v).1 := mono <| andThen setFold foldGo

theorem foldIn {c code ph v} : Changes [.commit, .ports, .reports, .rot, .once, .jobs, .regs, .truss, .bktWait, .passes,
    .cores] s (s.foldIn c code ph v).1 := mono <| andThen setFold foldGo

theorem castOn {c phase v} : Changes [.ports, .reports, .rot, .once, .commit, .jobs, .regs, .truss, .bktWait, .passes,
    .cores] s (s.castOn c phase v) := mono (each (fun _ _ => sendCommit))

theorem sendTwin {k p} : Changes [.ports, .reports] s (s.sendTwin k p) := by
  unfold State.sendTwin
  dsimp only
  split
  exacts [mono refl, mono emit]

theorem mirrorRead : Changes [.mcl, .wanted, .reports, .loft, .regs] s (s.mirrorRead) := mono <|
    andThen forRead (each (fun _ _ => memUncorr))

theorem sendMirror {n} : Changes [.mcl, .wanted, .reports, .loft, .regs, .ports] s (s.sendMirror n) := mono <|
    andThen mirrorRead (each (fun _ _ => sendTwin))

theorem mirrorLost : Changes [.commit, .regs, .reports, .once] s (s.mirrorLost) := mono <| andThen modCommit <| andThen orReg raiseOnce

theorem mirrorStart : Changes [.commit, .regs, .reports, .once, .mcl, .wanted, .loft, .ports] s (s.mirrorStart) :=
    mono (ite modCommit (ite mirrorLost (andThen modCommit sendMirror)))

theorem newAttempt {keep} : Changes [.truss, .jobs, .bktWait, .passes, .cores, .table, .commit] s (s.newAttempt keep) := mono <|
    andThen endInstructions <| andThen clearArmed <| andThen modCommit jobs

theorem flip : Changes [.mcl, .wanted, .reports, .loft, .regs, .poison, .mem, .written, .table, .ticket, .pwrc, .commit] s s.flip := by
  unfold State.flip
  dsimp only
  exact mono <| andThen (each fun _ _ => publish) <| andThen (each fun _ _ => andThen setTableBits <| andThen setTableBits setTable) <|
    andThen (ite refl setTicket) <| andThen (modPwrc fun p => by split <;> rfl) modCommit

theorem applyOutcome {yes extra} : Changes [.commit, .reports, .truss, .mcl, .wanted, .loft, .regs, .poison, .mem, .written, .table,
    .ticket, .pwrc, .jobs, .bktWait, .passes, .cores, .once, .ports] s (s.applyOutcome yes extra) := by
  unfold State.applyOutcome
  extract_lets code s1 s2 s3 s4 s5 s6
  have h1 : Changes [.commit, .reports] s s2 := mono <| andThen modCommit (ite occ (andThen occ occ))
  have h3 : Changes (.commit :: [.truss]) s2 s3 := by
    unfold s3
    split
    exacts [mono modCommit, mono <| andThen modCommit finishRef]
  have h4 : Changes [.mcl, .wanted, .reports, .loft, .regs, .poison, .mem, .written, .table, .ticket, .pwrc, .commit] s3 s4 := mono <|
      ite flip refl
  have h5 : Changes [.jobs] s4 s5 := jobs
  have h6 : Changes _ s5 s6 := andThen newAttempt modCommit
  exact mono <| andThen h1 <| andThen h3 <| andThen h4 <| andThen h5 <| andThen h6 <| ite mirrorStart refl

theorem sendMirrored : Changes [.commit, .ports, .reports, .rot, .once, .jobs, .regs, .truss, .bktWait, .passes,
    .cores] s (s.sendMirrored) := by
  unfold State.sendMirrored
  dsimp only
  split
  exacts [mono refl, mono (ite refl (andThen modCommit <| andThen foldOwn (of [.ports, .reports, .rot, .once, .commit, .jobs, .regs, .truss,
      .bktWait, .passes, .cores] (by split; exacts [mono refl, mono (ite (andThen castOn modCommit) refl)]))))]

theorem outcomeOnce {c v extra} : Changes [.ports, .reports, .rot, .once, .commit, .jobs, .regs, .truss, .bktWait, .passes, .cores, .mcl,
    .wanted, .loft, .poison, .mem, .written, .table, .ticket, .pwrc] s (s.outcomeOnce c v extra) := mono <| andThen castOn <|
    andThen applyOutcome sendMirrored

theorem outcomeAs {c v extra} : Changes [.ports, .reports, .rot, .once, .commit, .jobs, .regs, .truss, .bktWait, .passes, .cores, .mcl,
    .wanted, .loft, .poison, .mem, .written, .table, .ticket, .pwrc] s (s.outcomeAs c v extra) := mono <|
    andThen outcomeOnce (ite refl (andThen forceNo <| andThen abandonActs (ite outcomeOnce refl)))

theorem outcome {c yes extra} : Changes [.ports, .reports, .rot, .once, .commit, .jobs, .regs, .truss, .bktWait, .passes, .cores, .mcl,
    .wanted, .loft, .poison, .mem, .written, .table, .ticket, .pwrc] s (s.outcome c yes extra) := mono outcomeAs

theorem tryCast : Changes [.commit, .regs, .reports, .once, .ports, .rot, .jobs, .truss, .bktWait, .passes, .cores, .mcl, .wanted, .loft,
    .poison, .mem, .written, .table, .ticket, .pwrc] s s.tryCast := by
  unfold State.tryCast
  split
  · refine mono (K := [.commit, .regs, .reports, .once, .ports, .rot, .jobs, .truss, .bktWait, .passes, .cores, .mcl, .wanted, .loft,
      .poison, .mem, .written, .table, .ticket, .pwrc]) ?_
    split
    · exact mono refl
    · extract_lets c why yes s1 s2 p s3
      have h : Changes [.ports, .reports, .rot, .once, .commit, .jobs, .regs, .truss, .bktWait, .passes, .cores] s s3 :=
        mono <| andThen modCommit <| andThen (ite (andThen orReg raiseOnce) refl) <| ite sendCommit refl
      have h4 : Changes _ s (s3.foldOwn c 1 ⟨yes, 1, s3.commit.unprot⟩).1 := andThen h foldOwn
      split
      rename_i t v hx
      have h5 := fst h4 hx
      split
      · exact mono <| andThen h5 outcome
      · split
        exacts [mono <| andThen h5 (ite outcome refl), mono h5]
  · exact mono refl

theorem confirmed : Changes [.commit, .table, .passes, .truss, .regs, .reports, .once, .ports, .rot, .jobs, .bktWait, .cores, .mcl, .wanted,
    .loft, .poison, .mem, .written, .ticket, .pwrc] s (s.confirmed) := mono <| andThen modCommit <| andThen armFree tryCast

theorem abandon {cause} : Changes [.commit, .ports, .reports, .rot, .once, .jobs, .regs, .truss, .bktWait, .passes, .cores, .mcl, .wanted,
    .loft, .poison, .mem, .written, .table, .ticket, .pwrc] s (s.abandon cause) := by
  unfold State.abandon
  dsimp only
  exact mono (ite refl (andThen abandonActs (of [.ports, .reports, .rot, .once, .commit, .jobs, .regs, .truss, .bktWait, .passes, .cores,
      .mcl, .wanted, .loft, .poison, .mem, .written, .table, .ticket,
      .pwrc] (by split; exacts [mono (ite outcome tryCast), mono tryCast]))))

theorem failAttempt {cause} : Changes [.commit, .ports, .reports, .rot, .once, .jobs, .regs, .truss, .bktWait, .passes, .cores, .mcl,
    .wanted, .loft, .poison, .mem, .written, .table, .ticket, .pwrc] s (s.failAttempt cause) := mono <| andThen forceNo abandon

theorem failTicket : Changes [.commit, .ports, .reports, .rot, .once, .jobs, .regs, .truss, .bktWait, .passes, .cores, .mcl, .wanted, .loft,
    .poison, .mem, .written, .table, .ticket, .pwrc] s (s.failTicket) := mono (ite modCommit failAttempt)

theorem noPath : Changes [.reports, .once, .commit, .ports, .rot, .jobs, .regs, .truss, .bktWait, .passes, .cores, .mcl, .wanted, .loft,
    .poison, .mem, .written, .table, .ticket, .pwrc] s (s.noPath) := mono <| andThen noPathNote failAttempt

theorem send {p} : Changes [.ports, .reports, .rot, .once, .commit, .jobs, .regs, .truss, .bktWait, .passes, .cores, .mcl, .wanted, .loft,
    .poison, .mem, .written, .table, .ticket, .pwrc] s (s.send p) := mono <| andThen sendRaw (ite refl noPath)

theorem restart : Changes [.table, .commit, .jobs, .bktWait] s (s.restart) := by
  unfold State.restart
  dsimp only
  exact mono <| andThen clearArmed <| fields [.commit, .jobs, .bktWait]

theorem trap {d c w} : Changes [.truss, .reports, .commit, .ports, .rot, .once, .jobs, .regs, .bktWait, .passes, .cores, .mcl, .wanted,
    .loft, .poison, .mem, .written, .table, .ticket, .pwrc] s (s.trap d c w) := mono <| andThen (ite modTr (andThen modTr occ)) <|
    andThen (ite (andThen occ raise) (andThen modTr raise)) failTicket

theorem markUrgent {d} : Changes [.truss] s (s.markUrgent d) := mono (ite refl modTr)

theorem addSpar {d k n} : Changes [.truss, .reports, .commit, .ports, .rot, .once, .jobs, .regs, .bktWait, .passes, .cores, .mcl, .wanted,
    .loft, .poison, .mem, .written, .table, .ticket, .pwrc] s (s.addSpar d k n) := mono (ite refl (andThen markUrgent <|
    andThen modTr (ite refl trap)))

theorem signal {d k} : Changes [.truss, .reports, .commit, .ports, .rot, .once, .jobs, .regs, .bktWait, .passes, .cores, .mcl, .wanted,
    .loft, .poison, .mem, .written, .table, .ticket, .pwrc, .spars] s (s.signal d k) :=
    mono (ite refl (ite addSpar (each (fun _ _ => ite refl (ite addSpar (andThen spars <| andThen lath lath))))))

theorem issue {d q e} : Changes [.truss] s (s.issue d q e) := mono modTr

theorem issueTrap {d q e c} : Changes [.truss, .reports, .commit, .ports, .rot, .once, .jobs, .regs, .bktWait, .passes, .cores, .mcl,
    .wanted, .loft, .poison, .mem, .written, .table, .ticket, .pwrc] s (s.issueTrap d q e c) := mono <| andThen modTr trap

theorem badCsr : Changes [.regs, .reports] s (s.badCsr) := mono <| andThen orReg occ

theorem darkAccess {r window off} : Changes [.regs, .reports] s (s.darkAccess r window off) := mono (ite refl (andThen orReg <|
    andThen occ (ite (andThen setRegRaw <| andThen setRegRaw raise) refl)))

theorem reached {dom} : Changes [.reports] s (s.reached dom) := mono <| andThen common lathControl

theorem reach {r dom off} : Changes [.reports, .regs] s (s.reach r dom off).1 := mono (ite_fst (pair reached) (pair darkAccess))

theorem reachBy {r dom off} : Changes [.reports, .regs] s (s.reachBy r dom off).1 := mono (ite_fst reach (pair refl))

theorem tableWrite {k f} (hf : ∀ s, Changes K s (f s)) : Changes (K ++ [.regs, .reports]) s (s.tableWrite k f) := ite (hf s) darkAccess

theorem recallLines {lines} : Changes [.reports, .mcl] s (s.recall lines) := mono (each (fun _ _ => ite (andThen occ modMcl) refl))

theorem mclPump : Changes [.mcl] s s.mclPump := by
  refine modMcl (fun m => ?_) (fun m hm => ?_)
  · exact (Mcl.pump_same m _).1
  · exact ((Mcl.pump_same m _).2).trans hm

theorem toHost {m} : Changes [.mcl] s (s.toHost m) := mono modMcl

theorem mclKeepAlive : Changes [.mcl] s s.mclKeepAlive :=
  mono <| andThen (ite mclPump refl) <| ite (modMcl (fun m => (m.gather_same 15).1) fun m h => (m.gather_same 15).2.trans h) refl

theorem complete {ch status tag data poison} : Changes [.mcl] s (s.complete ch status tag data poison) := mono toHost

theorem ownWrite {a data what} : Changes [.mcl] s (s.ownWrite a data what) := mono <| andThen modMcl toHost

theorem askHost {who a n} : Changes [.mcl] s (s.askHost who a n) := mono (ite refl (each (fun _ _ => andThen modMcl toHost)))

theorem poisonIn : Changes [.regs, .reports, .once] s (s.poisonIn) := mono <| andThen orReg raiseOnce

theorem notePoison {p} : Changes [.regs, .reports, .once] s (s.notePoison p) := mono (ite poisonIn refl)

theorem modCourse {i c f} : Changes [.ga] s (s.modCourse i c f) := mono modGa

theorem startSnap {t st} : Changes [.ctr, .reports] s (s.startSnap t st) := mono <| andThen modCtr occ

theorem requestSnap : Changes [.ctr, .reports] s (s.requestSnap) := mono (ite modCtr startSnap)

theorem setFreeze {on} : Changes [.regs, .reports, .ctr] s (s.setFreeze on) := mono <| andThen setField <|
    andThen (each (fun _ _ => ite lathControl refl)) modCtr

theorem clearCounters {n} : Changes [.regs, .reports] s (s.clearCounters n) := mono <| andThen counts setRegRaw

theorem clearFirst {n r} : Changes [.regs, .reports] s (s.clearFirst n r) := mono (ite clearCounters refl)

theorem setDesc {d i ws} : Changes [.truss] s (s.setDesc d i ws) := mono (ite refl modTr)

theorem setSexp {d i x} : Changes [.truss] s (s.setSexp d i x) := mono modTr

theorem access {m ok reads writes} : Changes [.mcl, .wanted, .regs, .reports, .loft] s (s.access m ok reads writes).1 :=
    mono (ite_fst (pair refl) (andThen want <| andThen consume <| andThen touch touch))

theorem accessAll {m ok reads writes recs} : Changes [.mcl, .wanted, .regs, .reports, .loft] s (s.accessAll m ok reads writes recs).1 := by
  unfold State.accessAll
  split
  exacts [mono (fst access), mono <| andThen (fst access) access]

theorem accessMove {m ok reads writes recs} : Changes [.mcl, .wanted, .regs, .reports, .loft] s (s.accessMove m ok reads writes recs).1 :=
    by
  unfold State.accessMove
  split
  exacts [mono (fst access), mono <| andThen (fst access) (of [.mcl, .wanted, .regs, .reports,
      .loft] (by split; exacts [mono (fst access), mono (fst access)]))]

theorem writeSome {a l} : Changes [.poison, .mem] s (s.writeSome a l) := by
  unfold State.writeSome
  dsimp only
  exact mono <| andThen (each (fun _ _ => mark)) (each (fun _ _ => of [.mem] (by split; exacts [mono putByte, mono refl])))

theorem writeBlock {x br bc g scale raw} : Changes [.poison, .mem] s (s.writeBlock x br bc g scale raw) := mono <|
    andThen writeSome (ite writeSome refl)

theorem writeView {x r0 r1 c0 c1 g scale raw} : Changes [.poison, .mem] s (s.writeView x r0 r1 c0 c1 g scale raw) :=
    mono (ite refl (each (fun _ _ => each (fun _ _ => writeBlock))))

theorem smear {reads writes} : Changes [.free, .poison, .mem, .written] s (s.smear reads writes) :=
    mono (each (fun _ _ => andThen drawFree write))

theorem smearMove {reads written recs} : Changes [.free, .poison, .mem, .written] s (s.smearMove reads written recs) := mono <|
    andThen smear smear

theorem spoil {c l} : Changes [.free, .poison, .mem, .written] s (s.spoil c l) := mono (ite (each (fun _ _ => andThen drawFree write)) refl)

theorem setRecWord {a k v} : Changes [.poison, .mem, .written] s (s.setRecWord a k v) := mono writeNat

theorem judgeSilence {i x} : Changes [.poison, .mem, .written, .reports] s (s.judgeSilence i x) :=
    mono (ite refl (ite refl (andThen write (ite (andThen raise occ) refl))))

theorem openRec {i x t} : Changes [.poison, .mem, .written, .reports] s (s.openRec i x t) := mono (ite refl (andThen judgeSilence <|
    andThen setRecWord <| andThen setRecWord <| andThen setRecWord setRecWord))

theorem mergeRec {x t} : Changes [.poison, .mem, .written] s (s.mergeRec x t) := mono (ite refl (andThen setRecWord <|
    andThen setRecWord setRecWord))

theorem measure {i x opens t} : Changes [.poison, .mem, .written, .reports, .regs] s (s.measure i x opens t) := mono <|
    andThen (ite openRec mergeRec) (ite orReg refl)

theorem quantRec {x q recover ovf} : Changes [.poison, .mem, .written] s (s.quantRec x q recover ovf) :=
    mono (ite refl (andThen setRecWord <| andThen setRecWord <| andThen setRecWord <| andThen setRecWord setRecWord))

theorem trussBoundary {d} : Changes [.truss] s (s.trussBoundary d) := mono modTr

theorem runStart {d} : Changes [.truss] s (s.runStart d) := mono (ite refl (ite modTr modTr))

theorem setRunning {d} : Changes [.table, .commit, .jobs, .bktWait] s (s.setRunning d) := mono (ite restart modCommit)

theorem push {d n} : Changes [.truss] s (s.push d n) := mono modTr

theorem holdLine {d l} : Changes [.truss, .reports] s (s.holdLine d l) := mono <| andThen modTr occ

theorem fetchFault {d k} : Changes [.truss, .reports, .commit, .ports, .rot, .once, .jobs, .regs, .bktWait, .passes, .cores, .mcl, .wanted,
    .loft, .poison, .mem, .written, .table, .ticket, .pwrc] s (s.fetchFault d k) := mono <| andThen holdLine trap

theorem decoded {d e} : Changes [.truss, .reports] s (s.decoded d e) := mono <| andThen modTr <| andThen occ (ite occ refl)

theorem skipNop {d e} : Changes [.truss, .reports, .commit, .ports, .rot, .once, .jobs, .regs, .bktWait, .passes, .cores, .mcl, .wanted,
    .loft, .poison, .mem, .written, .table, .ticket, .pwrc, .spars] s (s.skipNop d e) := mono (ite (andThen trussBoundary <|
    andThen modTr <| andThen decoded signal) refl)

theorem release {d} : Changes [.truss] s (s.release d) := mono modTr

theorem inlineDone {d e} : Changes [.truss, .reports, .commit, .ports, .rot, .once, .jobs, .regs, .bktWait, .passes, .cores, .mcl, .wanted,
    .loft, .poison, .mem, .written, .table, .ticket, .pwrc, .spars] s (s.inlineDone d e) := mono <| andThen release signal

theorem inline {d op e} (h : s.inline d op = some (e, t) := by assumption) : Changes [.truss, .reports] s t := by
  unfold State.inline at h
  split at h
  · split at h
    · cases h
      exact mono refl
    · cases h
  · split at h
    · cases h
    · split at h
      · cases h
        exact mono <| andThen trussBoundary <| andThen decoded modTr
      · cases h

theorem dload {a0 a1 a2 a3} : Changes [.mcl, .wanted, .regs, .reports, .loft, .truss] s (s.dload a0 a1 a2 a3).1 := by
  induction a3 generalizing s a0 a1 a2 with
  | zero => exact mono refl
  | succ n ih =>
    rw [State.dload]
    split
    rename_i t trap hx
    have h : Changes [.mcl, .wanted, .regs, .reports] s t := by
      split at hx
      exacts [fst consume hx, fst (p := (_, _)) (mono refl) hx]
    split
    exacts [mono h, mono <| andThen h <| andThen touch <| andThen setDesc ih]

theorem dloadHost {d idx good poison bytes src n} : Changes [.mcl, .regs, .reports, .once,
    .truss] s (s.dloadHost d idx good poison bytes src n).1 := mono <| andThen askHost <|
    andThen notePoison (each (fun _ _ => andThen cross setDesc))

theorem setp {d e} : Changes [.regs, .reports] s (s.setp d e) := mono (ite setField (ite refl setField))

theorem waitTimeout {d} : Changes [.truss, .reports, .commit, .ports, .rot, .once, .jobs, .regs, .bktWait, .passes, .cores, .mcl, .wanted,
    .loft, .poison, .mem, .written, .table, .ticket, .pwrc, .spars] s (s.waitTimeout d) := by
  unfold State.waitTimeout
  dsimp only
  split
  exacts [mono refl, mono <| andThen trap (ite refl (ite (andThen decoded signal) (andThen modTr signal)))]

theorem smearRun {x t r0 r1 recs} : Changes [.free, .poison, .mem, .written] s (s.smearRun x t r0 r1 recs) := mono <| andThen smear <|
    andThen smear <| andThen (ite smear refl) (ite smear refl)

theorem collided {a} : Changes [.free] s (s.collided a).1 := mono drawFree

theorem collide {a} : Changes [.regs, .reports, .once] s (s.collide a) := mono <| andThen orReg <| andThen occ raiseOnce

theorem parityError {i c same} : Changes [.regs, .reports, .ga] s (s.parityError i c same) := mono <| andThen orReg <| andThen setField <|
    andThen modCourse <| andThen modGa <| andThen occ (ite refl raise)

theorem drain {view i b t x r0 r1 bad late} : Changes [.poison, .mem, .written, .reports, .regs,
    .free] s (s.drain view i b t x r0 r1 bad late) := mono <| andThen (ite writeView refl) <| andThen (ite writeView refl) <|
    andThen (ite writeView refl) <| andThen (ite measure refl) smearRun

theorem tallyIf {key n} : Changes [.reports] s (s.tallyIf key n) := mono (ite refl tally)

theorem arrayCycles {i cause n slots} : Changes [.ga, .reports] s (s.arrayCycles i cause n slots) := mono (ite refl (andThen modGa <|
    andThen (ite common refl) (ite refl (andThen tallyIf <| andThen tallyIf <| andThen tallyIf <| andThen tallyIf <|
    andThen charge tally))))

theorem injected {i c t fill n} : Changes [.ga, .reports] s (s.injected i c t fill n) := mono <| andThen arrayCycles arrayCycles

theorem runTile {i c x f fill} : Changes [.mcl, .wanted, .regs, .reports, .loft, .free, .poison, .mem, .written, .ga,
    .once] s (s.runTile i c x f fill).1 := by
  unfold State.runTile
  split
  · exact mono refl
  · extract_lets g b t
    split
    · rename_i hx
      exact mono <| andThen (fst accessMove hx) <| andThen spoil injected
    · rename_i s1 late hx
      have h1 := fst accessMove hx
      extract_lets s2
      have h2 : Changes [.regs, .reports] s1 s2 := by
        unfold s2
        split
        exacts [memCorr, mono refl]
      split
      split
      split
      rename_i s3 view hv
      have h3 : Changes [.free, .regs, .reports, .once] s2 s3 := by
        split at hv
        · split at hv
          · cases hv
            exact mono <| andThen drawFree collide
          · split at hv
            exacts [fst (p := (_, _)) (mono collide) hv, fst (p := (_, _)) (mono refl) hv]
        · exact fst (p := (_, _)) (mono refl) hv
      extract_lets beats bad0
      split
      · exact mono <| andThen h1 <| andThen h2 <| andThen h3 <| andThen drain injected
      · have h4 : Changes _ s3 (s3.parityError i c f.same) := parityError
        split
        · exact mono <| andThen h1 <| andThen h2 <| andThen h3 <| andThen h4 <| andThen drawFree <| andThen drain <|
            andThen injected modCourse
        · exact mono <| andThen h1 <| andThen h2 <| andThen h3 <| andThen h4 <| andThen drain injected

theorem bankInvalid {r} : Changes [.truss, .reports, .commit, .ports, .rot, .once, .jobs, .regs, .bktWait, .passes, .cores, .mcl, .wanted,
    .loft, .poison, .mem, .written, .table, .ticket, .pwrc] s (s.bankInvalid r) := by
  unfold State.bankInvalid
  split
  exacts [mono issueTrap, mono refl]

theorem swapCourse {i c} : Changes [.ga, .reports] s (s.swapCourse i c) := mono <| andThen modCourse occ

theorem swapFore {i c} : Changes [.ga, .reports] s (s.swapFore i c) := mono <| andThen swapCourse modGa

theorem swapFailed {i c} : Changes [.ga] s (s.swapFailed i c) := mono <| andThen modCourse modGa

theorem fire {i x1} : Changes [.ga, .truss, .reports, .commit, .ports, .rot, .once, .jobs, .regs, .bktWait, .passes, .cores, .mcl, .wanted,
    .loft, .poison, .mem, .written, .table, .ticket, .pwrc, .free] s (s.fire i x1) := by
  unfold State.fire
  dsimp only
  split
  exacts [mono (ite (andThen swapFailed bankInvalid) (ite (andThen swapFore finishRef) (andThen modGa bankInvalid))), mono <|
      andThen (each (fun _ _ => ite swapFailed (ite swapFore modGa))) (ite finishRef bankInvalid),
      mono (ite (andThen runTile finishRef) bankInvalid)]

theorem drive {a0 a1} : Changes [.ga, .truss, .reports, .commit, .ports, .rot, .once, .jobs, .regs, .bktWait, .passes, .cores, .mcl,
    .wanted, .loft, .poison, .mem, .written, .table, .ticket, .pwrc, .free] s (s.drive a0 a1) := by
  induction a1 generalizing s a0 with
  | zero => exact mono refl
  | succ n ih =>
    rw [State.drive]
    split
    exacts [mono refl, mono <| andThen modGa <| andThen fire ih]

theorem settle {i} : Changes [.ga, .truss, .reports, .commit, .ports, .rot, .once, .jobs, .regs, .bktWait, .passes, .cores, .mcl, .wanted,
    .loft, .poison, .mem, .written, .table, .ticket, .pwrc, .free] s (s.settle i) := mono (ite refl drive)

theorem enqueue {i o} : Changes [.ga, .truss, .reports, .commit, .ports, .rot, .once, .jobs, .regs, .bktWait, .passes, .cores, .mcl,
    .wanted, .loft, .poison, .mem, .written, .table, .ticket, .pwrc, .free] s (s.enqueue i o) := mono <| andThen modGa settle

theorem dropFill {i c} : Changes [.ga, .truss, .reports] s (s.dropFill i c) := by
  unfold State.dropFill
  split
  exacts [mono refl, mono <| andThen modCourse <| andThen modTr occ]

theorem beginLoad {i c l} : Changes [.ga, .truss, .reports, .mcl, .wanted, .regs, .loft] s (s.beginLoad i c l) := mono <|
    andThen dropFill <| andThen access modCourse

theorem loadGone {i c} : Changes [.ga, .truss, .reports, .commit, .ports, .rot, .once, .jobs, .regs, .bktWait, .passes, .cores, .mcl,
    .wanted, .loft, .poison, .mem, .written, .table, .ticket, .pwrc] s (s.loadGone i c) := mono <|
    andThen modCourse (ite (andThen modGa (each (fun _ _ => bankInvalid))) refl)

theorem loadFails {i c} : Changes [.ga, .truss, .reports, .commit, .ports, .rot, .once, .jobs, .regs, .bktWait, .passes, .cores, .mcl,
    .wanted, .loft, .poison, .mem, .written, .table, .ticket, .pwrc] s (s.loadFails i c) := mono <| andThen modCourse loadGone

theorem trapRef {r c} : Changes [.truss, .reports, .commit, .ports, .rot, .once, .jobs, .regs, .bktWait, .passes, .cores, .mcl, .wanted,
    .loft, .poison, .mem, .written, .table, .ticket, .pwrc] s (s.trapRef r c) := by
  unfold State.trapRef
  split
  exacts [mono trap, mono refl]

theorem writeGa {i r off data mask} : Changes [.regs, .reports, .ga, .truss, .commit, .ports, .rot, .once, .jobs, .bktWait, .passes, .cores,
    .mcl, .wanted, .loft, .poison, .mem, .written, .table, .ticket, .pwrc, .free] s (s.writeGa i r off data mask) := mono <|
    andThen regWrite <| andThen modGa settle

theorem resumeLoad {i c l} : Changes [.ga, .truss, .reports, .mcl, .wanted, .regs, .loft, .commit, .ports, .rot, .once, .jobs, .bktWait,
    .passes, .cores, .poison, .mem, .written, .table, .ticket, .pwrc] s (s.resumeLoad i c l) :=
    mono (ite beginLoad (ite modGa (andThen loadGone issueTrap)))

theorem resume {i} : Changes [.ga, .truss, .reports, .mcl, .wanted, .regs, .loft, .commit, .ports, .rot, .once, .jobs, .bktWait, .passes,
    .cores, .poison, .mem, .written, .table, .ticket, .pwrc, .free] s (s.resume i) := mono <| andThen (each (fun _ _ => resumeLoad)) settle

theorem recallVisits {i} : Changes [.truss] s (s.recallVisits i) := mono modTr

theorem openAtIssue {i x mo} : Changes [.poison, .mem, .written, .reports, .regs] s (s.openAtIssue i x mo) := mono (ite measure refl)

theorem setEntry {d k v} : Changes [.truss] s (s.setEntry d k v) := mono modTr

theorem dropEntry {d k} : Changes [.truss] s (s.dropEntry d k) := mono modTr

theorem endEntry {d k v} : Changes [.truss, .reports, .commit, .ports, .rot, .once, .jobs, .regs, .bktWait, .passes, .cores, .mcl, .wanted,
    .loft, .poison, .mem, .written, .table, .ticket, .pwrc, .spars] s (s.endEntry d k v) := mono <| andThen dropEntry signal

theorem drawFaults : Changes [.free] s s.drawFaults.2 := mono <| andThen drawFree <| andThen drawFree <| andThen drawFree drawFree

theorem visitRun {d a k c len v} : Changes [.free, .mcl, .wanted, .regs, .reports, .loft, .poison, .mem, .written, .ga, .once, .truss,
    .commit, .ports, .rot, .jobs, .bktWait, .passes, .cores, .table, .ticket, .pwrc, .spars] s (s.visitRun d a k c len v) := by
  unfold State.visitRun
  dsimp only
  exact mono <| andThen drawFaults <| andThen runTile (of [.truss, .reports, .commit, .ports, .rot, .once, .jobs, .regs, .bktWait, .passes,
      .cores, .mcl, .wanted, .loft, .poison, .mem, .written, .table, .ticket, .pwrc,
      .spars] (by split; exacts [mono <| andThen trap endEntry, mono (ite endEntry (ite dropEntry setEntry))]))

theorem visitLoad {d a k c v} : Changes [.mcl, .wanted, .regs, .reports, .loft, .truss, .commit, .ports, .rot, .once, .jobs, .bktWait,
    .passes, .cores, .poison, .mem, .written, .table, .ticket, .pwrc, .spars, .ga] s (s.visitLoad d a k c v) := by
  unfold State.visitLoad
  dsimp only
  exact mono <| andThen access (of [.truss, .reports, .commit, .ports, .rot, .once, .jobs, .regs, .bktWait, .passes, .cores, .mcl, .wanted,
      .loft, .poison, .mem, .written, .table, .ticket, .pwrc, .spars,
      .ga] (by split; exacts [mono <| andThen trap endEntry, mono <| andThen modCourse setEntry]))

theorem visitSwap {d a k c v} : Changes [.ga, .reports, .free, .mcl, .wanted, .regs, .loft, .poison, .mem, .written, .once, .truss, .commit,
    .ports, .rot, .jobs, .bktWait, .passes, .cores, .table, .ticket, .pwrc, .spars] s (s.visitSwap d a k c v) :=
    mono (ite refl (ite (andThen swapCourse visitRun) (ite dropEntry setEntry)))

theorem copyView {i e src dst tr} : Changes [.mcl, .wanted, .regs, .reports, .loft, .free, .poison, .mem,
    .written] s (s.copyView i e src dst tr).1 := by
  unfold State.copyView
  dsimp only
  exact mono (ite_fst (pair refl) (of [.mcl, .wanted, .regs, .reports, .loft, .free, .poison, .mem,
      .written] (by split; exacts [mono <| andThen (fst accessMove) spoil, mono <| andThen (fst accessMove) <| andThen writeView <| andThen (ite refl measure) smearMove])))

theorem histWrite {a pm opens recovering} : Changes [.poison, .mem, .written] s (s.histWrite a pm opens recovering) :=
    mono (ite refl (andThen writeNat <| andThen writeNat <| andThen writeNat writeNat))

theorem scaleEvent {i code bit item enabled tid} : Changes [.regs, .reports, .once] s (s.scaleEvent i code bit item enabled tid) := mono <|
    andThen orReg <| andThen occ (ite raiseOnce once)

theorem present {i src} : Changes [.poison, .mem, .written, .reports, .regs] s (s.present i src).1 :=
    mono (ite_fst (pair refl) (pair (andThen measure <| andThen orReg occ)))

theorem quantView {x q o} : Changes [.poison, .mem] s (s.quantView x q o) := mono writeView

theorem quantInto {d idx x b sexp opens pm q o} : Changes [.poison, .mem, .written, .truss] s (s.quantInto d idx x b sexp opens pm q o) :=
    by
  cases b
  case none | fixed => exact mono <| andThen quantView quantRec
  case window | recover => exact mono <| andThen quantView <| andThen quantRec <| andThen histWrite setSexp
  case keep | present => exact mono <| andThen quantView <| andThen quantRec setSexp

theorem passEvents {i x b sat} : Changes [.regs, .reports, .once] s (s.passEvents i x b sat) := mono <|
    andThen (ite scaleEvent refl) (ite scaleEvent refl)

theorem quantize {d i e src dsts} : Changes [.mcl, .wanted, .regs, .reports, .loft, .free, .poison, .mem, .written, .truss,
    .once] s (s.quantize d i e src dsts).1 := by
  unfold State.quantize
  extract_lets tr
  split
  rename_i r0 rEnd hw
  split
  · exact mono refl
  · extract_lets
    split
    · rename_i hx
      exact mono <| andThen (fst accessMove hx) spoil
    · rename_i s1 late hx
      have h1 := fst accessMove hx
      split
      · exact pair (mono <| andThen h1 spoil)
      · split
        rename_i s2 a hp
        have h2 : Changes [.poison, .mem, .written, .reports, .regs] s1 s2 := by
          split at hp
          exacts [fst (p := (_, _)) (mono <| ite refl present) hp, fst (p := (_, _)) (mono refl) hp]
        extract_lets outs s3
        have h3 : Changes _ s2 s3 := each fun _ _ => ite quantView (andThen quantInto passEvents)
        exact pair (mono <| andThen h1 <| andThen h2 <| andThen h3 <| andThen smearMove occ)

theorem setRecord {x j r} : Changes [.poison, .mem, .written] s (s.setRecord x j r) := mono (ite refl write)

theorem ridgeWrite {d o} : Changes [.poison, .mem, .written, .reports, .regs, .truss, .once] s (s.ridgeWrite d o) := mono <|
    andThen (each (fun _ _ => measure)) <| andThen quantInto (each (fun _ _ => andThen occ passEvents))

theorem ridgeNonfinite {d} : Changes [.once, .regs, .reports] s (s.ridgeNonfinite d) := mono (ite refl (andThen once <|
    andThen orReg (ite raise refl)))

theorem smearRidge {o reads} : Changes [.free, .poison, .mem, .written] s (s.smearRidge o reads) := mono smearMove

theorem ridgeAccess {d o} : Changes [.mcl, .wanted, .regs, .reports, .loft, .free, .poison, .mem, .written] s (s.ridgeAccess d o).1 := by
  unfold State.ridgeAccess
  split
  rename_i t trap hx
  have h : Changes [.mcl, .wanted, .regs, .reports, .loft] s t := by
    split at hx
    · cases hx
      exact mono (fst access)
    · exact fst (mono <| andThen (fst access) accessAll) hx
  split
  exacts [mono <| andThen h (ite spoil refl), mono h]

theorem ridgeRows {d rec r0 rows} : Changes [.poison, .mem, .written, .reports, .once, .regs] s (s.ridgeRows d rec r0 rows) := by
  unfold State.ridgeRows
  dsimp only
  exact mono <| andThen (of [.poison, .mem,
      .written] (by split; exacts [mono (each (fun _ _ => setRecord)), mono refl])) <| andThen occ <| andThen occ <| andThen occ (ite refl ridgeNonfinite)

theorem oob : Changes [.free] s (s.oob).1 := mono drawFree

theorem ridgeNormF {d e} : Changes [.mcl, .wanted, .regs, .reports, .loft, .free, .poison, .mem, .written, .truss,
    .once] s (s.ridgeNormF d e).1 := by
  unfold State.ridgeNormF
  dsimp only
  split
  exacts [mono (fst ridgeAccess), mono <| andThen (fst ridgeAccess) <| andThen oob <| andThen ridgeWrite <| andThen ridgeRows smearRidge]

theorem ridgeNormB {d e} : Changes [.mcl, .wanted, .regs, .reports, .loft, .free, .poison, .mem, .written, .truss,
    .once] s (s.ridgeNormB d e).1 := by
  unfold State.ridgeNormB
  dsimp only
  split
  exacts [mono (fst ridgeAccess), mono <| andThen (fst ridgeAccess) <| andThen oob <| andThen ridgeWrite <|
      andThen (ite (andThen (ite ridgeWrite refl) ridgeWrite) (ite ridgeWrite refl)) <| andThen ridgeRows <| andThen smearRidge <|
      andThen smear smear]

theorem ridgeSmaxF {d e} : Changes [.mcl, .wanted, .regs, .reports, .loft, .free, .poison, .mem, .written, .truss,
    .once] s (s.ridgeSmaxF d e).1 := by
  unfold State.ridgeSmaxF
  dsimp only
  split
  exacts [mono (fst ridgeAccess), mono <| andThen (fst ridgeAccess) <| andThen oob <| andThen ridgeWrite <| andThen ridgeRows smearRidge]

theorem ridgeSmaxB {d e} : Changes [.mcl, .wanted, .regs, .reports, .loft, .free, .poison, .mem, .written, .truss,
    .once] s (s.ridgeSmaxB d e).1 := by
  unfold State.ridgeSmaxB
  dsimp only
  split
  exacts [mono (fst ridgeAccess), mono <| andThen (fst ridgeAccess) <| andThen oob <| andThen ridgeWrite <| andThen ridgeRows smearRidge]

theorem allocPage {d p} : Changes [.truss, .regs, .reports, .once] s (s.allocPage d p).1 := by
  unfold State.allocPage
  dsimp only
  split
  exacts [mono modTr, by split; exacts [mono refl, mono <| andThen modTr <| andThen orReg <| andThen occ raiseOnce]]

theorem allocPages {d l} : Changes [.truss, .regs, .reports, .once] s (s.allocPages d l).1 :=
  foldl_fst (p := (s, true)) fun p k => mono <| ite_fst (pair allocPage) refl

theorem uwFail {ins} : Changes [.truss] s (s.uwFail ins) := mono modTr

theorem uwSend {ins ty kind a n poison data} : Changes [.truss, .poison, .reports, .mcl] s (s.uwSend ins ty kind a n poison data) := by
  unfold State.uwSend
  dsimp only
  exact mono (ite (of [.truss,
      .poison] (by split; exacts [mono uwFail, mono <| andThen (foldl (fun _ _ => mark)) uwFail])) (andThen cross modMcl))

theorem putPiece {a bs half} : Changes [.poison, .mem, .written] s (s.putPiece a bs half) := mono write

theorem movePiece {ins p} : Changes [.truss, .poison, .reports, .mcl, .mem, .written] s (s.movePiece ins p) := by
  unfold State.movePiece
  dsimp only
  split
  exacts [mono (ite uwSend write), mono (ite refl write),
      mono (ite uwSend (ite uwSend (andThen putPiece (each (fun _ _ => each (fun _ _ => mark))))))]

theorem cleanWhole {l} : Changes [.poison] s (s.cleanWhole l) := mono (each (fun _ _ => mark))

theorem touchTier {d reads writes narrow} : Changes [.reports, .loft] s (s.touchTier d reads writes narrow) := mono <| andThen stream <|
    andThen touch touch

theorem moveDone {ins} : Changes [.truss] s (s.moveDone ins) := mono (ite refl finishRef)

theorem setTrap {ins trap} : Changes [.truss] s (s.setTrap ins trap) := by
  unfold State.setTrap
  split
  exacts [mono refl, mono modTr]

theorem moveAll {ins reads narrow writes pieces} : Changes [.mcl, .wanted, .regs, .reports, .loft, .truss, .poison, .mem, .written,
    .free] s (s.moveAll ins reads narrow writes pieces) := mono <| andThen want <| andThen consume <| andThen touchTier <|
    andThen setTrap <| andThen cleanWhole <| andThen (each (fun _ _ => movePiece)) <| andThen smear moveDone

theorem stashTry {x} : Changes [.truss, .regs, .reports, .once, .mcl, .wanted, .loft, .poison, .mem, .written, .free] s (s.stashTry x) :=
    mono <| andThen allocPages (ite (andThen modTr moveAll) (ite refl modTr))

theorem stashResume {d} : Changes [.truss, .regs, .reports, .once, .mcl, .wanted, .loft, .poison, .mem, .written,
    .free] s (s.stashResume d) := mono (each (fun _ _ => stashTry))

theorem freePages {ins} : Changes [.truss, .regs, .reports, .once, .mcl, .wanted, .loft, .poison, .mem, .written,
    .free] s (s.freePages ins) := by
  unfold State.freePages
  dsimp only
  split
  exacts [mono refl, mono (ite refl (andThen modTr stashResume))]

theorem narrow {x r} : Changes [.reports] s (s.narrow x r) := by
  unfold State.narrow
  exact mono (each (fun _ _ => of [.reports] (by split; exacts [mono occ, mono refl])))

theorem gather {d e data} : Changes [.reports, .regs, .mcl, .wanted, .loft, .truss, .poison, .mem, .written, .free] s (s.gather d e data) :=
    mono <| andThen (each (fun _ _ => narrow)) <| andThen occ <| andThen (ite cross refl) <| andThen corrected moveAll

theorem askIndex {d run data} : Changes [.mcl, .regs, .reports, .once] s (s.askIndex d run data) := mono <| andThen askHost notePoison

theorem stashReset {d} : Changes [.truss, .regs, .reports, .once, .mcl, .wanted, .loft, .poison, .mem, .written,
    .free] s (s.stashReset d) := mono <| andThen modTr stashResume

theorem abortStart {d} : Changes [.truss, .regs, .reports, .once, .mcl, .wanted, .loft, .poison, .mem, .written,
    .free] s (s.abortStart d) := mono <| andThen modTr stashReset

theorem wipe {lo hi} : Changes [.mem, .poison] s (s.wipe lo hi) :=
  ⟨(·.wipe ..), fun p hp => by cases p <;> simp_all [Part.same, State.wipe, State.reports, State.lessReportRegs]⟩

theorem loftApply {k} : Changes [.reports, .mem, .poison, .loft] s (s.loftApply k) := mono <| andThen occ <| andThen wipe modLoft

theorem writeLoft {k r off data mask} : Changes [.regs, .reports, .loft] s (s.writeLoft k r off data mask) := mono <|
    andThen regWrite (ite modLoft refl)

theorem setObj {n lo w v} : Changes [.table] s (s.setObj n lo w v) := mono setTableBits

theorem setObjState {n st auth} : Changes [.table] s (s.setObjState n st auth) := mono <| andThen setObj setObj

theorem writeObj0 {n w} : Changes [.table, .reports] s (s.writeObj0 n w) :=
    mono (ite (ite setTable occ) (ite setTable (ite (andThen setTable <| andThen setTable setTable) (andThen setTable occ))))

theorem writeObj {n w v} : Changes [.table, .reports] s (s.writeObj n w v) := mono (ite writeObj0 (ite refl (ite occ setTable)))

theorem copyObj {ins src dst size} : Changes [.mcl, .wanted, .reports, .loft, .regs, .truss, .poison, .mem,
    .written] s (s.copyObj ins src dst size) := mono <| andThen want <| andThen touchTier <|
    andThen (each (fun _ _ => memUncorr)) (each (fun _ _ => movePiece))

theorem obDone {ins moved} : Changes [.obreqs, .truss, .reports] s (s.obDone ins moved) := mono <| andThen obreqs <|
    andThen finishRef (ite refl occ)

theorem obYield {n ins} : Changes [.table, .reports, .obreqs, .truss] s (s.obYield n ins) := mono <| andThen setTable <| andThen occ obDone

theorem obStart {n ins} : Changes [.table, .mcl, .wanted, .reports, .loft, .regs, .truss, .poison, .mem, .written] s (s.obStart n ins) :=
    mono <| andThen (ite refl setTable) <| andThen setObj <| andThen setObjState (ite copyObj refl)

theorem mismatch {n tier} : Changes [.reports] s (s.mismatch n tier) := mono (ite refl raise)

theorem evictEnd {n ins} : Changes [.table, .obreqs, .truss, .reports, .mcl, .wanted, .loft, .regs, .poison, .mem,
    .written] s (s.evictEnd n ins) := by
  unfold State.evictEnd
  extract_lets o s1 s2
  have h : Changes (.table :: [.obreqs, .truss, .reports]) s s2 := mono <| andThen (ite refl setTable) <| andThen setObjState <|
      andThen setTable obDone
  split
  exacts [mono h, mono <| andThen h obStart]

theorem obQueue {r} : Changes [.obreqs] s (s.obQueue r) := mono obreqs

theorem obPromote {r} : Changes [.reports, .obreqs, .truss, .table, .mcl, .wanted, .loft, .regs, .poison, .mem,
    .written] s (s.obPromote r) := by
  unfold State.obPromote
  dsimp only
  exact mono (ite (andThen mismatch obDone) (ite (of [.table, .obreqs, .truss,
      .reports] (by split; exacts [mono <| andThen setObjState obDone, mono <| andThen setObjState <| andThen obYield obDone])) (ite obQueue (ite obDone (ite obStart setObj)))))

theorem obEvict {r} : Changes [.reports, .table, .obreqs, .truss, .mcl, .wanted, .loft, .regs, .poison, .mem, .written] s (s.obEvict r) :=
    mono <|
    andThen mismatch (ite obYield (ite obDone (ite obQueue (ite obDone (ite obYield (andThen setObjState (ite evictEnd (ite copyObj refl))))))))

theorem obPrefetch {r} : Changes [.mcl, .wanted, .reports, .loft, .obreqs, .truss] s (s.obPrefetch r) := by
  unfold State.obPrefetch
  dsimp only
  exact mono <| andThen (ite refl (andThen want (each (fun _ _ => of [.reports,
      .loft] (by split; exacts [mono (ite occ (ite touchLine refl)), mono refl]))))) obDone

theorem obServe {r} : Changes [.reports, .obreqs, .truss, .table, .mcl, .wanted, .loft, .regs, .poison, .mem, .written] s (s.obServe r) :=
    by
  unfold State.obServe
  split
  exacts [mono obPromote, mono obEvict, mono obPrefetch, mono mismatch, mono refl]

theorem serveWaits : Changes [.obreqs, .truss, .reports] s (s.serveWaits) := mono (each (fun _ _ => ite obDone refl))

theorem serveQueue {a0 a1} : Changes [.obreqs, .reports, .truss, .table, .mcl, .wanted, .loft, .regs, .poison, .mem,
    .written] s (s.serveQueue a0 a1) := by
  induction a1 generalizing s a0 with
  | zero => exact mono refl
  | succ n ih =>
    rw [State.serveQueue]
    exact mono (ite refl (of [.obreqs, .reports, .truss, .table, .mcl, .wanted, .loft, .regs, .poison, .mem,
        .written] (by split; exacts [mono refl, mono <| andThen obreqs <| andThen obServe ih])))

theorem obSettle {obj} : Changes [.obreqs, .reports, .truss, .table, .mcl, .wanted, .loft, .regs, .poison, .mem,
    .written] s (s.obSettle obj) := mono <| andThen serveQueue serveWaits

theorem promoteCopyEnd {n} : Changes [.mcl, .wanted, .reports, .loft, .regs, .truss, .poison, .mem, .written, .table,
    .obreqs] s (promoteCopyEnd n s) := by
  unfold Machine.promoteCopyEnd
  dsimp only
  split
  exacts [mono refl, mono (ite refl (andThen (ite refl copyObj) <| andThen setObjState <| andThen setTable <| andThen obDone <|
      andThen serveWaits obSettle))]

theorem evictCopyEnd {n} : Changes [.mcl, .wanted, .reports, .loft, .regs, .truss, .poison, .mem, .written, .table,
    .obreqs] s (evictCopyEnd n s) := by
  unfold Machine.evictCopyEnd
  dsimp only
  split
  exacts [mono refl, mono (ite refl (andThen (ite refl copyObj) <| andThen evictEnd obSettle))]

theorem modBucket {j b f} : Changes [.jobs] s (s.modBucket j b f) := mono modJob

theorem countAdd {q inc own k} : Changes [.regs, .reports] s (s.countAdd q inc own k) :=
    mono (ite (ite refl (andThen orReg occ)) (ite occ refl))

theorem encodeBlock {q drop eb l} : Changes [.reports, .regs] s (s.encodeBlock q drop eb l).1 :=
    mono (ite_fst (ite_fst (pair occ) (pair occ)) (pair (ite (andThen orReg occ) refl)))

theorem land {j b blk k} : Changes [.mcl, .wanted, .poison, .mem, .written, .reports, .loft, .jobs, .regs, .once,
    .commit] s (s.land j b blk k) := mono <| andThen storeBucket <| andThen modBucket (ite (andThen orReg <| andThen occ <|
    andThen raiseOnce forceNo) refl)

theorem sendBlock {j kind r b blk k} : Changes [.ports, .reports, .rot, .once, .commit, .jobs, .regs, .truss, .bktWait, .passes, .cores,
    .mcl, .wanted, .loft, .poison, .mem, .written, .table, .ticket, .pwrc] s (s.sendBlock j kind r b blk k) := mono (ite refl send)

theorem passOn {j r stop b blk k} : Changes [.ports, .reports, .rot, .once, .commit, .jobs, .regs, .truss, .bktWait, .passes, .cores, .mcl,
    .wanted, .loft, .poison, .mem, .written, .table, .ticket, .pwrc] s (s.passOn j r stop b blk k) := mono (ite refl sendBlock)

theorem total {j b blk k} : Changes [.mcl, .wanted, .poison, .mem, .written, .reports, .loft, .jobs, .regs, .once, .commit, .ports, .rot,
    .truss, .bktWait, .passes, .cores, .table, .ticket, .pwrc] s (s.total j b blk k) := by
  unfold State.total
  dsimp only
  exact mono <| andThen land (of [.ports, .reports, .rot, .once, .commit, .jobs, .regs, .truss, .bktWait, .passes, .cores, .mcl, .wanted,
      .loft, .poison, .mem, .written, .table, .ticket, .pwrc] (by split; exacts [mono <| andThen passOn passOn, mono passOn, mono refl]))

theorem reduce2 {j b blk inc own} : Changes [.regs, .reports, .jobs, .mcl, .wanted, .poison, .mem, .written, .loft, .once, .commit, .ports,
    .rot, .truss, .bktWait, .passes, .cores, .table, .ticket, .pwrc] s (s.reduce2 j b blk inc own) := by
  unfold State.reduce2
  dsimp only
  split
  exacts [mono <| andThen countAdd <| andThen modBucket (ite total sendBlock), mono refl]

theorem reduce1 {j b blk inc} : Changes [.regs, .reports, .jobs, .ports, .rot, .once, .commit, .truss, .bktWait, .passes, .cores, .mcl,
    .wanted, .loft, .poison, .mem, .written, .table, .ticket, .pwrc] s (s.reduce1 j b blk inc) := by
  unfold State.reduce1
  dsimp only
  split
  exacts [mono <| andThen countAdd <| andThen modBucket (ite sendBlock (of [.mcl, .wanted, .poison, .mem, .written, .reports, .loft, .jobs,
      .regs, .once, .commit, .ports, .rot, .truss, .bktWait, .passes, .cores, .table, .ticket,
      .pwrc] (by split; exacts [mono total, mono <| andThen modBucket (ite reduce2 (of [.regs, .reports, .jobs, .mcl, .wanted, .poison, .mem, .written, .loft, .once, .commit, .ports, .rot, .truss, .bktWait, .passes, .cores, .table, .ticket, .pwrc] (by split; exacts [mono reduce2, mono refl])))]))), mono refl]

theorem encodeNext {j b} (ht : s.encodeNext j b = some t) : Changes [.reports, .regs, .jobs, .ports, .rot, .once, .commit, .truss, .bktWait,
    .passes, .cores, .mcl, .wanted, .loft, .poison, .mem, .written, .table, .ticket, .pwrc] s t := by
  unfold State.encodeNext at ht
  extract_lets c bk at ht
  split at ht
  · split at ht
    rename_i s1 x hx
    have h1 := fst encodeBlock hx
    split at ht
    · cases ht
    · split at ht
      · split at ht
        · cases ht
          exact mono <| andThen h1 <| andThen modBucket reduce1
        · split at ht
          · cases ht
            exact mono <| andThen h1 <| andThen modBucket reduce1
          · cases ht
            exact mono <| andThen h1 modBucket
      · cases ht
        exact mono <| andThen h1 modBucket
  · cases ht

theorem encodeUp {j b n} : Changes [.reports, .regs, .jobs, .ports, .rot, .once, .commit, .truss, .bktWait, .passes, .cores, .mcl, .wanted,
    .loft, .poison, .mem, .written, .table, .ticket, .pwrc] s (s.encodeUp j b n) := by
  induction n generalizing s with
  | zero => exact mono refl
  | succ n ih =>
    rw [State.encodeUp]
    split
    · rename_i ht
      exact mono <| andThen (encodeNext ht) ih
    · exact mono refl

theorem encodeResume : Changes [.reports, .regs, .jobs, .ports, .rot, .once, .commit, .truss, .bktWait, .passes, .cores, .mcl, .wanted,
    .loft, .poison, .mem, .written, .table, .ticket, .pwrc] s (s.encodeResume) := mono (each (fun _ _ => each (fun _ _ => encodeUp)))

theorem encode {j b eb} : Changes [.jobs, .reports, .regs, .ports, .rot, .once, .commit, .truss, .bktWait, .passes, .cores, .mcl, .wanted,
    .loft, .poison, .mem, .written, .table, .ticket, .pwrc] s (s.encode j b eb) := mono <| andThen modBucket encodeUp

theorem agreed {j b eb} : Changes [.mcl, .wanted, .reports, .loft, .poison, .mem, .written, .jobs, .regs, .ports, .rot, .once, .commit,
    .truss, .bktWait, .passes, .cores, .table, .ticket, .pwrc] s (s.agreed j b eb) := mono <| andThen store encode

theorem takeB {j b v} : Changes [.mcl, .wanted, .reports, .loft, .poison, .mem, .written, .jobs, .regs, .ports, .rot, .once, .commit,
    .truss, .bktWait, .passes, .cores, .table, .ticket, .pwrc] s (s.takeB j b v) := mono (ite agreed refl)

theorem castB {j b v} : Changes [.ports, .reports, .rot, .once, .commit, .jobs, .regs, .truss, .bktWait, .passes, .cores, .mcl, .wanted,
    .loft, .poison, .mem, .written, .table, .ticket, .pwrc] s (s.castB j b v) := mono <| andThen (each (fun _ _ => send)) takeB

theorem chainGo {j b} : Changes [.jobs, .ports, .reports, .rot, .once, .commit, .regs, .truss, .bktWait, .passes, .cores, .mcl, .wanted,
    .loft, .poison, .mem, .written, .table, .ticket, .pwrc] s (s.chainGo j b) := by
  unfold State.chainGo
  dsimp only
  exact mono (ite refl (andThen modBucket (of [.ports, .reports, .rot, .once, .commit, .jobs, .regs, .truss, .bktWait, .passes, .cores,
      .mcl, .wanted, .loft, .poison, .mem, .written, .table, .ticket,
      .pwrc] (by split; exacts [mono send, mono (ite castB (andThen send takeB))]))))

theorem agree {j b} : Changes [.mcl, .wanted, .reports, .loft, .regs, .poison, .mem, .written, .jobs, .ports, .rot, .once, .commit, .truss,
    .bktWait, .passes, .cores, .table, .ticket, .pwrc] s (s.agree j b) := mono <| andThen forRead <|
    andThen (each (fun _ _ => memUncorr)) (ite (andThen agreed (ite chainGo refl)) chainGo)

theorem takeBucket {w b} : Changes [.jobs, .mcl, .wanted, .reports, .loft, .regs, .poison, .mem, .written, .ports, .rot, .once, .commit,
    .truss, .bktWait, .passes, .cores, .table, .ticket, .pwrc] s (s.takeBucket w b) := mono <| andThen modBucket (ite agree refl)

theorem contribute {a0 a1} : Changes [.truss, .jobs, .mcl, .wanted, .reports, .loft, .regs, .poison, .mem, .written, .ports, .rot, .once,
    .commit, .bktWait, .passes, .cores, .table, .ticket, .pwrc] s (s.contribute a0 a1) := by
  induction a1 generalizing s a0 with
  | nil => exact mono finishRef
  | cons x l ih => exact mono (ite (andThen takeBucket ih) bktWait)

theorem bktResume : Changes [.bktWait, .truss, .jobs, .mcl, .wanted, .reports, .loft, .regs, .poison, .mem, .written, .ports, .rot, .once,
    .commit, .passes, .cores, .table, .ticket, .pwrc] s (s.bktResume) := mono <| andThen bktWait (each (fun _ _ => contribute))

theorem bucketLanded {j b} : Changes [.free, .mcl, .wanted, .poison, .mem, .written, .reports, .loft, .once,
    .jobs] s (s.bucketLanded j b) := mono (ite refl (andThen (ite_snd drawFree refl) <|
    andThen (ite (andThen storeBucket storeBucket) (ite (ite storeBucket storeBucket) storeBucket)) <|
    andThen (ite raiseOnce refl) modBucket))

theorem takeOrd {j k d} : Changes [.jobs] s (s.takeOrd j k d).1 := mono modJob

theorem seqMismatch {j q bucket} : Changes [.regs, .reports, .commit, .ports, .rot, .once, .jobs, .truss, .bktWait, .passes, .cores, .mcl,
    .wanted, .loft, .poison, .mem, .written, .table, .ticket, .pwrc] s (s.seqMismatch j q bucket) := mono <| andThen orReg <| andThen occ <|
    andThen raise failAttempt

theorem modRed {j r f} : Changes [.jobs] s (s.modRed j r f) := mono modJob

theorem redDone {j r} : Changes [.truss, .mcl, .wanted, .reports, .loft, .poison, .mem, .jobs] s (s.redDone j r) := mono <|
    andThen (ite setImm (andThen forWrite writeView)) <| andThen modJob finishRef

theorem redResult {j r off l} : Changes [.ports, .reports, .rot, .once, .commit, .jobs, .regs, .truss, .bktWait, .passes, .cores, .mcl,
    .wanted, .loft, .poison, .mem, .written, .table, .ticket, .pwrc] s (s.redResult j r off l) := by
  unfold State.redResult
  dsimp only
  exact mono <| andThen (each (fun _ _ => send)) <| andThen modRed (of [.truss, .mcl, .wanted, .reports, .loft, .poison, .mem,
      .jobs] (by split; exacts [mono refl, mono (ite redDone refl)]))

theorem redTree {a0 a1 a2 a3 a4 a5} : Changes [.jobs, .ports, .reports, .rot, .once, .commit, .regs, .truss, .bktWait, .passes, .cores,
    .mcl, .wanted, .loft, .poison, .mem, .written, .table, .ticket, .pwrc] s (s.redTree a0 a1 a2 a3 a4 a5) := by
  induction a5 generalizing s a0 a1 a2 a3 a4 with
  | nil => exact mono refl
  | cons x l ih =>
    rw [State.redTree]
    split
    exacts [mono refl, by split; exacts [mono refl, mono (ite refl (andThen modRed (ite send (ite redResult (andThen modRed ih)))))]]

theorem redChain {j k seq off} : Changes [.jobs, .ports, .reports, .rot, .once, .commit, .regs, .truss, .bktWait, .passes, .cores, .mcl,
    .wanted, .loft, .poison, .mem, .written, .table, .ticket, .pwrc] s (s.redChain j k seq off) := by
  unfold State.redChain
  dsimp only
  split
  exacts [mono refl,
      by split; exacts [mono refl, mono (ite refl (andThen modRed (of [.ports, .reports, .rot, .once, .commit, .jobs, .regs, .truss, .bktWait, .passes, .cores, .mcl, .wanted, .loft, .poison, .mem, .written, .table, .ticket, .pwrc] (by split; exacts [mono send, mono (ite redResult send)]))))]]

theorem redGo {j r off ph} : Changes [.jobs, .ports, .reports, .rot, .once, .commit, .regs, .truss, .bktWait, .passes, .cores, .mcl,
    .wanted, .loft, .poison, .mem, .written, .table, .ticket, .pwrc] s (s.redGo j r off ph) := mono (ite redChain redTree)

theorem redPacketIn {j r src p} : Changes [.jobs, .ports, .reports, .rot, .once, .commit, .regs, .truss, .bktWait, .passes, .cores, .mcl,
    .wanted, .loft, .poison, .mem, .written, .table, .ticket, .pwrc] s (s.redPacketIn j r src p) := by
  unfold State.redPacketIn
  dsimp only
  split
  exacts [mono (ite (andThen modRed redGo) seqMismatch), mono (ite redResult seqMismatch), mono (ite redResult seqMismatch),
      mono seqMismatch]

theorem redStart {j r} : Changes [.jobs, .ports, .reports, .rot, .once, .commit, .regs, .truss, .bktWait, .passes, .cores, .mcl, .wanted,
    .loft, .poison, .mem, .written, .table, .ticket, .pwrc] s (s.redStart j r) := mono <| andThen modJob (each (fun _ _ => redGo))

theorem redIn {j src k p} : Changes [.jobs, .ports, .reports, .rot, .once, .commit, .regs, .truss, .bktWait, .passes, .cores, .mcl, .wanted,
    .loft, .poison, .mem, .written, .table, .ticket, .pwrc] s (s.redIn j src k p) := by
  unfold State.redIn
  dsimp only
  split
  exacts [mono redPacketIn, mono (ite modJob (ite refl seqMismatch))]

theorem takeEarly {j ks seq f} (hf : ∀ s i p, Changes K s (f s i p)) :
    Changes (K ++ [.regs, .reports, .commit, .ports, .rot, .once, .jobs, .truss, .bktWait, .passes, .cores, .mcl, .wanted, .loft, .poison,
        .mem, .written, .table, .ticket, .pwrc]) s (s.takeEarly j ks seq f) := by
  refine mono (andThen modJob (each (K := K ++ [.regs, .reports, .commit, .ports, .rot, .once, .jobs, .truss, .bktWait, .passes, .cores,
      .mcl, .wanted, .loft, .poison, .mem, .written, .table, .ticket, .pwrc]) fun s p => ?_)) (by simp)
  split
  · exact ite (hf ..) seqMismatch
  · exact mono refl (List.nil_subset _)

theorem answerJoin {p attempt ok} : Changes [.ports, .reports, .rot] s (s.answerJoin p attempt ok) := mono sendRaw

theorem joinIn {p} : Changes [.joins, .ports, .reports, .rot] s (s.joinIn p) := by
  unfold State.joinIn
  dsimp only
  split
  exacts [mono joins, mono (ite answerJoin (ite occ (ite joins answerJoin)))]

theorem joinCheck {j} : Changes [.jobs, .truss] s (s.joinCheck j) := mono (ite refl (andThen modJob (each (fun _ _ => finishRef))))

theorem closeJob {j} : Changes [.held, .regs, .reports, .jobs, .commit, .table, .passes, .truss, .once, .ports, .rot, .bktWait, .cores,
    .mcl, .wanted, .loft, .poison, .mem, .written, .ticket, .pwrc] s (s.closeJob j) := mono <| andThen held <|
    andThen (each (fun _ _ => andThen orReg occ)) <| andThen modJob (ite (andThen modCommit <| andThen armFree tryCast) refl)

theorem openJobAs {j c} : Changes [.truss, .jobs, .bktWait, .passes, .cores, .table, .commit, .lastGen, .ports, .reports, .rot,
    .joins] s (s.openJobAs j c) := mono <| andThen (ite refl newAttempt) <| andThen modJob <| andThen lastGen <|
    andThen (each (fun _ _ => sendRaw)) <| andThen joins <| andThen (each (fun _ _ => joinIn)) joinCheck

theorem joinAckIn {j src p} : Changes [.held, .regs, .reports, .jobs, .commit, .table, .passes, .truss, .once, .ports, .rot, .bktWait,
    .cores, .mcl, .wanted, .loft, .poison, .mem, .written, .ticket, .pwrc] s (s.joinAckIn j src p) :=
    mono (ite (ite refl (andThen closeJob (each (fun _ _ => finishRef)))) (ite refl (andThen modJob joinCheck)))

theorem drainCheck {j} : Changes [.regs, .reports, .held, .jobs, .commit, .table, .passes, .truss, .once, .ports, .rot, .bktWait, .cores,
    .mcl, .wanted, .loft, .poison, .mem, .written, .ticket, .pwrc] s (s.drainCheck j) := by
  unfold State.drainCheck
  dsimp only
  split
  exacts [mono refl, mono (ite refl (andThen (ite refl (andThen orReg <| andThen occ raise)) <| andThen closeJob finishRef))]

theorem drainIn {j src p} : Changes [.jobs, .regs, .reports, .held, .commit, .table, .passes, .truss, .once, .ports, .rot, .bktWait, .cores,
    .mcl, .wanted, .loft, .poison, .mem, .written, .ticket, .pwrc] s (s.drainIn j src p) := mono <| andThen modJob drainCheck

theorem putRow {x r off l} : Changes [.mcl, .wanted, .reports, .loft, .poison, .mem] s (s.putRow x r off l) := mono <|
    andThen forWrite writeView

theorem zeroRow {x r} : Changes [.mcl, .wanted, .reports, .loft, .poison, .mem] s (s.zeroRow x r) := by
  unfold State.zeroRow
  exact mono <| andThen forWrite writeView

theorem modDisp {j x f} : Changes [.jobs] s (s.modDisp j x f) := mono modJob

theorem dispCheck {j seq} : Changes [.jobs, .truss] s (s.dispCheck j seq) := by
  unfold State.dispCheck
  dsimp only
  split
  exacts [mono refl, mono (ite refl (ite (andThen modDisp finishRef) refl))]

theorem dispLand {j seq src expert slot piece} : Changes [.regs, .reports, .commit, .ports, .rot, .once, .jobs, .truss, .bktWait, .passes,
    .cores, .mcl, .wanted, .loft, .poison, .mem, .written, .table, .ticket, .pwrc] s (s.dispLand j seq src expert slot piece) := by
  unfold State.dispLand
  dsimp only
  split
  exacts [mono refl, mono (ite seqMismatch (andThen modDisp <| andThen (ite putRow (ite occ refl)) dispCheck))]

theorem dispEnd {j seq src l} : Changes [.regs, .reports, .commit, .ports, .rot, .once, .jobs, .truss, .bktWait, .passes, .cores, .mcl,
    .wanted, .loft, .poison, .mem, .written, .table, .ticket, .pwrc] s (s.dispEnd j seq src l) := by
  unfold State.dispEnd
  dsimp only
  split
  exacts [mono refl, mono (ite seqMismatch (andThen modDisp <| andThen (each (fun _ _ => each (fun _ _ => ite zeroRow refl))) dispCheck))]

theorem dispStart {j seq} : Changes [.jobs, .reports, .once, .regs, .commit, .ports, .rot, .truss, .bktWait, .passes, .cores, .mcl, .wanted,
    .loft, .poison, .mem, .written, .table, .ticket, .pwrc] s (s.dispStart j seq) := by
  unfold State.dispStart
  dsimp only
  split
  exacts [mono refl, mono (ite refl (andThen modDisp <| andThen occ <| andThen occ <| andThen (ite refl raiseOnce) <|
      andThen (each (fun _ _ => each (fun _ _ => ite dispLand send))) (each (fun _ _ => ite dispEnd send))))]

theorem dispResume : Changes [.jobs, .reports, .once, .regs, .commit, .ports, .rot, .truss, .bktWait, .passes, .cores, .mcl, .wanted, .loft,
    .poison, .mem, .written, .table, .ticket, .pwrc] s (s.dispResume) := mono (each (fun _ _ => each (fun _ _ => dispStart)))

theorem dispIn {j src p} : Changes [.jobs, .regs, .reports, .commit, .ports, .rot, .once, .truss, .bktWait, .passes, .cores, .mcl, .wanted,
    .loft, .poison, .mem, .written, .table, .ticket, .pwrc] s (s.dispIn j src p) := by
  unfold State.dispIn
  dsimp only
  split
  exacts [mono (ite modJob seqMismatch), mono (ite dispEnd dispLand)]

theorem modComb {j x f} : Changes [.jobs] s (s.modComb j x f) := mono modJob

theorem putValues {x r v} : Changes [.mcl, .wanted, .reports, .loft, .poison, .mem] s (s.putValues x r v) := by
  unfold State.putValues
  exact mono <| andThen forWrite writeView

theorem combCheck {j seq} : Changes [.free, .mcl, .wanted, .reports, .loft, .poison, .mem, .jobs, .truss, .once, .regs, .commit, .ports,
    .rot, .bktWait, .passes, .cores, .written, .table, .ticket, .pwrc] s (s.combCheck j seq) := by
  unfold State.combCheck
  extract_lets c
  split
  · exact mono refl
  · split
    · exact mono refl
    · extract_lets back dst out gate
      split
      · exact mono refl
      · split
        rename_i f s1 hf
        have h1 : Changes [.free] s s1 := by
          split at hf
          exacts [snd (p := s.drawFree) drawFree hf, snd (p := (_, _)) (mono refl) hf]
        split
        rename_i h s2 hh
        have h2 : Changes [.free] s1 s2 := by
          split at hh
          exacts [snd (p := s1.drawFree) drawFree hh, snd (p := (_, _)) (mono refl) hh]
        extract_lets s3
        have h3 : Changes _ s2 s3 := each fun _ _ => ite refl putValues
        exact mono <| andThen h1 <| andThen h2 <| andThen h3 <| andThen modJob <| andThen finishRef dispResume

theorem combLand {j seq src expert slot piece} : Changes [.regs, .reports, .commit, .ports, .rot, .once, .jobs, .truss, .bktWait, .passes,
    .cores, .mcl, .wanted, .loft, .poison, .mem, .written, .table, .ticket, .pwrc, .free] s (s.combLand j seq src expert slot piece) := by
  unfold State.combLand
  dsimp only
  split
  exacts [mono refl, by split; exacts [mono seqMismatch, mono (ite seqMismatch (andThen modComb combCheck))]]

theorem combEnd {j seq src n} : Changes [.regs, .reports, .commit, .ports, .rot, .once, .jobs, .truss, .bktWait, .passes, .cores, .mcl,
    .wanted, .loft, .poison, .mem, .written, .table, .ticket, .pwrc, .free] s (s.combEnd j seq src n) := by
  unfold State.combEnd
  split
  exacts [mono refl, mono (ite seqMismatch (andThen modComb combCheck))]

theorem combSend {j seq x y} : Changes [.regs, .reports, .commit, .ports, .rot, .once, .jobs, .truss, .bktWait, .passes, .cores, .mcl,
    .wanted, .loft, .poison, .mem, .written, .table, .ticket, .pwrc, .free] s (s.combSend j seq x y) :=
    mono (each (fun _ _ => andThen (each (fun _ _ => each (fun _ _ => ite combLand send))) (ite combEnd send)))

theorem combIn {j src p} : Changes [.jobs, .regs, .reports, .commit, .ports, .rot, .once, .truss, .bktWait, .passes, .cores, .mcl, .wanted,
    .loft, .poison, .mem, .written, .table, .ticket, .pwrc, .free] s (s.combIn j src p) := by
  unfold State.combIn
  dsimp only
  split
  exacts [mono (ite modJob seqMismatch), mono (ite combEnd combLand)]

theorem writeGroup0 {n v} : Changes [.table, .reports] s (s.writeGroup0 n v) := mono (ite (ite (ite setTable occ) (andThen setTableBits <|
    andThen setTableBits (ite refl occ))) (ite setTable (ite (andThen setTable <| andThen setTable <| andThen setTable <|
    andThen setTable setTable) (andThen setTable occ))))

theorem writeGroup {n w v} : Changes [.table, .reports] s (s.writeGroup n w v) := mono (ite writeGroup0 (ite refl (ite occ setTable)))

theorem writeRow0 {j v} : Changes [.table, .reports] s (s.writeRow0 j v) :=
    mono (ite (ite setTable occ) (ite setTable (ite setTable (andThen setTable occ))))

theorem writeRow {j w v} : Changes [.table, .reports] s (s.writeRow j w v) := mono (ite writeRow0 (ite occ setTable))

theorem normSlot {n} : Changes [.mcl, .wanted, .reports, .loft, .poison, .mem, .written] s (s.normSlot n) := mono (ite refl store)

theorem passAEnd {n k nfok} : Changes [.table, .commit, .mcl, .wanted, .reports, .loft, .poison, .mem, .written] s (s.passAEnd n k nfok) :=
    mono <| andThen setTable <| andThen setTable <| andThen setTable <| andThen setTableBits <| andThen modCommit (ite refl normSlot)

theorem passTrap {ins stop cause} : Changes [.passes] s (s.passTrap ins stop cause) := mono passes

theorem recordsBad {ins n k} : Changes [.regs, .reports, .passes] s (s.recordsBad ins n k).1 :=
    mono (ite_fst (pair refl) (pair (andThen (each (fun _ _ => memUncorr)) passTrap)))

theorem workDone {ins w} : Changes [.passes, .table, .mcl, .wanted, .reports, .loft, .regs, .commit, .poison, .mem, .written,
    .truss] s (s.workDone ins w) := by
  unfold State.workDone
  dsimp only
  split
  exacts [mono refl, mono <| andThen passes <| andThen (ite refl (ite setTableBits (andThen forRead <|
      andThen recordsBad (ite refl passAEnd)))) passEnd]

theorem inactiveWritten : Changes [.commit] s (s.inactiveWritten) := mono modCommit

theorem readCount {ins n r} : Changes [.mcl, .wanted, .reports, .loft, .regs, .passes, .truss] s (s.readCount ins n r).1 := mono <|
    andThen forRead (ite_fst (pair refl) (pair (andThen (each (fun _ _ => memUncorr)) <| andThen passTrap passEnd)))

theorem skipRow {ins w r} : Changes [.mcl, .wanted, .reports, .loft, .regs, .passes, .truss, .poison, .mem, .written, .commit,
    .table] s (s.skipRow ins w r) := mono <| andThen readCount (ite refl (andThen (ite (andThen copyMem <|
    andThen copyMem inactiveWritten) refl) workDone))

theorem scanRows : Changes [.mcl, .wanted, .reports, .loft, .regs, .passes, .truss, .poison, .mem, .written, .commit,
    .table] s (s.scanRows) := mono (each (fun _ _ => ite refl (each (fun _ _ => skipRow))))

theorem fenceMoved : Changes [.table, .passes, .truss, .mcl, .wanted, .reports, .loft, .regs, .poison, .mem, .written, .commit, .once,
    .ports, .rot, .jobs, .bktWait, .cores, .ticket, .pwrc] s (s.fenceMoved) := mono <| andThen armFree <| andThen scanRows tryCast

theorem rollback : Changes [.table, .mcl, .wanted, .reports, .loft, .regs, .poison, .mem, .written, .ticket, .commit] s (s.rollback) :=
    mono <| andThen (each (fun _ _ => andThen setTableBits <| andThen setTable publish)) <| andThen (ite refl setTicket) <|
    andThen modCommit <| andThen occ raise

theorem writeRollback : Changes [.table, .mcl, .wanted, .reports, .loft, .regs, .poison, .mem, .written, .ticket,
    .commit] s (s.writeRollback) := mono (ite rollback orReg)

theorem writeRepub : Changes [.mcl, .wanted, .reports, .loft, .regs, .poison, .mem, .written] s (s.writeRepub) :=
    mono (ite refl (andThen (each (fun _ _ => publish)) occ))

theorem takeBlock {j b blk ph x} : Changes [.regs, .reports, .jobs, .ports, .rot, .once, .commit, .truss, .bktWait, .passes, .cores, .mcl,
    .wanted, .loft, .poison, .mem, .written, .table, .ticket, .pwrc] s (s.takeBlock j b blk ph x) := by
  unfold State.takeBlock
  extract_lets s1 c s2
  have h1 : Changes [.jobs] s s1 := modBucket
  have h2 : Changes [.mcl, .wanted, .poison, .mem, .written, .reports, .loft, .jobs, .regs, .once, .commit] s1 s2 := land
  split
  · exact mono <| andThen h1 (ite reduce1 modBucket)
  · split
    exacts [mono <| andThen h1 reduce2, mono <| andThen h1 modBucket]
  · exact mono <| andThen h1 total
  · split
    exacts [mono <| andThen h1 <| andThen h2 passOn, mono <| andThen h1 h2]

theorem bucketIn {j src p} : Changes [.regs, .reports, .commit, .ports, .rot, .once, .jobs, .truss, .bktWait, .passes, .cores, .mcl,
    .wanted, .loft, .poison, .mem, .written, .table, .ticket, .pwrc] s (s.bucketIn j src p) := by
  unfold State.bucketIn
  dsimp only
  split
  exacts [mono seqMismatch, mono (ite seqMismatch (each (fun _ _ => ite refl takeBlock)))]

theorem agreeIn {j src p} : Changes [.jobs, .ports, .reports, .rot, .once, .commit, .regs, .truss, .bktWait, .passes, .cores, .mcl, .wanted,
    .loft, .poison, .mem, .written, .table, .ticket, .pwrc] s (s.agreeIn j src p) := by
  unfold State.agreeIn
  dsimp only
  exact mono (ite refl (of [.jobs, .ports, .reports, .rot, .once, .commit, .regs, .truss, .bktWait, .passes, .cores, .mcl, .wanted, .loft,
      .poison, .mem, .written, .table, .ticket,
      .pwrc] (by split; exacts [mono (ite (andThen modBucket chainGo) refl), mono (ite castB refl), mono (ite castB refl), mono refl])))

theorem abandonIn {j p} : Changes [.reports, .commit, .ports, .rot, .once, .jobs, .regs, .truss, .bktWait, .passes, .cores, .mcl, .wanted,
    .loft, .poison, .mem, .written, .table, .ticket, .pwrc] s (s.abandonIn j p) := mono <| andThen (ite occ failAttempt) (ite outcome refl)

theorem voteIn {j p} : Changes [.ports, .reports, .rot, .once, .commit, .jobs, .regs, .truss, .bktWait, .passes, .cores, .mcl, .wanted,
    .loft, .poison, .mem, .written, .table, .ticket, .pwrc] s (s.voteIn j p) := by
  unfold State.voteIn
  dsimp only
  exact mono (ite refl (ite outcome (ite refl (andThen foldIn (of [.ports, .reports, .rot, .once, .commit, .jobs, .regs, .truss, .bktWait,
      .passes, .cores, .mcl, .wanted, .loft, .poison, .mem, .written, .table, .ticket,
      .pwrc] (by split; exacts [mono (ite outcome refl), mono refl]))))))

theorem outcomeIn {j p} : Changes [.ports, .reports, .rot, .once, .commit, .jobs, .regs, .truss, .bktWait, .passes, .cores, .mcl, .wanted,
    .loft, .poison, .mem, .written, .table, .ticket, .pwrc] s (s.outcomeIn j p) := mono (ite outcomeAs refl)

theorem mirroredIn {j p} : Changes [.commit, .ports, .reports, .rot, .once, .jobs, .regs, .truss, .bktWait, .passes, .cores, .table, .mcl,
    .wanted, .loft, .poison, .mem, .written, .ticket, .pwrc] s (s.mirroredIn j p) := by
  unfold State.mirroredIn
  dsimp only
  exact mono (ite refl (andThen foldIn (of [.ports, .reports, .rot, .once, .commit, .jobs, .regs, .truss, .bktWait, .passes, .cores, .table,
      .mcl, .wanted, .loft, .poison, .mem, .written, .ticket,
      .pwrc] (by split; exacts [mono (ite (andThen castOn confirmed) refl), mono refl]))))

theorem confirmIn {j p} : Changes [.ports, .reports, .rot, .once, .commit, .jobs, .regs, .truss, .bktWait, .passes, .cores, .table, .mcl,
    .wanted, .loft, .poison, .mem, .written, .ticket, .pwrc] s (s.confirmIn j p) := mono (ite refl (andThen castOn confirmed))

theorem landPacket {j src p} : Changes [.held, .regs, .reports, .jobs, .commit, .table, .passes, .truss, .once, .ports, .rot, .bktWait,
    .cores, .mcl, .wanted, .loft, .poison, .mem, .written, .ticket, .pwrc, .free] s (s.landPacket j src p) := by
  unfold State.landPacket
  split
  exacts [mono refl, mono refl, mono joinAckIn, mono bucketIn, mono bucketIn, mono agreeIn, mono redIn, mono redIn, mono dispIn,
      mono dispIn, mono combIn, mono combIn, mono drainIn, mono abandonIn,
      by split; exacts [mono voteIn, mono outcomeIn, mono mirroredIn, mono confirmIn]]

theorem apply {path p x2} : Changes [.reports, .regs, .held, .once, .commit, .ports, .rot, .jobs, .truss, .bktWait, .passes, .cores, .mcl,
    .wanted, .loft, .poison, .mem, .written, .table, .ticket, .pwrc, .free] s (s.apply path p x2) := by
  unfold State.apply
  dsimp only
  split
  exacts [mono occ, mono occ, mono <| andThen orReg occ, mono occ, mono held, mono <| andThen orReg <| andThen occ (ite raiseOnce refl),
      mono <| andThen orReg <| andThen occ <| andThen raiseOnce failAttempt, mono (ite abandonIn occ), mono <| andThen orReg <|
      andThen occ <| andThen raiseOnce failAttempt, mono landPacket]

theorem receive {path p} : Changes [.joins, .ports, .reports, .rot, .regs, .held, .once, .commit, .jobs, .truss, .bktWait, .passes, .cores,
    .mcl, .wanted, .loft, .poison, .mem, .written, .table, .ticket, .pwrc, .free] s (s.receive path p) := mono (ite joinIn apply)

theorem drainHeld {a0} : Changes [.held, .joins, .ports, .reports, .rot, .regs, .once, .commit, .jobs, .truss, .bktWait, .passes, .cores,
    .mcl, .wanted, .loft, .poison, .mem, .written, .table, .ticket, .pwrc, .free] s (s.drainHeld a0) := by
  induction a0 generalizing s with
  | zero => exact mono refl
  | succ n ih => exact mono (ite (andThen held <| andThen (each (fun _ _ => receive)) ih) (andThen held (each (fun _ _ => receive))))

theorem gutterSettle : Changes [.held, .joins, .ports, .reports, .rot, .regs, .once, .commit, .jobs, .truss, .bktWait, .passes, .cores,
    .mcl, .wanted, .loft, .poison, .mem, .written, .table, .ticket, .pwrc, .free] s s.gutterSettle := by
  unfold State.gutterSettle
  extract_lets s1 s2
  have h1 : Changes [.held, .joins, .ports, .reports, .rot, .regs, .once, .commit, .jobs, .truss, .bktWait, .passes, .cores, .mcl, .wanted,
      .loft, .poison, .mem, .written, .table, .ticket, .pwrc, .free] s s1 := drainHeld
  have h2 : Changes [.regs, .reports, .held, .jobs, .commit, .table, .passes, .truss, .once, .ports, .rot, .bktWait, .cores, .mcl, .wanted,
      .loft, .poison, .mem, .written, .ticket, .pwrc] s1 s2 := each fun _ _ => drainCheck
  exact trans (mono h1) <| trans (mono h2) <| trans (mono bktResume) <| trans (mono encodeResume) <| trans (mono dispResume) <|
    trans (mono armFree) <| trans (mono scanRows) (mono tryCast)

theorem takeInbox {path p} : Changes [.ports, .reports] s (s.takeInbox path p) := by
  unfold State.takeInbox
  split
  exacts [mono refl, mono <| andThen modPort pump]

theorem packetIn {p} : Changes [.held, .joins, .ports, .reports, .rot, .regs, .once, .commit, .jobs, .truss, .bktWait, .passes, .cores,
    .mcl, .wanted, .loft, .poison, .mem, .written, .table, .ticket, .pwrc, .free] s (s.packetIn p) :=
    mono (ite refl (andThen gutterSettle (ite refl (andThen takeInbox <| andThen receive gutterSettle))))

theorem relayDrop {port p} : Changes [.reports, .once] s (s.relayDrop port p) := mono <| andThen occPort (ite refl (andThen once raise))

theorem takeRelay {port stream p} : Changes [.ports, .reports] s (s.takeRelay port stream p) := mono (ite (andThen modPort pump) refl)

theorem perr {k m} : Changes [.regs, .reports] s (s.perr k m) := mono orReg

theorem enterTraining {k} : Changes [.ports] s (s.enterTraining k) := mono modPort

theorem lookupAgain {k o} : Changes [.ports, .reports, .once, .commit, .rot, .jobs, .regs, .truss, .bktWait, .passes, .cores, .mcl, .wanted,
    .loft, .poison, .mem, .written, .table, .ticket, .pwrc] s (s.lookupAgain k o) := by
  unfold State.lookupAgain
  dsimp only
  exact mono (ite (of [.ports, .reports,
      .once] (by split; exacts [mono emit, mono relayDrop])) (ite (of [.ports, .reports, .once, .commit, .rot, .jobs, .regs, .truss, .bktWait, .passes, .cores, .mcl, .wanted, .loft, .poison, .mem, .written, .table, .ticket, .pwrc] (by split; exacts [mono emit, mono (ite noPath refl)])) (andThen sendRaw (ite refl noPath))))

theorem partnerCheck {k before} : Changes [.reports, .commit, .regs, .once, .ports, .rot, .jobs, .truss, .bktWait, .passes, .cores, .table,
    .mcl, .wanted, .loft, .poison, .mem, .written, .ticket, .pwrc] s (s.partnerCheck k before) := by
  unfold State.partnerCheck
  dsimp only
  split
  exacts [mono refl, mono (ite refl (andThen raise (ite (andThen mirrorLost <| andThen sendMirrored fenceMoved) refl)))]

theorem fabricLoss {k lost} : Changes [.reports, .once, .commit, .ports, .rot, .jobs, .regs, .truss, .bktWait, .passes, .cores, .mcl,
    .wanted, .loft, .poison, .mem, .written, .table, .ticket, .pwrc] s (s.fabricLoss k lost) := mono <| andThen occPort <|
    andThen (each (fun _ _ => relayDrop)) (ite failAttempt refl)

theorem twinLoss {k l} : Changes [.ports, .reports] s (s.twinLoss k l) :=
    mono (ite refl (andThen (each (fun _ _ => sendTwin)) (ite occPort refl)))

theorem mirrorCut : Changes [.commit] s (s.mirrorCut) := mono (ite modCommit refl)

theorem leaveUp {k cause st} : Changes [.ports, .reports, .regs, .commit, .once, .rot, .jobs, .truss, .bktWait, .passes, .cores, .table,
    .mcl, .wanted, .loft, .poison, .mem, .written, .ticket, .pwrc] s (s.leaveUp k cause st) := mono <|
    andThen (ite enterTraining modPort) <| andThen (ite occPort refl) <| andThen raise <| andThen (ite refl perr) (ite (andThen twinLoss <|
    andThen partnerCheck mirrorCut) (andThen (each (fun _ _ => lookupAgain)) fabricLoss))

theorem mirrorPieceIn {p} : Changes [.regs, .reports, .commit, .ports, .mcl, .wanted, .loft, .poison, .mem,
    .written] s (s.mirrorPieceIn p) := mono (ite refl (ite (andThen orReg <| andThen modCommit sendTwin) (andThen want <|
    andThen (ite refl (andThen store modCommit)) <| andThen store <| andThen (each (fun _ _ => ite mark refl)) modCommit)))

theorem packetDone {k stream l} : Changes [.ports, .regs, .reports, .commit, .mcl, .wanted, .loft, .poison, .mem,
    .written] s (s.packetDone k stream l) := by
  unfold State.packetDone
  dsimp only
  split
  exacts [mono modPort, mono (ite (andThen modPort (ite mirrorPieceIn (ite modPort refl))) (ite (andThen modPort occ) modPort))]

theorem cellIn {k c} : Changes [.ports, .reports, .regs, .commit, .mcl, .wanted, .loft, .poison, .mem, .written] s (s.cellIn k c) :=
    mono (ite refl (andThen modPort <| andThen occPort (ite refl (andThen modPort (ite packetDone refl)))))

theorem nakIn {k} : Changes [.regs, .reports, .ports, .commit, .once, .rot, .jobs, .truss, .bktWait, .passes, .cores, .table, .mcl, .wanted,
    .loft, .poison, .mem, .written, .ticket, .pwrc] s (s.nakIn k) := mono (ite refl (ite (andThen perr leaveUp) (andThen modPort <|
    andThen occPort <| andThen occPort occPort)))

theorem discardFrame {k f} : Changes [.reports, .ports] s (s.discardFrame k f) := mono <| andThen occPort modPort

theorem frameIn {k fec f} : Changes [.reports, .regs, .ports, .commit, .mcl, .wanted, .loft, .poison, .mem, .written, .once, .rot, .jobs,
    .truss, .bktWait, .passes, .cores, .table, .ticket, .pwrc] s (s.frameIn k fec f) := mono <| andThen occPort <|
    andThen occPort (ite (andThen perr <| andThen discardFrame pump) (ite (andThen perr <| andThen occPort <|
    andThen discardFrame pump) (ite (andThen discardFrame pump) (andThen modPort <| andThen (each (fun _ _ => cellIn)) <|
    andThen (ite nakIn refl) pump))))

theorem trainFail {k} : Changes [.ports, .regs, .reports] s (s.trainFail k) := mono <| andThen modPort <| andThen perr occPort

theorem trained {k t} : Changes [.ports, .regs, .reports, .pins, .commit, .once, .rot, .jobs, .truss, .bktWait, .passes, .cores, .table,
    .mcl, .wanted, .loft, .poison, .mem, .written, .ticket, .pwrc] s (s.trained k t) := mono <|
    andThen modPort (ite trainFail (andThen modPins <| andThen modPort <| andThen (ite perr refl) <| andThen (ite raise refl) <|
    andThen (ite (andThen orReg raise) refl) partnerCheck))

theorem disablePort {k} : Changes [.ports, .reports, .regs, .commit, .once, .rot, .jobs, .truss, .bktWait, .passes, .cores, .table, .mcl,
    .wanted, .loft, .poison, .mem, .written, .ticket, .pwrc] s (s.disablePort k) := mono (ite leaveUp modPort)

theorem enablePort {k} : Changes [.ports] s (s.enablePort k) := mono (ite enterTraining refl)

theorem retrainPort {k} : Changes [.ports, .reports, .regs, .commit, .once, .rot, .jobs, .truss, .bktWait, .passes, .cores, .table, .mcl,
    .wanted, .loft, .poison, .mem, .written, .ticket, .pwrc] s (s.retrainPort k) := by
  unfold State.retrainPort
  split
  exacts [mono refl, mono leaveUp, mono enterTraining]

theorem setDisable {k on} : Changes [.regs, .reports, .ports, .commit, .once, .rot, .jobs, .truss, .bktWait, .passes, .cores, .table, .mcl,
    .wanted, .loft, .poison, .mem, .written, .ticket, .pwrc] s (s.setDisable k on) := mono <| andThen setField <|
    andThen modPort (ite disablePort enablePort)

theorem twinPresent {present} : Changes [.pins, .ports, .reports, .regs, .commit, .once, .rot, .jobs, .truss, .bktWait, .passes, .cores,
    .table, .mcl, .wanted, .loft, .poison, .mem, .written, .ticket, .pwrc] s (s.twinPresent present) := mono <|
    andThen modPins (ite refl (ite (each (fun _ _ => enablePort)) (andThen (each (fun _ _ => disablePort)) partnerCheck)))

theorem putCoord {c} : Changes [.coord, .gone, .ports, .reports, .regs, .commit, .once, .rot, .jobs, .truss, .bktWait, .passes, .cores,
    .table, .mcl, .wanted, .loft, .poison, .mem, .written, .ticket, .pwrc] s (s.putCoord c) := by
  refine mono (andThen (coordinate { valid := true, inForce := c, pending := none }) (each (K := [.ports, .reports, .regs, .commit, .once,
      .rot, .jobs, .truss, .bktWait, .passes, .cores, .table, .mcl, .wanted, .loft, .poison, .mem, .written, .ticket,
      .pwrc] ++ [.ports]) fun s k => ?_))
  split
  exacts [mono leaveUp, mono enterTraining, mono refl]

theorem arrayCycle {i} : Changes [.ga, .reports] s (s.arrayCycle i) := mono arrayCycles

theorem chargeTruss {d q n} : Changes [.truss, .reports] s (s.chargeTruss d q n) := mono <| andThen (ite modTr refl) <|
    andThen charge charge

theorem chargeIsland {dom n} : Changes [.truss, .reports, .gcause, .free] s (s.chargeIsland dom n) := by
  unfold State.chargeIsland
  dsimp only
  split
  exacts [mono <| andThen (each (fun _ _ => chargeTruss)) <| andThen modTr <| andThen charge charge, mono <| andThen gcause charge,
      mono (ite refl (andThen drawFree occ)), mono refl]

theorem islandCycles {dom} : Changes [.ctr, .ga, .reports, .truss, .gcause, .free] s (s.islandCycles dom) := mono <|
    andThen modCtr (ite refl (ite (each (fun _ _ => arrayCycle)) (andThen (ite common refl) <| andThen chargeIsland (ite refl tally))))

theorem keepAlives : Changes [.ports, .reports, .mcl] s (s.keepAlives) :=
    mono (ite (andThen (each (fun _ _ => keepAlive)) mclKeepAlive) refl)

theorem tick : Changes [.held, .joins, .ports, .reports, .rot, .regs, .once, .commit, .jobs, .truss, .bktWait, .passes, .cores, .mcl, .loft,
    .poison, .mem, .written, .table, .ticket, .pwrc, .free, .stamp, .ctr, .ga, .gcause] s s.tick := by
  unfold State.tick
  extract_lets s1 s2 s3 s4
  have h4 : Changes [.held, .joins, .ports, .reports, .rot, .regs, .once, .commit, .jobs, .truss, .bktWait, .passes, .cores, .mcl, .wanted,
      .loft, .poison, .mem, .written, .table, .ticket, .pwrc, .free] s3 s4 := gutterSettle
  have h1 : Changes [.stamp, .pwrc] s s1 := by
    refine andThen stamp (modPwrc fun p => ?_)
    unfold Pwrc.settleFall
    split
    · rfl
    · split <;> rfl
  have h3 : Changes _ s s3 := andThen h1 <| andThen (each fun _ _ => markUrgent) <| andThen keepAlives <| each fun _ _ => islandCycles
  split
  · exact mono refl
  · split
    · exact mono h3
    · have h3' : Changes [.held, .joins, .ports, .reports, .rot, .regs, .once, .commit, .jobs, .truss, .bktWait, .passes, .cores, .mcl,
        .loft, .poison, .mem, .written, .table, .ticket, .pwrc, .free, .stamp, .ctr, .ga, .gcause] s s3 := mono h3
      split
      · rename_i hw
        exact trans h3' (mono (settled h4 (List.isEmpty_iff.1 hw)))
      · exact trans h3' (mono recallLines)

theorem doorbell {a v} : Changes [.mcl] s (s.doorbell a v) := mono <| andThen modMcl toHost

theorem ring : Changes [.mcl] s (s.ring) := mono doorbell

theorem entryVisible : Changes [.mcl] s (s.entryVisible) := mono (ite ring (ite modMcl (andThen ring modMcl)))

theorem mailboxSettle : Changes [.mcl] s (s.mailboxSettle) := by
  unfold State.mailboxSettle
  split
  exacts [mono refl, mono (ite refl (andThen doorbell modMcl))]

theorem windowSettle : Changes [.reports, .mcl] s (s.windowSettle) := mono (ite refl (ite recallLines modMcl))

theorem windowsChanged : Changes [.mcl, .reports] s (s.windowsChanged) := mono <| andThen modMcl windowSettle

theorem uwLost {r} : Changes [.poison, .truss] s (s.uwLost r) := by
  unfold State.uwLost
  dsimp only
  exact mono <| andThen (of [.poison] (by split; exacts [mono refl, mono (each (fun _ _ => mark))])) uwFail

theorem mailboxLost : Changes [.bist, .keeper] s (s.mailboxLost) := mono <| andThen modBist modKeeper

theorem linesLost : Changes [.poison] s (s.linesLost) := mono (each (fun _ _ => each (fun _ _ => mark)))

theorem mclDown : Changes [.poison, .truss, .mcl, .reports, .bist, .keeper, .regs, .once, .wanted, .loft, .mem, .written,
    .free] s (s.mclDown) := mono <| andThen (each (fun _ _ => uwLost)) <| andThen linesLost <| andThen modMcl <| andThen windowSettle <|
    andThen mailboxLost <| andThen (each (fun _ _ => andThen moveDone freePages)) <| andThen orReg raise

theorem mclLost : Changes [.poison, .truss, .mcl, .reports, .bist, .keeper, .regs, .once, .wanted, .loft, .mem, .written,
    .free] s (s.mclLost) := mono (ite mclDown modMcl)

theorem mclTrain : Changes [.mcl] s (s.mclTrain) := mono modMcl

theorem mclNak : Changes [.poison, .truss, .mcl, .reports, .bist, .keeper, .regs, .once, .wanted, .loft, .mem, .written,
    .free] s (s.mclNak) := mono (ite refl (ite mclDown (andThen modMcl occ)))

theorem discardFlit {f} : Changes [.mcl] s (s.discardFlit f) := mono modMcl

theorem flitIn {f} : Changes [.regs, .reports, .mcl, .poison, .truss, .bist, .keeper, .once, .wanted, .loft, .mem, .written,
    .free]  s (s.flitIn f) := by
  unfold State.flitIn
  dsimp only
  refine mono (ite (andThen orReg <| andThen discardFlit mclPump) (ite (andThen discardFlit mclPump)
    (andThen (modMcl (fun m => ?_) fun m h => ?_) <| andThen (ite mclNak refl) mclPump)))
  exacts [(m.acked_same _).1, (m.acked_same _).2.trans h]

theorem takeMsg {type tag addr} : Changes [.mcl] s (s.takeMsg type tag addr) := by
  unfold State.takeMsg
  split
  exacts [mono refl, mono modMcl]

theorem unmapped {ch tag} : Changes [.regs, .reports, .mcl] s (s.unmapped ch tag) := mono <| andThen orReg <| andThen occ complete

theorem holdWait {a n} : Changes [.mcl, .wanted] s (s.holdWait a n) := mono want

theorem hostRead {ch tag a n} : Changes [.regs, .reports, .mcl, .wanted, .loft] s (s.hostRead ch tag a n) := by
  unfold State.hostRead
  dsimp only
  split
  exacts [mono unmapped, mono <| andThen darkAccess complete, mono <| andThen holdWait <| andThen (each (fun _ _ => memUncorr)) <|
      andThen touch complete]

theorem hostStore {a poison data} : Changes [.mcl, .wanted, .poison, .mem, .written, .reports, .loft,
    .regs] s (s.hostStore a poison data) := by
  unfold State.hostStore
  dsimp only
  split
  exacts [mono <| andThen holdWait <| andThen writeVia <| andThen (ite (each (fun _ _ => mark)) refl) touch, mono darkAccess, mono refl]

theorem hostWrite {ch tag a poison data} : Changes [.regs, .reports, .once, .mcl, .wanted, .poison, .mem, .written,
    .loft] s (s.hostWrite ch tag a poison data) := mono <| andThen notePoison (ite unmapped (andThen hostStore complete))

theorem hostCache {own tag dpa} : Changes [.regs, .reports, .mcl, .wanted, .loft] s (hostCache own tag dpa s) :=
    mono (ite hostRead (ite (andThen occ hostRead) (ite (andThen modMcl hostRead) (ite (andThen modMcl <|
    andThen hostRead windowSettle) want))))

theorem dropLine {n} : Changes [.mcl, .reports] s (s.dropLine n) := mono <| andThen modMcl windowSettle

theorem uwDone {r good data} : Changes [.mcl, .poison, .truss, .wanted, .mem, .written, .regs, .reports, .once, .loft,
    .free] s (s.uwDone r good data) := by
  unfold State.uwDone
  dsimp only
  exact mono <| andThen modMcl <| andThen (ite uwLost (of [.mcl, .wanted, .poison, .mem,
      .written] (by split; exacts [mono refl, mono <| andThen want putPiece]))) <| andThen moveDone freePages

theorem ownDone {tag what} : Changes [.mcl] s (s.ownDone tag what) := by
  unfold State.ownDone
  extract_lets s1
  have h : Changes [.mcl] s s1 := modMcl
  split
  exacts [mono <| andThen h entryVisible, mono <| andThen h mailboxSettle]

theorem writeEntry {e} : Changes [.mcl] s (s.writeEntry e) := by
  unfold State.writeEntry
  refine mono <| andThen ownWrite <| modMcl (fun _ => ?_) fun _ h => ?_
  exacts [rfl, h]

theorem writeOverflow : Changes [.mcl, .reports] s s.writeOverflow :=
  mono <| ite refl <| andThen hold <| andThen writeEntry <| andThen reportMcl occ

theorem enableRing : Changes [.mcl, .regs, .reports] s s.enableRing := mono <| andThen setRegRaw reportMcl

theorem fallbackSettle : Changes [.keeper, .reports] s (s.fallbackSettle) := mono (ite (andThen modKeeper raise) refl)

theorem writeEvcfg {r data mask} : Changes [.regs, .reports, .mcl, .keeper] s (s.writeEvcfg r data mask) := mono <|
    andThen regWrite (ite (andThen enableRing fallbackSettle) refl)

theorem mailboxGo : Changes [.reports, .mcl] s (s.mailboxGo) := mono (ite occ (andThen modMcl <| andThen askHost occ))

theorem coldReset : Changes [.ticket, .stamp, .mem, .clearing, .poison, .table, .rot, .regs, .live, .truss, .spars, .ga, .loft, .obreqs,
    .jobs, .lastGen, .joins, .held, .commit, .bktWait, .passes, .cores, .codes, .written, .gcause, .ports, .coord, .gone, .mcl, .reports,
    .once, .pwrc, .grant, .keeper, .boot, .bist, .tap, .pins, .ctr] s s.coldReset :=
  ⟨fun _ => ⟨rfl, rfl, rfl, rfl, rfl⟩, fun p hp => by cases p <;> simp_all [Part.same, State.coldReset, State.reset]⟩

/-- What a warm reset keeps of the state that it finds. -/
theorem warmKept {t} (hm : t.mem = s.mem) (hp : t.poison = s.poison) (ht : t.table = s.table) (hr : t.rot = [])
    (hg : t.regs = s.regs.filter fun p => warmKeeps p.1) (h : ∀ p, p ∉ K → p.same s t) : Changes K s t :=
  ⟨fun hs => ⟨hm ▸ hs.mem, hp ▸ hs.poison, ht ▸ hs.table, hr ▸ rfl, hg ▸ Sparse.wf_filter none _ hs.regs⟩, h⟩

theorem warmReset {cause bstate} : Changes [.mem, .poison, .rot, .regs, .truss, .spars, .ga, .loft, .obreqs, .jobs, .joins, .held, .commit,
    .bktWait, .passes, .cores, .codes, .written, .gcause, .ports, .coord, .gone, .mcl, .reports, .once, .pwrc, .grant, .keeper, .boot,
    .bist, .pins, .ctr] s (s.warmReset cause bstate) := by
  unfold State.warmReset
  extract_lets s1
  have h : Changes _ s s1 := andThen linesLost <| each fun _ _ => loftApply
  refine mono <| andThen h <| warmKept (K := [.mem, .poison, .rot, .regs, .truss, .spars, .ga, .loft, .obreqs, .jobs, .joins, .held,
      .commit, .bktWait, .passes, .cores, .codes, .written, .gcause, .ports, .coord, .gone, .mcl, .reports, .once, .pwrc, .grant, .keeper,
      .boot, .bist, .pins, .ctr]) rfl rfl rfl rfl rfl fun p hp => ?_
  cases p
  case wanted => exact fun _ => rfl
  all_goals simp_all [Part.same]

theorem resetIgnored : Changes [.keeper, .reports] s (s.resetIgnored) := mono <| andThen modKeeper occ

theorem goDark : Changes [.poison, .mem, .written, .truss, .mcl, .reports, .bist, .keeper, .regs, .once, .loft, .free, .clearing, .live,
    .spars, .ga, .obreqs, .jobs, .joins, .held, .commit, .bktWait, .passes, .cores, .codes, .gcause, .ports, .pins] s s.goDark := by
  unfold State.goDark
  dsimp only
  exact mono <| settled (andThen mclLost <| fields [.clearing, .live, .truss, .spars, .ga, .loft, .obreqs, .jobs, .joins, .held, .commit,
      .bktWait, .passes,
    .cores, .codes, .written, .gcause, .ports, .mcl, .reports, .bist, .pins]) rfl

theorem portClockLost {k} : Changes [.regs, .reports, .ports, .commit, .once, .rot, .jobs, .truss, .bktWait, .passes, .cores, .table, .mcl,
    .wanted, .loft, .poison, .mem, .written, .ticket, .pwrc] s (s.portClockLost k) := by
  unfold State.portClockLost
  split
  exacts [mono <| andThen perr leaveUp, mono modPort, mono refl]

theorem bootTo {n} : Changes [.boot] s (s.bootTo n) := mono boot

theorem runImage {b fallback} : Changes [.keeper, .boot] s (s.runImage b fallback) := mono <| andThen modKeeper bootTo

theorem ownNoMore {k} : Changes [.written] s (s.ownNoMore k) := mono written

theorem coreFault {k cause detail} : Changes [.regs, .reports, .cores, .written, .passes, .truss] s (s.coreFault k cause detail) := by
  unfold State.coreFault
  dsimp only
  split
  exacts [mono refl, mono <| andThen (ite refl (andThen setRegRaw <| andThen setRegRaw setRegRaw)) <| andThen orReg <| andThen occ <|
      andThen raise <| andThen modCore <| andThen ownNoMore <| andThen passTrap passEnd]

theorem coreBad {l} : Changes [.regs, .reports] s (s.coreBad l).1 := mono (each (fun _ _ => memUncorr))

theorem keepImage {q m} : Changes [.codes] s (s.keepImage q m) := mono codes

theorem readImage {k a i} : Changes [.regs, .reports, .cores, .written, .passes, .truss, .mcl, .wanted, .loft,
    .codes] s (s.readImage k a i) := by
  unfold State.readImage
  dsimp only
  exact mono (ite coreFault (andThen forRead <| andThen coreBad (ite coreFault (of [.regs, .reports, .cores, .written, .passes, .truss,
      .mcl, .wanted, .loft,
      .codes] (by split; exacts [mono coreFault, mono (ite coreFault (andThen forRead <| andThen coreBad (ite coreFault (andThen modCore keepImage))))])))))

theorem instanceStart : Changes [.mcl, .wanted, .reports, .loft, .regs, .passes, .truss, .cores, .written,
    .codes] s (Machine.instanceStart s) := by
  unfold Machine.instanceStart
  split
  · exact mono refl
  · extract_lets n a
    split
    rename_i t cnt bad hx
    have h : Changes [.mcl, .wanted, .reports, .loft, .regs, .passes, .truss] s t := by
      split at hx
      exacts [fst (mono readCount) hx, fst (p := (_, _, _)) (mono refl) hx]
    split
    · exact mono h
    · extract_lets missed s1 s2 i
      have h2 : Changes [.passes, .reports] t s2 := mono <| andThen passes occ
      split
      exacts [mono <| andThen h <| andThen h2 modCore, mono <| andThen h <| andThen h2 <| andThen modCore readImage]

theorem writeGrant {step now} : Changes [.pwrc, .grant] s (s.writeGrant step now) := grant

theorem capJudge : Changes [.pwrc, .regs, .reports] s (s.capJudge) := mono <| andThen modPwrc (ite (andThen modPwrc <|
    andThen orReg raise) (ite modPwrc refl))

theorem bubbleMean : Changes [.pwrc, .reports] s (s.bubbleMean) := mono <| andThen modPwrc (ite raise refl)

theorem loadPower : Changes [.pwrc] s s.loadPower := by
  unfold State.loadPower
  refine modPwrc fun _ => ?_
  rfl

theorem countPeriod {atMax} : Changes [.reports] s (s.countPeriod atMax) := mono <| andThen (ite occ refl) <|
    andThen (ite occ refl) (each (fun _ _ => occ))

theorem judge {div} : Changes [.pwrc, .regs, .reports] s (s.judge div) := mono <| andThen modPwrc (ite (andThen modPwrc <|
    andThen orReg raise) (ite modPwrc refl))

theorem thermTrip {sensor} : Changes [.regs, .reports, .keeper, .pwrc, .pins, .poison, .mem, .written, .truss, .mcl, .bist, .once, .loft,
    .free, .clearing, .live, .spars, .ga, .obreqs, .jobs, .joins, .held, .commit, .bktWait, .passes, .cores, .codes, .gcause,
    .ports] s (s.thermTrip sensor) := by
  unfold State.thermTrip
  dsimp only
  refine mono (ite refl (andThen orReg <| andThen (reportKeeper ?_ ?_) <| andThen modPwrc <| andThen modPins goDark))
  exacts [(Keeper.hold_same ..).1, (Keeper.hold_same ..).2]

theorem hbmHot {k} : Changes [.regs, .reports] s (s.hbmHot k) := mono <| andThen orReg raise

theorem markEncoded : Changes [.jobs] s (s.markEncoded) := mono jobs

theorem enterHold {k} : Changes [.jobs, .pwrc, .regs, .reports] s (s.enterHold k) := mono (ite refl (andThen markEncoded <|
    andThen modPwrc <| andThen orReg raise))

theorem holdRelease : Changes [.reports, .pwrc, .ga, .truss, .commit, .ports, .rot, .once, .jobs, .regs, .bktWait, .passes, .cores, .mcl,
    .wanted, .loft, .poison, .mem, .written, .table, .ticket, .free] s (s.holdRelease) :=
    mono (ite refl (ite occ (andThen modPwrc (each (fun _ _ => settle)))))

theorem hostPieces {a data} : Changes [.mcl] s (s.hostPieces a data) := mono (each (fun _ _ => ownWrite))

theorem respond {tag status payload} : Changes [.mcl] s (s.respond tag status payload) := by
  unfold State.respond
  dsimp only
  split
  exacts [mono refl, mono <| andThen hostPieces <| andThen ownWrite <| andThen ownWrite <| andThen modMcl mclPump]

theorem attest {nonce mb} : Changes [.keeper] s (s.attest nonce mb) := mono modKeeper

theorem resetRegs {n} : Changes [.regs, .reports, .ctr] s (s.resetRegs n) :=
  mono <| andThen clearCounters <| andThen (regs (Sparse.wf_filter none _)) (ctr rfl)

theorem resetParts {n} : Changes [.ga, .truss, .spars, .loft, .mem, .poison, .pwrc, .grant, .gone, .ports, .cores, .codes, .gcause, .commit,
    .jobs, .joins, .held, .bktWait, .passes, .written, .tap, .reports, .once, .mcl] s (s.resetParts n) := by
  unfold State.resetParts
  split
  · exact mono modGa
  · exact mono <| andThen modTr spars
  · exact mono <| andThen modLoft wipe
  · exact mono modPwrc
  · exact mono <| andThen gone <| each fun _ _ => ite modPort refl
  · exact mono <| andThen gone <| each fun _ _ => ite modPort refl
  · dsimp only
    exact mono <| andThen (fields [.cores, .codes, .gcause]) <| ite (fields [.commit, .jobs, .joins, .held, .bktWait, .passes,
        .written]) refl
  · exact mono tap
  · exact mono <| fields [.reports, .once]
  · exact mono <| reportMcl fun _ => rfl
  · exact mono grant
  all_goals exact mono refl

theorem wipeParts {n} : Changes [.ga, .truss, .loft, .mem, .poison, .cores, .codes, .ports, .table, .rot, .reports] s (s.wipeParts n) := by
  unfold State.wipeParts
  split
  · exact mono <| andThen modGa wipe
  · exact mono modTr
  · exact mono wipe
  · exact mono <| andThen modLoft wipe
  · dsimp only
    exact mono <| andThen (fields [.cores, .codes]) wipe
  · exact mono <| each fun _ _ => ite modPort refl
  · exact mono <| each fun _ _ => ite modPort refl
  · exact mono <| andThen (table fun _ => Sparse.wf_nil _) <| andThen (rot fun _ => Sparse.wf_nil _) evq
  all_goals exact mono refl

theorem beforeTest {n} : Changes [.reports, .loft, .ports, .regs, .commit, .once, .rot, .jobs, .truss, .bktWait, .passes, .cores, .table,
    .mcl, .wanted, .poison, .mem, .written, .ticket, .pwrc] s (s.beforeTest n) := by
  unfold State.beforeTest
  dsimp only
  split
  exacts [mono <| andThen occ modLoft, mono (each (fun _ _ => ite refl (of [.ports, .reports, .regs, .commit, .once, .rot, .jobs, .truss,
      .bktWait, .passes, .cores, .table, .mcl, .wanted, .loft, .poison, .mem, .written, .ticket,
      .pwrc] (by split; exacts [mono leaveUp, mono modPort, mono refl])))), mono (each (fun _ _ => ite refl (of [.ports, .reports, .regs, .commit, .once, .rot, .jobs, .truss, .bktWait, .passes, .cores, .table, .mcl, .wanted, .loft, .poison, .mem, .written, .ticket, .pwrc] (by split; exacts [mono leaveUp, mono modPort, mono refl])))), mono refl]

theorem afterTest {n} : Changes [.ports] s (s.afterTest n) := mono (each (fun _ _ => ite refl (ite modPort enterTraining)))

theorem testNext : Changes [.reports, .loft, .ports, .regs, .commit, .once, .rot, .jobs, .truss, .bktWait, .passes, .cores, .table, .mcl,
    .wanted, .poison, .mem, .written, .ticket, .pwrc, .bist, .boot] s s.testNext := by
  unfold State.testNext
  split
  · exact mono <| andThen beforeTest modBist
  · extract_lets b s1 s2 s3
    have h : Changes [.bist, .reports, .boot] s s3 := mono <| andThen modBist <| andThen raise (ite bootTo refl)
    split
    exacts [mono <| andThen h respond, mono h]

theorem bistStart {mask mb} : Changes [.regs, .reports, .bist, .loft, .ports, .commit, .once, .rot, .jobs, .truss, .bktWait, .passes,
    .cores, .table, .mcl, .wanted, .poison, .mem, .written, .ticket, .pwrc, .boot] s (s.bistStart mask mb).1 :=
    mono (ite_fst (pair refl) (ite_fst (pair (andThen orReg occ)) (pair (andThen occ <| andThen modBist testNext))))

theorem bistGo : Changes [.regs, .reports, .bist, .loft, .ports, .commit, .once, .rot, .jobs, .truss, .bktWait, .passes, .cores, .table,
    .mcl, .wanted, .poison, .mem, .written, .ticket, .pwrc, .boot] s (s.bistGo) := mono bistStart

theorem testDone {sig} : Changes [.bist, .reports, .regs, .ctr, .ga, .truss, .spars, .loft, .mem, .poison, .pwrc, .grant, .gone, .ports,
    .cores, .codes, .gcause, .commit, .jobs, .joins, .held, .bktWait, .passes, .written, .tap, .once, .mcl, .table, .rot, .wanted, .ticket,
    .boot] s (s.testDone sig) := mono <| andThen modBist <| andThen occ <| andThen (ite (andThen orReg occ) refl) <|
    andThen (ite raise refl) <| andThen (ite (andThen resetRegs resetParts) refl) <| andThen (ite wipeParts refl) <|
    andThen afterTest testNext

theorem writeTruss {d r off data mask} : Changes [.truss, .table, .commit, .jobs, .bktWait, .regs, .reports, .once, .mcl, .wanted, .loft,
    .poison, .mem, .written, .free] s (s.writeTruss d r off data mask) :=
    mono (ite (andThen (ite refl (ite (andThen runStart setRunning) modTr)) (ite abortStart refl)) (ite (andThen regWrite modTr) (ite push (ite (ite (andThen regWrite stashReset) regWrite) (ite (andThen regWrite <|
    andThen modTr stashResume) (ite (andThen regWrite <| andThen modTr stashResume) regWrite))))))

theorem setCoord {c} : Changes [.coord, .gone, .ports, .reports, .regs, .commit, .once, .rot, .jobs, .truss, .bktWait, .passes, .cores,
    .table, .mcl, .wanted, .loft, .poison, .mem, .written, .ticket, .pwrc] s (s.setCoord c) := mono <| ite (coordinate _) putCoord

theorem writePorts {dom r off data mask} : Changes [.regs, .reports, .ports, .commit, .once, .rot, .jobs, .truss, .bktWait, .passes, .cores,
    .table, .mcl, .wanted, .loft, .poison, .mem, .written, .ticket, .pwrc, .coord, .gone] s (s.writePorts dom r off data mask) :=
    mono (ite (andThen (ite setDisable refl) (ite retrainPort refl)) (ite setCoord regWrite))

theorem writeMcl {r off data mask} : Changes [.regs, .reports, .mcl, .keeper] s (s.writeMcl r off data mask) :=
    mono (ite (andThen regWrite <| andThen windowsChanged mclPump) (ite writeEvcfg (ite (ite mailboxGo refl) regWrite)))

theorem writeKeeper {r off data mask} : Changes [.regs, .reports, .ctr] s (s.writeKeeper r off data mask) := mono <|
    andThen regWrite (ite refl (andThen (ite setFreeze refl) (ite requestSnap refl)))

theorem writePwrc {r off data mask} : Changes [.pwrc, .grant, .reports, .ga, .truss, .commit, .ports, .rot, .once, .jobs, .regs, .bktWait,
    .passes, .cores, .mcl, .wanted, .loft, .poison, .mem, .written, .table, .ticket, .free] s (s.writePwrc r off data mask) :=
    mono (ite (ite refl writeGrant) (ite (ite holdRelease refl) regWrite))

theorem writeGutter {dom r off data mask} : Changes [.table, .mcl, .wanted, .reports, .loft, .regs, .poison, .mem, .written, .ticket,
    .commit] s (s.writeGutter dom r off data mask) := mono (ite (andThen (ite writeRollback refl) (ite writeRepub refl)) regWrite)

theorem writeIsland {dom r off data mask} : Changes [.regs, .reports, .ports] s (s.writeIsland dom r off data mask) :=
  mono (ite refl (andThen regWrite (ite counts (ite (each (fun _ _ => ite modPort refl)) refl))))

theorem writeReg {r dom off data mask} : Changes [.regs, .reports, .ports, .ga, .truss, .commit, .rot, .once, .jobs, .bktWait, .passes,
    .cores, .mcl, .wanted, .loft, .poison, .mem, .written, .table, .ticket, .pwrc, .free, .coord, .gone, .keeper, .ctr, .grant, .bist,
    .boot] s (s.writeReg r dom off data mask) := by
  unfold State.writeReg
  exact mono (ite writeIsland (of [.regs, .reports, .ga, .truss, .commit, .ports, .rot, .once, .jobs, .bktWait, .passes, .cores, .mcl,
      .wanted, .loft, .poison, .mem, .written, .table, .ticket, .pwrc, .free, .coord, .gone, .keeper, .ctr, .grant, .bist,
      .boot] (by split; exacts [mono (ite writeGa regWrite), mono writeTruss, mono (ite writeLoft refl), mono writePorts, mono writePorts, mono writeGutter, mono writeMcl, mono writeKeeper, mono writePwrc, mono (ite (ite bistGo refl) regWrite), mono regWrite, mono regWrite, mono regWrite, mono regWrite, mono regWrite, mono regWrite])))

theorem csrAt {r off n} : Changes [.regs, .reports] s (s.csrAt r off n).1 :=
    mono (ite_fst (pair badCsr) (andThen reach (ite_fst (pair refl) (ite_fst (pair refl) (pair (ite badCsr refl))))))

theorem reachCounter {r dom o} : Changes [.reports, .regs] s (s.reachCounter r dom o).1 :=
    mono (ite_fst (pair lathControl) (pair darkAccess))

theorem ctrRead {r off} : Changes [.ctr, .reports, .regs] s (s.ctrRead r off).1 := by
  unfold State.ctrRead
  exact mono (ite_fst (pair (andThen modCtr occ)) (of [.regs,
      .reports] (by split; exacts [mono (ite_fst (pair refl) (pair darkAccess)), mono reachCounter])))

theorem writeTicket {v} : Changes [.ticket, .reports] s (s.writeTicket v) := mono (ite refl setTicket)

theorem ctrWrite {r off v} : Changes [.regs, .reports, .ticket] s (s.ctrWrite r off v) := by
  unfold State.ctrWrite
  exact mono (ite darkAccess (ite writeTicket (of [.reports, .regs] (by split; exacts [mono refl, mono reachCounter]))))

theorem writeTable {k v} : Changes [.table, .rot, .reports] s (s.writeTable k v) :=
    mono (ite (ite (andThen setTable (rot (Sparse.wf_put none _ _))) setTable) (ite writeObj (ite writeGroup (ite writeRow refl))))

theorem wordRead {r a n} : Changes [.regs, .reports, .ctr] s (s.wordRead r a n).1 := by
  unfold State.wordRead
  dsimp only
  split
  exacts [mono csrAt, mono (ite_fst (pair badCsr) ctrRead), mono (ite_fst (pair badCsr) (ite_fst (pair darkAccess) (pair refl))), mono refl]

theorem wordWrite {r a data} : Changes [.regs, .reports, .ports, .ga, .truss, .commit, .rot, .once, .jobs, .bktWait, .passes, .cores, .mcl,
    .wanted, .loft, .poison, .mem, .written, .table, .ticket, .pwrc, .free, .coord, .gone, .keeper, .ctr, .grant, .bist,
    .boot] s (s.wordWrite r a data) := by
  unfold State.wordWrite
  dsimp only
  split
  exacts [by split; exacts [mono <| andThen (fst (andThen (ite clearFirst refl) csrAt)) writeReg, mono (fst (andThen (ite clearFirst refl) csrAt))], mono (ite badCsr ctrWrite), mono (ite badCsr (ite darkAccess writeTable)), mono refl]

theorem instanceEnd {c i} : Changes [.mcl, .wanted, .reports, .loft, .poison, .mem, .written, .passes, .table, .regs, .commit,
    .truss] s (s.instanceEnd c i) := by
  unfold State.instanceEnd
  dsimp only
  exact mono (ite (andThen store workDone) (andThen (of [.mcl, .wanted, .reports, .loft, .poison, .mem,
      .written] (by split; exacts [mono store, mono refl])) <| andThen (ite modCommit refl) workDone))

theorem loadRun {scalar k c i w} : Changes [.free, .mcl, .wanted, .reports, .loft, .regs] s (loadRun scalar k s c i w).1 :=
    mono (ite_fst (pair refl) (ite_fst (pair refl) (andThen (ite_snd drawFree refl) <|
    andThen forRead (ite_fst (pair coreBad) (pair refl)))))

theorem storeSpots {k c l} : Changes [.poison, .mem, .written] s (s.storeSpots k c l).1 :=
    mono (each (fun _ _ => andThen writeRaw noteWrite))

theorem storeRun {scalar k c i w} : Changes [.mcl, .wanted, .reports, .loft, .poison, .mem, .written,
    .commit] s (Machine.storeRun scalar k s c i w).1 := by
  unfold Machine.storeRun
  extract_lets
  split
  split
  · exact mono refl
  · split
    · exact mono refl
    · extract_lets
      split
      rename_i hs
      have h2 := andThen (forWrite (s := s)) (fst storeSpots hs)
      split
      exacts [mono <| andThen h2 inactiveWritten, mono h2]

theorem answer {status payload} : Changes [.keeper, .reports] s (s.answer status payload) := mono <| andThen modKeeper occ

theorem takeAddr {addr} : Changes [.keeper] s (s.takeAddr addr) := mono modKeeper

theorem cccRead {l} : Changes [.keeper] s (s.cccRead l) := mono (ite modKeeper refl)

theorem loadTap {ir dr extest} : Changes [.tap, .reports] s (s.loadTap ir dr extest) := mono <| andThen tap occ

end Sys2Proof.Machine.Changes
end

section
/-! SUPPORT. What each command touches. -/
namespace Sys2Proof.Machine

set_option Elab.async false

/-- A command whose outcome is `r` in `s` touches the parts `K` at most. -/
def Leads (K : List Part) (s : State) (r : Host.Outcome State Fault Refusal) : Prop := ∀ t, r = .next t → Changes K s t

namespace Changes

variable {α : Type} {K K' : List Part} {s t : State} {r r' : Host.Outcome State Fault Refusal}

theorem append_comm_subset (A B : List Part) : A ++ B ⊆ B ++ A :=
  List.append_subset.2 ⟨List.subset_append_right .., List.subset_append_left ..⟩

theorem next (h : Changes K s t) : Leads K s (.next t) := by
  intro u hu
  have htu : t = u := by injection hu
  rwa [← htu]

theorem fault {f : Fault} : Leads [] s (.fault f) := by
  intro u hu
  injection hu

theorem within (h : Leads K s r) (hK : K ⊆ K' := by decide) : Leads K' s r := fun t ht => (h t ht).mono hK

/-- What a command does after a change. -/
theorem after (h : Changes K s t) (h' : Leads K' t r) : Leads (K ++ K') s r := fun u hu => h.andThen (h' u hu)

theorem branch {c : Prop} [Decidable c] (ht : Leads K s r) (hu : Leads K' s r') : Leads (K ++ K') s (if c then r else r') := by
  split
  · exact within ht (List.subset_append_left ..)
  · exact within hu (List.subset_append_right ..)

theorem leads (K : List Part) (h : Leads K s r) : Leads K s r := h

/-- A command that meets lines of the host recalls them and leaves none wanted. -/
theorem recalled (h : Leads K s r) : Leads (K.filter (· ≠ .wanted) ++ [.mcl, .reports]) s (waitRecall s r) := by
  intro t ht
  cases r with
  | fault | refused => simp [Machine.waitRecall] at ht
  | next u =>
    by_cases hu : u.mcl.wanted = []
    · rw [waitRecall_next s u hu] at ht
      have htu : u = t := by injection ht
      subst htu
      exact mono (settled (h _ rfl) hu) (List.subset_append_left ..)
    · rw [waitRecall_recall s u hu] at ht
      have htu : s.recall u.mcl.wanted = t := by injection ht
      rw [← htu]
      exact recallLines.mono (List.subset_append_of_subset_right _ (by decide))

end Changes
end Sys2Proof.Machine
end

section
/-! SUPPORT. What the outcome of each command touches. -/
namespace Sys2Proof.Machine.Changes

set_option Elab.async false

variable {α : Type} {K : List Part} {s t : State}

theorem execSnap {r} : Leads [.reports, .regs, .ctr] s (execSnap r s) := within <| after reachBy <| next (ite requestSnap refl)

theorem execSnapshotEnd : Leads [.ctr] s (execSnapshotEnd s) := within (branch (next refl) (next modCtr))

theorem execDeferredSnapshot : Leads [.ctr, .reports] s (execDeferredSnapshot s) := by
  unfold Machine.execDeferredSnapshot
  split
  exacts [within (next refl), within (branch (next refl) (next (andThen modCtr startSnap)))]

theorem execFreeze {r on} : Leads [.reports, .regs, .ctr] s (execFreeze r on s) := within <| after reachBy <| next (ite setFreeze refl)

theorem execFreezeApplied : Leads [.ctr] s (execFreezeApplied s) := within (branch (next refl) (next modCtr))

theorem execClr {n r} : Leads [.regs, .reports] s (execClr n r s) := within (next (ite (andThen clearFirst reach) refl))

theorem execBandwidthWindowEnd {port} : Leads [.ctr, .ports] s (execBandwidthWindowEnd port s) :=
    within (branch (next refl) (after modCtr <| next modPort))

theorem execRunStart {d r} : Leads [.reports, .regs, .truss, .table, .commit, .jobs, .bktWait] s (execRunStart d r s) := within <|
    after reachBy <| next (ite (andThen runStart setRunning) refl)

theorem execRunStop {d r} : Leads [.reports, .regs, .truss] s (execRunStop d r s) := within <| after reachBy <| next (ite modTr refl)

theorem execSpush {d r n mask} : Leads [.reports, .regs, .truss] s (execSpush d r n mask s) := within <| after reachBy <|
    next (ite push refl)

theorem fetchLine {d data} : Leads [.truss, .reports, .commit, .ports, .rot, .once, .jobs, .regs, .bktWait, .passes, .cores, .mcl, .wanted,
    .loft, .poison, .mem, .written, .table, .ticket, .pwrc] s (fetchLine d data s) := by
  unfold Machine.fetchLine
  dsimp only
  exact within (branch fault (leads [.truss, .reports, .commit, .ports, .rot, .once, .jobs, .regs, .bktWait, .passes, .cores, .mcl, .wanted,
      .loft, .poison, .mem, .written, .table, .ticket,
      .pwrc] (by split; exacts [within (next refl), by split; exacts [within (next (ite refl fetchFault)), within (branch (next fetchFault) (after (andThen askHost notePoison) <| next (ite (andThen cross holdLine) fetchFault))), within <| after consume <| next (ite fetchFault (andThen corrected <| andThen touch holdLine)), within <| after consume <| next (ite fetchFault (andThen corrected <| andThen touch holdLine)), within (next fetchFault)]])))

theorem execFetchLine {d data} : Leads [.truss, .reports, .commit, .ports, .rot, .once, .jobs, .regs, .bktWait, .passes, .cores, .mcl,
    .loft, .poison, .mem, .written, .table, .ticket, .pwrc] s (execFetchLine d data s) := within (recalled fetchLine)

theorem execInstructionDecode {d} : Leads [.truss, .reports, .commit, .ports, .rot, .once, .jobs, .regs, .bktWait, .passes, .cores, .mcl,
    .loft, .poison, .mem, .written, .table, .ticket, .pwrc, .spars] s (execInstructionDecode d s) := by
  unfold Machine.execInstructionDecode
  dsimp only
  exact within (recalled (branch (next refl) (leads [.truss, .reports, .commit, .ports, .rot, .once, .jobs, .regs, .bktWait, .passes,
      .cores, .mcl, .wanted, .loft, .poison, .mem, .written, .table, .ticket, .pwrc,
      .spars] (by split; exacts [within (next refl), within (branch (next skipNop) (leads [.truss, .reports, .commit, .ports, .rot, .once, .jobs, .regs, .bktWait, .passes, .cores, .mcl, .wanted, .loft, .poison, .mem, .written, .table, .ticket, .pwrc, .spars] (by split; exacts [within <| after (andThen trussBoundary trap) <| branch (next (andThen modTr skipNop)) (next refl), within (branch (next refl) (after (andThen trussBoundary decoded) <| next modTr))])))]))))

theorem inlineRun {d op f} (hf : ∀ s e, Changes K s (f s e)) : Leads ((([.truss, .reports] ++ (K ++ [.truss, .reports, .commit, .ports,
    .rot, .once, .jobs, .regs, .bktWait, .passes, .cores, .mcl, .wanted, .loft, .poison, .mem, .written, .table, .ticket, .pwrc, .spars]) :
    List Part).filter (· ≠ .wanted)) ++ [.mcl, .reports]) s (Machine.inlineRun d op f s) := by
  refine recalled ?_
  split
  · exact within (next refl) (List.nil_subset _)
  · exact after inline <| next <| andThen (hf ..) inlineDone

theorem execNop {d} : Leads [.truss, .reports, .commit, .ports, .rot, .once, .jobs, .regs, .bktWait, .passes, .cores, .mcl, .loft, .poison,
    .mem, .written, .table, .ticket, .pwrc, .spars] s (execNop d s) := within (inlineRun (fun _ _ => refl))

theorem syDload {d data} : Leads [.truss, .reports, .commit, .ports, .rot, .once, .jobs, .regs, .bktWait, .passes, .cores, .mcl, .wanted,
    .loft, .poison, .mem, .written, .table, .ticket, .pwrc, .spars] s (syDload d data s) := by
  unfold Machine.syDload
  dsimp only
  exact within (branch fault (leads [.truss, .reports, .commit, .ports, .rot, .once, .jobs, .regs, .bktWait, .passes, .cores, .mcl, .wanted,
      .loft, .poison, .mem, .written, .table, .ticket, .pwrc,
      .spars] (by split; exacts [within (next refl), within <| after inline <| branch (next refl) (leads [.truss, .reports, .commit, .ports, .rot, .once, .jobs, .regs, .bktWait, .passes, .cores, .mcl, .wanted, .loft, .poison, .mem, .written, .table, .ticket, .pwrc, .spars] (by split; exacts [within (branch (next (andThen trap inlineDone)) (branch (next refl) (next (andThen trap inlineDone)))), within <| after dloadHost <| after (of [.truss, .reports, .commit, .ports, .rot, .once, .jobs, .regs, .bktWait, .passes, .cores, .mcl, .wanted, .loft, .poison, .mem, .written, .table, .ticket, .pwrc] (by split; exacts [mono trap, mono refl])) <| next inlineDone, within <| after (andThen corrected dload) <| after (of [.truss, .reports, .commit, .ports, .rot, .once, .jobs, .regs, .bktWait, .passes, .cores, .mcl, .wanted, .loft, .poison, .mem, .written, .table, .ticket, .pwrc] (by split; exacts [mono trap, mono refl])) <| next inlineDone]))])))

theorem execSyDload {d data} : Leads [.truss, .reports, .commit, .ports, .rot, .once, .jobs, .regs, .bktWait, .passes, .cores, .mcl, .loft,
    .poison, .mem, .written, .table, .ticket, .pwrc, .spars] s (execSyDload d data s) := within (recalled syDload)

theorem execSyAlat {d} : Leads [.truss, .reports, .commit, .ports, .rot, .once, .jobs, .regs, .bktWait, .passes, .cores, .mcl, .loft,
    .poison, .mem, .written, .table, .ticket, .pwrc, .spars] s (execSyAlat d s) := within (inlineRun (fun _ _ => modTr))

theorem execSyFence {d} : Leads [.truss, .reports, .commit, .ports, .rot, .once, .jobs, .regs, .bktWait, .passes, .cores, .mcl, .loft,
    .poison, .mem, .written, .table, .ticket, .pwrc, .spars] s (execSyFence d s) := by
  unfold Machine.execSyFence
  exact within (recalled (leads [.truss, .reports, .commit, .ports, .rot, .once, .jobs, .regs, .bktWait, .passes, .cores, .mcl, .wanted,
      .loft, .poison, .mem, .written, .table, .ticket, .pwrc,
      .spars] (by split; exacts [within (next refl), within <| after inline <| branch (next inlineDone) (next refl)])))

theorem execSySpadd {d} : Leads [.truss, .reports, .commit, .ports, .rot, .once, .jobs, .regs, .bktWait, .passes, .cores, .mcl, .loft,
    .poison, .mem, .written, .table, .ticket, .pwrc, .spars] s (execSySpadd d s) := within (inlineRun (fun _ _ => addSpar))

theorem execSySpclr {d} : Leads [.truss, .reports, .commit, .ports, .rot, .once, .jobs, .regs, .bktWait, .passes, .cores, .mcl, .loft,
    .poison, .mem, .written, .table, .ticket, .pwrc, .spars] s (execSySpclr d s) := within (inlineRun (fun _ _ => ite refl modTr))

theorem execPcSnap {d} : Leads [.truss, .reports, .commit, .ports, .rot, .once, .jobs, .regs, .bktWait, .passes, .cores, .mcl, .loft,
    .poison, .mem, .written, .table, .ticket, .pwrc, .spars, .ctr] s (execPcSnap d s) := within (inlineRun (fun _ _ => ite requestSnap occ))

theorem execPcFreeze {d} : Leads [.truss, .reports, .commit, .ports, .rot, .once, .jobs, .regs, .bktWait, .passes, .cores, .mcl, .loft,
    .poison, .mem, .written, .table, .ticket, .pwrc, .spars, .ctr] s (execPcFreeze d s) := within (inlineRun (fun _ _ => ite setFreeze occ))

theorem execPcMark {d} : Leads [.truss, .reports, .commit, .ports, .rot, .once, .jobs, .regs, .bktWait, .passes, .cores, .mcl, .loft,
    .poison, .mem, .written, .table, .ticket, .pwrc, .spars] s (execPcMark d s) := within (inlineRun (fun _ _ => raise))

theorem execSetp {d} : Leads [.truss, .reports, .commit, .ports, .rot, .once, .jobs, .regs, .bktWait, .passes, .cores, .mcl, .loft, .poison,
    .mem, .written, .table, .ticket, .pwrc, .spars] s (execSetp d s) := by
  unfold Machine.execSetp
  exact within (recalled (leads [.truss, .reports, .commit, .ports, .rot, .once, .jobs, .regs, .bktWait, .passes, .cores, .mcl, .wanted,
      .loft, .poison, .mem, .written, .table, .ticket, .pwrc,
      .spars] (by split; exacts [within (next refl), within <| after inline <| next (andThen inlineDone setp)])))

theorem execTrap {d} : Leads [.truss, .reports, .commit, .ports, .rot, .once, .jobs, .regs, .bktWait, .passes, .cores, .mcl, .loft, .poison,
    .mem, .written, .table, .ticket, .pwrc] s (execTrap d s) := by
  unfold Machine.execTrap
  dsimp only
  exact within (recalled (leads [.truss, .reports, .commit, .ports, .rot, .once, .jobs, .regs, .bktWait, .passes, .cores, .mcl, .wanted,
      .loft, .poison, .mem, .written, .table, .ticket,
      .pwrc] (by split; exacts [within (next refl), within <| after inline <| next (andThen trap release)])))

theorem execSysStop {d} : Leads [.truss, .reports, .commit, .ports, .rot, .once, .jobs, .regs, .bktWait, .passes, .cores, .mcl, .loft,
    .poison, .mem, .written, .table, .ticket, .pwrc, .spars] s (execSysStop d s) := within (inlineRun (fun _ _ => modTr))

theorem execInstructionComplete {d q} : Leads [.truss, .reports, .commit, .ports, .rot, .once, .jobs, .regs, .bktWait, .passes, .cores,
    .mcl, .loft, .poison, .mem, .written, .table, .ticket, .pwrc, .spars] s (execInstructionComplete d q s) := by
  unfold Machine.execInstructionComplete
  dsimp only
  exact within (recalled (leads [.truss, .reports, .commit, .ports, .rot, .once, .jobs, .regs, .bktWait, .passes, .cores, .mcl, .wanted,
      .loft, .poison, .mem, .written, .table, .ticket, .pwrc,
      .spars] (by split; exacts [within (next refl), within (branch (next refl) (after modTr <| after (of [.truss, .reports, .commit, .ports, .rot, .once, .jobs, .regs, .bktWait, .passes, .cores, .mcl, .wanted, .loft, .poison, .mem, .written, .table, .ticket, .pwrc] (by split; exacts [mono trap, mono refl])) <| next signal))])))

theorem execSparSignalArrive {src dst} : Leads [.spars, .truss, .reports, .commit, .ports, .rot, .once, .jobs, .regs, .bktWait, .passes,
    .cores, .mcl, .loft, .poison, .mem, .written, .table, .ticket, .pwrc] s (execSparSignalArrive src dst s) := by
  unfold Machine.execSparSignalArrive
  dsimp only
  exact within (recalled (leads [.spars, .truss, .reports, .commit, .ports, .rot, .once, .jobs, .regs, .bktWait, .passes, .cores, .mcl,
      .wanted, .loft, .poison, .mem, .written, .table, .ticket,
      .pwrc] (by split; exacts [within (next refl), within (next (andThen spars addSpar))])))

theorem execAbortComplete {d} : Leads [.truss, .commit] s (execAbortComplete d s) :=
    within (branch (next refl) (next (andThen modTr modCommit)))

theorem execWatchdogTick {d} : Leads [.truss, .reports, .commit, .ports, .rot, .once, .jobs, .regs, .bktWait, .passes, .cores, .mcl, .loft,
    .poison, .mem, .written, .table, .ticket, .pwrc, .spars] s (execWatchdogTick d s) :=
    within (recalled (branch (next refl) (after (andThen trussBoundary markUrgent) <| after modTr <|
    branch (next (andThen modTr waitTimeout)) (next refl))))

theorem execShadowLoadBegin {i c} : Leads [.ga, .truss, .reports, .mcl, .regs, .loft] s (execShadowLoadBegin i c s) := by
  unfold Machine.execShadowLoadBegin
  dsimp only
  exact within (recalled (leads [.ga, .truss, .reports, .mcl, .wanted, .regs,
      .loft] (by split; exacts [within (next refl), within (next (ite refl beginLoad))])))

theorem execShadowLoadEnd {i c} : Leads [.truss, .reports, .commit, .ports, .rot, .once, .jobs, .regs, .bktWait, .passes, .cores, .mcl,
    .loft, .poison, .mem, .written, .table, .ticket, .pwrc, .ga, .free] s (execShadowLoadEnd i c s) := by
  unfold Machine.execShadowLoadEnd
  dsimp only
  exact within (recalled (leads [.truss, .reports, .commit, .ports, .rot, .once, .jobs, .regs, .bktWait, .passes, .cores, .mcl, .wanted,
      .loft, .poison, .mem, .written, .table, .ticket, .pwrc, .ga,
      .free] (by split; exacts [within (next refl), within (branch (next refl) (after (of [.truss, .reports, .commit, .ports, .rot, .once, .jobs, .regs, .bktWait, .passes, .cores, .mcl, .wanted, .loft, .poison, .mem, .written, .table, .ticket, .pwrc, .ga] (by split; exacts [mono <| andThen trapRef loadFails, mono modCourse])) <| next (andThen finishRef settle)))])))

theorem execGaCfgWrite {i r expert data mask} : Leads [.reports, .regs, .ga, .truss, .commit, .ports, .rot, .once, .jobs, .bktWait, .passes,
    .cores, .mcl, .loft, .poison, .mem, .written, .table, .ticket, .pwrc, .free] s (execGaCfgWrite i r expert data mask s) :=
    within (recalled (after reachBy <| next (ite writeGa refl)))

theorem execDrainBoundary {i} : Leads [.ga, .truss, .reports, .mcl, .regs, .loft, .commit, .ports, .rot, .once, .jobs, .bktWait, .passes,
    .cores, .poison, .mem, .written, .table, .ticket, .pwrc, .free] s (execDrainBoundary i s) :=
    within (recalled (branch (next refl) (branch (next (andThen modGa resume)) (next (andThen modGa <| andThen recallVisits occ)))))

theorem execRecutDone {i} : Leads [.ga, .truss, .reports, .mcl, .regs, .loft, .commit, .ports, .rot, .once, .jobs, .bktWait, .passes,
    .cores, .poison, .mem, .written, .table, .ticket, .pwrc, .free] s (execRecutDone i s) :=
    within (recalled (branch (next (andThen modGa resume)) (next refl)))

theorem execAutoswap {i c} : Leads [.ga, .reports, .truss, .commit, .ports, .rot, .once, .jobs, .regs, .bktWait, .passes, .cores, .mcl,
    .loft, .poison, .mem, .written, .table, .ticket, .pwrc, .free] s (execAutoswap i c s) :=
    within (recalled (branch (next (andThen swapFore settle)) (next refl)))

theorem execMmLoadw {d a} : Leads [.truss, .reports, .commit, .ports, .rot, .once, .jobs, .regs, .bktWait, .passes, .cores, .mcl, .loft,
    .poison, .mem, .written, .table, .ticket, .pwrc, .ga] s (execMmLoadw d a s) := by
  unfold Machine.execMmLoadw
  dsimp only
  exact within (recalled (leads [.truss, .reports, .commit, .ports, .rot, .once, .jobs, .regs, .bktWait, .passes, .cores, .mcl, .wanted,
      .loft, .poison, .mem, .written, .table, .ticket, .pwrc,
      .ga] (by split; exacts [within (next refl), within <| after issue <| leads [.truss, .reports, .commit, .ports, .rot, .once, .jobs, .regs, .bktWait, .passes, .cores, .mcl, .wanted, .loft, .poison, .mem, .written, .table, .ticket, .pwrc, .ga] (by split; exacts [within (next issueTrap), within <| after modCourse <| next (ite refl modGa)])])))

theorem execMmSwap {d a} : Leads [.truss, .reports, .commit, .ports, .rot, .once, .jobs, .regs, .bktWait, .passes, .cores, .mcl, .loft,
    .poison, .mem, .written, .table, .ticket, .pwrc, .ga, .free] s (execMmSwap d a s) := by
  unfold Machine.execMmSwap
  dsimp only
  exact within (recalled (leads [.truss, .reports, .commit, .ports, .rot, .once, .jobs, .regs, .bktWait, .passes, .cores, .mcl, .wanted,
      .loft, .poison, .mem, .written, .table, .ticket, .pwrc, .ga,
      .free] (by split; exacts [within (next refl), within <| after issue <| branch (next finish) (branch (next issueTrap) (next enqueue))])))

theorem mmRun {d a f} : Leads [.truss, .reports, .commit, .ports, .rot, .once, .jobs, .regs, .bktWait, .passes, .cores, .mcl, .wanted,
    .loft, .poison, .mem, .written, .table, .ticket, .pwrc, .ga, .free] s (mmRun d a f s) := by
  unfold Machine.mmRun
  dsimp only
  split
  exacts [within (next refl), within <| after issue <| leads [.truss, .reports, .commit, .ports, .rot, .once, .jobs, .regs, .bktWait,
      .passes, .cores, .mcl, .wanted, .loft, .poison, .mem, .written, .table, .ticket, .pwrc, .ga,
      .free] (by split; exacts [within (next issueTrap), within (next (andThen openAtIssue enqueue))])]

theorem execMmRun {d a f} : Leads [.truss, .reports, .commit, .ports, .rot, .once, .jobs, .regs, .bktWait, .passes, .cores, .mcl, .loft,
    .poison, .mem, .written, .table, .ticket, .pwrc, .ga, .free] s (execMmRun d a f s) := within (recalled mmRun)

theorem execMmDefer {d} : Leads [.truss, .reports, .commit, .ports, .rot, .once, .jobs, .regs, .bktWait, .passes, .cores, .mcl, .loft,
    .poison, .mem, .written, .table, .ticket, .pwrc, .spars] s (execMmDefer d s) := by
  unfold Machine.execMmDefer
  dsimp only
  exact within (recalled (leads [.truss, .reports, .commit, .ports, .rot, .once, .jobs, .regs, .bktWait, .passes, .cores, .mcl, .wanted,
      .loft, .poison, .mem, .written, .table, .ticket, .pwrc,
      .spars] (by split; exacts [within (next refl), within <| after inline <| leads [.truss, .reports, .commit, .ports, .rot, .once, .jobs, .regs, .bktWait, .passes, .cores, .mcl, .wanted, .loft, .poison, .mem, .written, .table, .ticket, .pwrc, .spars] (by split; exacts [within <| after (andThen trap release) <| next (ite signal refl), within (branch (next (andThen modTr markUrgent)) (after openAtIssue <| next (andThen modTr release)))])])))

theorem execMmVqdrain {d} : Leads [.truss, .reports, .commit, .ports, .rot, .once, .jobs, .regs, .bktWait, .passes, .cores, .mcl, .loft,
    .poison, .mem, .written, .table, .ticket, .pwrc, .spars] s (execMmVqdrain d s) := by
  unfold Machine.execMmVqdrain
  exact within (recalled (leads [.truss, .reports, .commit, .ports, .rot, .once, .jobs, .regs, .bktWait, .passes, .cores, .mcl, .wanted,
      .loft, .poison, .mem, .written, .table, .ticket, .pwrc,
      .spars] (by split; exacts [within (next refl), within <| after inline <| branch (next (andThen modTr inlineDone)) (next (andThen modTr markUrgent))])))

theorem fillVisit {d a} : Leads [.truss, .ga, .reports, .free, .mcl, .wanted, .regs, .loft, .poison, .mem, .written, .once, .commit, .ports,
    .rot, .jobs, .bktWait, .passes, .cores, .table, .ticket, .pwrc, .spars] s (fillVisit d a s) := by
  unfold Machine.fillVisit
  dsimp only
  exact within <| after markUrgent <| branch (next refl) (leads [.ga, .reports, .free, .mcl, .wanted, .regs, .loft, .poison, .mem, .written,
      .once, .truss, .commit, .ports, .rot, .jobs, .bktWait, .passes, .cores, .table, .ticket, .pwrc,
      .spars] (by split; exacts [within (next refl), by split; exacts [within (next visitSwap), within (branch (next refl) (branch (branch (next modGa) (next refl)) (branch (next refl) (leads [.reports, .free, .mcl, .wanted, .regs, .loft, .poison, .mem, .written, .ga, .once, .truss, .commit, .ports, .rot, .jobs, .bktWait, .passes, .cores, .table, .ticket, .pwrc, .spars] (by split; exacts [within (next refl), within <| after occ <| next (ite visitRun visitLoad)])))))]]))

theorem execFillVisit {d a} : Leads [.truss, .ga, .reports, .free, .mcl, .regs, .loft, .poison, .mem, .written, .once, .commit, .ports,
    .rot, .jobs, .bktWait, .passes, .cores, .table, .ticket, .pwrc, .spars] s (execFillVisit d a s) := within (recalled fillVisit)

theorem runCopy {d f tr} : Leads [.truss, .reports, .commit, .ports, .rot, .once, .jobs, .regs, .bktWait, .passes, .cores, .mcl, .wanted,
    .loft, .poison, .mem, .written, .table, .ticket, .pwrc, .free] s (runCopy d f tr s) := by
  unfold Machine.runCopy
  dsimp only
  split
  exacts [within (next refl), within <| after issue <| leads [.truss, .reports, .commit, .ports, .rot, .once, .jobs, .regs, .bktWait,
      .passes, .cores, .mcl, .wanted, .loft, .poison, .mem, .written, .table, .ticket, .pwrc,
      .free] (by split; exacts [within (next issueTrap), within <| after (andThen openAtIssue copyView) <| next finish])]

theorem execTxCopy {d f} : Leads [.truss, .reports, .commit, .ports, .rot, .once, .jobs, .regs, .bktWait, .passes, .cores, .mcl, .loft,
    .poison, .mem, .written, .table, .ticket, .pwrc, .free] s (execTxCopy d f s) := within (recalled runCopy)

theorem execTxTrans {d f} : Leads [.truss, .reports, .commit, .ports, .rot, .once, .jobs, .regs, .bktWait, .passes, .cores, .mcl, .loft,
    .poison, .mem, .written, .table, .ticket, .pwrc, .free] s (execTxTrans d f s) := within (recalled runCopy)

theorem txQuant {d f} : Leads [.truss, .reports, .commit, .ports, .rot, .once, .jobs, .regs, .bktWait, .passes, .cores, .mcl, .wanted,
    .loft, .poison, .mem, .written, .table, .ticket, .pwrc, .free] s (txQuant d f s) := by
  unfold Machine.txQuant
  dsimp only
  split
  exacts [within (next refl), within <| after issue <| leads [.truss, .reports, .commit, .ports, .rot, .once, .jobs, .regs, .bktWait,
      .passes, .cores, .mcl, .wanted, .loft, .poison, .mem, .written, .table, .ticket, .pwrc,
      .free] (by split; exacts [within (next issueTrap), within <| after quantize <| next finish])]

theorem execTxQuant {d f} : Leads [.truss, .reports, .commit, .ports, .rot, .once, .jobs, .regs, .bktWait, .passes, .cores, .mcl, .loft,
    .poison, .mem, .written, .table, .ticket, .pwrc, .free] s (execTxQuant d f s) := within (recalled txQuant)

theorem runRidge {d op traps outs} {work : State → QEntry → State × Option TrapCause} (hw : ∀ s e, Changes K s (work s e).1) :
    Leads ([.truss, .reports, .commit, .ports, .rot, .once, .jobs, .regs, .bktWait, .passes, .cores, .mcl, .wanted, .loft, .poison, .mem,
        .written, .table, .ticket, .pwrc] ++ K) s (Machine.runRidge d op traps outs work s) := by
  have hl : ∀ {r}, Leads [.truss, .reports, .commit, .ports, .rot, .once, .jobs, .regs, .bktWait, .passes, .cores, .mcl, .wanted, .loft,
      .poison, .mem, .written, .table, .ticket, .pwrc] s r → Leads ([.truss, .reports, .commit, .ports, .rot, .once, .jobs, .regs, .bktWait,
      .passes, .cores, .mcl, .wanted, .loft, .poison, .mem, .written, .table, .ticket, .pwrc] ++ K) s r :=
      fun h => within h (List.subset_append_left ..)
  unfold Machine.runRidge
  split
  · exact hl <| within (next refl)
  · rename_i e _
    extract_lets s1 w n s2 s3
    have h1 : Changes [.truss] s s1 := issue
    split
    · exact hl <| within <| next <| andThen h1 issueTrap
    · split
      · exact hl <| within <| next <| andThen h1 <| andThen occ finish
      · have h3 : Changes [.truss, .reports, .commit, .ports, .rot, .once, .jobs, .regs, .bktWait, .passes, .cores, .mcl, .wanted, .loft,
          .poison, .mem, .written, .table, .ticket, .pwrc] s s3 := mono <| andThen h1 <| andThen modTr <| each fun _ _ => openAtIssue
        split
        rename_i hx
        exact next <| mono (andThen h3 <| andThen (fst (hw ..) hx) (mono (K' := [.truss, .reports, .commit, .ports, .rot, .once, .jobs,
            .regs, .bktWait, .passes, .cores, .mcl, .wanted, .loft, .poison, .mem, .written, .table, .ticket, .pwrc]) finish))
          (List.append_subset.2 ⟨List.subset_append_left .., append_comm_subset ..⟩)

theorem execRdNormf {d} : Leads [.truss, .reports, .commit, .ports, .rot, .once, .jobs, .regs, .bktWait, .passes, .cores, .mcl, .loft,
    .poison, .mem, .written, .table, .ticket, .pwrc, .free] s (execRdNormf d s) := within (recalled (runRidge (fun _ _ => ridgeNormF)))

theorem execRdNormb {d} : Leads [.truss, .reports, .commit, .ports, .rot, .once, .jobs, .regs, .bktWait, .passes, .cores, .mcl, .loft,
    .poison, .mem, .written, .table, .ticket, .pwrc, .free] s (execRdNormb d s) := within (recalled (runRidge (fun _ _ => ridgeNormB)))

theorem execRdSmaxf {d} : Leads [.truss, .reports, .commit, .ports, .rot, .once, .jobs, .regs, .bktWait, .passes, .cores, .mcl, .loft,
    .poison, .mem, .written, .table, .ticket, .pwrc, .free] s (execRdSmaxf d s) := within (recalled (runRidge (fun _ _ => ridgeSmaxF)))

theorem execRdSmaxb {d} : Leads [.truss, .reports, .commit, .ports, .rot, .once, .jobs, .regs, .bktWait, .passes, .cores, .mcl, .loft,
    .poison, .mem, .written, .table, .ticket, .pwrc, .free] s (execRdSmaxb d s) := within (recalled (runRidge (fun _ _ => ridgeSmaxB)))

theorem tierMove {d fetch} : Leads [.truss, .reports, .commit, .ports, .rot, .once, .jobs, .regs, .bktWait, .passes, .cores, .mcl, .wanted,
    .loft, .poison, .mem, .written, .table, .ticket, .pwrc, .free] s (tierMove d fetch s) := by
  unfold Machine.tierMove
  dsimp only
  split
  exacts [within (next refl), within <| after issue <| leads [.truss, .reports, .commit, .ports, .rot, .once, .jobs, .regs, .bktWait,
      .passes, .cores, .mcl, .wanted, .loft, .poison, .mem, .written, .table, .ticket, .pwrc,
      .free] (by split; exacts [within (next issueTrap), within (branch (next finish) (branch (after modTr <| next (andThen moveAll freePages)) (next stashTry)))])]

theorem execTxStash {d} : Leads [.truss, .reports, .commit, .ports, .rot, .once, .jobs, .regs, .bktWait, .passes, .cores, .mcl, .loft,
    .poison, .mem, .written, .table, .ticket, .pwrc, .free] s (execTxStash d s) := within (recalled tierMove)

theorem execTxFetch {d} : Leads [.truss, .reports, .commit, .ports, .rot, .once, .jobs, .regs, .bktWait, .passes, .cores, .mcl, .loft,
    .poison, .mem, .written, .table, .ticket, .pwrc, .free] s (execTxFetch d s) := within (recalled tierMove)

theorem txGather {d data} : Leads [.truss, .reports, .commit, .ports, .rot, .once, .jobs, .regs, .bktWait, .passes, .cores, .mcl, .wanted,
    .loft, .poison, .mem, .written, .table, .ticket, .pwrc, .free] s (txGather d data s) := by
  unfold Machine.txGather
  dsimp only
  split
  exacts [within (next refl), within <| after issue <| leads [.truss, .reports, .commit, .ports, .rot, .once, .jobs, .regs, .bktWait,
      .passes, .cores, .mcl, .wanted, .loft, .poison, .mem, .written, .table, .ticket, .pwrc,
      .free] (by split; exacts [within (next issueTrap), within (branch (next finish) (after (ite askIndex refl) <| branch (next finish) (next gather)))])]

theorem execTxGather {d data} : Leads [.truss, .reports, .commit, .ports, .rot, .once, .jobs, .regs, .bktWait, .passes, .cores, .mcl, .loft,
    .poison, .mem, .written, .table, .ticket, .pwrc, .free] s (execTxGather d data s) := within (recalled txGather)

theorem execStashReset {d r} : Leads [.reports, .regs, .truss, .once, .mcl, .loft, .poison, .mem, .written,
    .free] s (execStashReset d r s) := within (recalled (after reachBy <| next (ite stashReset refl)))

theorem execAbort {d r} : Leads [.reports, .regs, .truss, .once, .mcl, .loft, .poison, .mem, .written, .free] s (execAbort d r s) :=
    within (recalled (after reachBy <| next (ite abortStart refl)))

theorem execStashFullTimeout {d} : Leads [.truss, .reports] s (execStashFullTimeout d s) := by
  unfold Machine.execStashFullTimeout
  dsimp only
  split
  exacts [within (next refl), within (next (andThen modTr raise))]

theorem execLoftReconf {k r expert data mask} : Leads [.reports, .regs, .loft] s (execLoftReconf k r expert data mask s) := within <|
    after reachBy <| next (ite writeLoft refl)

theorem execLoftReconfDone {k} : Leads [.reports, .mem, .poison, .loft] s (execLoftReconfDone k s) :=
    within (branch (next (andThen loftApply <| andThen modLoft occ)) (next refl))

theorem execObjectRegister {n w} : Leads [.regs, .reports, .table] s (execObjectRegister n w s) :=
    within (next (tableWrite (fun _ => writeObj0)))

theorem execObjectDeregister {n w} : Leads [.regs, .reports, .table] s (execObjectDeregister n w s) :=
    within (next (tableWrite (fun _ => writeObj0)))

theorem obIssue {d op kind} : Leads [.truss, .reports, .commit, .ports, .rot, .once, .jobs, .regs, .bktWait, .passes, .cores, .mcl, .loft,
    .poison, .mem, .written, .table, .ticket, .pwrc, .obreqs] s (obIssue d op kind s) := by
  unfold Machine.obIssue
  dsimp only
  exact within (recalled (leads [.truss, .reports, .commit, .ports, .rot, .once, .jobs, .regs, .bktWait, .passes, .cores, .mcl, .wanted,
      .loft, .poison, .mem, .written, .table, .ticket, .pwrc,
      .obreqs] (by split; exacts [within (next refl), within <| after issue <| branch (next issueTrap) (after obreqs <| branch (next (andThen setObj <| andThen obDone obSettle)) (next (andThen obServe obSettle)))])))

theorem execObPin {d} : Leads [.truss, .reports, .commit, .ports, .rot, .once, .jobs, .regs, .bktWait, .passes, .cores, .mcl, .loft,
    .poison, .mem, .written, .table, .ticket, .pwrc, .obreqs] s (execObPin d s) := within obIssue

theorem execObPromote {d} : Leads [.truss, .reports, .commit, .ports, .rot, .once, .jobs, .regs, .bktWait, .passes, .cores, .mcl, .loft,
    .poison, .mem, .written, .table, .ticket, .pwrc, .obreqs] s (execObPromote d s) := within obIssue

theorem execObEvict {d} : Leads [.truss, .reports, .commit, .ports, .rot, .once, .jobs, .regs, .bktWait, .passes, .cores, .mcl, .loft,
    .poison, .mem, .written, .table, .ticket, .pwrc, .obreqs] s (execObEvict d s) := within obIssue

theorem execObPrefetch {d} : Leads [.truss, .reports, .commit, .ports, .rot, .once, .jobs, .regs, .bktWait, .passes, .cores, .mcl, .loft,
    .poison, .mem, .written, .table, .ticket, .pwrc, .obreqs] s (execObPrefetch d s) := within obIssue

theorem execObWait {d} : Leads [.truss, .reports, .commit, .ports, .rot, .once, .jobs, .regs, .bktWait, .passes, .cores, .mcl, .loft,
    .poison, .mem, .written, .table, .ticket, .pwrc, .obreqs] s (execObWait d s) := within obIssue

theorem execPromoteCopyEnd {n} : Leads [.mcl, .reports, .loft, .regs, .truss, .poison, .mem, .written, .table,
    .obreqs] s (execPromoteCopyEnd n s) := within (recalled (next promoteCopyEnd))

theorem execEvictCopyEnd {n} : Leads [.mcl, .reports, .loft, .regs, .truss, .poison, .mem, .written, .table,
    .obreqs] s (execEvictCopyEnd n s) := within (recalled (next evictCopyEnd))

theorem coBucket {d} : Leads [.truss, .reports, .commit, .ports, .rot, .once, .jobs, .regs, .bktWait, .passes, .cores, .mcl, .wanted, .loft,
    .poison, .mem, .written, .table, .ticket, .pwrc] s (coBucket d s) := by
  unfold Machine.coBucket
  dsimp only
  split
  exacts [within (next refl), within <| after issue <| branch (next finish) (leads [.truss, .reports, .commit, .ports, .rot, .once, .jobs,
      .regs, .bktWait, .passes, .cores, .mcl, .wanted, .loft, .poison, .mem, .written, .table, .ticket,
      .pwrc] (by split; exacts [within (next issueTrap), within <| after access <| branch (next finish) (next (andThen contribute bktResume))]))]

theorem execCoBucket {d} : Leads [.truss, .reports, .commit, .ports, .rot, .once, .jobs, .regs, .bktWait, .passes, .cores, .mcl, .loft,
    .poison, .mem, .written, .table, .ticket, .pwrc] s (execCoBucket d s) := within (recalled coBucket)

theorem coReduce {d} : Leads [.truss, .reports, .commit, .ports, .rot, .once, .jobs, .regs, .bktWait, .passes, .cores, .mcl, .wanted, .loft,
    .poison, .mem, .written, .table, .ticket, .pwrc] s (coReduce d s) := by
  unfold Machine.coReduce
  dsimp only
  split
  exacts [within (next refl), within <| after issue <| branch (next finish) (leads [.truss, .reports, .commit, .ports, .rot, .once, .jobs,
      .regs, .bktWait, .passes, .cores, .mcl, .wanted, .loft, .poison, .mem, .written, .table, .ticket,
      .pwrc] (by split; exacts [within (next issueTrap), within <| after takeOrd <| after access <| branch (next finish) (next (andThen redStart (takeEarly (fun _ _ _ => redIn))))]))]

theorem execCoReduce {d} : Leads [.truss, .reports, .commit, .ports, .rot, .once, .jobs, .regs, .bktWait, .passes, .cores, .mcl, .loft,
    .poison, .mem, .written, .table, .ticket, .pwrc] s (execCoReduce d s) := within (recalled coReduce)

theorem execCoVote {d} : Leads [.truss, .reports, .commit, .ports, .rot, .once, .jobs, .regs, .bktWait, .passes, .cores, .mcl, .loft,
    .poison, .mem, .written, .table, .ticket, .pwrc] s (execCoVote d s) := by
  unfold Machine.execCoVote
  dsimp only
  exact within (recalled (leads [.truss, .reports, .commit, .ports, .rot, .once, .jobs, .regs, .bktWait, .passes, .cores, .mcl, .wanted,
      .loft, .poison, .mem, .written, .table, .ticket,
      .pwrc] (by split; exacts [within (next refl), within <| after issue <| branch (next (andThen setImm finish)) (leads [.truss, .reports, .commit, .ports, .rot, .once, .jobs, .regs, .bktWait, .passes, .cores, .mcl, .wanted, .loft, .poison, .mem, .written, .table, .ticket, .pwrc] (by split; exacts [within (next issueTrap), within <| after takeOrd <| next (andThen redStart (takeEarly (fun _ _ _ => redIn)))]))])))

theorem execCovoteDeadline {j seq} : Leads [.ports, .reports, .rot, .once, .commit, .jobs, .regs, .truss, .bktWait, .passes, .cores, .mcl,
    .loft, .poison, .mem, .written, .table, .ticket, .pwrc] s (execCovoteDeadline j seq s) := by
  unfold Machine.execCovoteDeadline
  dsimp only
  exact within (recalled (leads [.ports, .reports, .rot, .once, .commit, .jobs, .regs, .truss, .bktWait, .passes, .cores, .mcl, .wanted,
      .loft, .poison, .mem, .written, .table, .ticket,
      .pwrc] (by split; exacts [within (next refl), within (branch (next refl) (next redResult))])))

theorem coJoin {d} : Leads [.truss, .jobs, .reports, .commit, .ports, .rot, .once, .regs, .bktWait, .passes, .cores, .mcl, .wanted, .loft,
    .poison, .mem, .written, .table, .ticket, .pwrc, .lastGen, .joins] s (coJoin d s) := by
  unfold Machine.coJoin
  dsimp only
  split
  exacts [within (next refl), within <| after issue <| leads [.jobs, .truss, .reports, .commit, .ports, .rot, .once, .regs, .bktWait,
      .passes, .cores, .mcl, .wanted, .loft, .poison, .mem, .written, .table, .ticket, .pwrc, .lastGen,
      .joins] (by split; exacts [within (branch (next (andThen modJob joinCheck)) (next issueTrap)), within (branch (next issueTrap) (leads [.truss, .reports, .commit, .ports, .rot, .once, .jobs, .regs, .bktWait, .passes, .cores, .mcl, .wanted, .loft, .poison, .mem, .written, .table, .ticket, .pwrc, .lastGen, .joins] (by split; exacts [within (next issueTrap), within <| after access <| branch (next finish) (after access <| branch (next finish) (branch (next finish) (next openJobAs)))])))])]

theorem execCoJoin {d} : Leads [.truss, .jobs, .reports, .commit, .ports, .rot, .once, .regs, .bktWait, .passes, .cores, .mcl, .loft,
    .poison, .mem, .written, .table, .ticket, .pwrc, .lastGen, .joins] s (execCoJoin d s) := within (recalled coJoin)

theorem execCoDrain {d} : Leads [.truss, .reports, .commit, .ports, .rot, .once, .jobs, .regs, .bktWait, .passes, .cores, .mcl, .loft,
    .poison, .mem, .written, .table, .ticket, .pwrc, .held] s (execCoDrain d s) := by
  unfold Machine.execCoDrain
  dsimp only
  exact within (recalled (leads [.truss, .reports, .commit, .ports, .rot, .once, .jobs, .regs, .bktWait, .passes, .cores, .mcl, .wanted,
      .loft, .poison, .mem, .written, .table, .ticket, .pwrc,
      .held] (by split; exacts [within (next refl), within <| after issue <| leads [.truss, .reports, .commit, .ports, .rot, .once, .jobs, .regs, .bktWait, .passes, .cores, .mcl, .wanted, .loft, .poison, .mem, .written, .table, .ticket, .pwrc, .held] (by split; exacts [within (next issueTrap), within <| after modJob <| next (andThen (each (fun _ _ => send)) drainCheck)])])))

theorem execDrainForced {j} : Leads [.jobs, .regs, .reports, .held, .commit, .table, .passes, .truss, .once, .ports, .rot, .bktWait, .cores,
    .mcl, .loft, .poison, .mem, .written, .ticket, .pwrc] s (execDrainForced j s) :=
    within (recalled (branch (next (andThen modJob drainCheck)) (next refl)))

theorem coDispatch {d} : Leads [.truss, .reports, .commit, .ports, .rot, .once, .jobs, .regs, .bktWait, .passes, .cores, .mcl, .wanted,
    .loft, .poison, .mem, .written, .table, .ticket, .pwrc] s (coDispatch d s) := by
  unfold Machine.coDispatch
  dsimp only
  split
  exacts [within (next refl), within <| after issue <| branch (next finish) (leads [.truss, .reports, .commit, .ports, .rot, .once, .jobs,
      .regs, .bktWait, .passes, .cores, .mcl, .wanted, .loft, .poison, .mem, .written, .table, .ticket,
      .pwrc] (by split; exacts [within (next issueTrap), within <| after takeOrd <| after access <| branch (next finish) (next (andThen modJob <| andThen dispStart (takeEarly (fun _ _ _ => dispIn))))]))]

theorem execCoDispatch {d} : Leads [.truss, .reports, .commit, .ports, .rot, .once, .jobs, .regs, .bktWait, .passes, .cores, .mcl, .loft,
    .poison, .mem, .written, .table, .ticket, .pwrc] s (execCoDispatch d s) := within (recalled coDispatch)

theorem coCombine {d} : Leads [.truss, .reports, .commit, .ports, .rot, .once, .jobs, .regs, .bktWait, .passes, .cores, .mcl, .wanted,
    .loft, .poison, .mem, .written, .table, .ticket, .pwrc, .free] s (coCombine d s) := by
  unfold Machine.coCombine
  dsimp only
  split
  exacts [within (next refl), within <| after issue <| branch (next finish) (leads [.truss, .reports, .commit, .ports, .rot, .once, .jobs,
      .regs, .bktWait, .passes, .cores, .mcl, .wanted, .loft, .poison, .mem, .written, .table, .ticket, .pwrc,
      .free] (by split; exacts [within (next issueTrap), within (next refl), within <| after takeOrd <| after access <| branch (next finish) (next (andThen modJob <| andThen combSend (takeEarly (fun _ _ _ => combIn))))]))]

theorem execCoCombine {d} : Leads [.truss, .reports, .commit, .ports, .rot, .once, .jobs, .regs, .bktWait, .passes, .cores, .mcl, .loft,
    .poison, .mem, .written, .table, .ticket, .pwrc, .free] s (execCoCombine d s) := within (recalled coCombine)

theorem execPeerTimeout {j} : Leads [.reports, .commit, .ports, .rot, .once, .jobs, .regs, .truss, .bktWait, .passes, .cores, .mcl, .loft,
    .poison, .mem, .written, .table, .ticket, .pwrc] s (execPeerTimeout j s) :=
    within (recalled (branch (next (andThen occ failAttempt)) (next refl)))

theorem execGroupRegister {n w} : Leads [.regs, .reports, .table] s (execGroupRegister n w s) :=
    within (next (tableWrite (fun _ => writeGroup0)))

theorem execGroupDeregister {n w} : Leads [.regs, .reports, .table] s (execGroupDeregister n w s) :=
    within (next (tableWrite (fun _ => writeGroup0)))

theorem execRowStepRegister {n w} : Leads [.regs, .reports, .table] s (execRowStepRegister n w s) :=
    within (next (tableWrite (fun _ => writeRow0)))

theorem execRowStepDeregister {n w} : Leads [.regs, .reports, .table] s (execRowStepDeregister n w s) :=
    within (next (tableWrite (fun _ => writeRow0)))

theorem execUpImm {d} : Leads [.truss] s (execUpImm d s) := by
  unfold Machine.execUpImm
  dsimp only
  split
  exacts [within (next refl), within <| after issue <| branch (next finish) (next (andThen setImm finish))]

theorem upPass {d b} : Leads [.truss, .reports, .commit, .ports, .rot, .once, .jobs, .regs, .bktWait, .passes, .cores, .mcl, .wanted, .loft,
    .poison, .mem, .written, .table, .ticket, .pwrc] s (upPass d b s) := by
  unfold Machine.upPass
  dsimp only
  split
  exacts [within (next refl), within <| after issue <| branch (next finish) (leads [.truss, .reports, .commit, .ports, .rot, .once, .jobs,
      .regs, .bktWait, .passes, .cores, .mcl, .wanted, .loft, .poison, .mem, .written, .table, .ticket,
      .pwrc] (by split; exacts [within (next issueTrap), within <| after occ <| after (ite refl (each (fun _ _ => passAEnd))) <| next (andThen (fields [.passes, .written]) <| andThen armFree <| andThen scanRows passEnd)]))]

theorem execUpPassa {d} : Leads [.truss, .reports, .commit, .ports, .rot, .once, .jobs, .regs, .bktWait, .passes, .cores, .mcl, .loft,
    .poison, .mem, .written, .table, .ticket, .pwrc] s (execUpPassa d s) := within (recalled upPass)

theorem execUpPassb {d} : Leads [.truss, .reports, .commit, .ports, .rot, .once, .jobs, .regs, .bktWait, .passes, .cores, .mcl, .loft,
    .poison, .mem, .written, .table, .ticket, .pwrc] s (execUpPassb d s) := within (recalled upPass)

theorem upCommit {d} : Leads [.truss, .reports, .commit, .ports, .rot, .once, .jobs, .regs, .bktWait, .passes, .cores, .mcl, .wanted, .loft,
    .poison, .mem, .written, .table, .ticket, .pwrc] s (upCommit d s) := by
  unfold Machine.upCommit
  dsimp only
  split
  exacts [within (next refl), within <| after issue <| leads [.truss, .reports, .commit, .ports, .rot, .once, .jobs, .regs, .bktWait,
      .passes, .cores, .mcl, .wanted, .loft, .poison, .mem, .written, .table, .ticket,
      .pwrc] (by split; exacts [within (next issueTrap), within (branch (next issueTrap) (branch (next issueTrap) (after modCommit <| branch (next (andThen modCommit <| andThen finish <| andThen sendMirrored fenceMoved)) (next (andThen modCommit <| andThen sendMirrored fenceMoved)))))])]

theorem execUpCommit {d} : Leads [.truss, .reports, .commit, .ports, .rot, .once, .jobs, .regs, .bktWait, .passes, .cores, .mcl, .loft,
    .poison, .mem, .written, .table, .ticket, .pwrc] s (execUpCommit d s) := within (recalled upCommit)

theorem execBucketLanded {j b} : Leads [.free, .mcl, .poison, .mem, .written, .reports, .loft, .once, .jobs, .regs, .passes, .truss,
    .commit, .table] s (execBucketLanded j b s) := within (recalled (next (andThen bucketLanded scanRows)))

theorem execRollback {r} : Leads [.reports, .regs, .table, .mcl, .loft, .poison, .mem, .written, .ticket, .commit] s (execRollback r s) :=
    within (recalled (after reachBy <| next (ite writeRollback refl)))

theorem execRepub {r} : Leads [.reports, .regs, .mcl, .loft, .poison, .mem, .written] s (execRepub r s) :=
    within (recalled (after reachBy <| next (ite writeRepub refl)))

theorem execJoin {p} : Leads [.held, .joins, .ports, .reports, .rot, .regs, .once, .commit, .jobs, .truss, .bktWait, .passes, .cores, .mcl,
    .loft, .poison, .mem, .written, .table, .ticket, .pwrc, .free] s (execJoin p s) := within (recalled (next packetIn))

theorem execJoinAck {p} : Leads [.held, .joins, .ports, .reports, .rot, .regs, .once, .commit, .jobs, .truss, .bktWait, .passes, .cores,
    .mcl, .loft, .poison, .mem, .written, .table, .ticket, .pwrc, .free] s (execJoinAck p s) := within (recalled (next packetIn))

theorem execBucketRs {p} : Leads [.held, .joins, .ports, .reports, .rot, .regs, .once, .commit, .jobs, .truss, .bktWait, .passes, .cores,
    .mcl, .loft, .poison, .mem, .written, .table, .ticket, .pwrc, .free] s (execBucketRs p s) := within (recalled (next packetIn))

theorem execBucketAg {p} : Leads [.held, .joins, .ports, .reports, .rot, .regs, .once, .commit, .jobs, .truss, .bktWait, .passes, .cores,
    .mcl, .loft, .poison, .mem, .written, .table, .ticket, .pwrc, .free] s (execBucketAg p s) := within (recalled (next packetIn))

theorem execAgree {p} : Leads [.held, .joins, .ports, .reports, .rot, .regs, .once, .commit, .jobs, .truss, .bktWait, .passes, .cores, .mcl,
    .loft, .poison, .mem, .written, .table, .ticket, .pwrc, .free] s (execAgree p s) := within (recalled (next packetIn))

theorem execReduce {p} : Leads [.held, .joins, .ports, .reports, .rot, .regs, .once, .commit, .jobs, .truss, .bktWait, .passes, .cores,
    .mcl, .loft, .poison, .mem, .written, .table, .ticket, .pwrc, .free] s (execReduce p s) := within (recalled (next packetIn))

theorem execDispatch {p} : Leads [.held, .joins, .ports, .reports, .rot, .regs, .once, .commit, .jobs, .truss, .bktWait, .passes, .cores,
    .mcl, .loft, .poison, .mem, .written, .table, .ticket, .pwrc, .free] s (execDispatch p s) := within (recalled (next packetIn))

theorem execDispatchEnd {p} : Leads [.held, .joins, .ports, .reports, .rot, .regs, .once, .commit, .jobs, .truss, .bktWait, .passes, .cores,
    .mcl, .loft, .poison, .mem, .written, .table, .ticket, .pwrc, .free] s (execDispatchEnd p s) := within (recalled (next packetIn))

theorem execCombine {p} : Leads [.held, .joins, .ports, .reports, .rot, .regs, .once, .commit, .jobs, .truss, .bktWait, .passes, .cores,
    .mcl, .loft, .poison, .mem, .written, .table, .ticket, .pwrc, .free] s (execCombine p s) := within (recalled (next packetIn))

theorem execCombineEnd {p} : Leads [.held, .joins, .ports, .reports, .rot, .regs, .once, .commit, .jobs, .truss, .bktWait, .passes, .cores,
    .mcl, .loft, .poison, .mem, .written, .table, .ticket, .pwrc, .free] s (execCombineEnd p s) := within (recalled (next packetIn))

theorem execVote {p} : Leads [.held, .joins, .ports, .reports, .rot, .regs, .once, .commit, .jobs, .truss, .bktWait, .passes, .cores, .mcl,
    .loft, .poison, .mem, .written, .table, .ticket, .pwrc, .free] s (execVote p s) := within (recalled (next packetIn))

theorem execDrain {p} : Leads [.held, .joins, .ports, .reports, .rot, .regs, .once, .commit, .jobs, .truss, .bktWait, .passes, .cores, .mcl,
    .loft, .poison, .mem, .written, .table, .ticket, .pwrc, .free] s (execDrain p s) := within (recalled (next packetIn))

theorem execAbandon {p} : Leads [.held, .joins, .ports, .reports, .rot, .regs, .once, .commit, .jobs, .truss, .bktWait, .passes, .cores,
    .mcl, .loft, .poison, .mem, .written, .table, .ticket, .pwrc, .free] s (execAbandon p s) := within (recalled (next packetIn))

theorem execCommitVote {p} : Leads [.held, .joins, .ports, .reports, .rot, .regs, .once, .commit, .jobs, .truss, .bktWait, .passes, .cores,
    .mcl, .loft, .poison, .mem, .written, .table, .ticket, .pwrc, .free] s (execCommitVote p s) := within (recalled (next packetIn))

theorem execOutcome {p} : Leads [.held, .joins, .ports, .reports, .rot, .regs, .once, .commit, .jobs, .truss, .bktWait, .passes, .cores,
    .mcl, .loft, .poison, .mem, .written, .table, .ticket, .pwrc, .free] s (execOutcome p s) := within (recalled (next packetIn))

theorem execMirrored {p} : Leads [.held, .joins, .ports, .reports, .rot, .regs, .once, .commit, .jobs, .truss, .bktWait, .passes, .cores,
    .mcl, .loft, .poison, .mem, .written, .table, .ticket, .pwrc, .free] s (execMirrored p s) := within (recalled (next packetIn))

theorem execConfirm {p} : Leads [.held, .joins, .ports, .reports, .rot, .regs, .once, .commit, .jobs, .truss, .bktWait, .passes, .cores,
    .mcl, .loft, .poison, .mem, .written, .table, .ticket, .pwrc, .free] s (execConfirm p s) := within (recalled (next packetIn))

theorem execPacketRelay {port stream p} : Leads [.ports, .reports, .once] s (execPacketRelay port stream p s) := by
  unfold Machine.execPacketRelay
  dsimp only
  exact within (branch (next refl) (after takeRelay <| leads [.reports, .once,
      .ports] (by split; exacts [within (next relayDrop), within (next (andThen occPort emit))])))

theorem execVoteDeadline : Leads [.ports, .reports, .rot, .once, .commit, .jobs, .regs, .truss, .bktWait, .passes, .cores, .mcl, .loft,
    .poison, .mem, .written, .table, .ticket, .pwrc, .held, .joins, .free] s (execVoteDeadline s) := by
  unfold Machine.execVoteDeadline
  exact within (recalled (leads [.ports, .reports, .rot, .once, .commit, .jobs, .regs, .truss, .bktWait, .passes, .cores, .mcl, .wanted,
      .loft, .poison, .mem, .written, .table, .ticket, .pwrc, .held, .joins,
      .free] (by split; exacts [within (branch (next (andThen outcome gutterSettle)) (next refl)), within (next refl)])))

theorem execOutcomeTimeout : Leads [.regs, .reports, .commit, .truss, .mcl, .loft, .poison, .mem, .written, .table, .ticket, .pwrc, .jobs,
    .bktWait, .passes, .cores, .once, .ports, .rot, .held, .joins, .free] s (execOutcomeTimeout s) := by
  unfold Machine.execOutcomeTimeout
  dsimp only
  exact within (recalled (leads [.regs, .reports, .commit, .truss, .mcl, .wanted, .loft, .poison, .mem, .written, .table, .ticket, .pwrc,
      .jobs, .bktWait, .passes, .cores, .once, .ports, .rot, .held, .joins,
      .free] (by split; exacts [within (branch (after (andThen orReg <| andThen raise <| andThen applyOutcome sendMirrored) <| next (andThen (ite (andThen forceNo abandonActs) refl) gutterSettle)) (next refl)), within (next refl)])))

theorem execMirrorComplete : Leads [.mcl, .reports, .loft, .poison, .mem, .written, .commit, .ports] s (execMirrorComplete s) := by
  unfold Machine.execMirrorComplete
  dsimp only
  exact within (recalled (leads [.mcl, .wanted, .reports, .loft, .poison, .mem, .written, .commit,
      .ports] (by split; exacts [within (next refl), within (branch (after store <| after modCommit <| next sendTwin) (next refl))])))

theorem execMirrorAck : Leads [.ports, .commit, .regs, .reports, .once, .rot, .jobs, .truss, .bktWait, .passes, .cores, .table, .mcl, .loft,
    .poison, .mem, .written, .ticket, .pwrc] s (execMirrorAck s) := by
  unfold Machine.execMirrorAck
  dsimp only
  exact within (recalled (after (each (fun _ _ => modPort)) <| leads [.commit, .regs, .reports, .once, .ports, .rot, .jobs, .truss,
      .bktWait, .passes, .cores, .table, .mcl, .wanted, .loft, .poison, .mem, .written, .ticket,
      .pwrc] (by split; exacts [within (next refl), within <| after (ite mirrorLost modCommit) <| next (andThen sendMirrored fenceMoved)])))

theorem execFrame {port fec f} : Leads [.reports, .regs, .ports, .commit, .mcl, .loft, .poison, .mem, .written, .once, .rot, .jobs, .truss,
    .bktWait, .passes, .cores, .table, .ticket, .pwrc] s (execFrame port fec f s) :=
    within (branch fault (branch (next refl) (recalled (next frameIn))))

theorem execTrainingDone {port t} : Leads [.ports, .regs, .reports, .pins, .commit, .once, .rot, .jobs, .truss, .bktWait, .passes, .cores,
    .table, .mcl, .loft, .poison, .mem, .written, .ticket, .pwrc] s (execTrainingDone port t s) := by
  unfold Machine.execTrainingDone
  exact within (branch (next refl) (leads [.ports, .regs, .reports, .pins, .commit, .once, .rot, .jobs, .truss, .bktWait, .passes, .cores,
      .table, .mcl, .loft, .poison, .mem, .written, .ticket,
      .pwrc] (by split; exacts [within (recalled (next trained)), within (recalled (next leaveUp)), within (next refl)])))

theorem execTrainingTimeout {port} : Leads [.ports, .regs, .reports] s (execTrainingTimeout port s) :=
    within (branch (next trainFail) (next refl))

theorem linkLost {port cause} : Leads [.regs, .reports, .ports, .commit, .once, .rot, .jobs, .truss, .bktWait, .passes, .cores, .table,
    .mcl, .loft, .poison, .mem, .written, .ticket, .pwrc] s (linkLost port cause s) :=
    within (branch (recalled (next (andThen perr leaveUp))) (next refl))

theorem execFrameSilence {port} : Leads [.regs, .reports, .ports, .commit, .once, .rot, .jobs, .truss, .bktWait, .passes, .cores, .table,
    .mcl, .loft, .poison, .mem, .written, .ticket, .pwrc] s (execFrameSilence port s) := within linkLost

theorem execLaneLockLoss {port} : Leads [.regs, .reports, .ports, .commit, .once, .rot, .jobs, .truss, .bktWait, .passes, .cores, .table,
    .mcl, .loft, .poison, .mem, .written, .ticket, .pwrc] s (execLaneLockLoss port s) := within linkLost

theorem execDownRetrain {port} : Leads [.ports] s (execDownRetrain port s) :=
    within (branch (next (andThen enterTraining modPort)) (next refl))

theorem execPctlDisable {port r} : Leads [.reports, .regs, .ports, .commit, .once, .rot, .jobs, .truss, .bktWait, .passes, .cores, .table,
    .mcl, .loft, .poison, .mem, .written, .ticket, .pwrc] s (execPctlDisable port r s) := within (recalled (after reachBy <|
    next (ite setDisable refl)))

theorem execPctlEnable {port r} : Leads [.reports, .regs, .ports, .commit, .once, .rot, .jobs, .truss, .bktWait, .passes, .cores, .table,
    .mcl, .loft, .poison, .mem, .written, .ticket, .pwrc] s (execPctlEnable port r s) := within (recalled (after reachBy <|
    next (ite setDisable refl)))

theorem execPctlRetrain {port r} : Leads [.reports, .regs, .ports, .commit, .once, .rot, .jobs, .truss, .bktWait, .passes, .cores, .table,
    .mcl, .loft, .poison, .mem, .written, .ticket, .pwrc] s (execPctlRetrain port r s) := within (recalled (after reachBy <|
    next (ite retrainPort refl)))

theorem execTwinPresentChange {present} : Leads [.pins, .ports, .reports, .regs, .commit, .once, .rot, .jobs, .truss, .bktWait, .passes,
    .cores, .table, .mcl, .loft, .poison, .mem, .written, .ticket, .pwrc] s (execTwinPresentChange present s) :=
    within (recalled (next twinPresent))

theorem execCoordApply : Leads [.coord, .gone, .ports, .reports, .regs, .commit, .once, .rot, .jobs, .truss, .bktWait, .passes, .cores,
    .table, .mcl, .loft, .poison, .mem, .written, .ticket, .pwrc] s (execCoordApply s) := by
  unfold Machine.execCoordApply
  split
  exacts [within (branch (next refl) (recalled (next putCoord))), within (next refl)]

theorem execDoorbellTimer : Leads [.mcl] s (execDoorbellTimer s) := within (branch (next refl) (branch (next (andThen modMcl <|
    andThen ring mclPump)) (next modMcl)))

theorem execSharedWindowChange {r off data mask} : Leads [.reports, .regs, .mcl] s (execSharedWindowChange r off data mask s) := within <|
    after reachBy <| branch (branch (next badCsr) (next (andThen regWrite <| andThen windowsChanged mclPump))) (next refl)

theorem mclFails : Leads [.poison, .truss, .mcl, .reports, .bist, .keeper, .regs, .once, .loft, .mem, .written, .free] s (mclFails s) :=
    within (branch (recalled (next mclDown)) (next refl))

theorem execMclSilence : Leads [.poison, .truss, .mcl, .reports, .bist, .keeper, .regs, .once, .loft, .mem, .written,
    .free] s (execMclSilence s) := within mclFails

theorem execMclLockLoss : Leads [.poison, .truss, .mcl, .reports, .bist, .keeper, .regs, .once, .loft, .mem, .written,
    .free] s (execMclLockLoss s) := within mclFails

theorem execMclRetrain : Leads [.mcl] s (execMclRetrain s) := within (branch (next mclTrain) (next refl))

theorem execMclTrainingEnd {laneBad} : Leads [.mcl, .pins, .reports] s (execMclTrainingEnd laneBad s) :=
    within (branch (next refl) (branch (next modMcl) (after modMcl <| after modPins <| after (ite raise refl) <| after (ite raise refl) <|
    next mclPump)))

theorem execFlit {f} : Leads [.regs, .reports, .mcl, .poison, .truss, .bist, .keeper, .once, .loft, .mem, .written,
    .free] s (execFlit f s) := within (branch fault (branch (next refl) (recalled (next flitIn))))

theorem execRd {tag dpa len} : Leads [.mcl, .regs, .reports, .loft] s (execRd tag dpa len s) :=
    within (branch fault (branch (next refl) (recalled (next (andThen takeMsg <| andThen hostRead mclPump)))))

theorem execWr {tag dpa poison data} : Leads [.mcl, .regs, .reports, .once, .poison, .mem, .written,
    .loft] s (execWr tag dpa poison data s) := within (branch fault (branch (next refl) (recalled (next (andThen takeMsg <|
    andThen hostWrite mclPump)))))

theorem execRdshared {tag dpa} : Leads [.mcl, .regs, .reports, .loft] s (execRdshared tag dpa s) :=
    within (branch (next refl) (recalled (next (andThen takeMsg <| andThen hostCache mclPump))))

theorem execRdown {tag dpa} : Leads [.mcl, .regs, .reports, .loft] s (execRdown tag dpa s) :=
    within (branch (next refl) (recalled (next (andThen takeMsg <| andThen hostCache mclPump))))

theorem execWb {tag dpa poison data} : Leads [.mcl, .regs, .reports, .once, .poison, .mem, .written,
    .loft] s (execWb tag dpa poison data s) := within (branch fault (branch (next refl) (recalled (next (andThen takeMsg <|
    andThen hostWrite <| andThen dropLine mclPump)))))

theorem execRecallAck {dpa dirty poison data} : Leads ([.mcl, .regs, .reports, .once, .wanted, .poison, .mem, .written,
    .loft].filter (· ≠ .wanted)) s (Machine.execRecallAck dpa dirty poison data s) := by
  unfold Machine.execRecallAck
  split
  · exact within fault
  · split
    · exact within (next refl)
    · extract_lets n s1 s2
      have h1 : Changes [.mcl] s s1 := takeMsg
      split
      · exact within <| next <| andThen (unwanted <| andThen h1 <| andThen notePoison (ite hostStore refl)) <| andThen dropLine mclPump
      · exact within <| next <| andThen h1 mclPump

theorem execCpl {tag status poison data} : Leads [.mcl, .regs, .reports, .once, .poison, .truss, .mem, .written, .loft,
    .free] s (execCpl tag status poison data s) := by
  unfold Machine.execCpl
  dsimp only
  exact within (branch fault (branch (next refl) (leads [.mcl, .regs, .reports, .once, .poison, .truss, .mem, .written, .loft,
      .free] (by split; exacts [within (recalled (next (andThen takeMsg <| andThen notePoison <| andThen uwDone mclPump))), by split; exacts [within (next (andThen takeMsg <| andThen notePoison <| andThen ownDone mclPump)), within (next (andThen takeMsg <| andThen notePoison <| andThen modMcl mclPump))]]))))

theorem execEventWrite : Leads [.mcl, .reports] s (Machine.execEventWrite s) := by
  unfold Machine.execEventWrite
  split
  · exact within (next refl)
  · extract_lets s1
    have h1 : Changes [.mcl, .reports] s s1 := mono (ite writeOverflow refl)
    split
    · exact within <| next <| andThen h1 mclPump
    · split
      · exact within <| next <| andThen h1 mclPump
      · exact within <| next <| andThen h1 <| andThen evq <| andThen reportMcl <| andThen writeEntry mclPump

theorem execEvcfgEnable {r data mask} : Leads [.reports, .regs, .mcl, .keeper] s (execEvcfgEnable r data mask s) := within <|
    after reachBy <| next (ite writeEvcfg refl)

theorem execEvconsWrite {r data mask} : Leads [.reports, .regs] s (execEvconsWrite r data mask s) := within <| after reachBy <|
    next (ite regWrite refl)

theorem execMailboxGo {r} : Leads [.reports, .regs, .mcl] s (execMailboxGo r s) := within <| after reachBy <|
    next (ite (andThen mailboxGo mclPump) refl)

theorem execPwrokRise : Leads [.free, .ticket, .stamp, .mem, .clearing, .poison, .table, .rot, .regs, .live, .truss, .spars, .ga, .loft,
    .obreqs, .jobs, .lastGen, .joins, .held, .commit, .bktWait, .passes, .cores, .codes, .written, .gcause, .ports, .coord, .gone, .mcl,
    .reports, .once, .pwrc, .grant, .keeper, .boot, .bist, .tap, .pins, .ctr] s (execPwrokRise s) :=
    within (branch (next refl) (after drawFree <| next (andThen coldReset modPins)))

theorem execPwrokFall : Leads [.ticket, .stamp, .mem, .clearing, .poison, .table, .rot, .regs, .live, .truss, .spars, .ga, .loft, .obreqs,
    .jobs, .lastGen, .joins, .held, .commit, .bktWait, .passes, .cores, .codes, .written, .gcause, .ports, .coord, .gone, .mcl, .reports,
    .once, .pwrc, .grant, .keeper, .boot, .bist, .tap, .pins, .ctr] s (execPwrokFall s) := by
  unfold Machine.execPwrokFall
  dsimp only
  exact within (branch (next refl) (after coldReset <| next (fields [.tap, .pins])))

theorem execResetNAssert : Leads [.pins, .keeper, .reports, .mem, .poison, .rot, .regs, .truss, .spars, .ga, .loft, .obreqs, .jobs, .joins,
    .held, .commit, .bktWait, .passes, .cores, .codes, .written, .gcause, .ports, .coord, .gone, .mcl, .once, .pwrc, .grant, .boot, .bist,
    .ctr] s (execResetNAssert s) :=
    within (branch (next refl) (branch (next modPins) (branch (next (andThen resetIgnored modPins)) (next (andThen warmReset modPins)))))

theorem execResetNRelease : Leads [.pins, .tap, .keeper] s (Machine.execResetNRelease s) := by
  unfold Machine.execResetNRelease
  dsimp only
  refine within <| branch (next refl) <| next <| ite (andThen modPins <| andThen tap modKeeper) <|
    andThen modPins <| andThen tap <| andThen modKeeper <| modKeeper (fun k => ?_) (fun k => ?_) (fun k => ?_)
  all_goals split <;> rfl

theorem execP3v3aLow : Leads [.pins] s (execP3v3aLow s) := within (next modPins)

theorem execP12vLoss : Leads [.poison, .mem, .written, .truss, .mcl, .reports, .bist, .keeper, .regs, .once, .loft, .free, .clearing, .live,
    .spars, .ga, .obreqs, .jobs, .joins, .held, .commit, .bktWait, .passes, .cores, .codes, .gcause, .ports, .pins] s (execP12vLoss s) :=
    within (branch (next refl) (next (andThen goDark modPins)))

theorem execRefclk0Loss : Leads [.poison, .mem, .written, .truss, .mcl, .reports, .bist, .keeper, .regs, .once, .loft, .free, .clearing,
    .live, .spars, .ga, .obreqs, .jobs, .joins, .held, .commit, .bktWait, .passes, .cores, .codes, .gcause, .ports,
    .pins] s (execRefclk0Loss s) := within (branch (next refl) (next (andThen goDark modPins)))

theorem execRefclk1Loss : Leads [.regs, .reports, .ports, .commit, .once, .rot, .jobs, .truss, .bktWait, .passes, .cores, .table, .mcl,
    .loft, .poison, .mem, .written, .ticket, .pwrc, .pins] s (execRefclk1Loss s) :=
    within (branch (next refl) (recalled (next (andThen (each (fun _ _ => portClockLost)) modPins))))

theorem execRefclk2Loss : Leads [.poison, .truss, .mcl, .reports, .bist, .keeper, .regs, .once, .loft, .mem, .written, .free,
    .pins] s (execRefclk2Loss s) := within (branch (next refl) (recalled (next (andThen mclLost modPins))))

theorem execBootHeaderCheck : Leads [.boot] s (execBootHeaderCheck s) := within (branch (next refl) (next boot))

theorem execBootBodyCheck : Leads [.keeper, .boot] s (execBootBodyCheck s) :=
    within (branch (next refl) (branch (next runImage) (branch (next runImage) (next modKeeper))))

theorem execIslandPowerUp : Leads [.clearing, .live, .loft, .boot] s (execIslandPowerUp s) := by
  unfold Machine.execIslandPowerUp
  exact within (branch (next refl) (next (andThen (fields [.clearing, .live, .loft]) bootTo)))

theorem execBootBist : Leads [.boot, .keeper, .bist] s (execBootBist s) := by
  unfold Machine.execBootBist
  dsimp only
  exact within (branch (next refl) (branch (next bootTo) (next (fields [.keeper, .bist]))))

theorem execHbmTraining : Leads [.boot] s (execHbmTraining s) := within (branch (next bootTo) (next refl))

theorem execMemoryClear : Leads [.mem, .poison, .clearing, .loft, .boot] s (Machine.execMemoryClear s) := by
  unfold Machine.execMemoryClear
  refine within <| branch (next refl) (next <| andThen (of (K := [.mem, .poison, .clearing, .loft]) ⟨fun hs => ?_, fun p hp => ?_⟩) bootTo)
  · exact ⟨rfl, rfl, hs.2.2⟩
  · cases p <;> simp_all [Part.same, State.reports, State.lessReportRegs]

theorem execIdentityCheck : Leads [.boot, .keeper, .reports] s (execIdentityCheck s) := within (branch (next refl) (after bootTo <|
    next (ite refl (andThen modKeeper raise))))

theorem execLinkStart : Leads [.keeper, .boot, .ports, .mcl] s (execLinkStart s) :=
    within (branch (next refl) (after (andThen modKeeper bootTo) <| next (andThen (each (fun _ _ => ite modPort enterTraining)) mclTrain)))

theorem execReadyAssert : Leads [.keeper, .pins, .boot] s (execReadyAssert s) := within (branch (next refl) (next (andThen modKeeper <|
    andThen modPins bootTo)))

theorem execInstanceStart : Leads [.mcl, .reports, .loft, .regs, .passes, .truss, .cores, .written, .codes] s (execInstanceStart s) :=
    within (recalled (next instanceStart))

theorem coreRun {g c op f} (hf : ∀ s c i w, Changes K s (f s c i w).1) : Leads ([.regs, .reports, .cores, .written, .passes,
    .truss] ++ K) s (Machine.coreRun g c op f s) := by
  have hl : ∀ {t}, Changes [.regs, .reports, .cores, .written, .passes, .truss] s t → Changes ([.regs, .reports, .cores, .written, .passes,
      .truss] ++ K) s t := fun h => mono h (List.subset_append_left ..)
  unfold Machine.coreRun
  extract_lets k
  split
  · exact next <| hl <| mono refl
  · exact next <| hl <| mono coreFault
  · split
    · rename_i hx
      exact next <| mono (andThen (fst (hf ..) hx) (mono (K' := [.regs, .reports, .cores, .written, .passes,
          .truss]) modCore)) (append_comm_subset ..)
    · rename_i hx
      exact next <| mono (andThen (fst (hf ..) hx) (mono (K' := [.regs, .reports, .cores, .written, .passes,
          .truss]) coreFault)) (append_comm_subset ..)

theorem coreOnly {g c op f} : Leads [.regs, .reports, .cores, .written, .passes, .truss] s (coreOnly g c op f s) :=
    within (coreRun (fun _ _ _ _ => pair refl))

theorem execGrantApply : Leads [.pwrc] s (execGrantApply s) := by
  unfold Machine.execGrantApply
  dsimp only
  split
  exacts [within (branch (next modPwrc) (next refl)), within (next refl)]

theorem execGrantSwitch : Leads [.pwrc] s (execGrantSwitch s) := by
  unfold Machine.execGrantSwitch
  split
  exacts [within (branch (next refl) (branch (next modPwrc) (next modPwrc))), within (next refl)]

theorem execGrantRampEnd : Leads [.pwrc, .reports] s (execGrantRampEnd s) := by
  unfold Machine.execGrantRampEnd
  split
  exacts [within (branch (next refl) (next (andThen modPwrc <| andThen occ raise))), within (next refl)]

theorem execControlPeriod : Leads [.pwrc, .regs, .reports] s (execControlPeriod s) :=
    within (branch (next refl) (after (andThen (ite refl capJudge) bubbleMean) <| after (ite refl modPwrc) <|
    next (andThen countPeriod loadPower)))

theorem execEstimate {watts} : Leads [.pwrc] s (execEstimate watts s) := within (branch (next refl) (next modPwrc))

theorem execMeasurementWindow {watts} : Leads [.free, .pwrc, .regs, .reports] s (execMeasurementWindow watts s) :=
    within (branch (next refl) (after (ite_snd drawFree refl) <| after modPwrc <| after judge <| branch (after occ <|
    next (ite refl modPwrc)) (next refl)))

theorem execDroopDetect {n} : Leads [.pwrc, .reports] s (execDroopDetect n s) := within (branch (next refl) (next (andThen modPwrc common)))

theorem execStretchEnd {n} : Leads [.pwrc] s (execStretchEnd n s) := within (next modPwrc)

theorem execIslandTempRead {n temp} : Leads [.pwrc, .regs, .reports, .keeper, .pins, .poison, .mem, .written, .truss, .mcl, .bist, .once,
    .loft, .free, .clearing, .live, .spars, .ga, .obreqs, .jobs, .joins, .held, .commit, .bktWait, .passes, .cores, .codes, .gcause,
    .ports] s (execIslandTempRead n temp s) := within (branch (next refl) (after modPwrc <| branch (next thermTrip) (next refl)))

theorem execStackTempRead {k temp} : Leads [.pwrc, .regs, .reports, .jobs, .keeper, .pins, .poison, .mem, .written, .truss, .mcl, .bist,
    .once, .loft, .free, .clearing, .live, .spars, .ga, .obreqs, .joins, .held, .commit, .bktWait, .passes, .cores, .codes, .gcause,
    .ports] s (execStackTempRead k temp s) := within (branch (next refl) (after modPwrc <| after (ite hbmHot refl) <|
    after (ite enterHold refl) <| branch (next thermTrip) (next refl)))

theorem execHoldAbandon : Leads [.pwrc, .commit, .ports, .reports, .rot, .once, .jobs, .regs, .truss, .bktWait, .passes, .cores, .mcl,
    .loft, .poison, .mem, .written, .table, .ticket] s (execHoldAbandon s) :=
    within (branch (next refl) (recalled (next (andThen modPwrc failAttempt))))

theorem execDieTempCheck : Leads [.pwrc, .regs, .reports] s (execDieTempCheck s) := within (branch (next refl) (branch (after modPwrc <|
    next (ite (andThen orReg raise) refl)) (branch (next modPwrc) (next refl))))

theorem mbServe {cmd len tag f} (hf : ∀ s, Leads K s (f s)) : Leads ([.mcl] ++ K) s (Machine.mbServe cmd len tag f s) := by
  unfold Machine.mbServe
  split
  · exact within (next refl) (List.nil_subset _)
  · extract_lets s1
    have h1 : Changes [.mcl] s s1 := askHost
    split
    · exact within (next (mono (K' := [.mcl]) <| andThen h1 respond)) (List.subset_append_left ..)
    · exact after (mono (K' := [.mcl]) h1) (hf _)

theorem mbCommand {cmd len tag f} (hf : ∀ s, Changes K s (f s).1) :
    Leads ([.mcl] ++ (K ++ [.mcl])) s (Machine.mbCommand cmd len tag f s) :=
  mbServe fun s => next <| andThen (hf s) respond

theorem execInfo {tag} : Leads [.mcl] s (execInfo tag s) := within (mbCommand (fun _ => pair refl))

theorem execCert {tag} : Leads [.mcl] s (execCert tag s) := within (mbCommand (fun _ => pair refl))

theorem execFlerase {tag off} : Leads [.keeper, .flash, .reports, .mcl] s (Machine.execFlerase tag off s) :=
  within (mbCommand fun _ => ite_fst (pair refl) (pair (andThen writeFlash occ)))

theorem execFlwrite {tag off data} : Leads [.keeper, .flash, .reports, .mcl] s (Machine.execFlwrite tag off data s) :=
  within (mbCommand fun _ => ite_fst (pair refl) (pair (andThen writeFlash occ)))

theorem execSeccommit {tag} : Leads [.keeper, .fuse, .mcl] s (Machine.execSeccommit tag s) :=
  within (mbCommand fun _ => ite_fst (pair refl) (pair (fuse rfl rfl)))

theorem execAttestSigned : Leads [.keeper, .reports, .mcl] s (Machine.execAttestSigned s) := by
  unfold Machine.execAttestSigned
  split
  · exact within (next refl)
  · split
    · exact within (next refl)
    · extract_lets r s1
      have h1 : Changes [.keeper, .reports] s s1 := andThen modKeeper occ
      split
      exacts [within <| next <| andThen h1 respond, within <| next h1]

theorem execMbAttest {tag nonce} : Leads [.mcl, .keeper] s (execMbAttest tag nonce s) := within (mbServe (fun _ => next attest))

theorem execBistGo {r} : Leads [.reports, .regs, .bist, .loft, .ports, .commit, .once, .rot, .jobs, .truss, .bktWait, .passes, .cores,
    .table, .mcl, .poison, .mem, .written, .ticket, .pwrc, .boot] s (execBistGo r s) := within (recalled (after reachBy <|
    next (ite bistGo refl)))

theorem execMbBist {tag mask} : Leads [.mcl, .regs, .reports, .bist, .loft, .ports, .commit, .once, .rot, .jobs, .truss, .bktWait, .passes,
    .cores, .table, .poison, .mem, .written, .ticket, .pwrc, .boot] s (execMbBist tag mask s) :=
    within (mbServe (fun _ => recalled (next (ite bistStart (andThen bistStart respond)))))

theorem execIslandTestDone {sig} : Leads [.bist, .reports, .regs, .ctr, .ga, .truss, .spars, .loft, .mem, .poison, .pwrc, .grant, .gone,
    .ports, .cores, .codes, .gcause, .commit, .jobs, .joins, .held, .bktWait, .passes, .written, .tap, .once, .mcl, .table, .rot, .ticket,
    .boot] s (execIslandTestDone sig s) := within (branch (next refl) (recalled (next testDone)))

theorem execCsrRd {tag dpa len} : Leads [.mcl, .regs, .reports, .ctr] s (execCsrRd tag dpa len s) :=
    within (branch fault (branch (next refl) (after takeMsg <| branch (after wordRead <|
    next (andThen complete mclPump)) (next (andThen unmapped mclPump)))))

/-- The host's writes of a port's registers do not reach the coordinate. -/
theorem writePorts_host {dom off data mask} : Changes ([.regs, .reports, .ports, .commit, .once, .rot, .jobs, .truss, .bktWait, .passes,
    .cores, .table, .mcl, .wanted, .loft, .poison, .mem, .written, .ticket, .pwrc, .coord,
    .gone].filter fun p => p ≠ .coord ∧ p ≠ .gone) s (s.writePorts dom .host off data mask) := by
  unfold State.writePorts
  refine mono (ite (andThen (ite setDisable refl) (ite retrainPort refl)) (of [.regs, .reports] ?_))
  rw [if_neg (by simp)]
  exact regWrite

/-- The host's writes of the power controller do not reach the grant. -/
theorem writePwrc_host {off data mask} : Changes ([.pwrc, .grant, .reports, .ga, .truss, .commit, .ports, .rot, .once, .jobs, .regs,
    .bktWait, .passes, .cores, .mcl, .wanted, .loft, .poison, .mem, .written, .table, .ticket,
    .free].filter (· ≠ .grant)) s (s.writePwrc .host off data mask) := by
  unfold State.writePwrc
  exact mono (ite refl (ite (ite holdRelease refl) regWrite))

theorem writeReg_host {dom off data mask} : Changes ([.regs, .reports, .ports, .ga, .truss, .commit, .rot, .once, .jobs, .bktWait, .passes,
    .cores, .mcl, .wanted, .loft, .poison, .mem, .written, .table, .ticket, .pwrc, .free, .coord, .gone, .keeper, .ctr, .grant, .bist,
    .boot].filter fun p => p ≠ .coord ∧ p ≠ .gone ∧ p ≠ .grant) s (s.writeReg .host dom off data mask) := by
  unfold State.writeReg
  split
  · exact mono writeIsland
  · split
    exacts [mono (ite writeGa regWrite), mono writeTruss, mono (ite writeLoft refl), mono writePorts_host, mono writePorts_host,
        mono writeGutter, mono writeMcl,
      mono writeKeeper, mono writePwrc_host, mono (ite (ite bistGo refl) regWrite), mono regWrite, mono regWrite, mono regWrite,
          mono regWrite, mono regWrite,
      mono regWrite]

/-- No write of the host to a word reaches coordinate or grant. -/
theorem wordWrite_host {a data} : Changes ([.regs, .reports, .ports, .ga, .truss, .commit, .rot, .once, .jobs, .bktWait, .passes, .cores,
    .mcl, .wanted, .loft, .poison, .mem, .written, .table, .ticket, .pwrc, .free, .coord, .gone, .keeper, .ctr, .grant, .bist,
    .boot].filter fun p => p ≠ .coord ∧ p ≠ .gone ∧ p ≠ .grant) s (s.wordWrite .host a data) := by
  unfold State.wordWrite
  dsimp only
  split
  · split
    · exact mono <| andThen (fst (andThen (ite clearFirst refl) csrAt)) writeReg_host
    · exact mono (fst (andThen (ite clearFirst refl) csrAt))
  exacts [mono (ite badCsr ctrWrite), mono (ite badCsr (ite darkAccess writeTable)), mono refl]

theorem execCsrWr {tag dpa data} : Leads [.regs, .reports, .ports, .ga, .truss, .commit, .rot, .once, .jobs, .bktWait, .passes, .cores,
    .mcl, .loft, .poison, .mem, .written, .table, .ticket, .pwrc, .free, .keeper, .ctr, .bist,
    .boot] s (Machine.execCsrWr tag dpa data s) :=
  within (branch fault (branch (next refl) (branch (recalled (next (andThen takeMsg <| andThen wordWrite_host <| andThen complete mclPump)))
    (next (andThen takeMsg <| andThen unmapped mclPump)))))

theorem execTicketWrite {r w} : Leads [.regs, .reports, .ticket] s (execTicketWrite r w s) := within (next (ite ctrWrite refl))

theorem execGvpNop {g c} : Leads [.regs, .reports, .cores, .written, .passes, .truss] s (execGvpNop g c s) := within coreOnly

theorem execEnd {g c} : Leads [.regs, .reports, .cores, .written, .passes, .truss, .mcl, .loft, .poison, .mem, .table,
    .commit] s (execEnd g c s) := by
  unfold Machine.execEnd
  dsimp only
  split
  exacts [within (next refl), within (next coreFault), within (branch (next coreFault) (recalled (next (andThen modCore <|
      andThen ownNoMore <| andThen instanceEnd scanRows))))]

theorem execPuta {g c} : Leads [.regs, .reports, .cores, .written, .passes, .truss] s (execPuta g c s) := within coreOnly

theorem execBnz {g c} : Leads [.regs, .reports, .cores, .written, .passes, .truss] s (execBnz g c s) := within coreOnly

theorem execBz {g c} : Leads [.regs, .reports, .cores, .written, .passes, .truss] s (execBz g c s) := within coreOnly

theorem execFault {g c} : Leads [.regs, .reports, .cores, .written, .passes, .truss] s (execFault g c s) := within coreOnly

theorem execPlog {g c} : Leads [.regs, .reports, .cores, .written, .passes, .truss] s (execPlog g c s) := within coreOnly

theorem execSaddi {g c} : Leads [.regs, .reports, .cores, .written, .passes, .truss] s (execSaddi g c s) := within coreOnly

theorem execSshli {g c} : Leads [.regs, .reports, .cores, .written, .passes, .truss] s (execSshli g c s) := within coreOnly

theorem execSalu {g c} : Leads [.regs, .reports, .cores, .written, .passes, .truss] s (execSalu g c s) := within coreOnly

theorem execScmp {g c} : Leads [.regs, .reports, .cores, .written, .passes, .truss] s (execScmp g c s) := within coreOnly

theorem execSimm {g c} : Leads [.regs, .reports, .cores, .written, .passes, .truss] s (execSimm g c s) :=
    within (coreRun (fun _ _ _ _ => pair refl))

theorem execRs {g c} : Leads [.regs, .reports, .cores, .written, .passes, .truss] s (execRs g c s) :=
    within (coreRun (fun _ _ _ _ => pair refl))

theorem execLane {g c} : Leads [.regs, .reports, .cores, .written, .passes, .truss] s (execLane g c s) := within coreOnly

theorem execPtail {g c} : Leads [.regs, .reports, .cores, .written, .passes, .truss] s (execPtail g c s) := within coreOnly

theorem execAdd {g c} : Leads [.regs, .reports, .cores, .written, .passes, .truss] s (execAdd g c s) := within coreOnly

theorem execSub {g c} : Leads [.regs, .reports, .cores, .written, .passes, .truss] s (execSub g c s) := within coreOnly

theorem execMul {g c} : Leads [.regs, .reports, .cores, .written, .passes, .truss] s (execMul g c s) := within coreOnly

theorem execFma {g c} : Leads [.regs, .reports, .cores, .written, .passes, .truss] s (execFma g c s) := within coreOnly

theorem execMin {g c} : Leads [.regs, .reports, .cores, .written, .passes, .truss] s (execMin g c s) := within coreOnly

theorem execMax {g c} : Leads [.regs, .reports, .cores, .written, .passes, .truss] s (execMax g c s) := within coreOnly

theorem execAbs {g c} : Leads [.regs, .reports, .cores, .written, .passes, .truss] s (execAbs g c s) := within coreOnly

theorem execNeg {g c} : Leads [.regs, .reports, .cores, .written, .passes, .truss] s (execNeg g c s) := within coreOnly

theorem execSel {g c} : Leads [.regs, .reports, .cores, .written, .passes, .truss] s (execSel g c s) := within coreOnly

theorem execCmp {g c} : Leads [.regs, .reports, .cores, .written, .passes, .truss] s (execCmp g c s) := within coreOnly

theorem execCvt {g c} : Leads [.regs, .reports, .cores, .written, .passes, .truss] s (execCvt g c s) := within coreOnly

theorem execDiv {g c} : Leads [.regs, .reports, .cores, .written, .passes, .truss] s (execDiv g c s) := within coreOnly

theorem execSqrt {g c} : Leads [.regs, .reports, .cores, .written, .passes, .truss] s (execSqrt g c s) := within coreOnly

theorem execRsqrt {g c} : Leads [.regs, .reports, .cores, .written, .passes, .truss] s (execRsqrt g c s) := within coreOnly

theorem execRcp {g c} : Leads [.regs, .reports, .cores, .written, .passes, .truss] s (execRcp g c s) := within coreOnly

theorem execExp2 {g c} : Leads [.regs, .reports, .cores, .written, .passes, .truss] s (execExp2 g c s) := within coreOnly

theorem execLog2 {g c} : Leads [.regs, .reports, .cores, .written, .passes, .truss] s (execLog2 g c s) := within coreOnly

theorem execExp {g c} : Leads [.regs, .reports, .cores, .written, .passes, .truss] s (execExp g c s) := within coreOnly

theorem execLn {g c} : Leads [.regs, .reports, .cores, .written, .passes, .truss] s (execLn g c s) := within coreOnly

theorem execRsum {g c} : Leads [.regs, .reports, .cores, .written, .passes, .truss] s (execRsum g c s) := within coreOnly

theorem execRssq {g c} : Leads [.regs, .reports, .cores, .written, .passes, .truss] s (execRssq g c s) := within coreOnly

theorem execRmax {g c} : Leads [.regs, .reports, .cores, .written, .passes, .truss] s (execRmax g c s) := within coreOnly

theorem execRmin {g c} : Leads [.regs, .reports, .cores, .written, .passes, .truss] s (execRmin g c s) := within coreOnly

theorem execRamax {g c} : Leads [.regs, .reports, .cores, .written, .passes, .truss] s (execRamax g c s) := within coreOnly

theorem execRnf {g c} : Leads [.regs, .reports, .cores, .written, .passes, .truss] s (execRnf g c s) := within coreOnly

theorem execSrnd {g c} : Leads [.regs, .reports, .cores, .written, .passes, .truss] s (execSrnd g c s) :=
    within (coreRun (fun _ _ _ _ => refl))

theorem execVld {g c} : Leads [.regs, .reports, .cores, .written, .passes, .truss, .free, .mcl, .loft] s (execVld g c s) :=
    within (recalled (coreRun (fun _ _ _ _ => loadRun)))

theorem execVst {g c} : Leads [.regs, .reports, .cores, .written, .passes, .truss, .mcl, .loft, .poison, .mem, .commit] s (execVst g c s) :=
    within (recalled (coreRun (fun _ _ _ _ => storeRun)))

theorem execSld {g c} : Leads [.regs, .reports, .cores, .written, .passes, .truss, .free, .mcl, .loft] s (execSld g c s) :=
    within (recalled (coreRun (fun _ _ _ _ => loadRun)))

theorem execSst {g c} : Leads [.regs, .reports, .cores, .written, .passes, .truss, .mcl, .loft, .poison, .mem, .commit] s (execSst g c s) :=
    within (recalled (coreRun (fun _ _ _ _ => storeRun)))

theorem mcCommand {c f} (hf : ∀ s, Changes K s (f s).1) :
    Leads (K.filter (· ≠ .wanted) ++ [.keeper, .reports, .mcl]) s (Machine.mcCommand c s f) := by
  have hl : ∀ {t}, Changes [.keeper, .reports, .mcl] s t → Leads (K.filter (· ≠ .wanted) ++ [.keeper, .reports, .mcl]) s (.next t) :=
    fun h => within (next h) (List.subset_append_right ..)
  unfold Machine.mcCommand
  split
  · exact hl <| mono refl
  · split
    · exact hl <| mono answer
    · refine within (recalled (next (andThen (hf s) answer))) ?_
      simp [List.filter_append]

theorem execStatus : Leads [.keeper, .reports, .mcl] s (execStatus s) := within (mcCommand (fun _ => pair refl))

theorem execEvread : Leads [.reports, .keeper, .mcl] s (Machine.execEvread s) := by
  refine within <| mcCommand (K := [.keeper, .reports]) fun s => ?_
  split
  exacts [mono refl, reportKeeper rfl rfl]

theorem execSetcoord {c} : Leads [.keeper, .reports, .mcl, .coord, .gone, .ports, .regs, .commit, .once, .rot, .jobs, .truss, .bktWait,
    .passes, .cores, .table, .loft, .poison, .mem, .written, .ticket, .pwrc] s (execSetcoord c s) :=
    within (mcCommand (fun _ => pair setCoord))

theorem execSetgrant {step now} : Leads [.keeper, .reports, .mcl, .pwrc, .grant] s (execSetgrant step now s) :=
    within (mcCommand (fun _ => pair writeGrant))

theorem execSetcap {watts} : Leads [.keeper, .reports, .mcl, .regs] s (execSetcap watts s) := within (mcCommand (fun _ => pair regWrite))

theorem execRelease : Leads [.keeper, .reports, .mcl, .pwrc, .ga, .truss, .commit, .ports, .rot, .once, .jobs, .regs, .bktWait, .passes,
    .cores, .loft, .poison, .mem, .written, .table, .ticket, .free] s (execRelease s) := within (mcCommand (fun _ => pair holdRelease))

theorem execTelem : Leads [.keeper, .reports, .mcl] s (execTelem s) := within (mcCommand (fun _ => pair refl))

theorem execMcCsrrd {dpa} : Leads [.keeper, .reports, .mcl, .regs, .ctr] s (execMcCsrrd dpa s) :=
    within (mcCommand (fun _ => ite_fst (pair refl) wordRead))

theorem execMcCsrwr {dpa data} : Leads [.keeper, .reports, .mcl, .regs, .ports, .ga, .truss, .commit, .rot, .once, .jobs, .bktWait, .passes,
    .cores, .loft, .poison, .mem, .written, .table, .ticket, .pwrc, .free, .coord, .gone, .ctr, .grant, .bist,
    .boot] s (execMcCsrwr dpa data s) := within (mcCommand (fun _ => ite_fst (pair wordWrite) (pair refl)))

theorem execMcBist {mask} : Leads [.keeper, .reports, .mcl, .regs, .bist, .loft, .ports, .commit, .once, .rot, .jobs, .truss, .bktWait,
    .passes, .cores, .table, .poison, .mem, .written, .ticket, .pwrc, .boot] s (execMcBist mask s) :=
    within (mcCommand (fun _ => bistStart))

theorem execMcAttest {nonce} : Leads [.keeper, .reports, .mcl] s (execMcAttest nonce s) :=
    within (mcCommand (fun _ => ite_fst (pair attest) (pair refl)))

theorem execReport {chunk} : Leads [.keeper, .reports, .mcl] s (execReport chunk s) :=
    within (mcCommand (fun _ => ite_fst (pair refl) (pair refl)))

theorem execMcReset : Leads [.keeper, .reports, .mem, .poison, .rot, .regs, .truss, .spars, .ga, .loft, .obreqs, .jobs, .joins, .held,
    .commit, .bktWait, .passes, .cores, .codes, .written, .gcause, .ports, .coord, .gone, .mcl, .once, .pwrc, .grant, .boot, .bist, .pins,
    .ctr] s (execMcReset s) := within (branch (next refl) (branch (next (andThen resetIgnored answer)) (next (andThen warmReset <|
    andThen modPins answer))))

theorem execSpiRelease : Leads [.keeper, .reports, .mcl] s (execSpiRelease s) :=
    within (mcCommand (fun _ => pair (andThen modKeeper raise)))

theorem ccc {f} (hf : ∀ s, Changes K s (f s)) : Leads K s (Machine.ccc s f) := next <| mono (ite (hf s) refl) (by simp)

theorem execEntdaa {addr} : Leads [.keeper] s (execEntdaa addr s) := within (ccc (fun _ => takeAddr))

theorem execSetdasa {static addr} : Leads [.keeper] s (execSetdasa static addr s) := within (ccc (fun _ => ite takeAddr refl))

theorem execRstdaa : Leads [.keeper] s (execRstdaa s) := within (ccc (fun _ => modKeeper))

theorem execGetpid : Leads [.keeper] s (execGetpid s) := within (ccc (fun _ => cccRead))

theorem execGetbcr : Leads [.keeper] s (execGetbcr s) := within (ccc (fun _ => cccRead))

theorem execGetdcr : Leads [.keeper] s (execGetdcr s) := within (ccc (fun _ => cccRead))

theorem execGetstatus : Leads [.free, .keeper] s (execGetstatus s) := within (ccc (fun _ => andThen drawFree cccRead))

theorem execGetmrl : Leads [.keeper] s (execGetmrl s) := within (ccc (fun _ => cccRead))

theorem execGetmwl : Leads [.keeper] s (execGetmwl s) := within (ccc (fun _ => cccRead))

theorem tapCommand {f} (hf : ∀ s, Changes K s (f s)) : Leads K s (Machine.tapCommand s f) := next <| mono (ite (hf s) refl) (by simp)

theorem execBypass : Leads [.tap, .reports] s (execBypass s) := within (tapCommand (fun _ => loadTap))

theorem execIdcode : Leads [.tap, .reports] s (execIdcode s) := within (tapCommand (fun _ => loadTap))

theorem execSamplePreload : Leads [.free, .tap, .reports] s (execSamplePreload s) := within (tapCommand (fun _ => andThen drawFree <|
    andThen tap loadTap))

theorem execExtest : Leads [.tap, .reports] s (execExtest s) := within (tapCommand (fun _ => ite (andThen loadTap occ) loadTap))

theorem execTrstNAssert : Leads [.tap] s (execTrstNAssert s) := within (next tap)

end Sys2Proof.Machine.Changes
end

section
/-! SUPPORT. The parts that each command touches. -/
namespace Sys2Proof.Machine

set_option Elab.async false

/-- The parts that any command may touch. The commands that wait, the wanted lines, coordinate, grant, flash and fuses are not among them. -/
def Part.ordinary : List Part :=
  [.free, .ticket, .stamp, .mem, .clearing, .poison, .table, .rot, .regs, .live, .truss, .spars, .ga, .loft, .obreqs, .jobs, .lastGen, .joins, .held,
    .commit, .bktWait, .passes, .cores, .codes, .written, .gcause, .ports, .mcl, .reports, .once, .pwrc, .keeper, .boot, .bist, .tap, .pins, .ctr]

/-- What a command may touch beside: its own to change. -/
def Instr.special : Instr → List Part
  | .pwrokRise | .pwrokFall | .resetNAssert | .mcReset | .mcCsrwr _ _ => [.coord, .gone, .grant]
  | .setcoord _ | .coordApply => [.coord, .gone]
  | .setgrant _ _ => [.grant]
  | .islandTestDone _ => [.gone, .grant]
  | .flerase _ _ | .flwrite _ _ _ => [.flash]
  | .seccommit _ => [.fuse]
  | _ => []

/-- The parts that a command touches. -/
def Instr.touches (c : Instr) : List Part := Instr.special c ++ Part.ordinary

namespace Changes

/-- No command touches more than its parts. -/
theorem exec_touches (c : Instr) (s : State) : Leads (Instr.touches c) s (exec c s) := by
  cases c
  all_goals dsimp only [Instr.touches, Instr.special]
  exacts [within execFetchLine, within execInstructionDecode, within execInstructionComplete, within execSparSignalArrive, within execNop,
    within execSyDload, within execSyAlat, within execSyFence, within execSySpadd, within execSySpclr, within execMmLoadw, within
    execMmSwap, within execMmRun, within execMmDefer, within execMmVqdrain, within execTxCopy, within execTxTrans, within execTxQuant,
    within execTxStash, within execTxFetch, within execTxGather, within execRdNormf, within execRdNormb, within execRdSmaxf, within
    execRdSmaxb, within execCoJoin, within execCoBucket, within execCoReduce, within execCoDispatch, within execCoCombine, within
    execCoVote, within execCoDrain, within execUpImm, within execUpPassa, within execUpPassb, within execUpCommit, within execObPin, within
    execObPromote, within execObEvict, within execObPrefetch, within execObWait, within execPcSnap, within execPcFreeze, within execPcMark,
    within execSetp, within execTrap, within execSysStop, within execRunStart, within execRunStop, within execAbort, within
    execAbortComplete, within execSpush, within execStashReset, within execWatchdogTick, within execShadowLoadEnd, within execDrainBoundary,
    within execRecutDone, within execAutoswap, within execFillVisit, within execStashFullTimeout, within execLoftReconf, within
    execLoftReconfDone, within execObjectRegister, within execObjectDeregister, within execPromoteCopyEnd, within execEvictCopyEnd, within
    execJoin, within execJoinAck, within execBucketRs, within execBucketAg, within execAgree, within execReduce, within execDispatch, within
    execDispatchEnd, within execCombine, within execCombineEnd, within execVote, within execDrain, within execAbandon, within
    execCommitVote, within execOutcome, within execMirrored, within execConfirm, within execPacketRelay, within execBucketLanded, within
    execPeerTimeout, within execDrainForced, within execVoteDeadline, within execCovoteDeadline, within execOutcomeTimeout, within
    execMirrorComplete, within execMirrorAck, within execGroupRegister, within execGroupDeregister, within execRowStepRegister, within
    execRowStepDeregister, within execRollback, within execRepub, within execInstanceStart, within execGvpNop, within execEnd, within
    execPuta, within execBnz, within execBz, within execFault, within execPlog, within execSaddi, within execSshli, within execSalu, within
    execScmp, within execSimm, within execRs, within execLane, within execPtail, within execAdd, within execSub, within execMul, within
    execFma, within execMin, within execMax, within execAbs, within execNeg, within execSel, within execCmp, within execCvt, within execDiv,
    within execSqrt, within execRsqrt, within execRcp, within execExp2, within execLog2, within execExp, within execLn, within execRsum,
    within execRssq, within execRmax, within execRmin, within execRamax, within execRnf, within execSrnd, within execVld, within execVst,
    within execSld, within execSst, within execFrame, within execTrainingDone, within execTrainingTimeout, within execFrameSilence, within
    execLaneLockLoss, within execDownRetrain, within execPctlDisable, within execPctlEnable, within execPctlRetrain, within
    execTwinPresentChange, within execCoordApply, within execFlit, within execMclTrainingEnd, within execMclRetrain, within execMclSilence,
    within execMclLockLoss, within execRd, within execWr, within execRdshared, within execRdown, within execWb, within execRecallAck, within
    execCpl, within execCsrWr, within execTicketWrite, within execEventWrite, within execDoorbellTimer, within execEvcfgEnable, within
    execEvconsWrite, within execMailboxGo, within execInfo, within execCert, within execMbAttest, within execMbBist, within execFlerase,
    within execFlwrite, within execSeccommit, within execControlPeriod, within execEstimate, within execMeasurementWindow, within
    execDroopDetect, within execStretchEnd, within execIslandTempRead, within execStackTempRead, within execHoldAbandon, within
    execDieTempCheck, within execGrantApply, within execGrantSwitch, within execGrantRampEnd, within execPwrokRise, within execPwrokFall,
    within execResetNAssert, within execResetNRelease, within execP3v3aLow, within execP12vLoss, within execRefclk0Loss, within
    execRefclk1Loss, within execRefclk2Loss, within execBootHeaderCheck, within execBootBodyCheck, within execIslandPowerUp, within
    execBootBist, within execHbmTraining, within execMemoryClear, within execIdentityCheck, within execLinkStart, within execReadyAssert,
    within execBistGo, within execIslandTestDone, within execAttestSigned, within execSnap, within execDeferredSnapshot, within execFreeze,
    within execClr, within execBandwidthWindowEnd, within execStatus, within execEvread, within execSetcoord, within execSetgrant, within
    execSetcap, within execRelease, within execTelem, within execMcCsrrd, within execMcCsrwr, within execMcBist, within execMcAttest, within
    execReport, within execMcReset, within execSpiRelease, within execEntdaa, within execSetdasa, within execRstdaa, within execGetpid,
    within execGetbcr, within execGetdcr, within execGetstatus, within execGetmrl, within execGetmwl, within execBypass, within execIdcode,
    within execSamplePreload, within execExtest, within execShadowLoadBegin, within execGaCfgWrite, within execSharedWindowChange, within
    execCsrRd, within execSnapshotEnd, within execFreezeApplied, within execTrstNAssert]

end Changes

/-- Which commands have a part of their own, and which. -/
theorem Instr.mem_special {c : Instr} {p : Part} (h : p ∈ Instr.special c) :
    (p ∈ [.coord, .gone, .grant] ∧ (c = .pwrokRise ∨ c = .pwrokFall ∨ c = .resetNAssert ∨ c = .mcReset ∨ ∃ a l, c = .mcCsrwr a l)) ∨
    (p ∈ [.coord, .gone] ∧ ((∃ x, c = .setcoord x) ∨ c = .coordApply)) ∨ (p ∈ [.grant] ∧ ∃ g b, c = .setgrant g b) ∨
    (p ∈ [.gone, .grant] ∧ ∃ x, c = .islandTestDone x) ∨ (p ∈ [.flash] ∧ ((∃ g o, c = .flerase g o) ∨ ∃ g o l, c = .flwrite g o l)) ∨
    (p ∈ [.fuse] ∧ ∃ g, c = .seccommit g) := by
  cases c
  case pwrokRise | pwrokFall | resetNAssert | mcReset => exact .inl ⟨h, by simp⟩
  case mcCsrwr a l => exact .inl ⟨h, by simp⟩
  case setcoord x => exact .inr (.inl ⟨h, by simp⟩)
  case coordApply => exact .inr (.inl ⟨h, by simp⟩)
  case setgrant g b => exact .inr (.inr (.inl ⟨h, by simp⟩))
  case islandTestDone x => exact .inr (.inr (.inr (.inl ⟨h, by simp⟩)))
  case flerase | flwrite => exact .inr (.inr (.inr (.inr (.inl ⟨h, by simp⟩))))
  case seccommit => exact .inr (.inr (.inr (.inr (.inr ⟨h, by simp⟩))))
  all_goals exact absurd h List.not_mem_nil

theorem Instr.not_mem_touches {c : Instr} {p : Part} (hp : p ∉ Part.ordinary ++ [.coord, .gone, .grant, .flash, .fuse]) : p ∉ Instr.touches c := by
  intro h
  rcases List.mem_append.1 h with h | h
  · rcases Instr.mem_special h with ⟨h, -⟩ | ⟨h, -⟩ | ⟨h, -⟩ | ⟨h, -⟩ | ⟨h, -⟩ | ⟨h, -⟩ <;> simp_all
  · exact hp (List.mem_append_left _ h)

/-- Settles O4: no command touches the commands that wait or leaves lines wanted, and all keep the stores canonical. -/
theorem stepKeepsCanonical : Obligations.StepKeepsCanonical := by
  intro s t hs hst
  rw [step] at hst
  split at hst
  · rename_i hp
    have htu : s.tick = t := by injection hst
    subst htu
    have h := Changes.tick (s := s)
    exact ⟨h.canonical hs, (h.kept .pending (by decide)).trans (by rw [hp]; rfl), h.kept .wanted (by decide)⟩
  · rename_i c rest hp
    have h := Changes.exec_touches c { s with pending := rest } t hst
    exact ⟨h.canonical hs, (h.kept .pending (Instr.not_mem_touches (by decide))).trans (by rw [hp]; rfl), h.kept .wanted (Instr.not_mem_touches (by decide))⟩

/-- A part that is not ordinary changes only by the commands whose own it is. -/
theorem Changes.kept_of_not_special {c : Instr} {s t : State} (h : Changes (Instr.touches c) s t) {p : Part} (ho : p ∉ Part.ordinary)
    (hp : p ∈ Instr.special c → False) : p.same s t :=
  h.kept p fun hm => (List.mem_append.1 hm).elim hp ho

/-- SECCOMMIT leaves the fused minimum or raises it to the running version. -/
theorem seccommit_fuseMin_le {tag : Word32} {s t : State} (h : exec (.seccommit tag) s = .next t) : s.keeper.fuseMin ≤ t.keeper.fuseMin := by
  simp only [exec, execSeccommit, mbCommand, mbServe] at h
  have hask : ∀ a n, (s.askHost 8 a n).keeper.fuseMin = s.keeper.fuseMin := fun a n => Changes.askHost.kept .fuse (by decide)
  have hrespond : ∀ (u : State) st l, (u.respond tag st l).keeper.fuseMin = u.keeper.fuseMin := fun u st l => Changes.respond.kept .fuse (by decide)
  split at h
  · rw [Host.Outcome.next.inj h]
  · split at h
    · rw [← Host.Outcome.next.inj h, hrespond, hask]
    · rw [← Host.Outcome.next.inj h, hrespond]
      split
      · rw [hask]
      · exact (hask _ _).symm.le.trans (Nat.le_max_left ..)

/-- Settles O60: the footprints name the writers, and SECCOMMIT writes the larger of two numbers. -/
theorem protectedStateHasItsWriters : Obligations.ProtectedStateHasItsWriters := by
  intro c s t hst resets byMc
  have h := Changes.exec_touches c s t hst
  refine ⟨fun h1 h2 h3 h4 => h.kept_of_not_special (p := .grant) (by decide) fun hm => ?_, fun h1 h2 h3 h4 => ⟨?_, fun h5 => h.kept_of_not_special (p := .gone) (by decide) fun hm => ?_⟩,
    fun h1 h2 => h.kept_of_not_special (p := .flash) (by decide) fun hm => ?_,
    fun h1 => h.kept_of_not_special (p := .fuse) (by decide) fun hm => ?_, ?_⟩
  · have hc := Instr.mem_special hm
    simp_all [resets, byMc]
  · have hc : Part.coord.same s t := h.kept_of_not_special (by decide) fun hm => by
      have hc := Instr.mem_special hm
      simp_all [resets, byMc]
    obtain ⟨hv, hi, hp⟩ : t.coord.valid = s.coord.valid ∧ t.coord.inForce = s.coord.inForce ∧ t.coord.pending = s.coord.pending := by simpa [Part.same] using hc
    simp [hv, hi, hp]
  · have hc := Instr.mem_special hm
    simp_all [resets, byMc]
  · have hc := Instr.mem_special hm
    simp_all
  · have hc := Instr.mem_special hm
    simp_all
  · by_cases hc : ∃ g, c = .seccommit g
    · obtain ⟨g, rfl⟩ := hc
      exact seccommit_fuseMin_le hst
    · exact (h.kept_of_not_special (p := .fuse) (by decide) fun hm => by
        have hs := Instr.mem_special hm
        simp_all).symm.le

end Sys2Proof.Machine
end

section
/-! SUPPORT. The step relation, the cycle of an empty queue, and the reset state. -/
namespace Sys2Proof.Machine

/-- Settles O1. -/
theorem stepRunsFrontCommand : Obligations.StepRunsFrontCommand := fun _ _ _ => rfl

/-! ### A cycle (log entries 1 and 2) -/

/-- While PWROK is high a cycle advances the stamp by one: only its first act touches the stamp (R41). -/
theorem State.tick_stamp {s : State} (h : s.pins.pwrok = true) : s.tick.stamp = s.stamp + 1 := by
  unfold State.tick
  extract_lets s1 s2 s3 s4
  have h2 : s2.stamp = s1.stamp := (Changes.keepAlives.kept .stamp (by decide)).trans
    ((Changes.each fun _ _ => Changes.markUrgent).kept .stamp (by decide))
  have h3 : s3.stamp = s1.stamp := ((Changes.each fun _ _ => Changes.islandCycles).kept .stamp (by decide)).trans h2
  have h31 : s3.stamp = s.stamp + 1 := h3
  have h4 : s4.stamp = s3.stamp := Changes.gutterSettle.kept .stamp (by decide)
  have h5 : (s3.recall s4.mcl.wanted).stamp = s3.stamp := Changes.recallLines.kept .stamp (by decide)
  rw [if_neg (by simp [h])]
  split
  · exact h31
  · split
    · rw [h4, h31]
    · rw [h5, h31]

/-- While PWROK is low it does nothing. -/
theorem State.tick_of_not_pwrok {s : State} (h : s.pins.pwrok = false) : s.tick = s := by
  unfold State.tick
  rw [if_pos (by simp [h])]

/-- Settles O2. -/
theorem emptyQueueStepIsOneCycle : Obligations.EmptyQueueStepIsOneCycle := by
  intro s hs
  refine ⟨s.tick, ?_, ?_, State.tick_stamp, State.tick_of_not_pwrok⟩
  · unfold step
    rw [hs]
  · exact (Changes.tick.kept .pending (by decide)).trans hs

/-! ### The reset state -/

theorem State.reset_tr (d : TrussId) : State.reset.tr d = {} := by
  simp [State.tr, vget, State.reset]

/-- Settles O3. -/
theorem resetState : Obligations.ResetState := by
  refine ⟨State.reset_canonical, rfl, fun a => ⟨rfl, rfl⟩, fun k => rfl, rfl, fun dom off => rfl, fun d => ?_, ?_, rfl, rfl, rfl, rfl, rfl, rfl, rfl, rfl,
    rfl, rfl, rfl, rfl, fun n => ?_⟩
  · rw [State.reset_tr]
    exact ⟨rfl, rfl, rfl, rfl, fun k h1 h2 => by simp [Truss.spar, vget, h2]; omega⟩
  · rfl
  · revert n; decide

/-! ### Traps (R198 to R201) -/

/-- Settles O8. -/
theorem firstTrapIsRecorded : Obligations.FirstTrapIsRecorded := by
  intro s d c w
  refine ⟨fun h => ⟨?_, ?_⟩, fun h => ⟨?_, ?_⟩, State.trap_trapped .., fun x hx => ⟨?_, ?_⟩⟩
  · rw [State.trap_trap, Truss.recordTrap]
    exact if_pos h
  · simp [State.trap_multi, Truss.recordTrap, h]
  · rw [State.trap_trap, Truss.recordTrap]
    exact if_neg h
  · rw [State.trap_multi, Truss.recordTrap]
    exact (Bool.or_eq_true ..).mpr (.inr (decide_eq_true h))
  · exact (congrArg Truss.trap (s.trap_lessFlight_other hx c w) :)
  · exact (congrArg Truss.trapped (s.trap_lessFlight_other hx c w) :)

end Sys2Proof.Machine
end

section
/-! SUPPORT. Footprints as frames: what the quiet view keeps where the parts that a command touches are known. -/
namespace Sys2Proof.Machine

/-- The state `z` with the parts `K` taken from `t`. -/
def State.withParts (K : List Part) (z t : State) : State :=
  let f {β : Type} (p : Part) (x y : β) : β := if K.contains p then y else x
  { pending := f .pending z.pending t.pending, free := f .free z.free t.free, ticket := f .ticket z.ticket t.ticket
    stamp := f .stamp z.stamp t.stamp, mem := f .mem z.mem t.mem, clearing := f .clearing z.clearing t.clearing
    poison := f .poison z.poison t.poison, table := f .table z.table t.table, rot := f .rot z.rot t.rot, regs := f .regs z.regs t.regs
    live := f .live z.live t.live, truss := f .truss z.truss t.truss, spars := f .spars z.spars t.spars, ga := f .ga z.ga t.ga
    loft := f .loft z.loft t.loft, obreqs := f .obreqs z.obreqs t.obreqs, jobs := f .jobs z.jobs t.jobs
    lastGen := f .lastGen z.lastGen t.lastGen, joins := f .joins z.joins t.joins, held := f .held z.held t.held
    commit := f .commit z.commit t.commit, bktWait := f .bktWait z.bktWait t.bktWait, passes := f .passes z.passes t.passes
    cores := f .cores z.cores t.cores, codes := f .codes z.codes t.codes, written := f .written z.written t.written
    gcause := f .gcause z.gcause t.gcause, ports := f .ports z.ports t.ports
    coord := { valid := f .coord z.coord.valid t.coord.valid, inForce := f .coord z.coord.inForce t.coord.inForce,
               pending := f .coord z.coord.pending t.coord.pending, gone := f .gone z.coord.gone t.coord.gone }
    mcl := f .mcl z.mcl t.mcl, evq := z.evq, once := f .once z.once t.once, pwrc := f .pwrc z.pwrc t.pwrc
    keeper := f .keeper z.keeper t.keeper, boot := f .boot z.boot t.boot, bist := f .bist z.bist t.bist, tap := f .tap z.tap t.tap
    pins := f .pins z.pins t.pins, ctr := f .ctr z.ctr t.ctr }

/-- A part that is taken where it is listed is what it was elsewhere. -/
theorem ite_contains {β : Type} {K : List Part} {s t : State} (h : Changes K s t) (p : Part) {x y : β} (hxy : p.same s t → y = x) :
    y = if K.contains p then y else x := by
  split
  · rfl
  · rename_i hp
    exact hxy (h.kept p (by simpa using hp))

/-- In the quiet view a change shows in the parts that it touches alone. -/
theorem Changes.quiet {K : List Part} {s t : State} (h : Changes K s t) : t.quiet = State.withParts K s.quiet t.quiet := by
  have hcoord : t.coord = (State.withParts K s.quiet t.quiet).coord := by
    have h1 := ite_contains h .coord (x := s.coord.valid) (y := t.coord.valid) fun e => (congrArg Prod.fst e :)
    have h2 := ite_contains h .coord (x := s.coord.inForce) (y := t.coord.inForce) fun e => (congrArg (·.2.1) e :)
    have h3 := ite_contains h .coord (x := s.coord.pending) (y := t.coord.pending) fun e => (congrArg (·.2.2) e :)
    have h4 := ite_contains h .gone (x := s.coord.gone) (y := t.coord.gone) id
    calc t.coord = ⟨t.coord.valid, t.coord.inForce, t.coord.pending, t.coord.gone⟩ := rfl
      _ = _ := by rw [h1, h2, h3, h4]; rfl
  unfold State.withParts
  rw [State.quiet, State.mk.injEq]
  exact ⟨ite_contains h .pending id, ite_contains h .free id, ite_contains h .ticket id, ite_contains h .stamp id, ite_contains h .mem id,
    ite_contains h .clearing id, ite_contains h .poison id, ite_contains h .table id, ite_contains h .rot id, ite_contains h .regs id,
    ite_contains h .live id, ite_contains h .truss id, ite_contains h .spars id, ite_contains h .ga id, ite_contains h .loft id, ite_contains h
    .obreqs id, ite_contains h .jobs id, ite_contains h .lastGen id, ite_contains h .joins id, ite_contains h .held id, ite_contains h .commit
    id, ite_contains h .bktWait id, ite_contains h .passes id, ite_contains h .cores id, ite_contains h .codes id, ite_contains h .written id,
    ite_contains h .gcause id, ite_contains h .ports id, hcoord, ite_contains h .mcl id, rfl, ite_contains h .once id, ite_contains h .pwrc id,
    ite_contains h .keeper id, ite_contains h .boot id, ite_contains h .bist id, ite_contains h .tap id, ite_contains h .pins id, ite_contains h
    .ctr id⟩

/-- A well-formed command answers a next state, which differs in the parts that it touches. -/
theorem frame_of_leads {K : List Part} {s : State} {i : Instr} (h : Leads K s (exec i s)) (hwf : i.wf = true) :
    ∃ t, exec i s = .next t ∧ t.quiet = State.withParts K s.quiet t.quiet := by
  obtain ⟨t, ht⟩ | ⟨hmal, -⟩ := exec_answers i s
  · exact ⟨t, ht, (h t ht).quiet⟩
  · rw [hwf] at hmal
    exact absurd hmal (by decide)

/-- Commands that touch no more than the parts `K`, one by one. -/
theorem frames_of_leads {K : List Part} {s : State} {l : List Instr} {f : State → State} (h : ∀ i ∈ l, Leads K s (exec i s))
    (hf : ∀ t, State.withParts K s.quiet t = f t := by intro t; rfl) :
    ∀ i ∈ l, i.wf = true → ∃ t, exec i s = .next t ∧ t.quiet = f t.quiet := by
  intro i hi hwf
  obtain ⟨t, ht, hq⟩ := frame_of_leads (h i hi) hwf
  exact ⟨t, ht, hq.trans (hf _)⟩

/-! ### A line that is fetched without a fault (R176) -/

/-- Bytes that can be reached and are not poisoned are at hand; lines of the host that hold them are wanted. -/
theorem State.consume_clean {s : State} {a n : Nat} (hr : s.rangeOk a n = true) (hb : s.badUnits [{ a, n }] = []) :
    s.consume [{ a, n }] = (s.want (s.snooped [{ a, n }] false), none) := by
  have hw : ∀ l, (s.want l).badUnits [{ a, n }] = [] := by
    intro l
    unfold State.want
    split <;> exact hb
  have hread : (s.want (s.snooped [{ a, n }] false)).badRead [{ a, n }] = [] := hw _
  simp [State.consume, hr, hw, hread, State.each]

/-- HBM and the Loft window hold the rings that a stream is fetched from without the host. -/
theorem placeOf_stream {a : Nat} (h : a < 0x8000000000 ∨ (a / 0x100000000 = 0x80 ∧ a % 0x100000000 < 0x40000000)) :
    (∃ k, (placeOf a).region = .hbm k) ∨ ∃ k, (placeOf a).region = .loft k := by
  by_cases h1 : a < 0x8000000000
  · exact .inl ⟨_, by rw [placeOf, if_pos h1]⟩
  · exact .inr ⟨_, by rw [placeOf, if_neg h1, if_pos (by simpa using h.resolve_left h1)]⟩

/-- The line that a fetch reads from there enters the fetch buffer. -/
theorem fetchLine_stream {s : State} {d : TrussId} {k : Nat} (hk : (s.tr d).nextFetch = some k)
    (ha : (s.tr d).ringBase + 256 * k < 0x8000000000 ∨
      (((s.tr d).ringBase + 256 * k) / 0x100000000 = 0x80 ∧ ((s.tr d).ringBase + 256 * k) % 0x100000000 < 0x40000000))
    (hr : s.rangeOk ((s.tr d).ringBase + 256 * k) 256 = true) (hb : s.badUnits [{ a := (s.tr d).ringBase + 256 * k, n := 256 }] = []) :
    let l : List Span := [{ a := (s.tr d).ringBase + 256 * k, n := 256 }]
    let w := s.want (s.snooped l false)
    fetchLine d (.memory none) s =
      .next ((w.touch (.cd d) l false true).holdLine d { line := k, words := wordsOf 32 (w.bytes ((s.tr d).ringBase + 256 * k) 256) }) := by
  intro l w
  have hc : s.consume l = (w, none) := State.consume_clean hr hb
  unfold Machine.fetchLine
  rw [if_neg (by decide), hk]
  obtain ⟨j, hj⟩ | ⟨j, hj⟩ := placeOf_stream ha
  all_goals
    simp only [hj]
    rw [show s.consume [{ a := (s.tr d).ringBase + 256 * k, n := 256 }] = (w, none) from hc]
    rfl

theorem fetchLine_stream_leads {s : State} {d : TrussId}
    (h : ∀ j, (s.tr d).nextFetch = some j → let a := (s.tr d).ringBase + 256 * j
        (a < 0x8000000000 ∨ (a / 0x100000000 = 0x80 ∧ a % 0x100000000 < 0x40000000)) ∧ s.rangeOk a 256 = true ∧ s.badUnits [{ a, n := 256 }] = []) :
    Leads [.truss, .mcl, .loft, .reports] s (exec (.fetchLine d (.memory none)) s) := by
  have hl : Leads [.truss, .mcl, .wanted, .loft, .reports] s (fetchLine d (.memory none) s) := by
    cases hn : (s.tr d).nextFetch with
    | none =>
      unfold Machine.fetchLine
      rw [if_neg (by decide), hn]
      exact Changes.within (Changes.next Changes.refl)
    | some k =>
      obtain ⟨ha, hr, hb⟩ := h k hn
      rw [fetchLine_stream hn ha hr hb]
      exact Changes.next (Changes.mono <| Changes.andThen Changes.want <| Changes.andThen Changes.touch Changes.holdLine)
  exact Changes.within (Changes.recalled hl)

namespace Changes

/-- Settles O59: each group's commands touch the parts that it names. -/
theorem framesOfCommands : Obligations.FramesOfCommands := by
  intro s d g c p n r a b tag h m x w q dpa k l frame z
  refine ⟨?_, ?_, fun o y u => ?_, ?_, ?_, ?_, ?_, ?_, ?_, ?_, ?_, ?_, ?_, ?_, ?_, ?_, fun hf => ?_, ?_⟩
  · refine frames_of_leads (K := [.keeper, .flash, .fuse, .free, .reports]) ?_
    simp only [List.forall_mem_cons, List.not_mem_nil, false_imp_iff, implies_true, and_true]
    exact ⟨within execGetpid, within execGetbcr, within execGetdcr, within execGetmrl, within execGetmwl, within execGetstatus, within
      execEntdaa, within execSetdasa, within execRstdaa⟩
  · refine frames_of_leads (K := [.tap, .free, .reports]) ?_
    simp only [List.forall_mem_cons, List.not_mem_nil, false_imp_iff, implies_true, and_true]
    exact ⟨within execBypass, within execIdcode, within execSamplePreload, within execExtest, within execTrstNAssert⟩
  · refine frames_of_leads (K := [.table, .regs, .reports]) ?_
    simp only [List.forall_mem_cons, List.not_mem_nil, false_imp_iff, implies_true, and_true]
    exact ⟨within execObjectRegister, within execObjectDeregister, within execGroupRegister, within execGroupDeregister, within
      execRowStepRegister, within execRowStepDeregister⟩
  · refine frames_of_leads (K := [.cores, .passes, .regs, .truss, .written, .reports]) ?_
    simp only [List.forall_mem_cons, List.not_mem_nil, false_imp_iff, implies_true, and_true]
    exact ⟨within execGvpNop, within execPuta, within execBnz, within execBz, within execFault, within execPlog, within execSaddi, within
      execSshli, within execSalu, within execScmp, within execSimm, within execRs, within execLane, within execPtail, within execAdd,
      within execSub, within execMul, within execFma, within execMin, within execMax, within execAbs, within execNeg, within execSel,
      within execCmp, within execCvt, within execDiv, within execSqrt, within execRsqrt, within execRcp, within execExp2, within
      execLog2, within execExp, within execLn, within execRsum, within execRssq, within execRmax, within execRmin, within execRamax,
      within execRnf, within execSrnd⟩
  · refine frames_of_leads (K := [.cores, .passes, .regs, .truss, .written, .loft, .mcl, .wanted, .free, .reports]) ?_
    simp only [List.forall_mem_cons, List.not_mem_nil, false_imp_iff, implies_true, and_true]
    exact ⟨within execVld, within execSld⟩
  · refine frames_of_leads (K := [.cores, .passes, .regs, .truss, .written, .loft, .mcl, .wanted, .codes, .reports]) (List.forall_mem_singleton.2 ?_)
    exact within execInstanceStart
  · refine frames_of_leads (K := [.keeper, .flash, .fuse, .mcl, .wanted, .reports]) ?_
    simp only [List.forall_mem_cons, List.not_mem_nil, false_imp_iff, implies_true, and_true]
    exact ⟨within execInfo, within execCert, within execFlerase, within execFlwrite, within execSeccommit, within execMbAttest, within
      execAttestSigned, within execStatus, within execEvread, within execTelem, within execMcAttest, within execReport, within
      execSpiRelease⟩
  · refine frames_of_leads (K := [.loft, .mcl, .wanted, .regs, .reports]) ?_
    simp only [List.forall_mem_cons, List.not_mem_nil, false_imp_iff, implies_true, and_true]
    exact ⟨within execRd, within execRdshared, within execRdown⟩
  · refine frames_of_leads (K := [.ctr, .mcl, .wanted, .regs, .reports]) (List.forall_mem_singleton.2 ?_)
    exact within execCsrRd
  · refine frames_of_leads (K := [.mcl, .wanted, .reports]) ?_
    simp only [List.forall_mem_cons, List.not_mem_nil, false_imp_iff, implies_true, and_true]
    exact ⟨within execDoorbellTimer, within execMclRetrain⟩
  · refine frames_of_leads (K := [.keeper, .flash, .fuse, .mcl, .wanted, .regs, .reports]) ?_
    simp only [List.forall_mem_cons, List.not_mem_nil, false_imp_iff, implies_true, and_true]
    exact ⟨within execEventWrite, within execEvcfgEnable, within execEvconsWrite, within execMailboxGo, within execSharedWindowChange⟩
  · refine frames_of_leads (K := [.pwrc, .regs, .free, .reports]) ?_
    simp only [List.forall_mem_cons, List.not_mem_nil, false_imp_iff, implies_true, and_true]
    exact ⟨within execControlPeriod, within execEstimate, within execMeasurementWindow, within execDroopDetect, within execStretchEnd, within
      execDieTempCheck, within execGrantApply, within execGrantSwitch, within execGrantRampEnd⟩
  · refine frames_of_leads (K := [.ctr, .regs, .ports, .reports]) ?_
    simp only [List.forall_mem_cons, List.not_mem_nil, false_imp_iff, implies_true, and_true]
    exact ⟨within execSnap, within execDeferredSnapshot, within execSnapshotEnd, within execFreeze, within execFreezeApplied, within execClr,
      within execBandwidthWindowEnd⟩
  · refine frames_of_leads (K := [.boot, .keeper, .pins, .reports]) ?_
    simp only [List.forall_mem_cons, List.not_mem_nil, false_imp_iff, implies_true, and_true]
    exact ⟨within execBootHeaderCheck, within execBootBodyCheck, within execHbmTraining, within execIdentityCheck, within execReadyAssert⟩
  · refine frames_of_leads (K := [.truss, .regs, .reports]) ?_
    simp only [List.forall_mem_cons, List.not_mem_nil, false_imp_iff, implies_true, and_true]
    exact ⟨within execSpush, within execRunStop⟩
  · refine frames_of_leads (K := [.truss, .reports]) ?_
    simp only [List.forall_mem_cons, List.not_mem_nil, false_imp_iff, implies_true, and_true]
    exact ⟨within execUpImm, within execStashFullTimeout⟩
  · exact frames_of_leads (List.forall_mem_singleton.2 (fetchLine_stream_leads hf))
  · refine frames_of_leads (K := [.ports, .regs, .reports]) ?_
    simp only [List.forall_mem_cons, List.not_mem_nil, false_imp_iff, implies_true, and_true]
    exact ⟨within execTrainingTimeout, within execDownRetrain⟩

end Changes

end Sys2Proof.Machine
end

section
/-! SUPPORT. The instructions that act where they stand at decode (R226 to R231, R279 to R283). -/
namespace Sys2Proof.Machine

variable {s s1 : State} {d : TrussId} {e : QEntry}

/-- An in-line instruction at decode does its act, leaves decode and signals. -/
theorem inlineRun_atDecode {op : Nat} (h : s.AtDecode d op e s1) (f : State → QEntry → State) :
    inlineRun d op f s = waitRecall s (.next ((f s1 e).inlineDone d e)) := by
  unfold Machine.inlineRun
  rw [h]

theorem completes_inlineRun {op : Nat} {c : Instr} {f : State → QEntry → State} (hc : exec c s = inlineRun d op f s)
    (h : s.AtDecode d op e s1) : Completes c s ((f s1 e).inlineDone d e) :=
  Completes.of_waitRecall (hc.trans (inlineRun_atDecode h f))

theorem syFence_complete (h : s.AtDecode d 0x03 e s1)
    (hq : ∀ q, 1 ≤ q → q ≤ 7 → e.mod.testBit (q - 1) = true → (s1.tr d).queueEmpty q = true) :
    Completes (.syFence d) s (s1.inlineDone d e) := by
  refine Completes.of_waitRecall ?_
  simp only [exec, execSyFence]
  rw [h]
  have hall : ((List.range 7).all fun k => e.mod / 2 ^ k % 2 = 0 || (s1.tr d).queueEmpty (k + 1)) = true := by
    rw [List.all_eq_true]
    intro k hk
    have hk : k < 7 := List.mem_range.1 hk
    by_cases hb : e.mod.testBit k = true
    · simp [hq (k + 1) (by omega) (by omega) hb]
    · have hz : e.mod / 2 ^ k % 2 = 0 := by
        rw [Nat.testBit_eq_decide_div_mod_eq] at hb
        have hne : e.mod / 2 ^ k % 2 ≠ 1 := by simpa using hb
        omega
      simp [hz]
  exact congrArg (waitRecall s) (if_pos hall)

theorem setp_complete (h : s.AtDecode d 0xF0 e s1) : Completes (.setp d) s ((s1.inlineDone d e).setp d e) := by
  refine Completes.of_waitRecall ?_
  simp only [exec, execSetp]
  rw [h]

theorem trap_complete (h : s.AtDecode d 0xF1 e s1) :
    Completes (.trap d) s ((s1.trap d .software { e.at 0 with code := e.db }).release d) := by
  refine Completes.of_waitRecall ?_
  simp only [exec, execTrap]
  rw [h]

theorem pcSnap_complete (h : s.AtDecode d 0xA0 e s1) :
    Completes (.pcSnap d) s ((if s1.userEn then s1.requestSnap else s1.occ (16 + d) 7).inlineDone d e) :=
  completes_inlineRun (f := fun s _ => if s.userEn then s.requestSnap else s.occ (16 + d) 7) rfl h

theorem pcFreeze_complete (h : s.AtDecode d 0xA1 e s1) :
    Completes (.pcFreeze d) s ((if s1.userEn then s1.setFreeze (e.m 0) else s1.occ (16 + d) 7).inlineDone d e) :=
  completes_inlineRun (f := fun s e => if s.userEn then s.setFreeze (e.m 0) else s.occ (16 + d) 7) rfl h

/-- Settles O9. -/
theorem inlineInstructionsComplete : Obligations.InlineInstructionsComplete := by
  intro s d e s1
  refine ⟨fun h => ?nop, syFence_complete, fun h => ?spadd, fun h => ?spclr, fun h hm hcr => ?_, fun h hm hcr => ?_,
    fun h hm => ?_, fun h => ?mark, fun h hu => ?_, fun h hu => ?_, fun h hu => ?_, fun h hu => ?_, fun h => ?stop, trap_complete⟩
  case nop => exact completes_inlineRun (f := fun s _ => s) rfl h
  case spadd => exact completes_inlineRun (f := fun s e => s.addSpar d e.cr e.db) rfl h
  case spclr =>
    refine Completes.of_waitRecall ?_
    simp only [exec, execSySpclr]
    exact inlineRun_atDecode h _
  case mark => exact completes_inlineRun (f := fun s e => s.raise 0x282 (16 + d) (e.db + 0x1000 * d.val)) rfl h
  case stop => exact completes_inlineRun (f := fun s _ => s.modTr d fun t => { t with run := false }) rfl h
  · simpa [State.setp, hm, hcr] using setp_complete h
  · simpa [State.setp, hm, hcr] using setp_complete h
  · simpa [State.setp, hm] using setp_complete h
  · simpa [hu] using pcSnap_complete h
  · simpa [hu] using pcFreeze_complete h
  · simpa [hu] using pcSnap_complete h
  · simpa [hu] using pcFreeze_complete h

end Sys2Proof.Machine
end

section
/-! SUPPORT. What a signal and a trap leave of a Truss: all but its counts, its trap registers, what is in flight and what waits for an array. -/
namespace Sys2Proof.Machine

/-- A Truss less what traps and signals write. -/
def Truss.base (t : Truss) : Truss :=
  { t with issued := [], imm := Vector.replicate 32 0, trap := {}, multi := false, trapped := false, spcnt := Vector.replicate 64 0
           progress := false, turn := none, valley := [] }

theorem Truss.base_of_lessFlight {t u : Truss} (h : t.lessFlight = u.lessFlight) : t.base = u.base := (congrArg Truss.base h :)

variable (s : State) (d x : TrussId)

theorem State.base_trap (c : TrapCause) (w : TrapAt) : ((s.trap d c w).tr x).base = (s.tr x).base := by
  by_cases hx : x = d
  · subst hx
    refine (Truss.base_of_lessFlight (s.trap_lessFlight_same x c w)).trans ?_
    rw [Truss.takeTrap_eq]
    rfl
  · exact Truss.base_of_lessFlight (s.trap_lessFlight_other hx c w)

theorem State.base_withCount (k n : Nat) : ((s.withCount d k n).tr x).base = (s.tr x).base := by
  by_cases hx : x = d
  · subst hx
    obtain ⟨v, hv⟩ := s.tr_withCount_same x (k := k) (n := n)
    rw [hv]
    rfl
  · rw [State.tr_withCount_other (h := hx)]

theorem State.base_addSpar (k n : Nat) : ((s.addSpar d k n).tr x).base = (s.tr x).base := by
  by_cases hk : k = 0
  · rw [State.addSpar, if_pos hk]
  · rw [State.addSpar_eq (hk := hk)]
    split
    · exact s.base_withCount ..
    · rw [State.base_trap, State.base_withCount]

theorem State.base_signal (k : Nat) : ((s.signal d k).tr x).base = (s.tr x).base := by
  unfold State.signal
  split
  · rfl
  · split
    · exact s.base_addSpar ..
    · refine State.each_keeps (fun s : State => (s.tr x).base) (fun s e => ?_) s _
      split
      · rfl
      · split
        · exact s.base_addSpar ..
        · exact congrArg (fun v => (vget v x {}).base) (Changes.kept (Changes.andThen Changes.spars (Changes.andThen Changes.lath Changes.lath)) .truss (by decide))

theorem State.base_inlineDone (e : QEntry) : ((s.inlineDone d e).tr x).base = { (s.tr x).base with decTaken := if x = d then none else (s.tr x).decTaken } := by
  rw [State.inlineDone, State.base_signal, State.release]
  by_cases hx : x = d
  · subst hx
    rw [if_pos rfl, State.tr_modTr_same]
    rfl
  · rw [if_neg hx, State.tr_modTr_other _ _ _ _ fun h => hx (Fin.ext h.symm)]
    rfl

end Sys2Proof.Machine
end

section
/-! SUPPORT. Runs of keys in a sparse store, and the descriptors that SY.DLOAD copies (R192, R228). -/
namespace Sys2Proof.Machine

/-! ### Runs of keys -/

theorem Sparse.getList_length {α : Type} (z : α) (m : List (Nat × α)) (k n : Nat) : (Sparse.getList z m k n).length = n := by
  induction n generalizing k with
  | zero => rfl
  | succ n ih => simp [Sparse.getList, ih]

/-- The entries of a run are the values at its keys. -/
theorem Sparse.getList_getElem? {α : Type} (z : α) (m : List (Nat × α)) (k n i : Nat) :
    (Sparse.getList z m k n)[i]? = if i < n then some (Sparse.get z m (k + i)) else none := by
  induction n generalizing k i with
  | zero => simp [Sparse.getList]
  | succ n ih =>
    cases i with
    | zero => simp [Sparse.getList]
    | succ i => simp [Sparse.getList, ih, Nat.add_comm, Nat.add_left_comm]

/-- A part of a run is the run of that part. -/
theorem Sparse.getList_drop_take {α : Type} (z : α) (m : List (Nat × α)) {a n j i : Nat} (h : j + i ≤ n) :
    ((Sparse.getList z m a n).drop j).take i = Sparse.getList z m (a + j) i := by
  refine List.ext_getElem? fun k => ?_
  rw [List.getElem?_take, List.getElem?_drop, Sparse.getList_getElem?, Sparse.getList_getElem?]
  by_cases hk : k < i
  · rw [if_pos hk, if_pos hk, if_pos (by omega), Nat.add_assoc]
  · rw [if_neg hk, if_neg hk]

/-- Writing a run keeps the canonical form. -/
theorem Sparse.wf_putList {α : Type} [DecidableEq α] (z : α) (l : List α) (k : Nat) {m : List (Nat × α)} (h : Sparse.wf z m = true) :
    Sparse.wf z (Sparse.putList z m k l) = true := by
  induction l generalizing k m with
  | nil => exact h
  | cons v l ih => exact ih (k + 1) (Sparse.wf_put z k v h)

/-- A read after a run is written: the value written at the key, what stood elsewhere. -/
theorem Sparse.get_putList {α : Type} [DecidableEq α] (z : α) (l : List α) (k j : Nat) {m : List (Nat × α)} (h : Sparse.wf z m = true) :
    Sparse.get z (Sparse.putList z m k l) j = if k ≤ j then l.getD (j - k) (Sparse.get z m j) else Sparse.get z m j := by
  induction l generalizing k m with
  | nil => simp [Sparse.putList]
  | cons v l ih =>
    rw [Sparse.putList, ih (k + 1) (Sparse.wf_put z k v h), Sparse.get_put z k j v h]
    by_cases hlt : k < j
    · obtain ⟨i, rfl⟩ : ∃ i, j = k + 1 + i := ⟨j - (k + 1), by omega⟩
      rw [if_pos (show k + 1 ≤ k + 1 + i by omega), if_pos (show k ≤ k + 1 + i by omega), if_neg (show ¬k + 1 + i = k by omega)]
      rw [show k + 1 + i - (k + 1) = i by omega, show k + 1 + i - k = i + 1 by omega]
      rfl
    · rw [if_neg (by omega)]
      by_cases heq : j = k
      · subst heq
        simp
      · rw [if_neg heq, if_neg (by omega)]

/-! ### The descriptor table (R192) -/

/-- The words of a descriptor after one is written. -/
theorem Truss.descWords_putList (t : Truss) (h : Sparse.wf 0 t.desc = true) (i j : Nat) (ws : List Word64) (hws : ws.length = 8) :
    Truss.descWords { t with desc := Sparse.putList 0 t.desc (8 * j) ws } i = if i = j then ws else t.descWords i := by
  refine List.ext_getElem? fun k => ?_
  rw [Truss.descWords, Sparse.getList_getElem?]
  by_cases hk : k < 8
  · rw [if_pos hk, Sparse.get_putList _ _ _ _ h]
    by_cases hij : i = j
    · subst hij
      rw [if_pos rfl, if_pos (by omega), Nat.add_sub_cancel_left, List.getD_eq_getElem _ _ (by omega), List.getElem?_eq_getElem (by omega)]
    · rw [if_neg hij, Truss.descWords, Sparse.getList_getElem?, if_pos hk]
      split
      · rw [List.getD_eq_default _ _ (by omega)]
      · rfl
  · rw [if_neg hk]
    split
    · rw [List.getElem?_eq_none (by omega)]
    · rw [Truss.descWords, Sparse.getList_getElem?, if_neg hk]

theorem wordsOf_length (n : Nat) (l : List Byte) : (wordsOf n l).length = n := by simp [wordsOf]

/-- A word that is taken from bytes of memory. -/
theorem State.wordsOf_bytes (s : State) (a : Nat) {k n : Nat} (h : k < n) : (wordsOf n (s.bytes a (8 * n)))[k]? = some (BitVec.ofNat 64 (s.readNat (a + 8 * k) 8)) := by
  rw [wordsOf, List.getElem?_map, List.getElem?_range h]
  have hb : ((s.bytes a (8 * n)).drop (8 * k)).take 8 = s.bytes (a + 8 * k) 8 := Sparse.getList_drop_take _ _ (by omega)
  rw [Option.map_some, hb]
  rfl

/-! ### A Truss at decode -/

theorem State.tr_congr {s t : State} (h : t.truss = s.truss) (x : Nat) : t.tr x = s.tr x := congrArg (fun v => vget v x ({} : Truss)) h

/-- Changes of a Truss that agree where it stands are the same. -/
theorem State.modTr_congr (s : State) (d : TrussId) {f g : Truss → Truss} (h : f (s.tr d) = g (s.tr d)) : s.modTr d f = s.modTr d g := by
  have hd : d.val < 4 := d.isLt
  have h' : f s.truss[d.val] = g s.truss[d.val] := by simpa [State.tr, vget, hd] using h
  simp [State.modTr, vmod, hd, h']

theorem Truss.takeSpar_keeps (t : Truss) (k : Nat) : (t.takeSpar k).base = t.base := by
  unfold Truss.takeSpar
  split <;> rfl

theorem Truss.takeWaits_keeps (t : Truss) (a b : Nat) : (t.takeWaits a b).base = t.base := by
  rw [Truss.takeWaits, Truss.takeSpar_keeps, Truss.takeSpar_keeps]

/-- The address latch and the descriptors of a Truss. -/
def Truss.latches (t : Truss) : Word48 × List (Nat × Word64) := (t.alat, t.desc)

theorem Truss.latches_of_base {t u : Truss} (h : t.base = u.base) : t.latches = u.latches := (congrArg Truss.latches h :)

/-- What takes effect at decode takes its waits; the latches stay. -/
theorem State.AtDecode.latches {s s1 : State} {d : TrussId} {op : Nat} {e : QEntry} (h : s.AtDecode d op e s1) (x : TrussId) :
    (s1.tr x).latches = (s.tr x).latches := by
  unfold State.AtDecode State.inline at h
  split at h
  · split at h
    · simp_all
    · cases h
  · split at h
    · cases h
    · split at h
      · injection h with h
        injection h with _ h
        subst h
        by_cases hx : x = d
        · subst hx
          rw [State.tr_modTr_same]
          have hdec (e : QEntry) : (((s.trussBoundary x).decoded x e).tr x).latches = (s.tr x).latches := by
            have hmod : (((s.trussBoundary x).modTr x (·.advance e.x)).tr x).latches = (s.tr x).latches := by
              rw [State.tr_modTr_same, State.trussBoundary, State.tr_modTr_same]
              rfl
            unfold State.decoded
            dsimp only
            split
            · rw [State.tr_congr (State.occ_truss ..), State.tr_congr (State.occ_truss ..), hmod]
            · rw [State.tr_congr (State.occ_truss ..), hmod]
          exact (Truss.latches_of_base (Truss.takeWaits_keeps ..) :).trans (hdec _)
        · have hne : (d : Nat) ≠ x := fun hv => hx (Fin.ext hv.symm)
          rw [State.tr_modTr_other _ _ _ _ hne]
          have hb : (s.trussBoundary d).tr x = s.tr x := State.tr_modTr_other _ _ _ _ hne
          unfold State.decoded
          dsimp only
          split
          · rw [State.tr_congr (State.occ_truss ..), State.tr_congr (State.occ_truss ..), State.tr_modTr_other _ _ _ _ hne, hb]
          · rw [State.tr_congr (State.occ_truss ..), State.tr_modTr_other _ _ _ _ hne, hb]
      · cases h

theorem State.latches_inlineDone (s : State) (d x : TrussId) (e : QEntry) : ((s.inlineDone d e).tr x).latches = (s.tr x).latches :=
  (congrArg Truss.latches (s.base_inlineDone d x e) :)

end Sys2Proof.Machine
end

section
/-! SUPPORT. The address latch and the load of a descriptor (R227, R228). -/
namespace Sys2Proof.Machine

/-! ### SY.ALAT (R227) -/

/-- The two halves of a latch, as numbers and as bits. -/
theorem alat_value (w : Word64) (old : Word48) (b : Bool) :
    BitVec.ofNat 48 (if b then old.toNat % 0x1000000 + bits w.toNat 6 24 * 0x1000000 else old.toNat / 0x1000000 * 0x1000000 + bits w.toNat 6 24) =
      if b then (w.extractLsb' 6 24 ++ (old.extractLsb' 0 24 : BitVec 24) : Word48)
      else ((old.extractLsb' 24 24 : BitVec 24) ++ w.extractLsb' 6 24 : Word48) := by
  have hv : (w.extractLsb' 6 24).toNat = bits w.toNat 6 24 := by simp [bits, Nat.shiftRight_eq_div_pow]
  have hvlt : bits w.toNat 6 24 < 2 ^ 24 := Nat.mod_lt _ (by decide)
  have hold : old.toNat < 2 ^ 48 := old.isLt
  have happ (x y : BitVec 24) : (x ++ y).toNat = x.toNat * 0x1000000 + y.toNat := by
    rw [BitVec.toNat_append, Nat.shiftLeft_eq, Nat.mul_comm, ← Nat.two_pow_add_eq_or_of_lt y.isLt, Nat.mul_comm]
  apply BitVec.eq_of_toNat_eq
  cases b
  · simp only [Bool.false_eq_true, if_false, happ, hv, BitVec.toNat_ofNat, BitVec.extractLsb'_toNat, Nat.shiftRight_eq_div_pow]
    omega
  · simp only [if_true, happ, hv, BitVec.toNat_ofNat, BitVec.extractLsb'_toNat, Nat.shiftRight_zero]
    omega

theorem State.AtDecode.alat {s s1 : State} {d : TrussId} {op : Nat} {e : QEntry} (h : s.AtDecode d op e s1) (x : TrussId) :
    (s1.tr x).alat = (s.tr x).alat := (congrArg Prod.fst (h.latches x) :)

theorem State.AtDecode.desc {s s1 : State} {d : TrussId} {op : Nat} {e : QEntry} (h : s.AtDecode d op e s1) (x : TrussId) :
    (s1.tr x).desc = (s.tr x).desc := (congrArg Prod.snd (h.latches x) :)

/-- The latch that SY.ALAT leaves. -/
def QEntry.latch (e : QEntry) (old : Word48) : Word48 :=
  if e.m 0 then e.w0.extractLsb' 6 24 ++ (old.extractLsb' 0 24 : BitVec 24) else (old.extractLsb' 24 24 : BitVec 24) ++ e.w0.extractLsb' 6 24

theorem syAlat_complete {s s1 : State} {d : TrussId} {e : QEntry} (h : s.AtDecode d 0x02 e s1) :
    Completes (.syAlat d) s ((s1.modTr d fun t => { t with alat := e.latch (s.tr d).alat }).inlineDone d e) := by
  refine Completes.of_waitRecall ?_
  simp only [exec, execSyAlat]
  rw [inlineRun_atDecode h, State.modTr_congr s1 d (g := fun t => { t with alat := e.latch (s.tr d).alat })]
  rw [h.alat, alat_value]
  rfl

/-! ### SY.DLOAD (R228) -/

/-- What is seen plainly is where its address says. -/
theorem placeOf_plain {a : Nat} (ht : (placeOf a).twist = 0) : (placeOf a).plain = a := by
  revert ht
  unfold placeOf
  dsimp only
  split
  · exact fun _ => rfl
  · split
    · exact fun _ => rfl
    · split
      · rename_i h
        simp only [Bool.and_eq_true, decide_eq_true_eq] at h
        intro ht
        dsimp only at ht ⊢
        omega
      · split
        · rename_i h
          simp only [Bool.and_eq_true, decide_eq_true_eq] at h
          intro ht
          dsimp only at ht ⊢
          omega
        · split
          · rename_i h
            simp only [Bool.and_eq_true, decide_eq_true_eq] at h
            intro ht
            dsimp only at ht ⊢
            omega
          · repeat' split
            all_goals exact fun _ => rfl

theorem State.consume_unheld {s : State} {a n : Nat} (hr : s.rangeOk a n = true) (hb : s.badUnits [{ a, n }] = [])
    (hs : s.snooped [{ a, n }] false = []) : s.consume [{ a, n }] = (s, none) := by
  rw [State.consume_clean hr hb, hs, State.want_nil]

/-- A descriptor that stands in memory enters the table. -/
theorem State.dload_memory {s : State} {d i src : Nat} (hm : (placeOf src).region.isMem = true) (ht : (placeOf src).twist = 0)
    (hr : s.rangeOk src 64 = true) (hb : s.badUnits [{ a := src, n := 64 }] = []) (hs : s.snooped [{ a := src, n := 64 }] false = []) :
    s.dload d i src 1 = ((s.touch (.cd d) [{ a := src, n := 64 }] false true).setDesc d i (wordsOf 8 (s.bytes src 64)), none) := by
  have hp := placeOf_plain ht
  unfold State.dload
  dsimp only
  rw [hp, if_pos hm, if_neg (by rw [ht]; decide), State.consume_unheld hr hb hs]
  dsimp only
  unfold State.dload
  rw [State.readVia, ht, hp]
  rfl

theorem syDload_complete {s s1 : State} {d : TrussId} {e : QEntry} (h : s.AtDecode d 0x01 e s1) (hi : s1.interlocked d e = false) (hdb : e.db = 0)
    (hm : (placeOf ((s.tr d).alat.toNat / 64 * 64)).region.isMem = true) (ht : (placeOf ((s.tr d).alat.toNat / 64 * 64)).twist = 0)
    (hr : s1.rangeOk ((s.tr d).alat.toNat / 64 * 64) 64 = true) (hb : s1.badUnits [{ a := (s.tr d).alat.toNat / 64 * 64, n := 64 }] = [])
    (hs : s1.snooped [{ a := (s.tr d).alat.toNat / 64 * 64, n := 64 }] false = []) :
    Completes (.syDload d (.memory none)) s (((s1.touch (.cd d) [{ a := (s.tr d).alat.toNat / 64 * 64, n := 64 }] false true).setDesc d e.da
      (wordsOf 8 (s1.bytes ((s.tr d).alat.toNat / 64 * 64) 64))).inlineDone d e) := by
  refine Completes.of_waitRecall ?_
  simp only [exec, execSyDload]
  unfold Machine.syDload
  rw [if_neg (by decide), h]
  simp only [hi, h.alat]
  rw [if_neg (by decide)]
  split
  · rename_i hreg _
    rw [hreg] at hm
    exact absurd hm (by decide)
  · rename_i hreg _
    rw [hreg] at hm
    exact absurd hm (by decide)
  · rw [hdb]
    rw [show s1.corrected (.memory none) _ = s1 from rfl, State.dload_memory hm ht hr hb hs]

theorem State.setDesc_tr (s : State) (d : TrussId) (i : Nat) (ws : List Word64) (k : Nat) (h : Sparse.wf 0 (s.tr d).desc = true) (hws : ws.length = 8) :
    ((s.setDesc d i ws).tr d).descWords k = if k = i ∧ k ≠ 0 then ws else (s.tr d).descWords k := by
  unfold State.setDesc
  split
  · rename_i h0
    rw [if_neg (by omega)]
  · rename_i h0
    rw [State.tr_modTr_same, Truss.descWords_putList _ h _ _ _ hws]
    by_cases hk : k = i
    · rw [if_pos hk, if_pos ⟨hk, by omega⟩]
    · rw [if_neg hk, if_neg (fun hh => hk hh.1)]

/-- Settles O10. -/
theorem latchAndDescriptorsAreLoaded : Obligations.LatchAndDescriptorsAreLoaded := by
  constructor
  · intro s d e s1 h v old new t
    refine ⟨syAlat_complete h, ?_, fun x hx => ?_⟩
    · have hl := s1.modTr d (fun t => { t with alat := new }) |>.latches_inlineDone d d e
      rw [State.tr_modTr_same] at hl
      exact (congrArg Prod.fst hl :)
    · have hl := s1.modTr d (fun t => { t with alat := new }) |>.latches_inlineDone d x e
      rw [State.tr_modTr_other _ _ _ _ fun hv => hx (Fin.ext hv.symm)] at hl
      exact ((congrArg Prod.fst hl :)).trans (h.alat x)
  · intro s d e s1 h hi hdb src hm ht hr hb hs hw t
    refine ⟨syDload_complete h hi hdb hm ht hr hb hs, fun i k hk hwf => ?_⟩
    have hl : (t.tr d).desc = ((((s1.touch (.cd d) [{ a := src, n := 64 }] false true).setDesc d e.da (wordsOf 8 (s1.bytes src 64))).tr d).desc) :=
      congrArg Prod.snd (State.latches_inlineDone _ d d e)
    have hd : ((s1.touch (.cd d) [{ a := src, n := 64 }] false true).tr d).desc = (s.tr d).desc :=
      (congrArg Truss.desc (State.tr_congr (Changes.touch.kept .truss (by decide)) d)).trans (h.desc d)
    have hw : (t.tr d).descWords i = if i = e.da ∧ i ≠ 0 then wordsOf 8 (s1.bytes src 64) else (s.tr d).descWords i := by
      have hset := (s1.touch (.cd d) [{ a := src, n := 64 }] false true).setDesc_tr d e.da (wordsOf 8 (s1.bytes src 64)) i (by rw [hd]; exact hwf)
        (wordsOf_length ..)
      rw [Truss.descWords, hl]
      refine hset.trans ?_
      split
      · rfl
      · rw [Truss.descWords, hd]
        rfl
    have hmem : s1.readNat (src + 8 * k) 8 = s.readNat (src + 8 * k) 8 := by
      have hm1 : s1.mem = s.mem := (Changes.inline h).kept .mem (by decide)
      rw [State.readNat, State.bytes, hm1]
      rfl
    rw [hw]
    split
    · rw [State.wordsOf_bytes s1 src hk, hmem]
    · rfl

end Sys2Proof.Machine
end

section
/-! SUPPORT. The instruction stream: fetch, decode, completion, messages, and the registers that control it (R173 to R204). -/
namespace Sys2Proof.Machine

variable {s : State} {d : TrussId}

/-! ### Fetch, decode, completion, messages (R176 to R191) -/

theorem fetchLine_complete {k : Nat} (hk : (s.tr d).nextFetch = some k)
    (ha : (s.tr d).ringBase + 256 * k < 0x8000000000 ∨
      (((s.tr d).ringBase + 256 * k) / 0x100000000 = 0x80 ∧ ((s.tr d).ringBase + 256 * k) % 0x100000000 < 0x40000000))
    (hr : s.rangeOk ((s.tr d).ringBase + 256 * k) 256 = true) (hb : s.badUnits [{ a := (s.tr d).ringBase + 256 * k, n := 256 }] = [])
    (hs : s.snooped [{ a := (s.tr d).ringBase + 256 * k, n := 256 }] false = []) :
    Completes (.fetchLine d (.memory none)) s ((s.touch (.cd d) [{ a := (s.tr d).ringBase + 256 * k, n := 256 }] false true).holdLine d
      { line := k, words := wordsOf 32 (s.bytes ((s.tr d).ringBase + 256 * k) 256) }) := by
  refine Completes.of_waitRecall ?_
  simp only [exec, execFetchLine]
  have h := fetchLine_stream hk ha hr hb
  simp only [hs, State.want_nil] at h
  rw [h]

theorem instructionDecode_complete {e : QEntry} {i : OpInfo} (hdec : (s.tr d).decoding = true) (htaken : (s.tr d).decTaken = none)
    (htrap : (s.tr d).decTrap = false) (hat : (s.tr d).atDecode (s.level (16 + d) 4) = .ins e)
    (hok : decodeWord (s.level (16 + d) 4) e = .ok i) (hq : queueOf i e ≠ 0) (hroom : (vget (s.tr d).queues (queueOf i e) []).length < 16) :
    Completes (.instructionDecode d) s (((s.trussBoundary d).decoded d e).modTr d fun t =>
      { t with queues := vmod t.queues (queueOf i e) (· ++ [e]) }) := by
  refine Completes.of_waitRecall ?_
  simp only [exec, execInstructionDecode, hdec, htaken, hat, htrap, hok]
  have hno : ¬(queueOf i e = 0 || 16 ≤ (vget (s.tr d).queues (queueOf i e) []).length) = true := by simp [hq]; omega
  exact congrArg (waitRecall s) (if_neg hno)

theorem instructionComplete_complete {q : Fin 8} {i : Issued} (hold : (s.tr d).oldest q = some i) (hdone : i.done = true) :
    Completes (.instructionComplete d q) s
      ((match i.trap with
        | some c => (s.modTr d fun t => { t with issued := t.issued.filter (·.e.seq ≠ i.e.seq), turn := none }).trap d c (i.e.at q)
        | none => s.modTr d fun t => { t with issued := t.issued.filter (·.e.seq ≠ i.e.seq), turn := none }).signal d i.e.sg) := by
  refine Completes.of_waitRecall ?_
  simp only [exec, execInstructionComplete, hold, hdone]
  rfl

/-- The oldest message of a pair is the first one found, and goes alone. -/
theorem findP_eraseP_of_first {α : Type} {p : α → Bool} {l r : List α} {x : α} (hx : p x = true) (hl : ∀ y ∈ l, p y = false) :
    (l ++ x :: r).find? p = some x ∧ (l ++ x :: r).eraseP p = l ++ r := by
  induction l with
  | nil => simp [hx]
  | cons y l ih =>
    have hy := hl y (List.mem_cons_self ..)
    obtain ⟨h1, h2⟩ := ih fun z hz => hl z (List.mem_cons_of_mem _ hz)
    simp [hy, h1, h2]

theorem sparSignalArrive_complete {src dst : TrussId} {x : SparSig} {l r : List SparSig} (hs : s.spars = l ++ x :: r) (hsrc : x.src = src.val)
    (hdst : x.dst = dst.val) (hl : ∀ y ∈ l, ¬(y.src = src.val ∧ y.dst = dst.val)) :
    Completes (.sparSignalArrive src dst) s ({ s with spars := l ++ r }.addSpar dst x.spar x.weight) := by
  refine Completes.of_waitRecall ?_
  simp only [exec, execSparSignalArrive]
  obtain ⟨h1, h2⟩ := findP_eraseP_of_first (p := fun x : SparSig => decide (x.src = src.val) && decide (x.dst = dst.val)) (l := l) (r := r) (x := x)
    (by simp [hsrc, hdst]) (fun y hy => by simpa using hl y hy)
  rw [hs, h1, h2]

/-- Settles O11. -/
theorem streamMovesOn : Obligations.StreamMovesOn :=
  ⟨fun _ _ _ hk ha hr hb hs => fetchLine_complete hk ha hr hb hs,
    fun _ _ _ _ h1 h2 h3 h4 h5 h6 h7 => instructionDecode_complete h1 h2 h3 h4 h5 h6 h7,
    fun _ _ _ _ h1 h2 => instructionComplete_complete h1 h2,
    fun _ _ _ _ _ _ h1 h2 h3 h4 => sparSignalArrive_complete h1 h2 h3 h4⟩

/-! ### Writes of registers (R453, R465) -/

/-- A write that comes in reaches the registers of a powered domain, which is counted; one that does not leaves the state. -/
theorem State.reachBy_heard {r : Requester} {dom : Nat} (off : Nat) (hlive : s.isLive dom = true) (hr : s.heard r = true) :
    s.reachBy r dom off = (s.reached dom, true) := by
  rw [State.reachBy, if_pos hr, State.reach, if_pos hlive]

theorem State.reachBy_unheard {r : Requester} (dom off : Nat) (hr : s.heard r = false) : s.reachBy r dom off = (s, false) := by
  rw [State.reachBy, if_neg (by rw [hr]; decide)]

/-- A command that stands for a write which does not come in leaves the state. -/
theorem exec_unheard {c : Instr} {r : Requester} (hw : s.mcl.wanted = []) (hc : writerOf c = some r) (hr : s.heard r = false) :
    exec c s = .next s := by
  have hnext : waitRecall s (.next s) = .next s := waitRecall_next s s hw
  cases c
  case runStart | runStop | abort | spush | stashReset | loftReconf | rollback | repub | pctlDisable | pctlEnable | pctlRetrain | ticketWrite |
      evcfgEnable | evconsWrite | mailboxGo | bistGo | snap | freeze | clr | gaCfgWrite | sharedWindowChange =>
    injection hc with hc
    subst hc
    simp [exec, execRunStart, execRunStop, execAbort, execSpush, execStashReset, execLoftReconf, execRollback, execRepub, execPctlDisable,
      execPctlEnable, execPctlRetrain, execTicketWrite, execEvcfgEnable, execEvconsWrite, execMailboxGo, execBistGo, execSnap, execFreeze, execClr,
      execGaCfgWrite, execSharedWindowChange, State.reachBy_unheard _ _ hr, hr, hnext]
  all_goals cases hc

/-- A change of a Truss in the quiet view. -/
theorem State.quiet_modTr (s : State) (d : Nat) (f : Truss → Truss) : (s.modTr d f).quiet = s.quiet.modTr d f := rfl

/-- Settles O12. -/
theorem pushAddsLines : Obligations.PushAddsLines := by
  refine ⟨fun s d r n mask hlive hr => ?_, fun s c r hw hc hr => exec_unheard hw hc hr⟩
  refine ⟨(s.reached (16 + d)).push d (n &&& mask).toNat, ?_, ?_⟩
  · simp only [exec, execSpush, State.reachBy_heard 0x2C hlive hr]
    rfl
  · rw [State.push, State.quiet_modTr, State.quiet_modTr, State.reached_quiet]

/-! ### What registers read in the quiet view -/

/-- What a filter keeps is read as before. -/
theorem Sparse.get_filter {α : Type} (z : α) {p : Nat × α → Bool} {k : Nat} (hk : ∀ v, p (k, v) = true) (m : List (Nat × α)) :
    Sparse.get z (m.filter p) k = Sparse.get z m k := by
  induction m with
  | nil => rfl
  | cons x m ih =>
    obtain ⟨a, v⟩ := x
    by_cases ha : a = k
    · subst ha
      simp [hk, Sparse.get]
    · rw [List.filter_cons]
      split
      · simp [Sparse.get, ha, ih]
      · simp [Sparse.get, ha, ih]

/-- A register that reports do not write reads the same in states that differ in reports only. -/
theorem State.regRaw_of_regs {s t : State} (h : t.lessReportRegs = s.lessReportRegs) {dom off : Nat}
    (hk : isReport (homeDom dom off * 0x10000 + off) = false) : t.regRaw dom off = s.regRaw dom off := by
  have hget (u : State) : Sparse.get none u.lessReportRegs (homeDom dom off * 0x10000 + off) = Sparse.get none u.regs (homeDom dom off * 0x10000 + off) :=
    Sparse.get_filter none (fun v => by simp [hk]) _
  unfold State.regRaw
  dsimp only
  rw [← hget t, h, hget s]

theorem State.regRaw_reached (s : State) (dom' : Nat) {dom off : Nat} (hk : isReport (homeDom dom off * 0x10000 + off) = false) :
    (s.reached dom').regRaw dom off = s.regRaw dom off :=
  State.regRaw_of_regs (Changes.reached.kept .regs (by decide)) hk

/-- The registers of a Truss that are no PCSAT are no report registers. -/
theorem isReport_truss (d : TrussId) {off : Nat} (h : off < 0x8000) : isReport (homeDom (16 + d) off * 0x10000 + off) = false := by
  have hd : d.val < 4 := d.isLt
  have hh : homeDom (16 + d) off = 16 + d := by
    rw [homeDom, if_neg]
    simp only [Bool.and_eq_true, decide_eq_true_eq]
    omega
  rw [hh]
  simp only [isReport, Bool.or_eq_false_iff, decide_eq_false_iff_not]
  omega

/-! ### RUN (R175, R178) -/

theorem State.tr_runStart (s : State) (d : TrussId) : (s.runStart d).tr d =
    if (s.tr d).run then s.tr d
    else if (s.tr d).ringNew then
      { s.tr d with run := true, ringNew := false, ringBase := (s.ringRegs d).1, ringSize := (s.ringRegs d).2, avail := 0, word := 0, fbuf := [],
                    decTrap := false, head := min (s.regRaw (16 + d) 0x30).toNat ((s.ringRegs d).2 - 1) }
    else { s.tr d with run := true } := by
  unfold State.runStart
  dsimp only
  split
  · rfl
  · split
    · exact State.tr_modTr_same ..
    · exact State.tr_modTr_same ..

theorem State.tr_runStart_other (s : State) {d x : TrussId} (h : x ≠ d) : (s.runStart d).tr x = s.tr x := by
  have hne : (d : Nat) ≠ x := fun hv => h (Fin.ext hv.symm)
  unfold State.runStart
  dsimp only
  split
  · rfl
  · split
    · exact State.tr_modTr_other _ _ _ _ hne
    · exact State.tr_modTr_other _ _ _ _ hne

theorem State.ringRegs_reached (s : State) (dom : Nat) (d : TrussId) : (s.reached dom).ringRegs d = s.ringRegs d := by
  simp only [State.ringRegs, s.regRaw_reached dom (isReport_truss d (by decide : 0x14 < 0x8000)),
    s.regRaw_reached dom (isReport_truss d (by decide : 0x18 < 0x8000)), s.regRaw_reached dom (isReport_truss d (by decide : 0x1C < 0x8000)),
    s.regRaw_reached dom (isReport_truss d (by decide : 0x20 < 0x8000))]

theorem State.tr_reached (s : State) (dom x : Nat) : (s.reached dom).tr x = s.tr x := State.tr_congr (Changes.reached.kept .truss (by decide)) x

/-- Settles O13. -/
theorem runControlsTheStream : Obligations.RunControlsTheStream := by
  intro s d r hlive hr
  constructor
  · have hexec : exec (.runStart d r) s = .next (((s.reached (16 + d)).runStart d).setRunning d) := by
      simp only [exec, execRunStart, State.reachBy_heard 0 hlive hr]
      rfl
    have hchg := Changes.execRunStart (r := r) _ hexec
    have htr (x : TrussId) : (((s.reached (16 + d)).runStart d).setRunning d).tr x = ((s.reached (16 + d)).runStart d).tr x :=
      State.tr_congr (Changes.setRunning.kept .truss (by decide)) x
    refine ⟨_, hexec, hchg.kept .mem (by decide), hchg.kept .ticket (by decide), fun x hx => ?_, fun hrun => ?_, fun hrun hnew => ?_, fun hrun hnew => ?_⟩
    · rw [htr, State.tr_runStart_other _ hx, State.tr_reached]
    · rw [htr, State.tr_runStart, State.tr_reached, if_pos hrun]
    · rw [htr, State.tr_runStart, State.tr_reached, if_neg (by simp [hrun]), if_neg (by simp [hnew])]
    · rw [htr, State.tr_runStart, State.tr_reached, if_neg (by simp [hrun]), if_pos hnew, State.ringRegs_reached,
        s.regRaw_reached _ (isReport_truss d (by decide : 0x30 < 0x8000))]
  · refine ⟨(s.reached (16 + d)).modTr d fun t => { t with run := false }, ?_, ?_⟩
    · simp only [exec, execRunStop, State.reachBy_heard 0 hlive hr]
      rfl
    · rw [State.quiet_modTr, State.quiet_modTr, State.reached_quiet]

end Sys2Proof.Machine
end

section
/-! SUPPORT. A watchdog tick marks the entries of the valley queue that have become urgent (R156). -/
namespace Sys2Proof.Machine

/-- A powered device whose Truss 0 drains a valley queue of one entry that is not marked yet. -/
def drainsUnmarked : State :=
  { State.reset with
    live := Vector.replicate 60 true
    truss := Vector.replicate 4 { vqDrain := true, valley := [{ e := { w0 := 0 }, stat := [], mov := [], dst := [] }] } }

/-- The marks of the valley queue of Truss 0 in an outcome. -/
def urgentMarks : Host.Outcome State Fault Refusal → List Bool
  | .next t => (t.tr 0).valley.map (·.urgent)
  | _ => []

/-- Refutes O15: a tick of a Truss that drains its valley queue marks the entries of the queue urgent (R156), which the statement leaves out. -/
theorem not_watchdogCountsIdleTicks : ¬Obligations.WatchdogCountsIdleTicks := by
  intro h
  have hidle := (h drainsUnmarked 0 (by decide +kernel)).2 (.inl (by decide +kernel))
  have hexec := hidle.1 (by decide +kernel)
  have hmarks : urgentMarks (exec (.watchdogTick 0) drainsUnmarked) = [true] := by decide +kernel
  rw [hexec] at hmarks
  exact absurd hmarks (by decide +kernel)

end Sys2Proof.Machine
end

section
/-! SUPPORT. What the tier engine leaves of a Truss: all but its stash and what is in flight (R313 to R323). -/
namespace Sys2Proof.Machine

/-- Every Truss shows the same in a view. -/
def State.TrussKeeps {β : Type} (v : Truss → β) (s t : State) : Prop := ∀ x : Nat, v (t.tr x) = v (s.tr x)

namespace State.TrussKeeps

variable {α β : Type} {v : Truss → β} {K : List Part} {s t u : State}

theorem refl : s.TrussKeeps v s := fun _ => rfl

theorem trans (h : s.TrussKeeps v t) (h' : t.TrussKeeps v u) : s.TrussKeeps v u := fun x => (h' x).trans (h x)

theorem of_changes (h : Changes K s t) (hK : Part.truss ∉ K := by decide) : s.TrussKeeps v t := fun x => congrArg v (State.tr_congr (h.kept .truss hK) x)

theorem modTr {d : Nat} {f : Truss → Truss} (h : ∀ t, v (f t) = v t) : s.TrussKeeps v (s.modTr d f) := by
  intro x
  by_cases hd : d < 4
  · by_cases hx : d = x
    · subst hx
      rw [State.tr_modTr_same s ⟨d, hd⟩]
      exact h _
    · rw [State.tr_modTr_other _ _ _ _ hx]
  · have hs : s.modTr d f = s := by simp [State.modTr, vmod, hd]
    rw [hs]

theorem each {l : List α} {f : State → α → State} (h : ∀ (s : State) x, s.TrussKeeps v (f s x)) : s.TrussKeeps v (s.each l f) :=
  State.each_induct (s.TrussKeeps v) l f s refl fun t x _ ht => ht.trans (h t x)

theorem ite {c : Prop} [Decidable c] (ht : s.TrussKeeps v t) (hu : s.TrussKeeps v u) : s.TrussKeeps v (if c then t else u) := by
  split
  · exact ht
  · exact hu

end State.TrussKeeps

/-- A Truss less its stash and what is in flight. -/
def Truss.lessMoves (t : Truss) : Truss := { t with issued := [], stash := {} }

theorem Truss.lessMoves_stash (t : Truss) (x : Stash) : Truss.lessMoves { t with stash := x } = t.lessMoves := rfl

namespace State.TrussKeeps

variable {s : State}

section

variable {β : Type} {v : Truss → β} (hv : ∀ t l, v { t with issued := l } = v t)
include hv

theorem finish {d seq : Nat} {trap : Option TrapCause} : s.TrussKeeps v (s.finish d seq trap) := modTr fun _ => hv _ _

theorem setTrap {ins : InsRef} {trap : Option TrapCause} : s.TrussKeeps v (s.setTrap ins trap) := by
  unfold State.setTrap
  split
  · exact refl
  · exact modTr fun _ => hv _ _

theorem uwFail {ins : InsRef} : s.TrussKeeps v (s.uwFail ins) := modTr fun _ => hv _ _

theorem uwSend {ins ty kind a n poison data} : s.TrussKeeps v (s.uwSend ins ty kind a n poison data) := by
  unfold State.uwSend
  dsimp only
  refine ite ?_ (of_changes (Changes.andThen Changes.cross (Changes.modMcl)))
  split
  · exact uwFail hv
  · exact trans (of_changes (Changes.foldl fun _ _ => Changes.mark)) (uwFail hv)

theorem movePiece {ins : InsRef} {p : Piece} : s.TrussKeeps v (s.movePiece ins p) := by
  unfold State.movePiece
  dsimp only
  split
  · exact ite (uwSend hv) (of_changes Changes.write)
  · exact ite refl (of_changes Changes.write)
  · refine ite (uwSend hv) (ite (uwSend hv) ?_)
    exact of_changes (Changes.andThen Changes.putPiece (Changes.each fun _ _ => Changes.each fun _ _ => Changes.mark))

theorem moveDone {ins : InsRef} : s.TrussKeeps v (s.moveDone ins) := ite refl (finish hv)

theorem moveAll {ins : InsRef} {reads narrow writes : List Span} {pieces : List Piece} :
    s.TrussKeeps v (s.moveAll ins reads narrow writes pieces) := by
  unfold State.moveAll
  dsimp only
  exact trans (of_changes Changes.want) <| trans (of_changes Changes.consume) <| trans (of_changes Changes.touchTier) <| trans (setTrap hv) <| trans (of_changes Changes.cleanWhole) <| trans (each fun _ _ => movePiece hv) <| trans (of_changes Changes.smear) (moveDone hv)

end

section

variable {β : Type} {v : Truss → β} (hv : ∀ t m, v { t with stash := { t.stash with map := m } } = v t)
include hv

theorem allocPage {d p : Nat} : s.TrussKeeps v (s.allocPage d p).1 := by
  unfold State.allocPage
  dsimp only
  split
  · exact modTr fun _ => hv _ _
  · split
    · exact refl
    · refine trans ?_ (of_changes (Changes.andThen Changes.orReg (Changes.andThen Changes.occ Changes.raiseOnce)))
      exact modTr fun _ => hv _ _

theorem allocPages {d : Nat} {l : List Nat} : s.TrussKeeps v (s.allocPages d l).1 := by
  unfold State.allocPages
  generalize true = b
  induction l generalizing s b with
  | nil => exact refl
  | cons k l ih =>
    rw [List.foldl_cons]
    dsimp only
    split
    · exact trans (allocPage hv) (ih (s := (s.allocPage d k).1) _)
    · exact ih _

end

theorem stashTry {x : StashStall} : s.TrussKeeps Truss.lessMoves (s.stashTry x) := by
  unfold State.stashTry
  dsimp only
  refine trans (allocPages fun _ _ => rfl) (ite (trans ?_ (moveAll fun _ _ => rfl)) (ite refl ?_))
  · exact modTr fun _ => rfl
  · exact modTr fun _ => rfl

theorem stashResume {d : Nat} : s.TrussKeeps Truss.lessMoves (s.stashResume d) := each fun _ _ => stashTry

theorem stashReset {d : Nat} : s.TrussKeeps Truss.lessMoves (s.stashReset d) := by
  unfold State.stashReset
  refine trans ?_ stashResume
  exact modTr fun t => t.lessMoves_stash _

end State.TrussKeeps

/-! ### An abort (R202) -/

variable {s : State} {d : TrussId}

/-- A Truss whose abort has begun, less its stash and what is in flight. -/
theorem State.abortStart_lessMoves : ((s.abortStart d).tr d).lessMoves = Truss.lessMoves
    { s.tr d with aborting := true, queues := Vector.replicate 8 [], valley := (s.tr d).valley.filter (·.visiting.isSome), decTrap := false
                  decTaken := (s.tr d).decTaken.filter (·.op ≠ 0x13), vqFull := false } := by
  rw [State.abortStart, State.TrussKeeps.stashReset d.val, State.tr_modTr_same]

theorem abortComplete_eq (hab : (s.tr d).aborting = true) (hiss : (s.tr d).issued = []) (hdec : (s.tr d).decTaken = none)
    (hval : ∀ v ∈ (s.tr d).valley, v.visiting = none) :
    exec (.abortComplete d) s = .next ((s.modTr d fun t =>
      { t with spcnt := Vector.replicate 64 0, head := min (s.regRaw (16 + d) 0x30).toNat ((s.tr d).ringSize - 1), avail := 0, word := 0, fbuf := []
               trapped := false, multi := false, valley := [], vqDrain := false, aborting := false, run := false, trap := {}, idle := 0
               progress := true }).modCommit fun c =>
      { c with aborted := if c.aborted.contains d.val then c.aborted else d.val :: c.aborted }) := by
  have hv : (s.tr d).valley.any (·.visiting.isSome) = false := by
    rw [List.any_eq_false]
    intro v hv
    rw [hval v hv]
    decide
  simp only [exec, execAbortComplete, hab, hiss, hdec, hv]
  rfl

/-- Settles O14. -/
theorem abortEndsTheStream : Obligations.AbortEndsTheStream := by
  intro s d r
  constructor
  · intro hlive hr t
    have ht : (t.tr d).lessMoves = _ := State.abortStart_lessMoves
    rw [State.tr_reached] at ht
    refine ⟨Completes.of_waitRecall ?_, (congrArg Truss.aborting ht :), fun q => ?_, fun v hv => ?_, (congrArg Truss.alat ht :)⟩
    · simp only [exec, execAbort, State.reachBy_heard 0 hlive hr]
      rfl
    · have hq : (t.tr d).queues = Vector.replicate 8 [] := (congrArg Truss.queues ht :)
      rw [hq, vget]
      split
      · exact Vector.getElem_replicate _
      · rfl
    · have hval : (t.tr d).valley = (s.tr d).valley.filter (·.visiting.isSome) := (congrArg Truss.valley ht :)
      rw [hval] at hv
      exact (List.mem_filter.1 hv).2
  · intro hab hiss hdec hval
    refine ⟨_, abortComplete_eq hab hiss hdec hval, ?_⟩
    have hother (x : TrussId) (hx : x ≠ d) (f : Truss → Truss) (g : Commit → Commit) : ((s.modTr d f).modCommit g).tr x = s.tr x :=
      State.tr_modTr_other s d x f fun hv => hx (Fin.ext hv.symm)
    have hsame (f : Truss → Truss) (g : Commit → Commit) : ((s.modTr d f).modCommit g).tr d = f (s.tr d) := State.tr_modTr_same s d f
    simp only [hsame, true_and]
    refine ⟨fun k h1 => ?_, fun x hx => hother x hx _ _, rfl⟩
    have hk : k ≠ 0 := by omega
    rw [Truss.spar, if_neg hk, vget]
    split
    · exact congrArg BitVec.toNat (Vector.getElem_replicate _)
    · rfl

end Sys2Proof.Machine
end

section
/-! SUPPORT. The pages of the stash (R317 to R323). -/
namespace Sys2Proof.Machine

/-! ### The lowest free page (R319) -/

theorem lowestFree_eq_some {n k : Nat} {taken : Nat → Bool} (hk : k < n) (hfree : taken k = false) (hlow : ∀ j, j < k → taken j = true) :
    lowestFree n taken = some k := by
  rw [lowestFree, List.find?_range_eq_some]
  exact ⟨by simp [hfree], List.mem_range.2 hk, fun j hj => by simp [hlow j hj]⟩

theorem lowestFree_eq_none {n : Nat} {taken : Nat → Bool} (h : ∀ k, k < n → taken k = true) : lowestFree n taken = none := by
  rw [lowestFree, List.find?_range_eq_none]
  exact fun k hk => by simp [h k hk]

/-- No page of the map has a place. -/
def Stash.Free (m : Stash) (x : Page) : Prop := ∀ q ∈ m.map, q.2 ≠ x

theorem Stash.taken_eq (m : Stash) (x : Page) : m.map.any (fun q => q.2 = x) = true ↔ ¬m.Free x := by
  simp [Stash.Free]

theorem Stash.taken_eq_false (m : Stash) (x : Page) : m.map.any (fun q => q.2 = x) = false ↔ m.Free x := by
  simp [Stash.Free]

variable (s : State) (d : TrussId) (p : Nat)

/-- A page mapped to a place. -/
def State.mapPage (x : Page) : State :=
  s.modTr d fun t => { t with stash := { t.stash with map := Sparse.put .empty t.stash.map p x } }

theorem State.look_mapPage (x : Page) (hwf : Sparse.wf .empty (s.tr d).stash.map = true) (q : Nat) :
    ((s.mapPage d p x).tr d).stash.look q = if q = p then x else (s.tr d).stash.look q := by
  rw [State.mapPage, State.tr_modTr_same]
  exact Sparse.get_put _ _ _ _ hwf

theorem State.allocPage_pool {n : Nat} (hn : n < (s.tr d).stash.ppages) (hfree : (s.tr d).stash.Free (.pool n))
    (hlow : ∀ k, k < n → ¬(s.tr d).stash.Free (.pool k)) : s.allocPage d p = (s.mapPage d p (.pool n), true) := by
  have h : lowestFree (s.tr d).stash.ppages (fun n => (s.tr d).stash.map.any fun q => q.2 = .pool n) = some n :=
    lowestFree_eq_some hn ((Stash.taken_eq_false ..).2 hfree) fun k hk => (Stash.taken_eq ..).2 (hlow k hk)
  unfold State.allocPage
  simp only [h]
  rfl

theorem State.poolFull (h : ∀ k, k < (s.tr d).stash.ppages → ¬(s.tr d).stash.Free (.pool k)) :
    lowestFree (s.tr d).stash.ppages (fun n => (s.tr d).stash.map.any fun q => q.2 = .pool n) = none :=
  lowestFree_eq_none fun k hk => (Stash.taken_eq ..).2 (h k hk)

theorem State.allocPage_spill (hpool : ∀ k, k < (s.tr d).stash.ppages → ¬(s.tr d).stash.Free (.pool k)) (hsp : (s.tr d).stash.nospill = false)
    {n : Nat} (hn : n < (s.tr d).stash.quota) (hfree : (s.tr d).stash.Free (.spill n)) (hlow : ∀ k, k < n → ¬(s.tr d).stash.Free (.spill k)) :
    s.allocPage d p = ((((s.mapPage d p (.spill n)).orReg (16 + d) 0x334 2).occ (16 + d) 10).raiseOnce d 0x2C4 (16 + d) d, true) := by
  have h : lowestFree (s.tr d).stash.quota (fun n => (s.tr d).stash.map.any fun q => q.2 = .spill n) = some n :=
    lowestFree_eq_some hn ((Stash.taken_eq_false ..).2 hfree) fun k hk => (Stash.taken_eq ..).2 (hlow k hk)
  unfold State.allocPage
  simp only [s.poolFull d hpool, hsp, Bool.false_eq_true, if_false, h]
  rfl

theorem State.allocPage_fails (hpool : ∀ k, k < (s.tr d).stash.ppages → ¬(s.tr d).stash.Free (.pool k))
    (hno : (s.tr d).stash.nospill = true ∨ ∀ k, k < (s.tr d).stash.quota → ¬(s.tr d).stash.Free (.spill k)) : s.allocPage d p = (s, false) := by
  unfold State.allocPage
  simp only [s.poolFull d hpool]
  obtain hno | hno := hno
  · simp only [hno, if_true]
  · have h : lowestFree (s.tr d).stash.quota (fun n => (s.tr d).stash.map.any fun q => q.2 = .spill n) = none :=
      lowestFree_eq_none fun k hk => (Stash.taken_eq ..).2 (hno k hk)
    simp only [h, ite_self]

/-- An allocation touches its Truss alone. -/
theorem State.tr_allocPage_other {x : TrussId} (hx : x ≠ d) : (s.allocPage d p).1.tr x = s.tr x := by
  have hmod (f : Truss → Truss) : (s.modTr d f).tr x = s.tr x := State.tr_modTr_other _ _ _ _ fun hv => hx (Fin.ext hv.symm)
  unfold State.allocPage
  dsimp only
  split
  · exact hmod _
  · split
    · rfl
    · exact (State.tr_congr ((Changes.andThen Changes.orReg (Changes.andThen Changes.occ Changes.raiseOnce)).kept .truss (by decide)) x).trans (hmod _)

/-- Settles O27. -/
theorem stashTakesLowestPage : Obligations.StashTakesLowestPage := by
  intro s d p m t free hwf
  refine ⟨fun n hn hfree hlow => ?_, fun hpool hsp n hn hfree hlow => ?_, s.allocPage_fails d p, Changes.allocPage.kept .mem (by decide),
    fun x hx => s.tr_allocPage_other d p hx⟩
  · have h := s.allocPage_pool d p hn hfree hlow
    exact ⟨congrArg Prod.snd h, fun q => by rw [show t = _ from congrArg Prod.fst h, State.look_mapPage _ _ _ _ hwf]⟩
  · have h := s.allocPage_spill d p hpool hsp hn hfree hlow
    refine ⟨congrArg Prod.snd h, fun q => ?_⟩
    have htr : t.tr d = (s.mapPage d p (.spill n)).tr d := by
      rw [show t = _ from congrArg Prod.fst h]
      exact State.tr_congr ((Changes.andThen Changes.orReg (Changes.andThen Changes.occ Changes.raiseOnce)).kept .truss (by decide)) d
    rw [htr, State.look_mapPage _ _ _ _ hwf]

/-! ### Resets and reports (R321 to R323) -/

/-- The spill switch has a register of its own. -/
theorem findReg_stx : ∀ d : TrussId, findReg (16 + d) 0x304 = some { off := 0x0304, lvl := 0x300, fields := [fx 0 1] } := by decide

theorem State.cfg_stx_reached (dom : Nat) : (s.reached dom).cfg (16 + d) 0x304 = s.cfg (16 + d) 0x304 := by
  have h (off : Nat) (hoff : off < 0x8000) : (s.reached dom).regRaw (16 + d) off = s.regRaw (16 + d) off := s.regRaw_reached dom (isReport_truss d hoff)
  simp only [State.cfg, findReg_stx, State.level, h _ (by decide : 0x300 < 0x8000), h _ (by decide : 0x304 < 0x8000), State.derived, blockOf_truss,
    Nat.reduceLT, if_true]

theorem State.stashRegs_reached (dom : Nat) : (s.reached dom).stashRegs d = s.stashRegs d := by
  have h (off : Nat) (hoff : off < 0x8000) : (s.reached dom).regRaw (16 + d) off = s.regRaw (16 + d) off := s.regRaw_reached dom (isReport_truss d hoff)
  simp only [State.stashRegs, s.cfg_stx_reached, h _ (by decide : 0x308 < 0x8000),
    h _ (by decide : 0x30C < 0x8000), h _ (by decide : 0x310 < 0x8000), h _ (by decide : 0x314 < 0x8000), h _ (by decide : 0x318 < 0x8000),
    h _ (by decide : 0x31C < 0x8000), h _ (by decide : 0x320 < 0x8000), h _ (by decide : 0x324 < 0x8000), h _ (by decide : 0x328 < 0x8000)]

/-- A range begins at a page, and its map is empty. -/
theorem State.stashRegs_range : (s.stashRegs d).range % pageBytes = 0 := by
  generalize hr : s.stashRegs d = m
  have hm : m.range = (s.regRaw (16 + d) 0x308).toNat * 0x200000 + (s.regRaw (16 + d) 0x30C).toNat * 0x2000000000 := by rw [← hr, State.stashRegs]
  rw [hm, pageBytes]
  omega

theorem State.stashRegs_map : (s.stashRegs d).map = [] := rfl

theorem stashFullTimeout_eq {s : State} {d : TrussId} {x : StashStall} (h : (s.tr d).stash.stalled.find? (!·.raised) = some x) :
    exec (.stashFullTimeout d) s = .next ((s.modTr d fun t =>
      { t with stash := { t.stash with stalled := t.stash.stalled.map fun y => if y.ins = x.ins then { y with raised := true } else y } }).raise
        0x2C0 (16 + d) d) := by
  simp only [exec, execStashFullTimeout, h]

/-- With no stash stalled none is tried again. -/
theorem State.stashResume_idle {s : State} {d : Nat} (h : (s.tr d).stash.stalled = []) : s.stashResume d = s := by
  rw [State.stashResume, h]
  rfl

/-- The stash that a reset leaves. -/
def Stash.reset (m : Stash) (old : Stash) : Stash := { m with stalled := old.stalled, freeing := old.freeing.map fun p => (p.1, []) }

theorem Stash.reset_stalled (m old : Stash) : (m.reset old).stalled = old.stalled := rfl

theorem Stash.reset_regs (m old : Stash) : (m.reset old).range = m.range ∧ (m.reset old).rpages = m.rpages ∧ (m.reset old).pool = m.pool ∧
    (m.reset old).ppages = m.ppages ∧ (m.reset old).spill = m.spill ∧ (m.reset old).quota = m.quota ∧ (m.reset old).nospill = m.nospill ∧
    (m.reset old).map = m.map := ⟨rfl, rfl, rfl, rfl, rfl, rfl, rfl, rfl⟩

theorem State.stashReset_idle (h : (s.tr d).stash.stalled = []) :
    s.stashReset d = s.modTr d fun t => { t with stash := (s.stashRegs d).reset t.stash } := by
  have hmod : s.stashReset d = (s.modTr d fun t => { t with stash := (s.stashRegs d).reset t.stash }).stashResume d := by
    unfold State.stashReset Stash.reset
    rfl
  rw [hmod]
  refine State.stashResume_idle ?_
  rw [State.tr_modTr_same]
  exact (Stash.reset_stalled ..).trans h

/-- Settles O29. -/
theorem stashResetsAndReports : Obligations.StashResetsAndReports := by
  refine ⟨fun s d r hlive hr => ?_, fun s d x h => stashFullTimeout_eq h⟩
  intro t
  refine ⟨Completes.of_waitRecall ?_, fun hst => ?_⟩
  · simp only [exec, execStashReset, State.reachBy_heard 0x300 hlive hr]
    rfl
  · have ht : t = (s.reached (16 + d)).modTr d fun u => { u with stash := (s.stashRegs d).reset u.stash } := by
      have hst' : ((s.reached (16 + d)).tr d).stash.stalled = [] := by rw [State.tr_reached, hst]
      rw [← s.stashRegs_reached d (16 + d)]
      exact (s.reached (16 + d)).stashReset_idle d hst'
    have htr : (t.tr d).stash = (s.stashRegs d).reset (s.tr d).stash := by
      rw [ht, State.tr_modTr_same, State.tr_reached]
    obtain ⟨hrange, hrpages, hpool, hppages, hspill, hquota, hnospill, hmap⟩ := (s.stashRegs d).reset_regs (s.tr d).stash
    rw [htr]
    refine ⟨fun p => ?_, ?_, hrange, hrpages, hpool, hppages, hspill, hquota, hnospill, ?_, fun x hx => ?_⟩
    · rw [Stash.look, hmap, s.stashRegs_map]
      rfl
    · rw [hrange, s.stashRegs_range]
    · rw [ht, State.modTr_mem]
      exact Changes.reached.kept .mem (by decide)
    · rw [ht, State.tr_modTr_other _ _ _ _ fun hv => hx (Fin.ext hv.symm), State.tr_reached]

end Sys2Proof.Machine
end

section
/-! SUPPORT. Changes of a Loft slice's mode (R294, R297). -/
namespace Sys2Proof.Machine

/-- What a filter drops reads as nothing listed. -/
theorem Sparse.get_filter_dropped {α : Type} (z : α) {p : Nat × α → Bool} {k : Nat} (hk : ∀ v, p (k, v) = false) (m : List (Nat × α)) :
    Sparse.get z (m.filter p) k = z := by
  induction m with
  | nil => rfl
  | cons x m ih =>
    obtain ⟨a, v⟩ := x
    rw [List.filter_cons]
    split
    · rename_i hp
      have ha : a ≠ k := by
        rintro rfl
        simp [hk] at hp
      simp [Sparse.get, ha, ih]
    · exact ih

/-- A cleared range reads as nothing listed, and the rest as before. -/
theorem Sparse.get_clear {α : Type} (z : α) (m : List (Nat × α)) (lo hi a : Nat) :
    Sparse.get z (Sparse.clear m lo hi) a = if lo ≤ a ∧ a < hi then z else Sparse.get z m a := by
  unfold Sparse.clear
  by_cases h : lo ≤ a ∧ a < hi
  · rw [if_pos h]
    exact Sparse.get_filter_dropped z (fun v => by simp; omega) m
  · rw [if_neg h]
    exact Sparse.get_filter z (fun v => by simp; omega) m

variable (s : State) (k : StackId)

theorem State.loftAt_congr {s t : State} (h : t.loft = s.loft) (x : Nat) : t.loftAt x = s.loftAt x := congrArg (fun v => vget v x ({} : Loft)) h

/-! ### LOFT_RECONF (R297) -/

theorem State.loftAt_writeLoft_same (r : Requester) (off : Nat) (data mask : Half) : (s.writeLoft k r off data mask).loftAt k =
    if (s.regWrite r (32 + k) off data mask).loftDiffers k then { s.loftAt k with reconf := true } else s.loftAt k := by
  have hw : (s.regWrite r (32 + k) off data mask).loftAt k = s.loftAt k := State.loftAt_congr (Changes.regWrite.kept .loft (by decide)) k
  unfold State.writeLoft
  dsimp only
  split
  · rw [State.loftAt_modLoft_same, hw]
  · exact hw

theorem State.loftAt_writeLoft_other (r : Requester) (off : Nat) (data mask : Half) {j : StackId} (hj : j ≠ k) :
    (s.writeLoft k r off data mask).loftAt j = s.loftAt j := by
  have hw : (s.regWrite r (32 + k) off data mask).loftAt j = s.loftAt j := State.loftAt_congr (Changes.regWrite.kept .loft (by decide)) j
  unfold State.writeLoft
  dsimp only
  split
  · rw [State.loftAt_modLoft_other _ _ _ _ fun hv => hj (Fin.ext hv.symm), hw]
  · exact hw

theorem State.loftAt_reached (dom j : Nat) : (s.reached dom).loftAt j = s.loftAt j := State.loftAt_congr (Changes.reached.kept .loft (by decide)) j

/-! ### LOFT_RECONF_DONE (R294) -/

/-- What a slice keeps when the mode of the registers comes into force. -/
theorem State.loftAt_loftApply_same : ((s.loftApply k).loftAt k).mode = bits (s.cfg (32 + k) 0).toNat 1 2 ∧
    ((s.loftApply k).loftAt k).expert = s.level (32 + k) 0 := by
  unfold State.loftApply
  simp only [State.loftAt_modLoft_same, and_self]

theorem State.loftAt_loftApply_other {j : StackId} (hj : j ≠ k) : (s.loftApply k).loftAt j = s.loftAt j := by
  unfold State.loftApply
  dsimp only
  rw [State.loftAt_modLoft_other _ _ _ _ fun hv => hj (Fin.ext hv.symm)]
  exact State.loftAt_congr ((Changes.andThen Changes.occ Changes.wipe).kept .loft (by decide)) j

theorem Loft.scratch_of_mode {l m : Loft} (h : l.mode = m.mode) : l.scratch = m.scratch := by rw [Loft.scratch, Loft.scratch, h]

/-- The bytes of the scratchpad that come or go are wiped. -/
theorem State.mem_loftApply (a : Nat) :
    let base := 0x8000000000 + k.val * 0x8000000
    let lo := base + min (s.loftAt k).scratch ((s.loftApply k).loftAt k).scratch
    let hi := base + max (s.loftAt k).scratch ((s.loftApply k).loftAt k).scratch
    Sparse.get emptyByte (s.loftApply k).mem a = (if lo ≤ a ∧ a < hi then emptyByte else s.byte a) ∧
    Sparse.get false (s.loftApply k).poison a = if lo ≤ a ∧ a < hi then false else Sparse.get false s.poison a := by
  intro base lo hi
  have hscr : ((s.loftApply k).loftAt k).scratch = Loft.scratch { s.loftAt k with
      mode := bits (s.cfg (32 + k) 0).toNat 1 2, expert := s.level (32 + k) 0, streamna := (s.cfg (32 + k) 4).getLsbD 0
      prefways := s.cfgBits (32 + k) 4 1 5 } := Loft.scratch_of_mode (s.loftAt_loftApply_same k).1
  simp only [lo, hi, hscr]
  unfold State.loftApply
  dsimp only [State.modLoft_mem, State.modLoft_poison, State.wipe]
  rw [Sparse.get_clear, Sparse.get_clear, State.occ_mem, State.occ_poison]
  exact ⟨rfl, rfl⟩

theorem Loft.scratch_dvd (l : Loft) : ∃ n, l.scratch = 0x4000000 * n ∧ n ≤ 2 := by
  unfold Loft.scratch
  split
  · exact ⟨0, rfl, by decide⟩
  · split
    · exact ⟨2, rfl, by decide⟩
    · exact ⟨1, rfl, by decide⟩

/-- A checked unit of the Loft window is 32 bytes (R290). -/
theorem unitOf_loft {x : Nat} (hx : x < 0x40000000) : unitOf (0x8000000000 + x) = 0x8000000000 + x / 32 * 32 := by
  have h1 : ¬0x8000000000 + x < 0x8000000000 := by omega
  have h2 : (decide ((0x8000000000 + x) / 0x100000000 = 0x80) && decide ((0x8000000000 + x) % 0x100000000 < 0x40000000)) = true := by
    simp only [Bool.and_eq_true, decide_eq_true_eq]
    omega
  have hunit : (placeOf (0x8000000000 + x)).region.unit = 32 := by
    rw [placeOf, if_neg h1, if_pos h2]
    rfl
  rw [unitOf, hunit]
  omega

theorem loftReconfDone_eq (h : (s.loftAt k).reconf = true) :
    exec (.loftReconfDone k) s = .next (((s.loftApply k).modLoft k fun l => { l with reconf := false }).occ (32 + k) 3) := by
  simp only [exec, execLoftReconfDone, h, if_true]

theorem loftReconfDone_idle (h : (s.loftAt k).reconf = false) : exec (.loftReconfDone k) s = .next s := by
  simp only [exec, execLoftReconfDone, h, Bool.false_eq_true, if_false]

/-- Settles O30. -/
theorem loftModeChangesClearTheScratchpad : Obligations.LoftModeChangesClearTheScratchpad := by
  refine ⟨fun s k r x data mask hlive hr => ?_, fun s k hrec _ _ => ?_, loftReconfDone_idle⟩
  · intro off w t
    refine ⟨?_, (Changes.andThen Changes.reached Changes.writeLoft).kept .mem (by decide), fun j hj => ?_, ?_⟩
    · simp only [exec, execLoftReconf, State.reachBy_heard _ hlive hr]
      rfl
    · rw [State.loftAt_writeLoft_other _ _ _ _ _ _ hj, State.loftAt_reached]
    · rw [State.loftAt_writeLoft_same, State.loftAt_reached]
  · intro base t lo hi
    have hocc (j : Nat) : t.loftAt j = ((s.loftApply k).modLoft k fun l => { l with reconf := false }).loftAt j :=
      State.loftAt_congr (Changes.occ.kept .loft (by decide)) j
    have hk : t.loftAt k = { (s.loftApply k).loftAt k with reconf := false } := by rw [hocc, State.loftAt_modLoft_same]
    have hscr : (t.loftAt k).scratch = ((s.loftApply k).loftAt k).scratch := by
      rw [hk]
      exact Loft.scratch_of_mode rfl
    obtain ⟨hmode, hexpert⟩ := s.loftAt_loftApply_same k
    have hmem : t.mem = (s.loftApply k).mem := Changes.occ.kept .mem (by decide)
    have hpoison : t.poison = (s.loftApply k).poison := Changes.occ.kept .poison (by decide)
    have hget (a : Nat) := s.mem_loftApply k a
    simp only [← hscr] at hget
    refine ⟨loftReconfDone_eq s k hrec, by rw [hk], by rw [hk]; exact hmode, by rw [hk]; exact hexpert, fun j hj => ?_, fun a ha => ?_, fun a h1 h2 => ⟨?_, ?_⟩⟩
    · rw [hocc, State.loftAt_modLoft_other _ _ _ _ fun hv => hj (Fin.ext hv.symm), s.loftAt_loftApply_other k hj]
    · rw [State.byte, hmem, (hget a).1, if_neg (by omega)]
    · rw [State.byte, hmem, (hget a).1, if_pos ⟨h1, h2⟩]
      rfl
    · obtain ⟨n, hn, hn2⟩ := (s.loftAt k).scratch_dvd
      obtain ⟨m, hm, hm2⟩ := (t.loftAt k).scratch_dvd
      have hkv : k.val < 8 := k.isLt
      have hbounds : base + min (s.loftAt k).scratch (t.loftAt k).scratch ≤ a ∧ a < base + max (s.loftAt k).scratch (t.loftAt k).scratch := ⟨h1, h2⟩
      rw [hn, hm] at hbounds
      obtain ⟨x, rfl⟩ : ∃ x, a = 0x8000000000 + x := ⟨a - 0x8000000000, by omega⟩
      have hu : base + min (s.loftAt k).scratch (t.loftAt k).scratch ≤ unitOf (0x8000000000 + x) ∧
          unitOf (0x8000000000 + x) < base + max (s.loftAt k).scratch (t.loftAt k).scratch := by
        rw [hn, hm, unitOf_loft (by omega)]
        omega
      rw [State.poisonAt, hpoison, (hget _).2, if_pos hu]

end Sys2Proof.Machine
end

section
/-! SUPPORT. The entries of the object table (R307, R308). -/
namespace Sys2Proof.Machine

theorem objSw_eq (w : Nat) : objSw w = w % 64 + w / 65536 % 4096 * 65536 := by simp [objSw, bits]

theorem objSw_lt (w : Nat) : objSw w < 2 ^ 28 := by
  rw [objSw_eq]
  omega

/-- The entry that registering spells: the software's fields, RESIDENT, at home, without pins. -/
theorem Obj.ofWords_registered {w w1 w2 w3 : Nat} (hw : w % 2 = 1) :
    Obj.ofWords (objSw w + 0x100) w1 w2 w3 =
      { Obj.ofWords w w1 w2 w3 with valid := true, state := 1, upauth := false, pins := 0, pending := false } := by
  have h5 : (w % 64 + w / 65536 % 4096 * 65536 + 256) / 32 % 2 = w / 32 % 2 := by omega
  simp only [Obj.ofWords, bits, objSw_eq, Obj.mk.injEq, decide_eq_true_eq, decide_eq_false_iff_not, and_true, Nat.reducePow, Nat.pow_zero, Nat.pow_one,
    Nat.div_one, h5]
  exact ⟨by omega, by omega, by omega, trivial, by omega, by omega, by omega, by omega, by omega⟩

/-- Entries whose first word lacks its lowest bit are not VALID. -/
theorem Obj.ofWords_valid_of_odd {w0 w1 w2 w3 : Nat} (h : w0 % 2 = 0) : (Obj.ofWords w0 w1 w2 w3).valid = false := by
  have hb : ¬bits w0 0 1 = 1 := by
    simp only [bits]
    omega
  exact decide_eq_false hb

theorem obKey_inj {m n i j : Nat} (hi : i < 8) (hj : j < 8) (h : obKey m i = obKey n j) : m = n ∧ i = j := by
  simp only [obKey] at h
  omega

variable {s : State}

/-- Writing one word of an entry leaves the other words. -/
theorem State.tword_setTable_obKey (h : s.Canonical) {n i v : Nat} (hi : i < 8) (hv : v < 2 ^ 64) (m : Nat) {j : Nat} (hj : j < 8) :
    (s.setTable (obKey n i) v).tword (obKey m j) = if m = n ∧ j = i then v else s.tword (obKey m j) := by
  rw [s.tword_setTable h.table _ _ _ hv]
  by_cases heq : m = n ∧ j = i
  · obtain ⟨rfl, rfl⟩ := heq
    rw [if_pos rfl, if_pos ⟨rfl, rfl⟩]
  · rw [if_neg heq, if_neg fun hk => heq (obKey_inj hj hi hk)]

/-- An entry after its first word is written. -/
theorem State.obj_setWord0 (h : s.Canonical) {n v : Nat} (hv : v < 2 ^ 64) (m : Nat) :
    (s.setTable (obKey n 0) v).obj m =
      if m = n then Obj.ofWords v (s.tword (obKey n 1)) (s.tword (obKey n 2)) (s.tword (obKey n 3)) else s.obj m := by
  simp only [State.obj, State.tword_setTable_obKey h (by decide : 0 < 8) hv m (by decide : 0 < 8),
    State.tword_setTable_obKey h (by decide : 0 < 8) hv m (by decide : 1 < 8), State.tword_setTable_obKey h (by decide : 0 < 8) hv m (by decide : 2 < 8),
    State.tword_setTable_obKey h (by decide : 0 < 8) hv m (by decide : 3 < 8)]
  by_cases hm : m = n
  · subst hm
    simp
  · simp [hm]

/-- The words of an entry after the third are no part of it. -/
theorem State.obj_setWord (h : s.Canonical) {n i v : Nat} (hi : i < 8) (h3 : 3 < i) (hv : v < 2 ^ 64) (m : Nat) :
    (s.setTable (obKey n i) v).obj m = s.obj m := by
  simp only [State.obj, State.tword_setTable_obKey h hi hv m (by decide : 0 < 8), State.tword_setTable_obKey h hi hv m (by decide : 1 < 8),
    State.tword_setTable_obKey h hi hv m (by decide : 2 < 8), State.tword_setTable_obKey h hi hv m (by decide : 3 < 8)]
  rw [if_neg (by omega), if_neg (by omega), if_neg (by omega), if_neg (by omega)]

theorem State.obj_congr {t : State} (h : t.table = s.table) (m : Nat) : t.obj m = s.obj m := by
  simp only [State.obj, State.tword, h]

theorem State.obj_occ (dom i n m : Nat) : (s.occ dom i n).obj m = s.obj m := State.obj_congr (s.occ_table ..) m

/-! ### What a write of the first word does -/

variable {n w : Nat}

theorem State.writeObj0_other (h : s.Canonical) {m : Nat} (hm : m ≠ n) : (s.writeObj0 n w).obj m = s.obj m := by
  have hlt := objSw_lt w
  have hset (v : Nat) (hv : v < 2 ^ 64) : (s.setTable (obKey n 0) v).obj m = s.obj m := by rw [State.obj_setWord0 h hv, if_neg hm]
  have hsw := hset (objSw w) (by omega)
  unfold State.writeObj0
  dsimp only
  split
  · split
    · exact hsw
    · exact State.obj_occ ..
  · split
    · exact hsw
    · split
      · rw [State.obj_setWord ((h.setTable ..).setTable ..) (by decide) (by decide) (by decide),
          State.obj_setWord (h.setTable ..) (by decide) (by decide) (by decide), hset _ (by omega)]
      · rw [State.obj_occ, hset _ (by omega)]

theorem State.writeObj0_registers (h : s.Canonical) (hw : w % 2 = 1) (hv : (s.obj n).valid = false) (hn : n ≠ 0)
    (hok : s.objOk (Obj.ofWords w (s.tword (obKey n 1)) (s.tword (obKey n 2)) (s.tword (obKey n 3))) = true) :
    (s.writeObj0 n w).obj n = { Obj.ofWords w (s.tword (obKey n 1)) (s.tword (obKey n 2)) (s.tword (obKey n 3)) with
      valid := true, state := 1, upauth := false, pins := 0, pending := false } := by
  have hlt := objSw_lt w
  have hb : ¬bits w 0 1 = 0 := by
    simp only [bits]
    omega
  unfold State.writeObj0
  dsimp only
  rw [if_neg (by simp [hv]), if_neg hb, if_pos (by simp [hn, hok]), State.obj_setWord ((h.setTable ..).setTable ..) (by decide) (by decide) (by decide),
    State.obj_setWord (h.setTable ..) (by decide) (by decide) (by decide), State.obj_setWord0 h (by omega), if_pos rfl, Obj.ofWords_registered hw]

theorem State.writeObj0_refuses (h : s.Canonical) (hw : w % 2 = 1) (hv : (s.obj n).valid = false)
    (hno : n = 0 ∨ s.objOk (Obj.ofWords w (s.tword (obKey n 1)) (s.tword (obKey n 2)) (s.tword (obKey n 3))) = false) :
    ((s.writeObj0 n w).obj n).valid = false := by
  have hlt := objSw_lt w
  have hb : ¬bits w 0 1 = 0 := by
    simp only [bits]
    omega
  unfold State.writeObj0
  dsimp only
  rw [if_neg (by simp [hv]), if_neg hb, if_neg (by simp; tauto), State.obj_occ, State.obj_setWord0 h (by omega), if_pos rfl]
  refine Obj.ofWords_valid_of_odd ?_
  rw [objSw_eq]
  omega

theorem State.writeObj0_keeps (hv : (s.obj n).valid = true)
    (hno : w % 2 = 1 ∨ (s.obj n).state ≠ 1 ∨ (s.obj n).upauth = true ∨ (s.obj n).pins ≠ 0 ∨ ∃ r ∈ s.obreqs, r.obj = n) :
    (s.writeObj0 n w).obj n = s.obj n := by
  have hno' : ¬(bits w 0 1 = 0 && (s.obj n).state = 1 && !(s.obj n).upauth && (s.obj n).pins = 0 && !s.obreqs.any (·.obj = n)) = true := by
    simp only [Bool.and_eq_true, decide_eq_true_eq, Bool.not_eq_true', List.any_eq_false, not_and]
    rintro ⟨⟨⟨h1, h2⟩, h3⟩, h4⟩ h5
    obtain hodd | hst | hup | hp | ⟨r, hr, hrn⟩ := hno
    · have hb : bits w 0 1 = 0 := h1
      simp only [bits] at hb
      omega
    · exact hst h2
    · simp [h3] at hup
    · exact hp h4
    · exact h5 r hr hrn
  unfold State.writeObj0
  dsimp only
  rw [if_pos hv, if_neg hno', State.obj_occ]

theorem State.writeObj0_leaves (h : s.Canonical) (hw : w % 2 = 0) (hv : (s.obj n).valid = true) (hst : (s.obj n).state = 1)
    (hup : (s.obj n).upauth = false) (hp : (s.obj n).pins = 0) (hr : ∀ r ∈ s.obreqs, r.obj ≠ n) : ((s.writeObj0 n w).obj n).valid = false := by
  have hlt := objSw_lt w
  have hb : bits w 0 1 = 0 := by
    simp only [bits]
    omega
  have hyes : (bits w 0 1 = 0 && (s.obj n).state = 1 && !(s.obj n).upauth && (s.obj n).pins = 0 && !s.obreqs.any (·.obj = n)) = true := by
    simp only [Bool.and_eq_true, decide_eq_true_eq, Bool.not_eq_true', List.any_eq_false]
    exact ⟨⟨⟨⟨hb, hst⟩, hup⟩, hp⟩, fun r h1 => by simpa using hr r h1⟩
  unfold State.writeObj0
  dsimp only
  rw [if_pos hv, if_pos hyes, State.obj_setWord0 h (by omega), if_pos rfl]
  refine Obj.ofWords_valid_of_odd ?_
  rw [objSw_eq]
  omega

theorem State.tableWrite_live (h : s.isLive 59 = true) (k : Nat) (f : State → State) : s.tableWrite k f = f s := by
  rw [State.tableWrite, if_pos h]

theorem State.tableWrite_dark (h : s.isLive 59 = false) (k : Nat) (f : State → State) : (s.tableWrite k f).table = s.table ∧ (s.tableWrite k f).mem = s.mem := by
  rw [State.tableWrite, if_neg (by simp [h])]
  exact ⟨Changes.darkAccess.kept .table (by decide), Changes.darkAccess.kept .mem (by decide)⟩

/-- Settles O31. -/
theorem objectsAreRegisteredWhenLegal : Obligations.ObjectsAreRegisteredWhenLegal := by
  refine ⟨fun s n w hdark => ⟨⟨_, rfl, s.tableWrite_dark hdark _ _⟩, ⟨_, rfl, s.tableWrite_dark hdark _ _⟩⟩, fun s n w hlive hs => ?_⟩
  intro v o
  have hodd : (w.toNat / 2 * 2 + 1) % 2 = 1 := by omega
  have heven : (w.toNat / 2 * 2) % 2 = 0 := by omega
  refine ⟨⟨s.writeObj0 n v, ?_, Changes.writeObj0.kept .mem (by decide), fun m hm => s.writeObj0_other hs hm, fun hv hn hok => ?_,
    s.writeObj0_refuses hs hodd, fun hv => s.writeObj0_keeps hv (.inl hodd)⟩,
    ⟨s.writeObj0 n (w.toNat / 2 * 2), ?_, Changes.writeObj0.kept .mem (by decide), fun m hm => s.writeObj0_other hs hm,
      s.writeObj0_leaves hs heven, fun hv hno => s.writeObj0_keeps hv (.inr hno)⟩⟩
  · simp only [exec, execObjectRegister, State.tableWrite_live hlive]
    rfl
  · rw [s.writeObj0_registers hs hodd hv hn hok]
    exact ⟨rfl, rfl, rfl, rfl, rfl, rfl, rfl, rfl, rfl⟩
  · simp only [exec, execObjectDeregister, State.tableWrite_live hlive]

end Sys2Proof.Machine
end

section
/-! SUPPORT. The courses of an array: what a change of one leaves, loads and swaps (R44 to R52, R65, R235). -/
namespace Sys2Proof.Machine

/-! ### Rules of the state of an array -/

variable {s t : State}

theorem State.gaAt_congr (h : t.ga = s.ga) (x : Nat) : t.gaAt x = s.gaAt x := congrArg (fun v => vget v x ({} : Ga)) h

theorem Changes.gaAt {K : List Part} (h : Changes K s t) (x : Nat) (hK : Part.ga ∉ K := by decide) : t.gaAt x = s.gaAt x :=
  State.gaAt_congr (h.kept .ga hK) x

@[simp] theorem Ga.course_modCourse_same (g : Ga) {c : Nat} (f : Course → Course) (hc : c < 36) : (g.modCourse c f).course c = f (g.course c) :=
  vget_vmod_same _ _ _ _ hc

@[simp] theorem Ga.course_modCourse_other (g : Ga) {c x : Nat} (f : Course → Course) (hx : c ≠ x) : (g.modCourse c f).course x = g.course x :=
  vget_vmod_other _ _ _ _ _ hx

theorem State.gaAt_modGa (s : State) {i : Nat} (hi : i < 8) (f : Ga → Ga) : (s.modGa i f).gaAt i = f (s.gaAt i) := s.gaAt_modGa_same ⟨i, hi⟩ f

theorem State.gaAt_modCourse (s : State) {i : Nat} (hi : i < 8) (c : Nat) (f : Course → Course) : (s.modCourse i c f).gaAt i = (s.gaAt i).modCourse c f :=
  s.gaAt_modGa hi _

theorem State.course_modCourse_same (s : State) {i : Nat} (hi : i < 8) {c : Nat} (f : Course → Course) (hc : c < 36) :
    ((s.modCourse i c f).gaAt i).course c = f ((s.gaAt i).course c) := by
  rw [State.gaAt_modCourse _ hi, Ga.course_modCourse_same _ _ hc]

/-- An array at which nothing waits has nothing to settle. -/
theorem State.settle_idle {i : Nat} (h : (s.gaAt i).ops = []) : s.settle i = s := by
  rw [State.settle, h]
  exact ite_self _

/-! ### MM.LOADW (R232 to R234) -/

theorem arrayOf_lt (d : TrussId) (a : LocalId) : 2 * d.val + a.val < 8 := by omega

theorem State.issue_descWords (d q : Nat) (e : QEntry) (x n : Nat) : ((s.issue d q e).tr x).descWords n = (s.tr x).descWords n := by
  have h : s.TrussKeeps Truss.desc (s.issue d q e) := State.TrussKeeps.modTr fun t => (congrArg Truss.desc (t.takeWaits_keeps e.wa e.wb) :)
  rw [Truss.descWords, Truss.descWords, h x]

theorem State.issue_desc (d q : Nat) (e : QEntry) (x n : Nat) : (s.issue d q e).desc x n = s.desc x n := by
  rw [State.desc, State.desc, State.issue_descWords]

theorem firstTrap_none {l : List (Option TrapCause)} (h : ∀ x ∈ l, x = none) : firstTrap l = none := by
  have hl : l.filterMap id = [] := List.filterMap_eq_nil_iff.2 h
  rw [firstTrap, hl]
  rfl

/-- The load that an MM.LOADW starts. -/
def State.loadOf (s : State) (d : TrussId) (e : QEntry) : Load :=
  { ins := ⟨d, e.seq⟩, e, stat := (s.tr d).descWords e.da, edge := bits e.mod 1 2
    bank := tileBank (s.desc d e.da) (e.m 3) (edgeOf (bits e.mod 1 2)) (e.db + 4096 * e.hi 0 20) }

theorem mmLoadw_complete {d : TrussId} {a : LocalId} {e : QEntry} (h : s.AtHead d (1 + a) 0x10 e) (hx : (s.desc d e.da).check arrayFmt = none)
    (hmx : isMx (s.desc d e.da).fmt = true → e.m 3 = true) (hbad : (s.gaAt (2 * d.val + a.val)).edgeBad (bits e.mod 1 2) = false)
    (hcut : bits e.mod 1 2 = (s.gaAt (2 * d.val + a.val)).cut) :
    Completes (.mmLoadw d a) s ((s.issue d (1 + a) e).modCourse (2 * d.val + a.val) e.cr fun k => { k with load := some (s.loadOf d e) }) := by
  refine Completes.of_waitRecall ?_
  have hmx' : ¬(isMx (s.desc d e.da).fmt && !e.m 3) = true := by
    simp only [Bool.and_eq_true, Bool.not_eq_true', not_and, Bool.not_eq_false]
    exact hmx
  have htrap : firstTrap [(s.desc d e.da).check arrayFmt, if isMx (s.desc d e.da).fmt && !e.m 3 then some .mxAxis else none,
      if (s.gaAt (2 * d.val + a.val)).edgeBad (bits e.mod 1 2) then some .edge else none] = none :=
    firstTrap_none (by rw [hx, if_neg hmx', hbad]; simp)
  have hready : s.ready d (1 + a) 0x10 = some e := h
  simp only [exec, execMmLoadw]
  rw [hready]
  simp only [State.issue_desc, State.issue_descWords]
  rw [htrap]
  exact congrArg (waitRecall s) (congrArg Host.Outcome.next (if_pos hcut))

/-! ### SHADOW_LOAD_BEGIN (R49, R52) -/

theorem State.value_congr (h : t.mem = s.mem) (x : Desc) (r c : Nat) : t.value x r c = s.value x r c := by
  have hn (a n : Nat) : t.readNat a n = s.readNat a n := by rw [State.readNat, State.readNat, State.bytes, State.bytes, h]
  simp only [State.value, State.code, State.scaleCode, hn]

theorem State.tileData_congr (h : t.mem = s.mem) (x : Desc) (tr : Bool) (b : Bank) (edge : Nat) : t.tileData x tr b edge = s.tileData x tr b edge := by
  simp only [State.tileData, State.valueT, State.value_congr h]

/-- Dropping a fill tile touches the shadow bank of its course alone. -/
theorem State.course_dropFill (s : State) {i c : Nat} (hi : i < 8) (hc : c < 36) :
    ∃ b, ((s.dropFill i c).gaAt i).course c = { (s.gaAt i).course c with shadow := b } := by
  unfold State.dropFill
  split
  · exact ⟨_, rfl⟩
  · refine ⟨{}, ?_⟩
    rw [(Changes.andThen Changes.modTr Changes.occ).gaAt, State.course_modCourse_same _ hi _ hc]

theorem shadowLoadBegin_complete {i : ArrayId} {c : Fin 36} {l : Load} (h : ((s.gaAt i).course c).load = some l) (hb : l.began = false)
    (hg : (s.gaAt i).held = false) : Completes (.shadowLoadBegin i c) s (s.beginLoad i c l) := by
  refine Completes.of_waitRecall ?_
  simp only [exec, execShadowLoadBegin, h, hb, hg]
  rfl

/-- The load of a course that has begun holds the tile's values. -/
theorem State.course_beginLoad (s : State) {i c : Nat} (hi : i < 8) (hc : c < 36) (l : Load) : ∃ b m, ((s.beginLoad i c l).gaAt i).course c =
    { (s.gaAt i).course c with shadow := b, load := some m } ∧ m.began = true ∧ m.ins = l.ins ∧
      m.bank.data = s.tileData (Desc.ofWords l.stat) (l.e.m 3) l.bank (edgeOf l.edge) := by
  obtain ⟨b, hb⟩ := s.course_dropFill hi hc
  have hmem : ((s.dropFill i c).access (.cd (i / 2)) (feederPlace (i / 2)) (tileSpans (Desc.ofWords l.stat) (l.e.m 3) l.bank (edgeOf l.edge)) []).1.mem = s.mem :=
    (Changes.andThen Changes.dropFill Changes.access).kept .mem (by decide)
  unfold State.beginLoad
  dsimp only
  rw [State.course_modCourse_same _ hi _ hc, Changes.access.gaAt, hb]
  exact ⟨b, _, rfl, rfl, rfl, State.tileData_congr hmem ..⟩

/-! ### SHADOW_LOAD_END (R44, R51) -/

theorem shadowLoadEnd_complete {i : ArrayId} {c : Fin 36} {l : Load} (h : ((s.gaAt i).course c).load = some l) (hb : l.began = true) (ht : l.trap = none) :
    Completes (.shadowLoadEnd i c) s
      (((s.modCourse i c fun k => { k with load := none, shadow := { l.bank with valid := true } }).finishRef l.ins none).settle i) := by
  refine Completes.of_waitRecall ?_
  simp only [exec, execShadowLoadEnd, h, hb, ht]
  rfl

theorem shadowLoadEnd_traps {i : ArrayId} {c : Fin 36} {l : Load} {x : TrapCause} (h : ((s.gaAt i).course c).load = some l) (hb : l.began = true)
    (ht : l.trap = some x) : Completes (.shadowLoadEnd i c) s ((((s.trapRef l.ins x).loadFails i c).finishRef l.ins none).settle i) := by
  refine Completes.of_waitRecall ?_
  simp only [exec, execShadowLoadEnd, h, hb, ht]
  rfl

/-- A load that does not come about leaves the live bank, and where nothing waits, nothing. -/
theorem State.gaAt_loadGone (s : State) {i c : Nat} (hi : i < 8) (hops : (s.gaAt i).ops = []) :
    (s.loadGone i c).gaAt i = (s.gaAt i).modCourse c fun k => { k with load := none, shadow := {} } := by
  unfold State.loadGone
  dsimp only
  split
  · rw [(Changes.each fun _ _ => Changes.bankInvalid).gaAt, State.gaAt_modGa _ hi, State.gaAt_modCourse _ hi]
    simp [Ga.modCourse, hops]
  · exact s.gaAt_modCourse hi _ _

theorem State.ops_loadFails (s : State) {i c : Nat} (hi : i < 8) (hc : c < 36) (hops : (s.gaAt i).ops = []) :
    ((s.loadFails i c).gaAt i).ops = [] ∧ ∃ b, ((s.loadFails i c).gaAt i).course c = { (s.gaAt i).course c with load := none, shadow := {}, failed := b } := by
  have hmod : ((s.modCourse i c fun k => { k with failed := k.failed || (s.gaAt i).swapOn c }).gaAt i).ops = [] := by
    rw [State.gaAt_modCourse _ hi]
    exact hops
  rw [State.loadFails, State.gaAt_loadGone _ hi hmod]
  refine ⟨hmod, ((s.gaAt i).course c).failed || (s.gaAt i).swapOn c, ?_⟩
  rw [Ga.course_modCourse_same _ _ hc, State.course_modCourse_same _ hi _ hc]

/-- Settles O16. -/
theorem shadowLoadFillsTheShadowBank : Obligations.ShadowLoadFillsTheShadowBank := by
  refine ⟨?loadw, ?begins, ?ends, ?traps⟩
  case loadw =>
    intro s d a e h hcr i k x edge hload hsh hx hmx hbad hcut l t
    exact ⟨mmLoadw_complete h hx hmx hbad hcut, State.course_modCourse_same _ (arrayOf_lt d a) _ hcr⟩
  case begins =>
    intro s i c l h hb hg t
    obtain ⟨b, m, hm, hbegan, hins, hdata⟩ := s.course_beginLoad i.isLt c.isLt l
    refine ⟨shadowLoadBegin_complete h hb hg, ?_, m, ?_, hbegan, hins, hdata⟩
    · rw [hm]
    · rw [hm]
  case ends =>
    intro s i c l h hb ht t
    refine ⟨shadowLoadEnd_complete h hb ht, fun hops => ?_⟩
    have hga : ((s.modCourse i c fun k => { k with load := none, shadow := { l.bank with valid := true } }).finishRef l.ins none).gaAt i =
        (s.gaAt i).modCourse c fun k => { k with load := none, shadow := { l.bank with valid := true } } := s.gaAt_modCourse i.isLt _ _
    have hset : t = (s.modCourse i c fun k => { k with load := none, shadow := { l.bank with valid := true } }).finishRef l.ins none :=
      State.settle_idle (by rw [hga]; exact hops)
    rw [hset, hga, Ga.course_modCourse_same _ _ c.isLt]
  case traps =>
    intro s i c l x h hb ht hops t
    have htrap : (s.trapRef l.ins x).gaAt i = s.gaAt i := Changes.trapRef.gaAt _
    obtain ⟨hnone, b, hcourse⟩ := (s.trapRef l.ins x).ops_loadFails i.isLt c.isLt (by rw [htrap]; exact hops)
    have hset : t = ((s.trapRef l.ins x).loadFails i c).finishRef l.ins none := State.settle_idle hnone
    have ht : (t.gaAt i).course c = { (s.gaAt i).course c with load := none, shadow := {}, failed := b } := by
      rw [hset, Changes.finishRef.gaAt, hcourse, htrap]
    rw [ht]
    exact ⟨shadowLoadEnd_traps h hb ‹_›, rfl, rfl, rfl⟩

end Sys2Proof.Machine
end

section
/-! SUPPORT. Swaps of an array (R48, R65, R71, R235). -/
namespace Sys2Proof.Machine

variable {s : State}

/-- A course after its shadow bank became the live bank. -/
def Course.swapped (k : Course) : Course := { k with live := k.shadow, shadow := {}, parity := false }

theorem State.course_swapFore (s : State) {i c : Nat} (hi : i < 8) (hc : c < 36) : ((s.swapFore i c).gaAt i).course c = ((s.gaAt i).course c).swapped := by
  rw [State.swapFore, State.gaAt_modGa _ hi, State.swapCourse, Changes.occ.gaAt, State.gaAt_modCourse _ hi]
  exact Ga.course_modCourse_same _ _ hc

theorem State.course_swapFore_other (s : State) {i c x : Nat} (hi : i < 8) (hx : c ≠ x) : ((s.swapFore i c).gaAt i).course x = (s.gaAt i).course x := by
  rw [State.swapFore, State.gaAt_modGa _ hi, State.swapCourse, Changes.occ.gaAt, State.gaAt_modCourse _ hi]
  exact Ga.course_modCourse_other _ _ hx

theorem State.ops_swapFore (s : State) {i : Nat} (c : Nat) (hi : i < 8) (hops : (s.gaAt i).ops = []) : ((s.swapFore i c).gaAt i).ops = [] := by
  rw [State.swapFore, State.gaAt_modGa _ hi, State.swapCourse, Changes.occ.gaAt, State.gaAt_modCourse _ hi]
  simp [Ga.landed, Ga.modCourse, hops]

/-! ### An operation that may act at once -/

theorem State.modGa_modGa (s : State) (i : Nat) (f g : Ga → Ga) : (s.modGa i f).modGa i g = s.modGa i fun x => g (f x) := by
  by_cases hi : i < 8
  · simp [State.modGa, vmod, hi]
  · simp [State.modGa, vmod, hi]

theorem State.modGa_self (s : State) {i : Nat} (hi : i < 8) {f : Ga → Ga} (h : f (s.gaAt i) = s.gaAt i) : s.modGa i f = s := by
  have h' : f s.ga[i] = s.ga[i] := by simpa [State.gaAt, vget, hi] using h
  simp [State.modGa, vmod, hi, h']

/-- An operation that comes alone and may act, acts. -/
theorem State.enqueue_ready (s : State) {i : Nat} (hi : i < 8) {o : ArrOp} (hops : (s.gaAt i).ops = []) (hhold : s.pwrc.hold = false)
    (hready : ({ s.gaAt i with ops := [o] } : Ga).opReady [] o = true) : s.enqueue i o = s.fire i o := by
  have hga : (s.modGa i fun g => { g with ops := g.ops ++ [o] }).gaAt i = { s.gaAt i with ops := [o] } := by
    rw [State.gaAt_modGa _ hi, hops]
    rfl
  have hback : (s.modGa i fun g => { g with ops := g.ops ++ [o] }).modGa i (fun g => { g with ops := [] }) = s := by
    rw [State.modGa_modGa]
    exact s.modGa_self hi (by rw [← hops])
  rw [State.enqueue, State.settle, if_neg (by rw [State.modGa_pwrc, hhold]; decide), hga]
  change State.drive _ i 1 = _
  rw [State.drive, hga]
  simp only [splitReady, hready, if_true, List.nil_append, hback]
  rfl

variable {d : TrussId} {a : LocalId} {e : QEntry}

theorem State.issue_gaAt (s : State) (d q : Nat) (e : QEntry) (x : Nat) : (s.issue d q e).gaAt x = s.gaAt x := rfl

/-- With AUTOSWAP in force MM.SWAP does nothing but complete. -/
theorem mmSwap_autoswap (h : s.AtHead d (1 + a) 0x11 e) (hauto : (s.gaAt (2 * d.val + a.val)).autoswap = true) :
    Completes (.mmSwap d a) s ((s.issue d (1 + a) e).finish d e.seq) := by
  refine Completes.of_waitRecall ?_
  have hready : s.ready d (1 + a) 0x11 = some e := h
  simp only [exec, execMmSwap]
  rw [hready]
  exact congrArg (waitRecall s) (if_pos hauto)

/-- Else it waits for its slot, where a foreground tile or a load stands there. -/
theorem mmSwap_enqueues (h : s.AtHead d (1 + a) 0x11 e) (hauto : (s.gaAt (2 * d.val + a.val)).autoswap = false)
    {c : Nat} (hc : c ∈ if e.m 1 then (s.gaAt (2 * d.val + a.val)).all else [e.cr])
    (hsh : ((s.gaAt (2 * d.val + a.val)).course c).fgShadow = true) :
    Completes (.mmSwap d a) s ((s.issue d (1 + a) e).enqueue (2 * d.val + a.val)
      (if e.m 1 then .swapAll ⟨d, e.seq⟩ else .swap ⟨d, e.seq⟩ e.cr)) := by
  refine Completes.of_waitRecall ?_
  have hready : s.ready d (1 + a) 0x11 = some e := h
  have hno : ¬(!(s.gaAt (2 * d.val + a.val)).held && (if e.m 1 then (s.gaAt (2 * d.val + a.val)).all else [e.cr]).all
      (fun c => !((s.gaAt (2 * d.val + a.val)).course c).fgShadow && ((s.gaAt (2 * d.val + a.val)).course c).load.isNone)) = true := by
    intro hall
    have hcall := List.all_eq_true.1 ((Bool.and_eq_true ..).mp hall).2 c hc
    simp [hsh] at hcall
  simp only [exec, execMmSwap]
  rw [hready]
  exact congrArg (waitRecall s) ((if_neg (by rw [hauto]; decide)).trans (if_neg hno))

theorem State.fire_swap (s : State) {i c : Nat} {ins : InsRef} (hf : ((s.gaAt i).course c).failed = false)
    (hsh : ((s.gaAt i).course c).fgShadow = true) : s.fire i (.swap ins c) = (s.swapFore i c).finishRef ins := by
  simp [State.fire, hf, hsh]

theorem mmSwap_complete (h : s.AtHead d (1 + a) 0x11 e) (hone : e.m 1 = false) (hauto : (s.gaAt (2 * d.val + a.val)).autoswap = false)
    (hrecut : (s.gaAt (2 * d.val + a.val)).recut = false) (hops : (s.gaAt (2 * d.val + a.val)).ops = [])
    (hload : ((s.gaAt (2 * d.val + a.val)).course e.cr).load = none) (hsh : ((s.gaAt (2 * d.val + a.val)).course e.cr).fgShadow = true)
    (hf : ((s.gaAt (2 * d.val + a.val)).course e.cr).failed = false) (hhold : s.pwrc.hold = false) :
    Completes (.mmSwap d a) s (((s.issue d (1 + a) e).swapFore (2 * d.val + a.val) e.cr).finishRef ⟨d, e.seq⟩) := by
  have hc := mmSwap_enqueues h hauto (c := e.cr) (by simp [hone]) hsh
  rw [hone] at hc
  rw [← State.fire_swap (s.issue d (1 + a) e) hf hsh, ← State.enqueue_ready (s.issue d (1 + a) e) (arrayOf_lt d a) hops hhold]
  · exact hc
  · have hsh' : (Ga.course { s.gaAt (2 * d.val + a.val) with ops := [ArrOp.swap ⟨d, e.seq⟩ e.cr] } e.cr).fgShadow = true := hsh
    have hload' : (Ga.course { s.gaAt (2 * d.val + a.val) with ops := [ArrOp.swap ⟨d, e.seq⟩ e.cr] } e.cr).load = none := hload
    rw [State.issue_gaAt, Ga.opReady, hrecut]
    simp [hsh', hload']

/-- A swap of every course swaps those with a foreground tile, each for itself. -/
def State.swapEach (s : State) (i : Nat) (g : Ga) : State :=
  s.each g.all fun s c => if (g.course c).fgShadow then s.swapFore i c else s.modGa i (·.landed c)

theorem State.each_congr {α : Type} {f g : State → α → State} {l : List α} (h : ∀ x ∈ l, ∀ s, f s x = g s x) (s : State) : s.each l f = s.each l g := by
  induction l generalizing s with
  | nil => rfl
  | cons x l ih =>
    rw [State.each, List.foldl_cons, h x (List.mem_cons_self ..) s]
    exact ih (fun y hy => h y (List.mem_cons_of_mem _ hy)) _

theorem State.fire_swapAll (s : State) {i : Nat} {ins : InsRef} (hf : ∀ c ∈ (s.gaAt i).all, ((s.gaAt i).course c).failed = false)
    (hsh : ∃ c ∈ (s.gaAt i).all, ((s.gaAt i).course c).fgShadow = true) :
    s.fire i (.swapAll ins) = (s.swapEach i (s.gaAt i)).finishRef ins := by
  have heach : s.each (s.gaAt i).all (fun s' c =>
      if ((s.gaAt i).course c).failed then s'.swapFailed i c
      else if ((s.gaAt i).course c).fgShadow then s'.swapFore i c else s'.modGa i (·.landed c)) = s.swapEach i (s.gaAt i) :=
    State.each_congr (fun c hc s' => by rw [hf c hc]; rfl) s
  have hany : ((s.gaAt i).all.any fun c => ((s.gaAt i).course c).fgShadow) = true := List.any_eq_true.2 hsh
  unfold State.fire
  dsimp only
  rw [heach, if_pos hany]

theorem mmSwapAll_complete (h : s.AtHead d (1 + a) 0x11 e) (hall : e.m 1 = true) (hauto : (s.gaAt (2 * d.val + a.val)).autoswap = false)
    (hrecut : (s.gaAt (2 * d.val + a.val)).recut = false) (hops : (s.gaAt (2 * d.val + a.val)).ops = []) (hhold : s.pwrc.hold = false)
    (hfree : ∀ c ∈ (s.gaAt (2 * d.val + a.val)).all, ((s.gaAt (2 * d.val + a.val)).course c).load = none ∧
      ((s.gaAt (2 * d.val + a.val)).course c).failed = false)
    (hsh : ∃ c ∈ (s.gaAt (2 * d.val + a.val)).all, ((s.gaAt (2 * d.val + a.val)).course c).fgShadow = true) :
    Completes (.mmSwap d a) s (((s.issue d (1 + a) e).swapEach (2 * d.val + a.val) (s.gaAt (2 * d.val + a.val))).finishRef ⟨d, e.seq⟩) := by
  obtain ⟨c0, hc0, hsh0⟩ := hsh
  have hc := mmSwap_enqueues h hauto (c := c0) (by simp [hall, hc0]) hsh0
  rw [hall] at hc
  rw [show s.gaAt (2 * d.val + a.val) = (s.issue d (1 + a) e).gaAt (2 * d.val + a.val) from rfl,
    ← State.fire_swapAll (s.issue d (1 + a) e) (fun c hc => (hfree c hc).2) ⟨c0, hc0, hsh0⟩, ← State.enqueue_ready (s.issue d (1 + a) e) (arrayOf_lt d a) hops hhold]
  · exact hc
  · have hloads : ((s.gaAt (2 * d.val + a.val)).all.all fun c => ((s.gaAt (2 * d.val + a.val)).course c).load.isNone) = true :=
      List.all_eq_true.2 fun c hc => by rw [(hfree c hc).1]; rfl
    have hany : ((s.gaAt (2 * d.val + a.val)).all.any fun c => ((s.gaAt (2 * d.val + a.val)).course c).fgShadow ||
        ((s.gaAt (2 * d.val + a.val)).course c).failed) = true := List.any_eq_true.2 ⟨c0, hc0, by simp [hsh0]⟩
    rw [State.issue_gaAt, Ga.opReady, hrecut]
    have hready : (((s.gaAt (2 * d.val + a.val)).all.all fun c => ((s.gaAt (2 * d.val + a.val)).course c).load.isNone) &&
        (((s.gaAt (2 * d.val + a.val)).all.any fun c => ((s.gaAt (2 * d.val + a.val)).course c).fgShadow ||
        ((s.gaAt (2 * d.val + a.val)).course c).failed) || !(s.gaAt (2 * d.val + a.val)).held)) = true := by rw [hloads, hany]; rfl
    exact hready

theorem coursesOf_le (cut : Nat) : coursesOf cut ≤ 36 := by
  unfold coursesOf
  split <;> decide

/-- Each course after a swap of every course. -/
theorem State.course_swapEach (s : State) {i : Nat} (hi : i < 8) (g : Ga) {l : List Nat} (hl : l.Nodup) (hlt : ∀ c ∈ l, c < 36) (x : Nat) :
    ((s.each l fun s c => if (g.course c).fgShadow then s.swapFore i c else s.modGa i (·.landed c)).gaAt i).course x =
      if x ∈ l ∧ (g.course x).fgShadow = true then ((s.gaAt i).course x).swapped else (s.gaAt i).course x := by
  induction l generalizing s with
  | nil => simp [State.each]
  | cons c l ih =>
    obtain ⟨hnot, hnd⟩ := List.nodup_cons.1 hl
    rw [State.each, List.foldl_cons]
    refine (ih _ hnd fun c hc => hlt c (List.mem_cons_of_mem _ hc)).trans ?_
    by_cases hx : x = c
    · subst hx
      rw [if_neg fun h => hnot h.1]
      by_cases hsh : (g.course x).fgShadow = true
      · rw [if_pos hsh, if_pos ⟨List.mem_cons_self .., hsh⟩]
        exact s.course_swapFore hi (hlt x (List.mem_cons_self ..))
      · rw [if_neg hsh, if_neg fun h => hsh h.2, State.gaAt_modGa _ hi]
        rfl
    · have hsame : ((if (g.course c).fgShadow then s.swapFore i c else s.modGa i (·.landed c)).gaAt i).course x = (s.gaAt i).course x := by
        split
        · exact s.course_swapFore_other hi (Ne.symm hx)
        · rw [State.gaAt_modGa _ hi]
          rfl
      rw [hsame]
      simp [hx]

theorem autoswap_complete {i : ArrayId} {c : Fin 36} (hauto : (s.gaAt i).autoswap = true) (hrecut : (s.gaAt i).recut = false)
    (hsh : ((s.gaAt i).course c).fgShadow = true) (hhalt : ((s.gaAt i).course c).halted = false) (hops : (s.gaAt i).ops = [])
    (hhold : s.pwrc.hold = false) : Completes (.autoswap i c) s (s.swapFore i c) := by
  refine Completes.of_waitRecall ?_
  have hruns : (s.gaAt i).liveRuns c = [] := by simp [Ga.liveRuns, Ga.runsOn, hops]
  have hset : (s.swapFore i c).settle i = s.swapFore i c := State.settle_idle (s.ops_swapFore c i.isLt hops)
  simp only [exec, execAutoswap, hauto, hrecut, hsh, hhalt, hhold, hruns, hset]
  rfl

/-- Settles O17. -/
theorem swapTakesTheShadowBank : Obligations.SwapTakesTheShadowBank := by
  refine ⟨?one, ?all, fun s d a e h hauto => mmSwap_autoswap h hauto, ?auto⟩
  case one =>
    intro s d a e h hone hcr i k hauto hrecut hops hload hsh hf hhold t
    refine ⟨mmSwap_complete h hone hauto hrecut hops hload hsh hf hhold, ?_⟩
    exact State.course_swapFore _ (arrayOf_lt d a) hcr
  case all =>
    intro s d a e h hall i g hauto hrecut hops hhold hfree hsh t
    refine ⟨mmSwapAll_complete h hall hauto hrecut hops hhold hfree hsh, fun c hc => ?_⟩
    have hlt (c : Nat) (hc : c ∈ g.all) : c < 36 := (List.mem_range.1 hc).trans_le (coursesOf_le _)
    have hcourse := (s.issue d (1 + a) e).course_swapEach (arrayOf_lt d a) g List.nodup_range hlt c
    refine hcourse.trans ?_
    by_cases hsh : (g.course c).fgShadow = true
    · rw [if_pos ⟨hc, hsh⟩, if_pos hsh]
      rfl
    · rw [if_neg fun h => hsh h.2, if_neg hsh]
      rfl
  case auto =>
    intro s i c hauto hrecut hsh hhalt hops hhold k t
    exact ⟨autoswap_complete hauto hrecut hsh hhalt hops hhold, s.course_swapFore i.isLt c.isLt⟩

end Sys2Proof.Machine
end

section
/-! SUPPORT. The settings of an array: what keeps them, and the boundary that changes them (R18, R53 to R56). -/
namespace Sys2Proof.Machine

/-- Every array shows the same in a view. -/
def State.GaKeeps {β : Type} (v : Ga → β) (s t : State) : Prop := ∀ x : Nat, v (t.gaAt x) = v (s.gaAt x)

namespace State.GaKeeps

variable {α β : Type} {v : Ga → β} {K : List Part} {s t u : State}

theorem refl : s.GaKeeps v s := fun _ => rfl

theorem trans (h : s.GaKeeps v t) (h' : t.GaKeeps v u) : s.GaKeeps v u := fun x => (h' x).trans (h x)

theorem of_changes (h : Changes K s t) (hK : Part.ga ∉ K := by decide) : s.GaKeeps v t := fun x => congrArg v (h.gaAt x hK)

theorem modGa {i : Nat} {f : Ga → Ga} (h : ∀ g, v (f g) = v g) : s.GaKeeps v (s.modGa i f) := by
  intro x
  by_cases hi : i < 8
  · by_cases hx : i = x
    · subst hx
      rw [State.gaAt_modGa _ hi]
      exact h _
    · rw [State.gaAt_modGa_other _ _ _ _ hx]
  · have hs : s.modGa i f = s := by simp [State.modGa, vmod, hi]
    rw [hs]

theorem each {l : List α} {f : State → α → State} (h : ∀ (s : State) x, s.GaKeeps v (f s x)) : s.GaKeeps v (s.each l f) :=
  State.each_induct (s.GaKeeps v) l f s refl fun t x _ ht => ht.trans (h t x)

theorem ite {c : Prop} [Decidable c] (ht : s.GaKeeps v t) (hu : s.GaKeeps v u) : s.GaKeeps v (if c then t else u) := by
  split
  · exact ht
  · exact hu

end State.GaKeeps

/-- The settings in force of an array. -/
def Ga.settings (g : Ga) : Bool × Bool × Nat × Bool × Bool × Bool := (g.expert, g.rollout, g.cut, g.autoswap, g.arb, g.parpol)

namespace State.GaKeeps

variable {s : State}

theorem modCourse {i c : Nat} {f : Course → Course} : s.GaKeeps Ga.settings (s.modCourse i c f) := modGa fun _ => rfl

theorem landed {i c : Nat} : s.GaKeeps Ga.settings (s.modGa i (·.landed c)) := modGa fun _ => rfl

theorem swapFore {i c : Nat} : s.GaKeeps Ga.settings (s.swapFore i c) := by
  unfold State.swapFore State.swapCourse
  exact trans (trans modCourse (of_changes Changes.occ)) landed

theorem swapFailed {i c : Nat} : s.GaKeeps Ga.settings (s.swapFailed i c) := by
  unfold State.swapFailed
  exact trans modCourse landed

theorem bankInvalid {r : InsRef} : s.GaKeeps Ga.settings (s.bankInvalid r) := of_changes Changes.bankInvalid

theorem parityError {i c : Nat} {same : Bool} : s.GaKeeps Ga.settings (s.parityError i c same) := by
  have hpar (s : State) (p : Option Nat) : s.GaKeeps Ga.settings (s.modGa i fun g => { g with parLast := p }) := modGa fun _ => rfl
  unfold State.parityError
  extract_lets last joins low s1
  have h : s.GaKeeps Ga.settings s1 := trans (trans (trans (trans (of_changes Changes.orReg) (of_changes Changes.setField)) modCourse) (hpar _ _))
    (of_changes Changes.occ)
  exact ite h (trans h (of_changes Changes.raise))

theorem arrayCycles {i cause n : Nat} {slots : Nat × Nat × Nat × Nat} : s.GaKeeps Ga.settings (s.arrayCycles i cause n slots) := by
  have h : s.GaKeeps Ga.settings (s.modGa i fun g => { g with last := cause, place := g.place + BitVec.ofNat 8 n }) := modGa fun _ => rfl
  unfold State.arrayCycles
  dsimp only
  have hslots (s : State) : Changes [.reports] s _ := Changes.mono <|
    Changes.andThen (Changes.tallyIf (key := keySlot i 0) (n := n * slots.1)) <| Changes.andThen (Changes.tallyIf (key := keySlot i 1) (n := n * slots.2.1)) <|
    Changes.andThen (Changes.tallyIf (key := keySlot i 2) (n := n * slots.2.2.1)) <| Changes.andThen (Changes.tallyIf (key := keySlot i 3) (n := n * slots.2.2.2)) <|
    Changes.andThen (Changes.charge (dom := i) (u := 0) (c := cause) (n := n)) (Changes.tally (key := keyCyc i) (n := n))
  exact ite refl (trans h (trans (ite (of_changes Changes.common) refl) (ite refl (of_changes (hslots _)))))

theorem injected {i c n : Nat} {t : TileGeo} {fill : Bool} : s.GaKeeps Ga.settings (s.injected i c t fill n) := trans arrayCycles arrayCycles

theorem runTile {i c : Nat} {x : TileRun} {f : RunFaults} {fill : Bool} : s.GaKeeps Ga.settings (s.runTile i c x f fill).1 := by
  unfold State.runTile
  split
  · exact refl
  · extract_lets g b t
    split
    · rename_i hx
      exact trans (of_changes (Changes.andThen (Changes.fst Changes.accessMove hx) Changes.spoil)) injected
    · rename_i s1 late hx
      have h1 := Changes.fst Changes.accessMove hx
      extract_lets s2
      have h2 : Changes [.regs, .reports] s1 s2 := by
        unfold s2
        split
        exacts [Changes.memCorr, Changes.mono Changes.refl]
      split
      split
      split
      rename_i s3 view hv
      have h3 : Changes [.free, .regs, .reports, .once] s2 s3 := by
        split at hv
        · split at hv
          · cases hv
            exact Changes.mono <| Changes.andThen Changes.drawFree Changes.collide
          · split at hv
            exacts [Changes.fst (p := (_, _)) (Changes.mono Changes.collide) hv, Changes.fst (p := (_, _)) (Changes.mono Changes.refl) hv]
        · exact Changes.fst (p := (_, _)) (Changes.mono Changes.refl) hv
      extract_lets beats bad0
      have h : s.GaKeeps Ga.settings s3 := of_changes (Changes.andThen h1 (Changes.andThen h2 h3))
      have hbeats (s : State) (n : Nat) : s.GaKeeps Ga.settings (beats s n) := injected
      split
      · exact trans h (trans (of_changes Changes.drain) (hbeats _ _))
      · have h4 : s.GaKeeps Ga.settings (s3.parityError i c f.same) := trans h parityError
        split
        · exact trans h4 (trans (of_changes (Changes.andThen Changes.drawFree Changes.drain)) (trans (hbeats _ _) modCourse))
        · exact trans h4 (trans (of_changes Changes.drain) (hbeats _ _))

theorem fire {i : Nat} {o : ArrOp} : s.GaKeeps Ga.settings (s.fire i o) := by
  cases o with
  | swap ins c =>
    unfold State.fire
    dsimp only
    exact ite (trans swapFailed bankInvalid) (ite (trans swapFore (of_changes Changes.finishRef)) (trans landed bankInvalid))
  | swapAll ins =>
    have h (l : List Nat) (g : Ga) : s.GaKeeps Ga.settings (s.each l fun s c =>
        if (g.course c).failed then s.swapFailed i c else if (g.course c).fgShadow then s.swapFore i c else s.modGa i (·.landed c)) := each fun s c => ite swapFailed (ite swapFore landed)
    unfold State.fire
    dsimp only
    exact ite (trans (h _ _) (of_changes Changes.finishRef)) (trans (h _ _) bankInvalid)
  | run c r =>
    unfold State.fire
    dsimp only
    exact ite (trans runTile (of_changes Changes.finishRef)) bankInvalid

theorem drive {i n : Nat} : s.GaKeeps Ga.settings (s.drive i n) := by
  induction n generalizing s with
  | zero => exact refl
  | succ n ih =>
    unfold State.drive
    split
    · exact refl
    · rename_i o rest _
      have h : s.GaKeeps Ga.settings (s.modGa i fun g => { g with ops := rest }) := modGa fun _ => rfl
      exact trans (trans h fire) ih

theorem settle {i : Nat} : s.GaKeeps Ga.settings (s.settle i) := ite refl drive

theorem regWrite {r : Requester} {i off : Nat} {data mask : Half} : s.GaKeeps Ga.settings (s.regWrite r i off data mask) := of_changes Changes.regWrite

theorem recallVisits {i : Nat} : s.GaKeeps Ga.settings (s.recallVisits i) := of_changes Changes.recallVisits

theorem writeGa {i : Nat} {r : Requester} {off : Nat} {data mask : Half} : s.GaKeeps Ga.settings (s.writeGa i r off data mask) := by
  have h (s : State) (b : Bool) : s.GaKeeps Ga.settings (s.modGa i fun g => { g with pendCsr := b }) := modGa fun _ => rfl
  exact trans (trans regWrite (h _ _)) settle

end State.GaKeeps

/-- The registers in force show of the arrays their cuts alone. -/
theorem State.derived_modGa (s : State) {i dom off : Nat} {f : Ga → Ga} {x : RegDef} (h : ∀ g, (f g).cut = g.cut) :
    (s.modGa i f).derived dom off x = s.derived dom off x := by
  have hcut : ((vmod s.ga i f).toArray.getD dom {}).cut = (s.ga.toArray.getD dom {}).cut := by
    unfold vmod
    split
    · by_cases hd : i = dom <;> by_cases hs : dom < 8 <;> simp_all [Array.getD_eq_getD_getElem?]
    · rfl
  unfold State.derived
  dsimp only
  split
  · split
    · exact congrArg (fun c : Nat => BitVec.ofNat 16 (c + (if bits (s.regRaw dom 0).toNat 1 2 = 1 then 4 else 0))) hcut
    · rfl
  all_goals rfl

theorem State.cfg_modGa (s : State) {i dom off : Nat} {f : Ga → Ga} (h : ∀ g, (f g).cut = g.cut) :
    (s.modGa i f).cfg dom off = s.cfg dom off := by
  unfold State.cfg
  simp only [State.derived_modGa s h]
  rfl

/-- Whether the settings asked for differ from those in force does not depend on whether that is known already. -/
theorem State.gaDiffers_modGa (s : State) {i : Nat} (b : Bool) (hi : i < 8) :
    (s.modGa i fun g => { g with pendCsr := b }).gaDiffers i = s.gaDiffers i := by
  have hg := State.gaAt_modGa s hi fun g => { g with pendCsr := b }
  have hlevel (x : Nat) : (s.modGa i fun g => { g with pendCsr := b }).level i x = s.level i x := rfl
  unfold State.gaDiffers State.gaTarget
  simp only [hg, hlevel, State.cfg_modGa s (f := fun g => { g with pendCsr := b }) fun _ => rfl]

/-- After a write to an array at which nothing waits, a change is pending where the registers differ from what is in force (R54). -/
theorem State.writeGa_pendCsr {s : State} {i : Nat} {r : Requester} {off : Nat} {data mask : Half} (hi : i < 8) (hops : (s.gaAt i).ops = []) :
    ((s.writeGa i r off data mask).gaAt i).pendCsr = (s.writeGa i r off data mask).gaDiffers i := by
  have hw : (s.regWrite r i off data mask).gaAt i = s.gaAt i := Changes.gaAt Changes.regWrite i (by decide)
  unfold State.writeGa
  extract_lets u diff
  have hu : ((u.modGa i fun g => { g with pendCsr := diff }).gaAt i) = (fun g : Ga => { g with pendCsr := diff }) (u.gaAt i) := State.gaAt_modGa _ hi _
  rw [State.settle_idle (by rw [hu]; exact (congrArg Ga.ops hw).trans hops), hu, State.gaDiffers_modGa _ _ hi]

/-- A change of cut empties every bank (R55). -/
theorem Ga.course_cleared (g : Ga) (r : Bool) {c : Nat} (hc : c < 36) :
    Ga.course { g with recut := r, courses := g.courses.map Course.cleared } c = (g.course c).cleared := by
  simp [Ga.course, vget, hc]

/-- Settles O20. -/
theorem arraySettingsWaitForTheBoundary : Obligations.ArraySettingsWaitForTheBoundary := by
  refine ⟨?write, ?boundary, ?recut⟩
  case write =>
    intro s i r x data mask hlive hheard off t
    have hreach : (s.reached i).gaAt i = s.gaAt i := Changes.gaAt Changes.reached i (by decide)
    have hset : (t.gaAt i).settings = (s.gaAt i).settings := (State.GaKeeps.writeGa (s := s.reached i) i).trans (congrArg Ga.settings hreach)
    simp only [Ga.settings, Prod.mk.injEq] at hset
    obtain ⟨hexpert, hrollout, hcut, hautoswap, harb, hparpol⟩ := hset
    refine ⟨Completes.of_waitRecall ?_, hexpert, hrollout, hcut, hautoswap, harb, hparpol, fun hops => State.writeGa_pendCsr i.isLt (by rw [hreach]; exact hops)⟩
    rw [exec, execGaCfgWrite, State.reachBy_heard _ hlive hheard]
    rfl
  case boundary =>
    intro s i hpend hrecut hdrained g
    refine ⟨fun hcut => Completes.of_waitRecall ?_, fun hcut hw => ?_⟩
    · simp only [exec, execDrainBoundary, hpend, hrecut, hdrained]
      exact congrArg (waitRecall s) (if_pos hcut)
    · have hrun : exec (.drainBoundary i) s = waitRecall s (.next (((s.modGa i fun _ =>
          { g with recut := true, courses := g.courses.map Course.cleared }).recallVisits i).occ i 1)) := by
        simp only [exec, execDrainBoundary, hpend, hrecut, hdrained]
        exact congrArg (waitRecall s) (if_neg hcut)
      have hafter {u : State} (h : u.mcl.wanted = []) : ((u.recallVisits i).occ i 1).mcl.wanted = [] :=
        (Changes.andThen Changes.recallVisits Changes.occ).kept .wanted (by decide) h
      have hga : ((((s.modGa i fun _ => { g with recut := true, courses := g.courses.map Course.cleared }).recallVisits i).occ i 1).gaAt i) =
          { g with recut := true, courses := g.courses.map Course.cleared } :=
        (Changes.gaAt (Changes.andThen Changes.recallVisits Changes.occ) i (by decide)).trans (State.gaAt_modGa s i.isLt _)
      refine ⟨_, hrun.trans (waitRecall_next s _ (hafter hw)), (congrArg Ga.cut hga).trans rfl, (congrArg Ga.recut hga).trans rfl, fun c hc => ?_⟩
      · rw [hga, Ga.course_cleared _ _ hc]
        exact ⟨rfl, rfl⟩
  case recut =>
    intro s i hrecut
    exact Completes.of_waitRecall (congrArg (waitRecall s) (if_pos hrecut))

end Sys2Proof.Machine
end

section
/-! SUPPORT. One instruction of a core: what it leaves where its word stands at the core's position (R394, R401 to R411). -/
namespace Sys2Proof.Machine

section
variable {s : State} {g : SliceId} {c : CoreId} {op : Nat} {core : GCore} {i : Inst} {w : Nat}

/-- The core whose position has gone on to the next instruction. -/
def GCore.next (c : GCore) : GCore := { c with pc := c.pc + 1, steps := c.steps + 1 }

/-- An instruction whose meaning succeeds leaves the core that it gives. -/
theorem coreRun_run {f : State → GCore → Inst → Nat → State × GRes} {t : State} {d : GCore} (h : s.atCore (coreNo g c) op = .run core i w)
    (hf : f s core.next i w = (t, .ok d)) : coreRun g c op f s = .next (t.modCore (coreNo g c) fun _ => d) := by
  rw [coreRun, h]
  exact congrArg (fun x : State × GRes => (match x with
    | (s, .ok core) => .next (s.modCore (coreNo g c) fun _ => core)
    | (s, .error (cause, detail)) => .next (s.coreFault (coreNo g c) cause detail) : Host.Outcome State Fault Refusal)) hf

theorem coreOnly_run {f : GCore → Inst → Nat → GRes} {d : GCore} (h : s.atCore (coreNo g c) op = .run core i w)
    (hf : f core.next i w = .ok d) : coreOnly g c op f s = .next (s.modCore (coreNo g c) fun _ => d) :=
  coreRun_run h (Prod.ext rfl hf)

/-- A scalar register after a write of one; a write of s0 is discarded (R394). -/
theorem GCore.sr_setS (c : GCore) (k : Nat) (x : Word64) {r : Nat} (hr : r < 32) :
    (c.setS k x).sr r = if r = k ∧ r ≠ 0 then x else c.sr r := by
  unfold GCore.setS
  split
  · rw [if_neg (by omega)]
  · unfold GCore.sr vmod vget
    by_cases hrk : r = k
    · subst hrk
      simp_all
    · by_cases hk : k < 32 <;> simp [hk, hr, hrk, Ne.symm hrk]

/-- Lanes written in ascending order: the lanes selected hold what was written, the others what they held. -/
theorem foldl_lanes (m : Half) (f : Nat → Word64) (n : Nat) (l : Vector Word64 16) {j : Nat} (hj : j < 16) :
    vget ((List.range n).foldl (fun l j => if m.getLsbD j then vmod l j fun _ => f j else l) l) j 0 =
      if j < n ∧ m.getLsbD j = true then f j else vget l j 0 := by
  induction n with
  | zero => rfl
  | succ n ih =>
    rw [List.range_succ, List.foldl_append, List.foldl_cons, List.foldl_nil]
    by_cases hm : m.getLsbD n = true
    · by_cases hjn : j = n
      · subst hjn
        simp [hm, vget, vmod, hj]
      · have hlt : j < n + 1 ↔ j < n := by omega
        rw [if_pos hm]
        simp only [hlt, ← ih]
        unfold vmod
        split <;> simp [vget, hj, Ne.symm hjn]
    · have hlt : (j < n + 1 ∧ m.getLsbD j = true) ↔ (j < n ∧ m.getLsbD j = true) :=
        ⟨fun ⟨h, hmj⟩ => ⟨by have : j ≠ n := fun e => hm (e ▸ hmj); omega, hmj⟩, fun ⟨h, hmj⟩ => ⟨by omega, hmj⟩⟩
      rw [if_neg hm, ih]
      simp only [hlt]

/-- A lane of a vector register after a write of the active lanes of one. -/
theorem GCore.vr_setV (c : GCore) (k : Nat) (m : Half) (f : Nat → Word64) {r j : Nat} (hr : r < 32) (hj : j < 16) :
    (c.setV k m f).vr r j = if r = k ∧ m.getLsbD j = true then f j else c.vr r j := by
  by_cases hrk : r = k
  · subst hrk
    have hv : vget (c.setV r m f).v r (Vector.replicate 16 0) =
        (List.range 16).foldl (fun l j => if m.getLsbD j then vmod l j fun _ => f j else l) (vget c.v r (Vector.replicate 16 0)) := by
      simp [GCore.setV, vget, vmod, hr]
    unfold GCore.vr
    rw [hv, foldl_lanes m f 16 _ hj]
    simp [hj]
  · rw [if_neg fun h => hrk h.1]
    unfold GCore.vr GCore.setV vmod vget
    by_cases hk : k < 32 <;> simp [hk, hr, Ne.symm hrk]

/-- Each lane-wise instruction writes its active lanes, or its scalar under SC, and nothing else of its core. -/
theorem coreLanes_writes (f : Bool → Word64 → Word64 → Word64 → Word64) (core : GCore) (w : Nat) :
    let d := coreLanes f core.next w
    d.pc = core.pc + 1 ∧ d.inst = core.inst ∧ d.p = core.p ∧
      d.scratch = core.scratch ∧ d.sum0 = core.sum0 ∧ d.sum1 = core.sum1 ∧ d.nf = core.nf ∧ d.nonfin = core.nonfin ∧
      (gSc w = true → d.v = core.v ∧ ∀ r, r < 32 → d.sr r =
        if r = gD w ∧ r ≠ 0 then f (gTy w) (core.sr (gA w)) (core.sr (gB w)) (core.sr (gC w)) else core.sr r) ∧
      (gSc w = false → d.s = core.s ∧ ∀ r j, r < 32 → j < 16 → d.vr r j =
        if r = gD w ∧ (core.pr (gP w)).getLsbD j = true then
          f (gTy w) (core.vr (gA w) j) (if gSb w then core.sr (gB w) else core.vr (gB w) j) (core.vr (gC w) j)
        else core.vr r j) := by
  intro d
  have hset (k : Nat) (x : Word64) : core.next.setS k x = core.next ∨ core.next.setS k x = { core.next with s := vmod core.s k fun _ => x } := by
    unfold GCore.setS
    split
    exacts [.inl rfl, .inr rfl]
  cases hsc : gSc w with
  | true =>
    have hd : d = core.next.setS (gD w) (f (gTy w) (core.sr (gA w)) (core.sr (gB w)) (core.sr (gC w))) := if_pos hsc
    have hsr : ∀ r, r < 32 → d.sr r = if r = gD w ∧ r ≠ 0 then f (gTy w) (core.sr (gA w)) (core.sr (gB w)) (core.sr (gC w)) else core.sr r :=
      fun r hr => by rw [hd]; exact GCore.sr_setS _ _ _ hr
    rcases hset (gD w) (f (gTy w) (core.sr (gA w)) (core.sr (gB w)) (core.sr (gC w))) with h | h <;> rw [h] at hd <;>
      exact ⟨by rw [hd]; rfl, by rw [hd]; rfl, by rw [hd]; rfl, by rw [hd]; rfl, by rw [hd]; rfl, by rw [hd]; rfl, by rw [hd]; rfl, by rw [hd]; rfl,
        fun _ => ⟨by rw [hd]; rfl, hsr⟩, fun h => absurd h (by decide)⟩
  | false =>
    have hd : d = core.next.setV (gD w) (core.pr (gP w)) fun j => f (gTy w) (core.vr (gA w) j) (if gSb w then core.sr (gB w) else core.vr (gB w) j)
        (core.vr (gC w) j) := if_neg (by rw [hsc]; decide)
    rw [hd]
    exact ⟨rfl, rfl, rfl, rfl, rfl, rfl, rfl, rfl, fun h => absurd h (by decide), fun _ => ⟨rfl, fun r j hr hj => GCore.vr_setV _ _ _ _ hr hj⟩⟩

end

/-- Settles O44. -/
theorem laneInstructionsWriteActiveLanes : Obligations.LaneInstructionsWriteActiveLanes := by
  intro s g c core i w x hx hrun
  have hexec : exec x.1 s = .next (s.modCore (coreNo g c) fun _ => coreLanes x.2.2 core.next w) := by
    simp only [List.mem_cons, List.not_mem_nil, or_false] at hx
    rcases hx with rfl | rfl | rfl | rfl | rfl | rfl | rfl | rfl | rfl | rfl | rfl | rfl | rfl | rfl | rfl | rfl | rfl
    all_goals
      dsimp only at hrun ⊢
      simp only [exec, execAdd, execSub, execMul, execFma, execMin, execMax, execAbs, execNeg, execCvt, execDiv, execSqrt, execRsqrt, execRcp, execExp2, execLog2,
        execExp, execLn]
      exact coreOnly_run hrun rfl
  exact ⟨_, hexec, coreLanes_writes x.2.2 core w⟩

/-- Settles O45. -/
theorem coreInstructionsWriteTheirDestination : Obligations.CoreInstructionsWriteTheirDestination := by
  intro s g c core i w k n A B cell typed fold first
  refine ⟨?_, ?_, ?_, ?_, ?_, ?_, ?_, ?simm, ?rowRead, ?decay, ?noRow, ?laneRead, ?laneWrite, ?laneCount, ?_, ?_, ?_, ?_, ?_, ?_, ?_, ?_, ?_, ?srnd⟩
  case simm =>
    intro p hp hrun
    simp only [exec, execSimm]
    exact coreRun_run hrun (by rw [hp]; rfl)
  case rowRead =>
    intro r hb hrow hf hrun
    simp only [exec, execRs]
    refine coreRun_run hrun ?_
    rw [hb, if_pos rfl, hrow]
    match hF : gF w, hf with
    | 0, _ | 1, _ | 2, _ | 3, _ | 4, _ => rfl
  case decay =>
    intro r hb hrow hf hrun
    simp only [exec, execRs]
    refine coreRun_run hrun ?_
    rw [hb, if_pos rfl, hrow, hf]
    rfl
  case noRow =>
    intro h hrun
    have hnone : (if i.b then i.w.row else none) = none := by
      rcases h with h | h <;> simp [h]
    simp only [exec, execRs]
    refine coreRun_run hrun ?_
    rw [hnone]
    by_cases hF : gF w = 5
    · rw [hF]
      rfl
    · rw [if_neg hF]
      refine congrArg (fun v => (s, (Except.ok (n.setS (gD w) v) : GRes))) ?_
      split <;> simp_all
  case laneRead =>
    intro hf hrun
    simp only [exec, execLane]
    exact coreOnly_run hrun (by rw [hf]; rfl)
  case laneWrite =>
    intro hf hrun
    simp only [exec, execLane]
    exact coreOnly_run hrun (by rw [hf]; rfl)
  case laneCount =>
    intro hf hrun
    simp only [exec, execLane]
    exact coreOnly_run hrun (by rw [hf]; rfl)
  case srnd =>
    intro off fmt sexp hplane hfmt hrun
    simp only [exec, execSrnd]
    refine coreRun_run hrun ?_
    rw [hplane]
    exact congrArg (Prod.mk s) (if_neg hfmt)
  all_goals
    intro hrun
    simp only [exec, execGvpNop, execPuta, execPlog, execSaddi, execSshli, execSalu, execScmp, execPtail, execSel, execCmp, execRsum, execRssq, execRmax, execRmin,
      execRamax, execRnf]
    exact coreOnly_run hrun rfl

end Sys2Proof.Machine
end

section
/-! SUPPORT. Writes of memory: where a step may write; the grain of memory (R287, R299). -/
namespace Sys2Proof.Machine

theorem State.putBytes_wf (s : State) (hm : Memory.wf s.mem = true) (a : Nat) (l : List Byte) : Memory.wf (s.putBytes a l).mem = true := by
  induction l generalizing s a with
  | nil => exact hm
  | cons v l ih => exact ih _ (s.putByte_wf hm a v) _

/-- A step that keeps the canonical form of memory and writes inside some places alone. -/
def State.Writes (l : List Span) (s t : State) : Prop := Memory.wf s.mem = true → Memory.wf t.mem = true ∧ s.KeepsOutside t l

namespace State.Writes

variable {α : Type} {l l' : List Span} {K : List Part} {s t u : State}

theorem refl : s.Writes l s := fun hm => ⟨hm, .refl s l⟩

theorem trans (h : s.Writes l t) (h' : t.Writes l u) : s.Writes l u := fun hm =>
  have ⟨ht, hst⟩ := h hm
  have ⟨hu, htu⟩ := h' ht
  ⟨hu, hst.trans htu⟩

theorem mono (h : s.Writes l t) (hl : ∀ x ∈ l, x ∈ l') : s.Writes l' t := fun hm =>
  have ⟨ht, hst⟩ := h hm
  ⟨ht, hst.mono hl⟩

theorem of_mem (h : t.mem = s.mem) : s.Writes l t := fun hm => ⟨by rw [h]; exact hm, .of_mem h l⟩

theorem of_changes (h : Changes K s t) (hK : Part.mem ∉ K := by decide) : s.Writes l t := of_mem (h.kept .mem hK)

/-- A write of bytes that lie inside the places together. -/
theorem writeRaw {a : Nat} {bs : List Byte} (hl : ∀ b, (∀ x ∈ l, b < x.a ∨ x.a + x.n ≤ b) → b < a ∨ a + bs.length ≤ b) : s.Writes l (s.writeRaw a bs) :=
  fun hm => ⟨State.putBytes_wf _ (by simpa using hm) a bs, fun b hb => by
    rw [State.writeRaw, State.byte_putBytes_outside _ (by simpa using hm) _ _ _ (hl b hb)]
    simp [State.byte]⟩

theorem write (a : Nat) (bs : List Byte) (hl : { a, n := bs.length } ∈ l) : s.Writes l (s.write a bs) :=
  trans (writeRaw fun b hb => hb _ hl) (of_changes Changes.noteWrite)

theorem ite {c : Prop} [Decidable c] (ht : c → s.Writes l t) (hu : ¬c → s.Writes l u) : s.Writes l (if c then t else u) := by
  split
  · exact ht ‹_›
  · exact hu ‹_›

theorem each {xs : List α} {f : State → α → State} (h : ∀ (s : State), ∀ x ∈ xs, s.Writes l (f s x)) : s.Writes l (s.each xs f) :=
  State.each_induct (s.Writes l) xs f s refl fun t x hx ht => ht.trans (h t x hx)

theorem store (a : Nat) (bs : List Byte) (hl : { a, n := bs.length } ∈ l) : s.Writes l (s.store a bs) :=
  trans (of_changes Changes.forWrite) (write a bs hl)

end State.Writes

/-! ### The grain of memory -/

/-- The grain of memory at an address: 32 bytes below the end of the Loft window, 8 bytes elsewhere (R287, R299). -/
theorem unit_eq (a : Nat) : (placeOf a).region.unit = if a < 0x8040000000 then 32 else 8 := by
  unfold placeOf
  dsimp only
  by_cases h1 : a < 0x8000000000
  · rw [if_pos h1, if_pos (by omega)]
    rfl
  · rw [if_neg h1]
    by_cases h2 : a / 0x100000000 = 0x80 ∧ a % 0x100000000 < 0x40000000
    · rw [if_pos (by simpa using h2), if_pos (by omega)]
      rfl
    · have h3 : ¬a < 0x8040000000 := by omega
      rw [if_neg (by simpa using h2), if_neg h3]
      repeat' split
      all_goals rfl

theorem unitOf_unitOf (a : Nat) : unitOf (unitOf a) = unitOf a := by
  unfold unitOf
  dsimp only
  rw [unit_eq, unit_eq]
  by_cases h : a < 0x8040000000
  · rw [if_pos h, if_pos (by omega)]
    omega
  · rw [if_neg h, if_neg (by omega)]
    omega

end Sys2Proof.Machine
end

section
/-! SUPPORT. The end of a run in pass A writes its record over what the poison markers leave (R281, R403). -/
namespace Sys2Proof.Machine
open Sys2Proof.Tests

/-- A core at END, whose record's place lists a poison marker twice: the first entry, which reads clear, hides the second. -/
def hiddenMarker : State :=
  { atWord false 0x4000000 with
    mem := Sparse.put emptyByte (atWord false 0x4000000).mem ((atWord false 0x4000000).gNrec 1) 1
    poison := [((atWord false 0x4000000).gNrec 1, false), ((atWord false 0x4000000).gNrec 1, true)] }

/-- A byte of memory in an outcome. -/
def byteIn (a : Nat) : Host.Outcome State Fault Refusal → Option Byte
  | .next t => some (t.byte a)
  | _ => none

/-- Refutes O46: the statement asks for memory in canonical form but not for canonical poison markers. Where a marker's list holds a clear entry
before a set one for the same unit, the unit reads clear, the write of END's record drops the clear entry alone, and the set one keeps the byte. -/
theorem not_branchesFaultAndEnd : ¬Obligations.BranchesFaultAndEnd := by
  intro h
  obtain ⟨-, -, -, -, hend⟩ := h hiddenMarker 3 15 (hiddenMarker.core 63) (inst0 false 0x4000000) 0x4000000
  have hpass : ∃ p, hiddenMarker.passOf (inst0 false 0x4000000) = some p ∧ (p.work.any fun y => y.group = 1 && y.k ≠ 0 && !y.finished) = true := by
    have hsome : ((hiddenMarker.passOf (inst0 false 0x4000000)).any fun p => p.work.any fun y => y.group = 1 && y.k ≠ 0 && !y.finished) = true := by
      decide +kernel
    simpa [Option.any_eq_true] using hsome
  obtain ⟨p, hp, hwork⟩ := hpass
  obtain ⟨y, hy, hopen⟩ := List.any_eq_true.1 hwork
  simp only [decide_not, Bool.and_eq_true, decide_eq_true_eq, Bool.not_eq_true', decide_eq_false_iff_not] at hopen
  obtain ⟨⟨hgroup, hk⟩, hfin⟩ := hopen
  obtain ⟨t, ht, -, hbyte, -⟩ := hend (by decide +kernel) rfl (by decide +kernel) (by decide +kernel) (by decide +kernel) (by decide +kernel)
    (by decide +kernel) (by decide +kernel) ⟨p, hp, y, hy, hgroup, hk, hfin⟩
  have hkept : byteIn (hiddenMarker.gNrec 1) (exec (.end_ 3 15) hiddenMarker) = some 1 := by decide +kernel
  rw [ht] at hkept
  have hrecord : (recordBytes (hiddenMarker.core 63)).getD 0 0 = 0 := by decide +kernel
  have h0 := (hbyte 0 (by decide)).trans hrecord
  exact absurd ((Option.some.inj hkept).symm.trans h0) (by decide)

end Sys2Proof.Machine
end

section
/-! SUPPORT. The ground that memory is reached on: what is powered, the modes of the Loft slices, the lines that the host holds (R294, R455, R503). -/
namespace Sys2Proof.Machine

/-- A Loft slice less the lines it caches. -/
def Loft.bare (l : Loft) : Loft := { l with lines := [] }

/-- Two states agree in which addresses answer, and in which lines the host or the hardware keeps. -/
structure SameGround (s t : State) : Prop where
  live : ∀ d, t.isLive d = s.isLive d
  loft : ∀ k, (t.loftAt k).bare = (s.loftAt k).bare
  snoop : t.mcl.snoop = s.mcl.snoop
  hold : t.pwrc.hold = s.pwrc.hold
  clearing : t.clearing = s.clearing

namespace SameGround

variable {α : Type} {K : List Part} {s t u : State}

theorem refl : SameGround s s := ⟨fun _ => rfl, fun _ => rfl, rfl, rfl, rfl⟩

theorem trans (h : SameGround s t) (h' : SameGround t u) : SameGround s u :=
  ⟨fun d => (h'.live d).trans (h.live d), fun k => (h'.loft k).trans (h.loft k), h'.snoop.trans h.snoop, h'.hold.trans h.hold, h'.clearing.trans h.clearing⟩

theorem symm (h : SameGround s t) : SameGround t s :=
  ⟨fun d => (h.live d).symm, fun k => (h.loft k).symm, h.snoop.symm, h.hold.symm, h.clearing.symm⟩

theorem isLive_of {s t : State} (hp : t.pins = s.pins) (hl : t.live = s.live) (hb : t.bist = s.bist) (d : Nat) : t.isLive d = s.isLive d := by
  unfold State.isLive
  rw [hp, hl, hb]

/-- A step that leaves supplies, slices, link and power controller leaves the ground. -/
theorem of_changes (h : Changes K s t)
    (hK : Part.pins ∉ K ∧ Part.live ∉ K ∧ Part.bist ∉ K ∧ Part.loft ∉ K ∧ Part.mcl ∉ K ∧ Part.pwrc ∉ K ∧ Part.clearing ∉ K := by decide) : SameGround s t := by
  obtain ⟨hpins, hlive, hbist, hloft, hmcl, hpwrc, hclearing⟩ := hK
  exact ⟨isLive_of (h.kept .pins hpins) (h.kept .live hlive) (h.kept .bist hbist), fun k => congrArg Loft.bare (State.loftAt_congr (h.kept .loft hloft) k),
    (congrArg Mcl.snoop (h.kept .mcl hmcl)).trans rfl, congrArg Pwrc.hold (h.kept .pwrc hpwrc), h.kept .clearing hclearing⟩

theorem ite {c : Prop} [Decidable c] (ht : SameGround s t) (hu : SameGround s u) : SameGround s (if c then t else u) := by
  split
  · exact ht
  · exact hu

theorem each {l : List α} {f : State → α → State} (h : ∀ (s : State) x, SameGround s (f s x)) : SameGround s (s.each l f) :=
  State.each_induct (SameGround s) l f s refl fun t x _ ht => ht.trans (h t x)

/-- A Loft slice may take or drop lines. -/
theorem modLoft {k : Nat} {f : Loft → Loft} (h : ∀ l, (f l).bare = l.bare) : SameGround s (s.modLoft k f) := by
  refine ⟨fun _ => rfl, fun x => ?_, rfl, rfl, rfl⟩
  unfold State.modLoft State.loftAt vmod vget
  by_cases hk : k < 8
  · by_cases hx : x < 8
    · by_cases hxk : k = x
      · subst hxk
        simpa [hk] using h _
      · simp only [hk, hx, dif_pos, Vector.getElem_set, if_neg hxk]
    · simp [hx]
  · simp [hk]

theorem touchLine {line : Nat} {dirty alloc : Bool} : SameGround s (s.touchLine line dirty alloc) := by
  have hocc {t : State} (d i : Nat) (h : SameGround s t) : SameGround s (t.occ d i) := trans h (of_changes Changes.occ)
  unfold State.touchLine
  split
  · dsimp only
    refine ite refl ?_
    split
    · exact hocc _ _ (modLoft fun _ => rfl)
    · rename_i k _ _ _
      have hmiss : SameGround s (s.occ (32 + k) 1) := hocc _ _ refl
      have htake {f : Loft → Loft} (hf : ∀ l, (f l).bare = l.bare) : SameGround s ((s.occ (32 + k) 1).modLoft k f) := trans hmiss (modLoft hf)
      refine ite hmiss ?_
      split
      · exact htake fun _ => rfl
      · exact ite (hocc _ _ (htake fun _ => rfl)) (htake fun _ => rfl)
  · exact refl

theorem touch {m : Mover} {l : List Span} {dirty alloc : Bool} : SameGround s (s.touch m l dirty alloc) :=
  each fun _ _ => ite refl (trans (of_changes Changes.cross) (each fun _ _ => touchLine))

/-! ### What stands on it -/

theorem scratch (h : SameGround s t) (k : Nat) : (t.loftAt k).scratch = (s.loftAt k).scratch := (congrArg Loft.scratch (h.loft k)).trans rfl

theorem memOk (h : SameGround s t) (a : Nat) : t.memOk a = s.memOk a := by
  simp only [State.memOk, h.live, h.scratch]

theorem rangeOk (h : SameGround s t) (a n : Nat) : t.rangeOk a n = s.rangeOk a n := by
  simp only [State.rangeOk, h.memOk]

theorem inScratch (h : SameGround s t) (a n : Nat) : t.inScratch a n = s.inScratch a n := by
  simp only [State.inScratch, h.scratch]

theorem inBuffer (h : SameGround s t) (a n : Nat) : t.inBuffer a n = s.inBuffer a n := by
  rw [State.inBuffer, h.inScratch, ← State.inBuffer]

theorem reconfAt (h : SameGround s t) (a : Nat) : t.reconfAt a = s.reconfAt a := by
  have hreconf (k : Nat) : (t.loftAt k).reconf = (s.loftAt k).reconf := (congrArg Loft.reconf (h.loft k)).trans rfl
  unfold State.reconfAt
  split <;> simp only [hreconf]

theorem clearingAt (h : SameGround s t) (a : Nat) : t.clearingAt a = s.clearingAt a := by
  have hclear (k : Nat) : (t.loftAt k).clearing = (s.loftAt k).clearing := (congrArg Loft.clearing (h.loft k)).trans rfl
  unfold State.clearingAt
  split <;> simp only [hclear, h.clearing]

theorem busyHeld (h : SameGround s t) (l : List Span) : t.busyHeld l = s.busyHeld l := by
  simp only [State.busyHeld, State.reconfHeld, h.reconfAt, h.clearingAt]

theorem snooped (h : SameGround s t) (l : List Span) (w : Bool) : t.snooped l w = s.snooped l w := by
  simp only [State.snooped, State.hostHeld, State.shut, h.snoop, h.hold, h.busyHeld]

end SameGround

/-! ### Accesses that no line of the host meets -/

theorem State.snooped_append (s : State) (l l' : List Span) (w : Bool) : s.snooped (l ++ l') w = [] ↔ s.snooped l w = [] ∧ s.snooped l' w = [] := by
  have hcons {p q : Prop} : (¬(p ∨ q)) ↔ ¬p ∧ ¬q := not_or
  simp only [State.snooped, State.hostHeld, State.shut, State.busyHeld, State.reconfHeld, List.append_eq_nil_iff, List.filterMap_eq_nil_iff, List.map_eq_nil_iff,
    List.filter_append, List.map_append, List.any_append]
  split <;> simp <;> grind

theorem State.forRead_unheld {s : State} {l : List Span} {m : Mover} (h : s.snooped l false = []) : s.forRead l m = s.touch m l false true := by
  rw [State.forRead, h, State.want_nil]

theorem State.forWrite_unheld {s : State} {l : List Span} {m : Mover} (h : s.snooped l true = []) : s.forWrite l m = s.touch m l true true := by
  rw [State.forWrite, h, State.want_nil]

theorem State.badUnits_congr {s t : State} (h : t.poison = s.poison) (l : List Span) : t.badUnits l = s.badUnits l := by
  have hp : t.poisonAt = s.poisonAt := funext fun a => congrArg (fun m => Sparse.get false m (unitOf a)) h
  rw [State.badUnits, hp, ← State.badUnits]

theorem State.badUnits_eq_nil (s : State) (l : List Span) : s.badUnits l = [] ↔ ∀ x ∈ l, ∀ u ∈ touchedUnits x.a x.n, s.poisonAt u = false := by
  simp only [State.badUnits, List.eq_nil_iff_forall_not_mem, List.mem_eraseDups, List.mem_filter, List.mem_flatMap]
  grind

theorem State.badUnits_append (s : State) (l l' : List Span) : s.badUnits (l ++ l') = [] ↔ s.badUnits l = [] ∧ s.badUnits l' = [] := by
  simp only [State.badUnits_eq_nil, List.forall_mem_append]

theorem State.readNat_congr {s t : State} (h : t.mem = s.mem) (a n : Nat) : t.readNat a n = s.readNat a n :=
  congrArg (fun m => leNat (Sparse.getList emptyByte m a n)) h

theorem State.bytes_congr {s t : State} (h : t.mem = s.mem) (a n : Nat) : t.bytes a n = s.bytes a n :=
  congrArg (fun m => Sparse.getList emptyByte m a n) h

end Sys2Proof.Machine
end

section
/-! SUPPORT. The start of a ready program run on a free core (R392, R395, R397 to R399). -/
namespace Sys2Proof.Machine

variable {s : State}

/-- A ready run starts on one of the 64 cores. -/
theorem State.nextInstance_lt {p : Pass} {w : Work} {k : Nat} (h : s.nextInstance = some (p, w, k)) : k < 64 := by
  unfold State.nextInstance at h
  extract_lets ready place at h
  have hplace {p : Pass} {w : Work} {k : Nat} (hk : place p w = some k) : k < 64 := List.mem_range.1 (List.mem_of_find?_eq_some hk)
  refine List.foldlRecOn ready _ (motive := fun best => ∀ y, best = some y → y.2.2 < 64) (fun y hy => by cases hy) (fun best hbest x _ y hy => ?_) _ h
  split at hy
  · exact hbest y hy
  · rename_i k hk
    split at hy
    · cases hy
      exact hplace hk
    · split at hy
      · cases hy
        exact hplace hk
      · exact hbest y hy

/-- A core as it starts a run: its entry registers, all others zero (R395). -/
theorem coreStart_entry (i : Inst) (ticket : Word48) :
    let c := coreStart i ticket
    c.inst = some i ∧ c.pc = 0 ∧ c.sr 1 = BitVec.ofNat 64 i.w.first ∧ c.sr 2 = BitVec.ofNat 64 i.w.len ∧ c.sr 3 = BitVec.ofNat 64 i.w.group ∧
      c.sr 4 = ticket.setWidth 64 ∧ c.sr 5 = BitVec.ofNat 64 i.w.bucket ∧ c.sr 0 = 0 ∧ (∀ r, 6 ≤ r → r < 32 → c.sr r = 0) ∧
      (∀ r j, r < 32 → j < 16 → c.vr r j = 0) ∧ c.pr 0 = 0xFFFF ∧ (∀ r, 1 ≤ r → r < 8 → c.pr r = 0) := by
  intro c
  have hsr (r : Nat) (hr : r < 32) : c.sr r = if r = 5 then BitVec.ofNat 64 i.w.bucket else if r = 4 then ticket.setWidth 64 else
      if r = 3 then BitVec.ofNat 64 i.w.group else if r = 2 then BitVec.ofNat 64 i.w.len else if r = 1 then BitVec.ofNat 64 i.w.first else 0 := by
    unfold c coreStart
    dsimp only
    simp only [GCore.sr_setS _ _ _ hr]
    have hz : (({ inst := some i } : GCore)).sr r = 0 := by simp [GCore.sr, vget]
    rw [hz]
    have hne {k : Nat} (hk : 0 < k) : (r = k ∧ r ≠ 0) ↔ r = k := ⟨And.left, fun h => ⟨h, by omega⟩⟩
    simp only [hne (k := 5) (by decide), hne (k := 4) (by decide), hne (k := 3) (by decide), hne (k := 2) (by decide), hne (k := 1) (by decide)]
  have hv : c.v = Vector.replicate 32 (Vector.replicate 16 0) := rfl
  have hp : c.p = Vector.replicate 8 0 := rfl
  refine ⟨rfl, rfl, hsr 1 (by decide), hsr 2 (by decide), hsr 3 (by decide), hsr 4 (by decide), hsr 5 (by decide), hsr 0 (by decide), fun r h6 hr => ?_,
    fun r j hr hj => ?_, rfl, fun r h1 hr => ?_⟩
  · rw [hsr r hr, if_neg (by omega), if_neg (by omega), if_neg (by omega), if_neg (by omega), if_neg (by omega)]
  · simp [GCore.vr, hv, vget, hr, hj]
  · simp [GCore.pr, hp, vget, hr, Nat.pos_iff_ne_zero.1 h1]

/-- A row's count at hand is read without a fault. -/
theorem State.readCount_clean {ins : InsRef} {n r : Nat} (hs : s.snooped [{ a := s.rowCountAt n r true, n := 4 }] false = [])
    (hb : s.badUnits [{ a := s.rowCountAt n r true, n := 4 }] = []) :
    s.readCount ins n r = (s.touch .hub [{ a := s.rowCountAt n r true, n := 4 }] false true,
      (s.touch .hub [{ a := s.rowCountAt n r true, n := 4 }] false true).readNat (s.rowCountAt n r true) 4, false) := by
  have hb' : (s.touch .hub [{ a := s.rowCountAt n r true, n := 4 }] false true).badUnits [{ a := s.rowCountAt n r true, n := 4 }] = [] := by
    rw [State.badUnits_congr (Changes.touch.kept .poison (by decide))]
    exact hb
  unfold State.readCount
  dsimp only
  rw [State.forRead_unheld hs, hb']
  rfl

theorem State.coreBad_clean {l : List Span} (h : s.badUnits l = []) : s.coreBad l = (s, false) := by
  rw [State.coreBad, h]
  rfl

/-- An image at hand is read into its core. -/
theorem State.readImage_clean {k a m d : Nat} {i : Inst} {pl : List (Nat × Nat × Int)} (hhead : headerOf (s.bytes a 256) = some (m, d, pl))
    (h256 : s.inBuffer a 256 = true) (hall : s.inBuffer a (256 + 4 * m) = true)
    (hs : s.snooped [{ a, n := 256 }, { a := a + 256, n := 4 * m }] false = []) (hb : s.badUnits [{ a, n := 256 }, { a := a + 256, n := 4 * m }] = []) :
    ∃ u, Changes [.loft, .reports] s u ∧ s.readImage k a i =
      (u.modCore k fun _ => coreStart { i with code := (List.range m).map fun j => BitVec.ofNat 32 (s.readNat (a + 256 + 4 * j) 4), planes := pl, datab := d }
        s.ticket).keepImage (k / 16)
      { ins := i.ins, addr := a, code := (List.range m).map fun j => BitVec.ofNat 32 (s.readNat (a + 256 + 4 * j) 4), planes := pl, datab := d } := by
  obtain ⟨hs1, hs2⟩ := (s.snooped_append [{ a, n := 256 }] [{ a := a + 256, n := 4 * m }] false).1 hs
  obtain ⟨hb1, hb2⟩ := (s.badUnits_append [{ a, n := 256 }] [{ a := a + 256, n := 4 * m }]).1 hb
  generalize ht : s.touch .hub [{ a, n := 256 }] false true = t
  have hst : Changes [.reports, .loft] s t := ht ▸ Changes.touch
  have hground : SameGround s t := ht ▸ SameGround.touch
  generalize hu : t.touch .hub [{ a := a + 256, n := 4 * m }] false true = u
  have htu : Changes [.reports, .loft] t u := hu ▸ Changes.touch
  have hsu : Changes [.loft, .reports] s u := Changes.mono (hst.andThen htu)
  refine ⟨u, hsu, ?_⟩
  unfold State.readImage
  simp only [h256, State.forRead_unheld hs1, ht, State.coreBad_clean ((State.badUnits_congr (hst.kept .poison (by decide)) _).trans hb1), hhead,
    State.bytes_congr (hst.kept .mem (by decide)), hground.inBuffer, hall,
    State.forRead_unheld (s := t) ((hground.snooped _ _).trans hs2), hu,
    State.coreBad_clean ((State.badUnits_congr (hsu.kept .poison (by decide)) _).trans hb2), State.readNat_congr (hsu.kept .mem (by decide))]
  rw [← hsu.kept .ticket (by decide)]
  rfl

/-- The run that starts, as its core and its pass know it. -/
def runOf (p : Pass) (w : Work) (ticket : Word48) (cnt : Nat) : Inst :=
  { ins := p.ins, b := p.b, w, code := [], planes := [], datab := 0
    missed := if w.row.isSome then (ticket.toNat + 2 ^ 33 - 1 - cnt) % 2 ^ 32 else 0, count := cnt }

/-- The pass knows that the run has started, and the slice counts it. -/
def State.runCounted (s : State) (p : Pass) (w : Work) (k : Nat) : State :=
  ({ s with passes := s.passes.map fun x =>
    if x.ins = p.ins then { x with work := x.work.map fun y => if y.group = w.group && y.k = w.k then { y with started := true } else y } else x } :
    State).occ (46 + k / 16) 27

/-- A run starts with the row count that was read. -/
def State.startRun (s : State) (p : Pass) (w : Work) (k a cnt : Nat) : State :=
  match (s.runCounted p w k).imageAt (k / 16) p.ins a with
  | some m => (s.runCounted p w k).modCore k fun _ =>
      coreStart { runOf p w s.ticket cnt with code := m.code, planes := m.planes, datab := m.datab } (s.runCounted p w k).ticket
  | none => ((s.runCounted p w k).modCore k fun _ => coreStart (runOf p w s.ticket cnt) (s.runCounted p w k).ticket).readImage k a (runOf p w s.ticket cnt)

/-- Where a row's count, if any, is at hand, the run starts with it. -/
theorem instanceStart_eq {p : Pass} {w : Work} {k : Nat} (h : s.nextInstance = some (p, w, k))
    (hs : s.snooped ((w.row.map fun r => ({ a := s.rowCountAt w.group r true, n := 4 } : Span)).toList) false = [])
    (hb : s.badUnits ((w.row.map fun r => ({ a := s.rowCountAt w.group r true, n := 4 } : Span)).toList) = []) :
    ∃ (v : State) (cnt : Nat), Changes [.loft, .reports] s v ∧ SameGround s v ∧ instanceStart s = v.startRun p w k (s.gProg w.group p.b) cnt := by
  cases hrow : w.row with
  | none =>
    refine ⟨s, 0, Changes.mono Changes.refl, .refl, ?_⟩
    unfold instanceStart State.startRun runOf
    simp only [h, hrow]
    rfl
  | some r =>
    rw [hrow] at hs hb
    refine ⟨s.touch .hub [{ a := s.rowCountAt w.group r true, n := 4 }] false true,
      (s.touch .hub [{ a := s.rowCountAt w.group r true, n := 4 }] false true).readNat (s.rowCountAt w.group r true) 4, Changes.mono Changes.touch, .touch, ?_⟩
    unfold instanceStart State.startRun runOf
    simp only [h, hrow, State.readCount_clean hs hb]
    rfl

theorem State.runCounted_changes {p : Pass} {w : Work} {k : Nat} : Changes [.passes, .reports] s (s.runCounted p w k) :=
  Changes.mono (Changes.andThen Changes.passes Changes.occ)

theorem State.imageAt_congr {s t : State} (h : t.codes = s.codes) (q : Nat) (ins : InsRef) (a : Nat) : t.imageAt q ins a = s.imageAt q ins a :=
  congrArg (fun c => (vget c q []).find? fun m : Image => m.ins = ins && m.addr = a) h

/-- Settles O43. -/
theorem programRunsStart : Obligations.ProgramRunsStart := by
  intro s
  refine ⟨?idle, ?starts⟩
  case idle =>
    intro hnone hw
    have h : instanceStart s = s := by rw [instanceStart, hnone]
    rw [exec, execInstanceStart, h, waitRecall_next s s hw]
  case starts =>
    intro p w k hnext a row starts hw hs hb
    have hk : k < 64 := s.nextInstance_lt hnext
    obtain ⟨v, cnt, hsv, hground, hstart⟩ := instanceStart_eq hnext hs hb
    have hcounted : Changes [.passes, .reports] v (v.runCounted p w k) := State.runCounted_changes
    have hsu : Changes [.loft, .reports, .passes] s (v.runCounted p w k) := Changes.mono (hsv.andThen hcounted)
    have hground' : SameGround s (v.runCounted p w k) := hground.trans (.of_changes hcounted)
    have himage := State.imageAt_congr (hsu.kept .codes (by decide)) (k / 16) p.ins a
    have hticket : (v.runCounted p w k).ticket = s.ticket := hsu.kept .ticket (by decide)
    have hstarts {t u : State} {i : Inst} {m : Nat} {word : Nat → Option Word32} (ht : instanceStart s = t) (hother : ∀ x, x ≠ k → u.core x = s.core x)
        (hcores : t.cores = (u.modCore k fun _ => coreStart i s.ticket).cores) (hmem : t.mem = s.mem) (hw' : t.mcl.wanted = [])
        (hins : i.ins = p.ins) (hiw : i.w = w) (hlen : i.code.length = m) (hword : ∀ j, j < m → i.code[j]? = word j) : starts m i.datab i.planes word := by
      have hcore (x : Nat) : t.core x = (u.modCore k fun _ => coreStart i s.ticket).core x := congrArg (fun v => vget v x ({} : GCore)) hcores
      refine ⟨t, ?_, hmem, fun x hx _ => ((hcore x).trans (State.core_modCore_other u k x _ (Ne.symm hx))).trans (hother x hx), ?_⟩
      · rw [exec, execInstanceStart, ht, waitRecall_next s t hw']
      · rw [hcore, State.core_modCore_same u k _ hk]
        obtain ⟨hinst, hrest⟩ := coreStart_entry i s.ticket
        rw [hiw] at hrest
        exact ⟨⟨i, hinst, hins, hiw, rfl, rfl, hlen, hword⟩, hrest⟩
    have hsame {u : State} (h : u.cores = s.cores) (x : Nat) : u.core x = s.core x := congrArg (fun v => vget v x ({} : GCore)) h
    refine ⟨?held, ?read⟩
    case held =>
      intro im him
      rw [him] at himage
      refine hstarts (i := { runOf p w v.ticket cnt with code := im.code, planes := im.planes, datab := im.datab }) (hstart.trans ?_)
        (fun x _ => hsame (hsu.kept .cores (by decide)) x) rfl (hsu.kept .mem (by decide)) (hsu.kept .wanted (by decide) hw) rfl rfl rfl fun _ _ => rfl
      unfold State.startRun
      rw [himage, hticket]
    case read =>
      intro m d pl hnone image hhead h256 hall hsi hbi
      rw [hnone] at himage
      generalize hc : (v.runCounted p w k).modCore k (fun _ => coreStart (runOf p w v.ticket cnt) s.ticket) = c
      have hvc : Changes [.cores] (v.runCounted p w k) c := hc ▸ Changes.mono Changes.modCore
      have hsc : Changes [.loft, .reports, .passes, .cores] s c := Changes.mono (hsu.andThen hvc)
      have hgroundc : SameGround s c := hground'.trans (.of_changes hvc)
      obtain ⟨u, hcu, hread⟩ := State.readImage_clean (s := c) (k := k) (a := a) (m := m) (d := d) (i := runOf p w v.ticket cnt) (pl := pl)
        (by rw [State.bytes_congr (hsc.kept .mem (by decide))]; exact hhead) ((hgroundc.inBuffer _ _).trans h256) ((hgroundc.inBuffer _ _).trans hall)
        ((hgroundc.snooped _ _).trans hsi) ((State.badUnits_congr (hsc.kept .poison (by decide)) _).trans hbi)
      have hsu' : Changes [.loft, .reports, .passes, .cores] s u := Changes.mono (hsc.andThen hcu)
      have hother (x : Nat) (hx : x ≠ k) : u.core x = s.core x := by
        have h : u.core x = c.core x := congrArg (fun v => vget v x ({} : GCore)) (hcu.kept .cores (by decide))
        rw [h, ← hc, State.core_modCore_other _ k x _ (Ne.symm hx)]
        exact hsame (hsu.kept .cores (by decide)) x
      have hstart' : instanceStart s = c.readImage k a (runOf p w v.ticket cnt) := by
        rw [hstart]
        unfold State.startRun
        rw [himage, hticket, ← hc]
      refine hstarts (i := { runOf p w v.ticket cnt with code := (List.range m).map fun j => BitVec.ofNat 32 (c.readNat (a + 256 + 4 * j) 4), planes := pl, datab := d })
        (hstart'.trans hread) hother ?_ (hsu'.kept .mem (by decide)) (hsu'.kept .wanted (by decide) hw) rfl rfl (by simp) fun j hj => ?_
      · rw [hsc.kept .ticket (by decide)]
        rfl
      · simp [hj, State.readNat_congr (hsc.kept .mem (by decide))]

end Sys2Proof.Machine
end

section
/-! SUPPORT. Loads and stores of a core (R404 to R409, R413). -/
namespace Sys2Proof.Machine

/-- Runs that are joined cover nothing that they did not cover before. -/
theorem joinRuns_outside {l : List (Nat × List Byte)} {b : Nat} (h : ∀ r ∈ l, b < r.1 ∨ r.1 + r.2.length ≤ b) :
    ∀ r ∈ joinRuns l, b < r.1 ∨ r.1 + r.2.length ≤ b := by
  induction l with
  | nil => exact h
  | cons r l ih =>
    obtain ⟨hr, hl⟩ := List.forall_mem_cons.1 h
    have ih := ih hl
    rw [joinRuns]
    split
    · rename_i q qs hq
      rw [hq] at ih
      obtain ⟨hq, hqs⟩ := List.forall_mem_cons.1 ih
      split
      · refine List.forall_mem_cons.2 ⟨?_, hqs⟩
        simp only [List.length_append]
        omega
      · exact List.forall_mem_cons.2 ⟨hr, ih⟩
    · exact List.forall_mem_singleton.2 hr

theorem leBytes_length (x n : Nat) : (leBytes x n).length = n := by
  induction n generalizing x with
  | zero => rfl
  | succ n ih => exact congrArg (· + 1) (ih _)

variable {s : State}

/-- A store writes inside the places of its elements. -/
theorem State.storeSpots_writes {u : State} {i : Inst} {k : Nat} {c : GCore} {l : List (Spot × Nat)} :
    s.Writes (l.flatMap fun p => u.spotSpans i p.1) (s.storeSpots k c l).1 := by
  refine State.Writes.each fun t r hr => State.Writes.trans (State.Writes.writeRaw fun b hb => joinRuns_outside (fun q hq => ?_) r hr)
    (State.Writes.of_changes Changes.noteWrite)
  obtain ⟨p, hp, hq⟩ := List.mem_filterMap.1 hq
  split at hq
  · rename_i a fmt sexp hspot
    cases hq
    have h := hb { a, n := elemBytes fmt } (List.mem_flatMap.2 ⟨p, hp, by rw [hspot]; exact List.mem_singleton.2 rfl⟩)
    simpa [bytesOf, leBytes_length] using h
  · cases hq

/-- A load whose elements are at hand gives its destination their words. -/
theorem loadRun_clean {scalar : Bool} {k w : Nat} {c : GCore} {i : Inst}
    (hwin : s.windowBad i (gW w) (gPl w) false = false)
    (hin : ∀ j ∈ lanesOf scalar (c.pr (gMp w)), (s.spot c i (gW w) (gPl w) (laneElem c w j (scalar || gM5 w))).isSome = true)
    (hs : s.snooped ((lanesOf scalar (c.pr (gMp w))).flatMap fun j =>
      ((s.spot c i (gW w) (gPl w) (laneElem c w j (scalar || gM5 w))).map (s.spotSpans i)).getD []) false = [])
    (hbad : ∀ j ∈ lanesOf scalar (c.pr (gMp w)),
      s.badUnits (((s.spot c i (gW w) (gPl w) (laneElem c w j (scalar || gM5 w))).map (s.spotSpans i)).getD []) = [])
    (hopen : ∀ j ∈ lanesOf scalar (c.pr (gMp w)),
      ((s.spot c i (gW w) (gPl w) (laneElem c w j (scalar || gM5 w))).map (s.loadOpen k (gW w))).getD false = false) :
    ∃ (t : State) (val : Nat → Word64), Changes [.loft, .reports] s t ∧
      loadRun scalar k s c i w = (t, .ok (if scalar then c.setS (gD w) (val 0) else c.setV (gD w) (c.pr (gMp w)) val)) ∧
      ∀ j ∈ lanesOf scalar (c.pr (gMp w)), val j = ((s.spot c i (gW w) (gPl w) (laneElem c w j (scalar || gM5 w))).map (s.loadSpot c i)).getD 0 := by
  unfold loadRun
  extract_lets win lanes bcast at' out spans all bad
  have hout : out = [] := List.filter_eq_nil_iff.2 fun j hj => by simp [Option.isSome_iff_ne_none.1 (hin j hj), at', win, bcast]
  have hbadNil : bad = [] := List.filter_eq_nil_iff.2 fun j hj => by simp [hbad j hj, spans, at', win, bcast]
  have hno : (lanes.any fun j => ((at' j).map (s.loadOpen k win)).getD false) = false := List.any_eq_false.2 fun j hj => by simp [hopen j hj, at', win, bcast]
  have hw : (!lanes.isEmpty && s.windowBad i win (gPl w) false) = false := by rw [hwin, Bool.and_false]
  rw [hw, if_neg (by decide), hout, if_neg (by decide), hno, hbadNil]
  refine ⟨s.touch .hub all false true, _, Changes.mono Changes.touch, congrArg (fun t => (t, _)) (State.forRead_unheld hs), fun j hj => ?_⟩
  have ho : ((at' j).map (s.loadOpen k win)).getD false = false := hopen j hj
  change _ = ((at' j).map (s.loadSpot c i)).getD 0
  revert ho
  cases at' j with
  | none => exact fun _ => rfl
  | some x => exact fun ho => if_neg (by rw [show s.loadOpen k win x = false from ho]; decide)

/-- A store within its windows writes inside the places of its elements, and leaves its core but for the scratch and what it has seen. -/
theorem storeRun_clean {scalar : Bool} {k w : Nat} {c : GCore} {i : Inst}
    (hwin : s.windowBad i (gW w) (gPl w) true = false) (hspace : scalar = true → gW w = 4)
    (hin : ∀ j ∈ lanesOf scalar (c.pr (gMp w)), (s.spot c i (gW w) (gPl w) (laneElem c w j scalar)).isSome = true)
    (hs : s.snooped ((lanesOf scalar (c.pr (gMp w))).flatMap fun j =>
      ((s.spot c i (gW w) (gPl w) (laneElem c w j scalar)).map (s.spotSpans i)).getD []) true = []) :
    ∃ (t : State) (d : GCore), Changes [.loft, .reports, .poison, .mem, .written, .commit] s t ∧
      s.Writes ((lanesOf scalar (c.pr (gMp w))).flatMap fun j => ((s.spot c i (gW w) (gPl w) (laneElem c w j scalar)).map (s.spotSpans i)).getD []) t ∧
      storeRun scalar k s c i w = (t, .ok d) ∧ d.pc = c.pc ∧ d.s = c.s ∧ d.v = c.v ∧ d.p = c.p := by
  unfold storeRun
  extract_lets win pl lanes at' out spans u
  have hout : out = [] := List.filter_eq_nil_iff.2 fun j hj => by simp [Option.isSome_iff_ne_none.1 (hin j hj), at', win, pl]
  have hw : (!lanes.isEmpty && (s.windowBad i win pl true || (scalar && win ≠ 4))) = false := by
    have h4 : (scalar && decide (win ≠ 4)) = false := by
      cases hsc : scalar with
      | false => rfl
      | true => simp [win, hspace hsc]
    rw [hwin, h4, Bool.or_false, Bool.and_false]
  have hsu : Changes [.loft, .reports] s u := by
    have hu : u = s.touch .hub spans true true := State.forWrite_unheld hs
    rw [hu]
    exact Changes.mono Changes.touch
  have hspots (code : Nat → Nat) : (lanes.filterMap fun j => (at' j).map fun x => (x, code j)).flatMap (fun p => s.spotSpans i p.1) = spans := by
    unfold spans
    induction lanes with
    | nil => rfl
    | cons j l ih => cases h : at' j <;> simp [h, ← ih]
  split
  rw [hw, if_neg (by decide), hout, if_neg (by decide)]
  extract_lets code
  have hwrites := State.storeSpots_writes (s := u) (u := s) (i := i) (k := k) (c := c) (l := lanes.filterMap fun j => (at' j).map fun x => (x, code j))
  rw [hspots] at hwrites
  have hchanges := Changes.storeSpots (s := u) (k := k) (c := c) (l := lanes.filterMap fun j => (at' j).map fun x => (x, code j))
  split
  rename_i v d hst
  have hv : v = (u.storeSpots k c (lanes.filterMap fun j => (at' j).map fun x => (x, code j))).1 := (congrArg Prod.fst hst).symm
  have hd : d = (u.storeSpots k c (lanes.filterMap fun j => (at' j).map fun x => (x, code j))).2 := (congrArg Prod.snd hst).symm
  rw [← hv] at hwrites hchanges
  have hsv : s.Writes spans v := .trans (.of_changes hsu) hwrites
  have hcv : Changes [.loft, .reports, .poison, .mem, .written, .commit] s v := Changes.mono (hsu.andThen hchanges)
  split
  · exact ⟨v.inactiveWritten, _, Changes.mono (hcv.andThen Changes.inactiveWritten), .trans hsv (.of_changes Changes.inactiveWritten), rfl, by rw [hd]; rfl,
      by rw [hd]; rfl, by rw [hd]; rfl, by rw [hd]; rfl⟩
  · exact ⟨v, d, hcv, hsv, rfl, by rw [hd]; rfl, by rw [hd]; rfl, by rw [hd]; rfl, by rw [hd]; rfl⟩

/-- A core's loads and stores leave the table and the other cores, and do not wait for the host. -/
theorem exec_access {x : Instr} {op : Nat} {f : State → GCore → Inst → Nat → State × GRes} {g : SliceId} {c : CoreId} {core d : GCore} {i : Inst} {w : Nat} {t : State}
    (hx : exec x s = waitRecall s (coreRun g c op f s)) (hrun : s.atCore (coreNo g c) op = .run core i w) (hf : f s core.next i w = (t, .ok d))
    (hst : Changes [.loft, .reports, .poison, .mem, .written, .commit] s t) (hw : s.mcl.wanted = []) :
    exec x s = .next (t.modCore (coreNo g c) fun _ => d) ∧ t.table = s.table ∧
      (∀ y, y ≠ coreNo g c → y < 64 → (t.modCore (coreNo g c) fun _ => d).core y = s.core y) ∧ (t.modCore (coreNo g c) fun _ => d).core (coreNo g c) = d := by
  have hk : coreNo g c < 64 := by
    have hg := g.isLt
    have hc := c.isLt
    unfold coreNo
    omega
  refine ⟨?_, hst.kept .table (by decide), fun y hy _ => ?_, State.core_modCore_same _ _ _ hk⟩
  · rw [hx, coreRun_run hrun hf, waitRecall_next]
    exact hst.kept .wanted (by decide) hw
  · exact (State.core_modCore_other _ _ _ _ (Ne.symm hy)).trans (congrArg (fun v => vget v y ({} : GCore)) (hst.kept .cores (by decide)))

/-- A write of a scalar leaves the rest of the core. -/
theorem GCore.setS_keeps (c : GCore) (k : Nat) (x : Word64) : (c.setS k x).pc = c.pc ∧ (c.setS k x).p = c.p ∧ (c.setS k x).v = c.v := by
  unfold GCore.setS
  split <;> exact ⟨rfl, rfl, rfl⟩

/-- Settles O47. -/
theorem coreLoadsAndStores : Obligations.CoreLoadsAndStores := by
  intro s g c core i w hm hw k at' spans legal
  have hload (scalar : Bool) (op : Nat) (x : Instr) (hx : exec x s = waitRecall s (coreRun g c op (loadRun scalar k) s)) (hrun : s.atCore k op = .run core i w)
      (hlegal : legal scalar (scalar || gM5 w) false)
      (hbad : ∀ j ∈ lanesOf scalar (core.pr (gMp w)), s.badUnits (((at' (scalar || gM5 w) j).map (s.spotSpans i)).getD []) = [])
      (hopen : ∀ j ∈ lanesOf scalar (core.pr (gMp w)), ((at' (scalar || gM5 w) j).map (s.loadOpen k (gW w))).getD false = false) :
      ∃ t, exec x s = .next t ∧ t.mem = s.mem ∧ t.table = s.table ∧ (∀ y, y ≠ k → y < 64 → t.core y = s.core y) ∧
        (t.core k).pc = core.pc + 1 ∧ (t.core k).p = core.p ∧
        (scalar = true → (t.core k).v = core.v ∧ ∀ r, r < 32 → (t.core k).sr r =
          if r = gD w ∧ r ≠ 0 then ((at' (scalar || gM5 w) 0).map (s.loadSpot core i)).getD 0 else core.sr r) ∧
        (scalar = false → (t.core k).s = core.s ∧ ∀ r j, r < 32 → j < 16 → (t.core k).vr r j =
          if r = gD w ∧ (core.pr (gMp w)).getLsbD j = true then ((at' (scalar || gM5 w) j).map (s.loadSpot core i)).getD 0 else core.vr r j) := by
    obtain ⟨hwin, hin, hs⟩ := hlegal
    obtain ⟨t, val, hst, hf, hval⟩ := loadRun_clean (s := s) (k := k) (c := core.next) (i := i) hwin hin hs hbad hopen
    obtain ⟨hexec, htable, hother, hself⟩ := exec_access hx hrun hf (Changes.mono hst) hw
    refine ⟨_, hexec, hst.kept .mem (by decide), htable, hother, ?_⟩
    rw [hself]
    cases scalar with
    | true =>
      obtain ⟨hpc, hp, hv⟩ := core.next.setS_keeps (gD w) (val 0)
      refine ⟨hpc, hp, fun _ => ⟨hv, fun r hr => ?_⟩, fun h => absurd h (by decide)⟩
      refine (GCore.sr_setS core.next (gD w) (val 0) hr).trans ?_
      rw [hval 0 (List.mem_singleton.2 rfl)]
      rfl
    | false =>
      refine ⟨rfl, rfl, fun h => absurd h (by decide), fun _ => ⟨rfl, fun r j hr hj => (GCore.vr_setV _ _ _ _ hr hj).trans ?_⟩⟩
      by_cases hlane : r = gD w ∧ (core.pr (gMp w)).getLsbD j = true
      · have hj' : j ∈ lanesOf false (core.pr (gMp w)) := List.mem_filter.2 ⟨List.mem_range.2 hj, hlane.2⟩
        exact ((if_pos hlane).trans (hval j hj')).trans (if_pos hlane).symm
      · exact (if_neg hlane).trans (if_neg hlane).symm
  have hstore (scalar : Bool) (op : Nat) (x : Instr) (hx : exec x s = waitRecall s (coreRun g c op (storeRun scalar k) s)) (hrun : s.atCore k op = .run core i w)
      (hlegal : legal scalar scalar true) (hspace : scalar = true → gW w = 4) :
      ∃ t, exec x s = .next t ∧ s.KeepsOutside t (spans scalar scalar) ∧ t.table = s.table ∧
        (∀ y, y ≠ k → y < 64 → t.core y = s.core y) ∧ (t.core k).pc = core.pc + 1 ∧ (t.core k).s = core.s ∧ (t.core k).v = core.v ∧
        (t.core k).p = core.p := by
    obtain ⟨hwin, hin, hs⟩ := hlegal
    obtain ⟨t, d, hst, hwrites, hf, hpc, hsr, hv, hp⟩ := storeRun_clean (s := s) (k := k) (c := core.next) (i := i) hwin hspace hin hs
    obtain ⟨hexec, htable, hother, hself⟩ := exec_access hx hrun hf hst hw
    refine ⟨_, hexec, (hwrites hm).2, htable, hother, ?_⟩
    rw [hself]
    exact ⟨hpc, hsr, hv, hp⟩
  refine ⟨fun x hx => ?_, fun x hx => ?_⟩
  · simp only [List.mem_cons, List.not_mem_nil, or_false] at hx
    rcases hx with rfl | rfl
    exacts [hload false 0x38 (.vld g c) rfl, hload true 0x3A (.sld g c) rfl]
  · simp only [List.mem_cons, List.not_mem_nil, or_false] at hx
    rcases hx with rfl | rfl
    exacts [hstore false 0x39 (.vst g c) rfl, hstore true 0x3B (.sst g c) rfl]

end Sys2Proof.Machine
end

section
/-! SUPPORT. Packets of another step or attempt (R334, R335). -/
namespace Sys2Proof.Machine

variable {s : State}

/-- A packet that the checks drop changes registers, counts and events alone. -/
theorem State.apply_stray {path : Path} {p : Packet} {v : Verdict}
    (h : v = .badKind ∨ v = .noJob ∨ v = .oldGen ∨ v = .notMember ∨ ∃ j, v = .stale j) : Changes [.regs, .once, .reports] s (s.apply path p v) := by
  rcases h with rfl | rfl | rfl | rfl | ⟨j, rfl⟩ <;> unfold State.apply
  · exact Changes.mono Changes.occ
  · exact Changes.mono Changes.occ
  · exact Changes.mono (Changes.andThen Changes.orReg Changes.occ)
  · exact Changes.mono Changes.occ
  · exact Changes.mono (Changes.andThen (Changes.andThen Changes.orReg Changes.occ) (Changes.ite Changes.raiseOnce Changes.refl))

/-- A packet of a member of a known job of its generation, whose age is checked, is judged by its age. -/
theorem State.verdict_of_age {p : Packet} {j : Nat} {v : Verdict} (hctx : s.ctxOf p.job.toNat = some j) (hgen : (s.job j).gen = p.gen.toNat)
    (hkind : badKind p = false) (hskip : skipsAge p = false) (hsrc : ((s.job j).index p.src.toNat).isSome = true)
    (hv : (ageOf s.ticket.toNat (s.job j).attempt p = .successor ∧ v = .held) ∨ (ageOf s.ticket.toNat (s.job j).attempt p = .stale ∧ v = .stale j)) :
    s.verdict p = v := by
  obtain ⟨src, hsrc⟩ := Option.isSome_iff_exists.1 hsrc
  unfold State.verdict
  rcases hv with ⟨hage, rfl⟩ | ⟨hage, rfl⟩ <;> simp [hkind, hctx, hgen, hsrc, hskip, hage]

/-- The next attempt of the ticket is the successor of this one. -/
theorem ageOf_next {t a : Nat} {p : Packet} (ha : a < 16) (ht : p.ticket.toNat = t) (hp : p.attempt = (a + 1) % 16) : ageOf t a p = .successor := by
  unfold ageOf
  dsimp only
  rw [if_neg (by omega), if_pos (.inr ⟨ht, hp⟩)]

/-- The attempt before is stale. -/
theorem ageOf_before {t a : Nat} {p : Packet} (ht : p.ticket.toNat = t) (hp : (p.attempt + 1) % 16 = a) : ageOf t a p = .stale := by
  have hlt : p.attempt < 16 := by
    have := p.flags.isLt
    unfold Packet.attempt
    omega
  unfold ageOf
  dsimp only
  rw [if_neg (by omega), if_neg (by omega), if_pos (by omega)]

/-- Settles O39. -/
theorem strayPacketsChangeNothing : Obligations.StrayPacketsChangeNothing := by
  intro s path p
  refine ⟨fun v _ hv => ?_, rfl, ?_⟩
  · have h := State.apply_stray (s := s) (path := path) (p := p) hv
    exact ⟨h.kept .jobs (by decide), h.kept .commit (by decide), h.kept .held (by decide), h.kept .truss (by decide), h.kept .mem (by decide)⟩
  · rintro j c hctx rfl hgen hkind hskip hsrc ha
    exact ⟨fun ⟨ht, hp⟩ => State.verdict_of_age hctx hgen hkind hskip hsrc (.inl ⟨ageOf_next ha (by rw [ht]) hp, rfl⟩),
      fun ⟨ht, hp⟩ => State.verdict_of_age hctx hgen hkind hskip hsrc (.inr ⟨ageOf_before (by rw [ht]) hp, rfl⟩)⟩

end Sys2Proof.Machine
end

section
/-! SUPPORT. The entries of the group table and of the row-step table (R363, R374). -/
namespace Sys2Proof.Machine

theorem groupSw_eq (w : Nat) : groupSw w = w % 32 + w / 256 % 4194304 * 256 + w / 1099511627776 % 1048576 * 1099511627776 := by
  simp only [groupSw, bits, Nat.reducePow, Nat.div_one]

theorem groupSw_lt (w : Nat) : groupSw w < 2 ^ 60 := by
  rw [groupSw_eq]
  omega

theorem gKey_inj {m n i j : Nat} (hi : i < 16) (hj : j < 16) (h : gKey m i = gKey n j) : m = n ∧ i = j := by
  simp only [gKey] at h
  omega

theorem rKey_inj {m n i j : Nat} (hi : i < 4) (hj : j < 4) (h : rKey m i = rKey n j) : m = n ∧ i = j := by
  simp only [rKey] at h
  omega

variable {s : State} {n w : Nat}

/-- Writing one word of a group's entry leaves the other words. -/
theorem State.gw_put (h : Sparse.wf (0 : Word64) s.table = true) {i : Nat} (hi : i < 16) (v m : Nat) {j : Nat} (hj : j < 16) :
    (s.setTable (gKey n i) v).gw m j = if m = n ∧ j = i then v % 2 ^ 64 else s.gw m j := by
  simp only [State.gw, State.tword, State.setTable, Sparse.get_put 0 _ _ _ h]
  by_cases heq : m = n ∧ j = i
  · obtain ⟨rfl, rfl⟩ := heq
    rw [if_pos rfl, if_pos ⟨rfl, rfl⟩, BitVec.toNat_ofNat]
  · rw [if_neg heq, if_neg fun hk => heq (gKey_inj hj hi hk)]

theorem State.gw_setTable (h : s.Canonical) {i : Nat} (hi : i < 16) (v m : Nat) {j : Nat} (hj : j < 16) :
    (s.setTable (gKey n i) v).gw m j = if m = n ∧ j = i then v % 2 ^ 64 else s.gw m j := State.gw_put h.table hi v m hj

theorem State.gw_congr {t : State} (h : t.table = s.table) (m k : Nat) : t.gw m k = s.gw m k := by
  simp only [State.gw, State.tword, h]

theorem State.gw_occ (dom i k m j : Nat) : (s.occ dom i k).gw m j = s.gw m j := State.gw_congr (s.occ_table ..) m j

/-- A write of the first word of an entry leaves the other entries. -/
theorem State.writeGroup0_other (h : s.Canonical) {m k : Nat} (hk : k < 16) (hm : m ≠ n) : (s.writeGroup0 n w).gw m k = s.gw m k := by
  have hset {s : State} (hs : s.Canonical) {i v : Nat} (hi : i < 16) : (s.setTable (gKey n i) v).gw m k = s.gw m k := by
    rw [State.gw_setTable hs hi v m hk, if_neg fun h => hm h.1]
  have hbits (s : State) (hs : s.Canonical) (lo v : Nat) : (s.setTableBits (gKey n 0) lo 1 v).gw m k = s.gw m k := hset hs (by decide)
  unfold State.writeGroup0
  dsimp only
  split
  · split
    · split
      · exact hset h (by decide)
      · exact State.gw_occ ..
    · have hboth := (hbits _ (h.setTableBits (gKey n 0) 1 1 (bits w 1 1)) 3 (bits w 3 1)).trans (hbits s h 1 (bits w 1 1))
      split
      · exact hboth
      · exact (State.gw_occ ..).trans hboth
  · split
    · exact hset h (by decide)
    · split
      · rw [hset ((((h.setTable ..).setTable ..).setTable ..).setTable ..) (by decide), hset (((h.setTable ..).setTable ..).setTable ..) (by decide),
          hset ((h.setTable ..).setTable ..) (by decide), hset (h.setTable ..) (by decide), hset h (by decide)]
      · exact (State.gw_occ ..).trans (hset h (by decide))

/-- Registering a legal entry: the software's fields, and zeros for the results. -/
theorem State.writeGroup0_registers (h : s.Canonical) (hw : w % 2 = 1) (hv : s.gValid n = false) (hok : s.groupOk n w = true) {k : Nat} (hk : k < 16) :
    (s.writeGroup0 n w).gw n k = if k = 0 then groupSw w else if 12 ≤ k then 0 else s.gw n k := by
  have hlt := groupSw_lt w
  have hb : ¬bits w 0 1 = 0 := by
    simp only [bits]
    omega
  unfold State.writeGroup0
  dsimp only
  rw [if_neg (by simp [hv]), if_neg hb, if_pos hok, State.gw_setTable ((((h.setTable ..).setTable ..).setTable ..).setTable ..) (by decide) _ _ hk,
    State.gw_setTable (((h.setTable ..).setTable ..).setTable ..) (by decide) _ _ hk, State.gw_setTable ((h.setTable ..).setTable ..) (by decide) _ _ hk,
    State.gw_setTable (h.setTable ..) (by decide) _ _ hk, State.gw_setTable h (by decide) _ _ hk, Nat.mod_eq_of_lt (by omega : groupSw w < 2 ^ 64)]
  simp only [true_and, Nat.zero_mod]
  grind

theorem State.gValid_of_odd {t : State} : t.gValid n = true ↔ t.gw n 0 % 2 = 1 := by
  simp only [State.gValid, bits, decide_eq_true_eq, Nat.pow_zero, Nat.div_one, Nat.pow_one]

/-- An illegal entry stays not VALID. -/
theorem State.writeGroup0_refuses (h : s.Canonical) (hw : w % 2 = 1) (hv : s.gValid n = false) (hno : s.groupOk n w = false) :
    (s.writeGroup0 n w).gValid n = false := by
  have hsw := groupSw_eq w
  have hb : ¬bits w 0 1 = 0 := by
    simp only [bits]
    omega
  refine Bool.eq_false_iff.2 fun hvalid => ?_
  rw [State.gValid_of_odd] at hvalid
  unfold State.writeGroup0 at hvalid
  dsimp only at hvalid
  rw [if_neg (by simp [hv]), if_neg hb, if_neg (by simp [hno]), State.gw_occ, State.gw_setTable h (by decide) _ _ (by decide), if_pos ⟨rfl, rfl⟩] at hvalid
  omega

/-- A VALID entry keeps all but two bits of its first word when it is registered again. -/
theorem State.writeGroup0_again (h : s.Canonical) (hw : w % 2 = 1) (hv : s.gValid n = true) :
    (s.writeGroup0 n w).gValid n = true ∧ ∀ k, 1 ≤ k → k < 16 → (s.writeGroup0 n w).gw n k = s.gw n k := by
  have hb : ¬bits w 0 1 = 0 := by
    simp only [bits]
    omega
  have hbits {s : State} (hs : s.Canonical) {lo v : Nat} (hlo : lo = 1 ∨ lo = 3) : (s.setTableBits (gKey n 0) lo 1 v).gw n 0 % 2 = s.gw n 0 % 2 ∧
      ∀ k, 1 ≤ k → k < 16 → (s.setTableBits (gKey n 0) lo 1 v).gw n k = s.gw n k := by
    refine ⟨?_, fun k h1 hk => ?_⟩
    · unfold State.setTableBits
      dsimp only
      rw [State.gw_setTable hs (by decide) _ _ (by decide), if_pos ⟨rfl, rfl⟩]
      change _ = s.tword (gKey n 0) % 2
      simp only [bits]
      rcases hlo with rfl | rfl <;> omega
    · exact (State.gw_setTable hs (by decide) _ _ hk).trans (if_neg (by omega))
  have hc := h.setTableBits (gKey n 0) 1 1 (bits w 1 1)
  have hkeep (t : State) (ht : t.table = ((s.setTableBits (gKey n 0) 1 1 (bits w 1 1)).setTableBits (gKey n 0) 3 1 (bits w 3 1)).table) :
      t.gValid n = true ∧ ∀ k, 1 ≤ k → k < 16 → t.gw n k = s.gw n k := by
    refine ⟨?_, fun k h1 hk => ?_⟩
    · rw [State.gValid_of_odd, State.gw_congr ht, (hbits hc (.inr rfl)).1, (hbits h (.inl rfl)).1, ← State.gValid_of_odd]
      exact hv
    · rw [State.gw_congr ht, (hbits hc (.inr rfl)).2 k h1 hk, (hbits h (.inl rfl)).2 k h1 hk]
  unfold State.writeGroup0
  dsimp only
  rw [if_pos hv, if_neg hb]
  split
  · exact hkeep _ rfl
  · exact hkeep _ (State.occ_table ..)

/-- A VALID entry that is neither ARMED nor in a pass leaves. -/
theorem State.writeGroup0_leaves (h : s.Canonical) (hw : w % 2 = 0) (hv : s.gValid n = true) (ha : s.gArmed n = false) (hp : s.inPass n = false) :
    (s.writeGroup0 n w).gValid n = false := by
  have hsw := groupSw_eq w
  have hb : bits w 0 1 = 0 := by
    simp only [bits]
    omega
  refine Bool.eq_false_iff.2 fun hvalid => ?_
  rw [State.gValid_of_odd] at hvalid
  unfold State.writeGroup0 at hvalid
  dsimp only at hvalid
  rw [if_pos hv, if_pos hb, if_pos (by simp [ha, hp]), State.gw_setTable h (by decide) _ _ (by decide), if_pos ⟨rfl, rfl⟩] at hvalid
  omega

/-- One that is ARMED or in a pass keeps every word. -/
theorem State.writeGroup0_stays (hw : w % 2 = 0) (hv : s.gValid n = true) (hno : s.gArmed n = true ∨ s.inPass n = true) (k : Nat) :
    (s.writeGroup0 n w).gw n k = s.gw n k := by
  have hb : bits w 0 1 = 0 := by
    simp only [bits]
    omega
  have hno' : ¬(!s.gArmed n && !s.inPass n) = true := by
    rcases hno with h | h <;> simp [h]
  unfold State.writeGroup0
  dsimp only
  rw [if_pos hv, if_pos hb, if_neg hno', State.gw_occ]

/-! ### Row-step entries -/

theorem State.rowStep_congr {t : State} (h : t.table = s.table) (m : Nat) : t.rowStep m = s.rowStep m := by
  simp only [State.rowStep, State.tword, h]

theorem State.rowStep_occ (dom i k m : Nat) : (s.occ dom i k).rowStep m = s.rowStep m := State.rowStep_congr (s.occ_table ..) m

/-- An entry after its first word is written. -/
theorem State.rowStep_setWord0 (h : s.Canonical) (v m : Nat) :
    (s.setTable (rKey n 0) v).rowStep m =
      if m = n then RowStep.ofWords (v % 2 ^ 64) (s.tword (rKey n 1)) (s.tword (rKey n 2)) (s.tword (rKey n 3)) else s.rowStep m := by
  have hword {j : Nat} (hj : j < 4) : (s.setTable (rKey n 0) v).tword (rKey m j) = if m = n ∧ j = 0 then v % 2 ^ 64 else s.tword (rKey m j) := by
    simp only [State.tword, State.setTable, Sparse.get_put 0 _ _ _ h.table]
    by_cases heq : m = n ∧ j = 0
    · obtain ⟨rfl, rfl⟩ := heq
      rw [if_pos rfl, if_pos ⟨rfl, rfl⟩, BitVec.toNat_ofNat]
    · rw [if_neg heq, if_neg fun hk => heq (rKey_inj hj (by decide) hk)]
  simp only [State.rowStep, hword (by decide : 0 < 4), hword (by decide : 1 < 4), hword (by decide : 2 < 4), hword (by decide : 3 < 4)]
  by_cases hm : m = n
  · subst hm
    simp
  · simp [hm]

theorem RowStep.ofWords_valid (w0 w1 w2 w3 : Nat) : (RowStep.ofWords w0 w1 w2 w3).valid = true ↔ w0 % 2 = 1 := by
  simp only [RowStep.ofWords, bits, decide_eq_true_eq, Nat.pow_zero, Nat.div_one, Nat.pow_one]

theorem State.writeRow0_other (h : s.Canonical) {m : Nat} (hm : m ≠ n) : (s.writeRow0 n w).rowStep m = s.rowStep m := by
  have hset (v : Nat) : (s.setTable (rKey n 0) v).rowStep m = s.rowStep m := by rw [State.rowStep_setWord0 h, if_neg hm]
  unfold State.writeRow0
  split
  · split
    · exact hset _
    · exact State.rowStep_occ ..
  · split
    · exact hset _
    · split
      · exact hset _
      · exact (State.rowStep_occ ..).trans (hset _)

/-- An entry that is not VALID becomes so exactly where it is legal and not entry 0. -/
theorem State.writeRow0_registers (h : s.Canonical) (hw : w % 2 = 1) (hv : (s.rowStep n).valid = false) :
    ((s.writeRow0 n w).rowStep n).valid = true ↔ n ≠ 0 ∧ (s.rowStep n).ok = true := by
  have hb : ¬bits w 0 1 = 0 := by
    simp only [bits]
    omega
  unfold State.writeRow0
  rw [if_neg (by simp [hv]), if_neg hb]
  split
  · rename_i hok
    rw [State.rowStep_setWord0 h, if_pos rfl, RowStep.ofWords_valid]
    refine ⟨fun _ => by simpa using hok, fun _ => ?_⟩
    simp only [bits]
    omega
  · rename_i hno
    rw [State.rowStep_occ, State.rowStep_setWord0 h, if_pos rfl, RowStep.ofWords_valid]
    refine ⟨fun hodd => ?_, fun hok => absurd (by simpa using hok) hno⟩
    simp only [bits] at hodd
    omega

/-- A VALID entry stays where it is registered again, or a group names it. -/
theorem State.writeRow0_stays (hv : (s.rowStep n).valid = true) (hno : w % 2 = 1 ∨ ∃ m ∈ s.groups, s.gRse m = n) :
    (s.writeRow0 n w).rowStep n = s.rowStep n := by
  have hno' : ¬(bits w 0 1 = 0 && !(s.groups.any fun m => s.gRse m = n)) = true := by
    rcases hno with hodd | ⟨m, hm, hn⟩
    · have hb : ¬bits w 0 1 = 0 := by
        simp only [bits]
        omega
      simp [hb]
    · have hany : (s.groups.any fun m => s.gRse m = n) = true := List.any_eq_true.2 ⟨m, hm, by simpa using hn⟩
      simp [hany]
  unfold State.writeRow0
  rw [if_pos hv, if_neg hno', State.rowStep_occ]

/-- One that no valid group names leaves. -/
theorem State.writeRow0_leaves (h : s.Canonical) (hw : w % 2 = 0) (hv : (s.rowStep n).valid = true) (hno : ∀ m ∈ s.groups, s.gRse m ≠ n) :
    ((s.writeRow0 n w).rowStep n).valid = false := by
  have hb : bits w 0 1 = 0 := by
    simp only [bits]
    omega
  have hyes : (bits w 0 1 = 0 && !(s.groups.any fun m => s.gRse m = n)) = true := by
    have hany : (s.groups.any fun m => s.gRse m = n) = false := List.any_eq_false.2 fun m hm => by simpa using hno m hm
    simp [hb, hany]
  refine Bool.eq_false_iff.2 fun hvalid => ?_
  unfold State.writeRow0 at hvalid
  rw [if_pos hv, if_pos hyes, State.rowStep_setWord0 h, if_pos rfl, RowStep.ofWords_valid] at hvalid
  simp only [bits] at hvalid
  omega

/-- Settles O41. -/
theorem groupsAreRegisteredWhenLegal : Obligations.GroupsAreRegisteredWhenLegal := by
  refine ⟨fun s n m w hdark => ?_, fun s n w hlive hs => ?_, fun s n w hlive hs => ?_⟩
  · simp only [List.forall_mem_cons, List.not_mem_nil, false_imp_iff, implies_true, and_true]
    exact ⟨⟨_, rfl, s.tableWrite_dark hdark _ _⟩, ⟨_, rfl, s.tableWrite_dark hdark _ _⟩, ⟨_, rfl, s.tableWrite_dark hdark _ _⟩,
      ⟨_, rfl, s.tableWrite_dark hdark _ _⟩⟩
  · intro v
    have hodd : v % 2 = 1 := by omega
    have heven : (w.toNat / 2 * 2) % 2 = 0 := by omega
    refine ⟨⟨s.writeGroup0 n v, ?_, Changes.writeGroup0.kept .mem (by decide), fun m k hk hm => s.writeGroup0_other hs hk hm, fun hv hok => ?_,
      s.writeGroup0_refuses hs hodd, s.writeGroup0_again hs hodd⟩,
      ⟨s.writeGroup0 n (w.toNat / 2 * 2), ?_, Changes.writeGroup0.kept .mem (by decide), fun m k hk hm => s.writeGroup0_other hs hk hm,
        s.writeGroup0_leaves hs heven, fun hv hno k _ => s.writeGroup0_stays heven hv hno k⟩⟩
    · simp only [exec, execGroupRegister, State.tableWrite_live hlive]
      rfl
    · have hword {k : Nat} (hk : k < 16) := State.writeGroup0_registers hs hodd hv hok hk
      have h0 : (s.writeGroup0 n v).gw n 0 = groupSw v := (hword (by decide)).trans (if_pos rfl)
      have hsw := groupSw_eq v
      refine ⟨h0, ?_, ?_, ?_, fun k h1 hk => ?_, fun k h12 hk => ?_⟩
      · rw [State.gValid_of_odd, h0]
        omega
      · simp only [State.gEpoch, h0, bits]
        omega
      · rw [State.gArmed, h0]
        refine decide_eq_false ?_
        simp only [bits]
        omega
      · rw [hword (by omega), if_neg (by omega), if_neg (by omega)]
      · rw [hword hk, if_neg (by omega), if_pos h12]
    · simp only [exec, execGroupDeregister, State.tableWrite_live hlive]
  · have hodd : (w.toNat / 2 * 2 + 1) % 2 = 1 := by omega
    have heven : (w.toNat / 2 * 2) % 2 = 0 := by omega
    refine ⟨⟨s.writeRow0 n (w.toNat / 2 * 2 + 1), ?_, Changes.writeRow0.kept .mem (by decide), fun m hm => s.writeRow0_other hs hm,
      s.writeRow0_registers hs hodd, fun hv => s.writeRow0_stays hv (.inl hodd)⟩,
      ⟨s.writeRow0 n (w.toNat / 2 * 2), ?_, Changes.writeRow0.kept .mem (by decide), fun m hm => s.writeRow0_other hs hm,
        s.writeRow0_leaves hs heven, fun hv hno => s.writeRow0_stays hv (.inr hno)⟩⟩
    · simp only [exec, execRowStepRegister, State.tableWrite_live hlive]
    · simp only [exec, execRowStepDeregister, State.tableWrite_live hlive]

end Sys2Proof.Machine
end

section
/-! SUPPORT. Steps over the groups of the table: each group's entry changes by its own step alone (R370, R382, R390). -/
namespace Sys2Proof.Machine

variable {s t : State} {n : Nat}

/-- A sparse store in canonical form lists each of its entries once, and reads it. -/
theorem Sparse.mem_iff_get {α : Type} [DecidableEq α] (z : α) {lo : Nat} {m : List (Nat × α)} (h : Sparse.wfFrom z lo m = true) (k : Nat) (v : α) :
    (k, v) ∈ m ↔ Sparse.get z m k = v ∧ v ≠ z := by
  induction m generalizing lo with
  | nil => exact ⟨fun h => absurd h List.not_mem_nil, fun ⟨h, hv⟩ => absurd h.symm hv⟩
  | cons x m ih =>
    obtain ⟨a, w⟩ := x
    simp only [Sparse.wfFrom, Bool.and_eq_true, decide_eq_true_eq] at h
    obtain ⟨⟨_, hw⟩, hm⟩ := h
    rw [List.mem_cons, Sparse.get]
    by_cases hk : a = k
    · subst hk
      rw [if_pos rfl]
      have hnot : (a, v) ∉ m := fun hmem => by
        have hget := Sparse.get_below z (Nat.lt_succ_self a) hm
        obtain ⟨h1, h2⟩ := (ih hm).1 hmem
        exact h2 (h1.symm.trans hget)
      simp only [hnot, or_false, Prod.mk.injEq, true_and]
      exact ⟨fun h => ⟨h.symm, h ▸ hw⟩, fun h => h.1.symm⟩
    · rw [if_neg hk, ← ih hm]
      exact ⟨fun h => h.resolve_left fun h => hk (Prod.mk.inj h).1.symm, .inr⟩

/-- Its addresses rise. -/
theorem Sparse.keys_rise {α : Type} [DecidableEq α] (z : α) {lo : Nat} {m : List (Nat × α)} (h : Sparse.wfFrom z lo m = true) :
    (∀ x ∈ m, lo ≤ x.1) ∧ m.Pairwise fun x y => x.1 < y.1 := by
  induction m generalizing lo with
  | nil => exact ⟨fun _ h => absurd h List.not_mem_nil, .nil⟩
  | cons x m ih =>
    obtain ⟨a, w⟩ := x
    simp only [Sparse.wfFrom, Bool.and_eq_true, decide_eq_true_eq] at h
    obtain ⟨⟨hlo, _⟩, hm⟩ := h
    obtain ⟨hge, hp⟩ := ih hm
    exact ⟨List.forall_mem_cons.2 ⟨hlo, fun y hy => by have := hge y hy; omega⟩, .cons hge hp⟩

/-- The groups of the table are its valid entries. -/
theorem State.mem_groups (h : Sparse.wf (0 : Word64) s.table = true) {n : Nat} : n ∈ s.groups ↔ n < 4096 ∧ s.gValid n = true := by
  have hvalid : s.gValid n = true ↔ (Sparse.get (0 : Word64) s.table (gKey n 0)).getLsbD 0 = true := by
    rw [State.gValid, State.gw, State.tword, BitVec.getLsbD, Nat.testBit_zero, bits, Nat.pow_zero, Nat.div_one, Nat.pow_one]
  rw [hvalid, State.groups, List.mem_filterMap]
  constructor
  · rintro ⟨⟨k, v⟩, hmem, hk⟩
    simp only [Bool.and_eq_true, decide_eq_true_eq, Option.ite_none_right_eq_some, Option.some.injEq] at hk
    obtain ⟨⟨⟨⟨hlo, hhi⟩, h16⟩, hbit⟩, hn⟩ := hk
    have hkey : gKey n 0 = k := by
      simp only [gKey]
      omega
    rw [hkey, ((Sparse.mem_iff_get 0 h k v).1 hmem).1]
    exact ⟨by omega, hbit⟩
  · rintro ⟨hn, hbit⟩
    have hne : Sparse.get (0 : Word64) s.table (gKey n 0) ≠ 0 := fun h0 => by
      rw [h0] at hbit
      exact absurd hbit (by decide)
    refine ⟨(gKey n 0, Sparse.get (0 : Word64) s.table (gKey n 0)), (Sparse.mem_iff_get 0 h _ _).2 ⟨rfl, hne⟩, ?_⟩
    simp only [Bool.and_eq_true, Option.ite_none_right_eq_some, Option.some.injEq, gKey]
    exact ⟨⟨⟨⟨decide_eq_true (by omega), decide_eq_true (by omega)⟩, decide_eq_true (by omega)⟩, hbit⟩, by omega⟩

theorem State.groups_nodup (h : Sparse.wf (0 : Word64) s.table = true) : s.groups.Nodup := by
  refine List.Pairwise.filterMap _ (fun x y hxy n hn m hm => ?_) (Sparse.keys_rise 0 h).2
  simp only [Bool.and_eq_true, decide_eq_true_eq, Option.ite_none_right_eq_some, Option.some.injEq] at hn hm
  omega

/-- Where a step on a group changes its own entry alone, a pass over a list of groups changes each of them by its own step. -/
theorem State.gw_each {l : List Nat} {f : State → Nat → State} (hl : l.Nodup)
    (hwf : ∀ (u : State) n, Sparse.wf (0 : Word64) u.table = true → Sparse.wf (0 : Word64) (f u n).table = true)
    (hother : ∀ (u : State) n, Sparse.wf (0 : Word64) u.table = true → ∀ m k, k < 16 → m ≠ n → (f u n).gw m k = u.gw m k)
    (h : Sparse.wf (0 : Word64) s.table = true) (m : Nat) :
    Sparse.wf (0 : Word64) (s.each l f).table = true ∧ (m ∉ l → ∀ k, k < 16 → (s.each l f).gw m k = s.gw m k) ∧
      (m ∈ l → ∃ u : State, Sparse.wf (0 : Word64) u.table = true ∧ (∀ k, k < 16 → u.gw m k = s.gw m k) ∧
        ∀ k, k < 16 → (s.each l f).gw m k = (f u m).gw m k) := by
  induction l generalizing s with
  | nil => exact ⟨h, fun _ _ _ => rfl, fun h => absurd h List.not_mem_nil⟩
  | cons n l ih =>
    obtain ⟨hn, hl⟩ := List.nodup_cons.1 hl
    obtain ⟨hwf', hout, hin⟩ := ih hl (hwf s n h)
    refine ⟨hwf', fun hm k hk => ?_, fun hm => ?_⟩
    · obtain ⟨hmn, hml⟩ := not_or.1 (List.mem_cons.not.1 hm)
      exact (hout hml k hk).trans (hother s n h m k hk hmn)
    · by_cases hmn : m = n
      · subst hmn
        exact ⟨s, h, fun _ _ => rfl, fun k hk => hout hn k hk⟩
      · obtain ⟨u, hu, hsame, hstep⟩ := hin ((List.mem_cons.1 hm).resolve_left hmn)
        exact ⟨u, hu, fun k hk => (hsame k hk).trans (hother s n h m k hk hmn), hstep⟩

/-! ### Steps on one group -/

/-- Bits of a word of a group's entry that are written, and the word as it was else. -/
theorem State.gw_putBits (h : Sparse.wf (0 : Word64) s.table = true) (n lo w v m : Nat) {j : Nat} (hj : j < 16) :
    (s.setTableBits (gKey n 0) lo w v).gw m j =
      if m = n ∧ j = 0 then (s.gw n 0 - bits (s.gw n 0) lo w * 2 ^ lo + v % 2 ^ w * 2 ^ lo) % 2 ^ 64 else s.gw m j :=
  State.gw_put h (by decide) _ m hj

theorem State.gw_lt (s : State) (n k : Nat) : s.gw n k < 2 ^ 64 := BitVec.isLt _

theorem State.setTable_wf (h : Sparse.wf (0 : Word64) s.table = true) (k v : Nat) : Sparse.wf (0 : Word64) (s.setTable k v).table = true := Sparse.wf_put 0 k _ h

theorem State.setTableBits_wf (h : Sparse.wf (0 : Word64) s.table = true) (k lo w v : Nat) : Sparse.wf (0 : Word64) (s.setTableBits k lo w v).table = true :=
  State.setTable_wf h _ _

/-- A word 0 whose EPOCH is written. -/
theorem epoch_written (x v : Nat) (hx : x < 2 ^ 64) :
    let y := (x - bits x 32 1 * 2 ^ 32 + v % 2 ^ 1 * 2 ^ 32) % 2 ^ 64
    bits y 0 1 = bits x 0 1 ∧ bits y 32 1 = v % 2 ∧ bits y 33 1 = bits x 33 1 := by
  simp only [bits]
  omega

/-- A word 0 whose ARMED bit, and the one after it, are written. -/
theorem armed_written (x v w : Nat) (hw : w = 1 ∨ w = 2) (hx : x < 2 ^ 64) :
    let y := (x - bits x 33 w * 2 ^ 33 + v % 2 ^ w * 2 ^ 33) % 2 ^ 64
    bits y 0 1 = bits x 0 1 ∧ bits y 32 1 = bits x 32 1 ∧ bits y 33 1 = v % 2 := by
  rcases hw with rfl | rfl <;> simp only [bits] <;> omega

theorem State.gEpoch_lt (s : State) (n : Nat) : s.gEpoch n < 2 := Nat.mod_lt _ (by decide)

theorem State.gEpoch_of_gw (h : t.gw n 0 = s.gw n 0) : t.gEpoch n = s.gEpoch n := by rw [State.gEpoch, h, ← State.gEpoch]

theorem State.table_publish (s : State) (n buf : Nat) : (s.publish n buf).table = s.table := Changes.publish.kept .table (by decide)

theorem State.gw_publish (s : State) (n buf m k : Nat) : (s.publish n buf).gw m k = s.gw m k := State.gw_congr (s.table_publish n buf) m k

/-! ### ROLLBACK and REPUB (R390) -/

/-- One group goes back. -/
def State.flipBack (s : State) (n : Nat) : State :=
  let s := (s.setTableBits (gKey n 0) 32 1 (1 - s.gEpoch n)).setTable (gKey n 15) 0
  s.publish n (s.gActive n)

theorem State.flipBack_table (s : State) (n : Nat) :
    (s.flipBack n).table = ((s.setTableBits (gKey n 0) 32 1 (1 - s.gEpoch n)).setTable (gKey n 15) 0).table := State.table_publish _ n _

theorem State.flipBack_wf (h : Sparse.wf (0 : Word64) s.table = true) (n : Nat) : Sparse.wf (0 : Word64) (s.flipBack n).table = true := by
  rw [State.flipBack_table]
  exact State.setTable_wf (State.setTableBits_wf h _ _ _ _) _ _

/-- The words of the table after one group goes back. -/
theorem State.flipBack_gw (h : Sparse.wf (0 : Word64) s.table = true) (n m : Nat) {k : Nat} (hk : k < 16) :
    (s.flipBack n).gw m k = if m = n ∧ k = 15 then 0 else if m = n ∧ k = 0 then
      (s.gw n 0 - bits (s.gw n 0) 32 1 * 2 ^ 32 + (1 - s.gEpoch n) % 2 ^ 1 * 2 ^ 32) % 2 ^ 64 else s.gw m k := by
  rw [State.gw_congr (s.flipBack_table n), State.gw_put (State.setTableBits_wf h _ _ _ _) (by decide) _ _ hk, State.gw_putBits h _ _ _ _ _ hk, Nat.zero_mod]

theorem State.flipBack_self (h : Sparse.wf (0 : Word64) s.table = true) (n : Nat) :
    (s.flipBack n).gEpoch n = 1 - s.gEpoch n ∧ (s.flipBack n).gw n 15 = 0 := by
  have he := s.gEpoch_lt n
  refine ⟨?_, by rw [State.flipBack_gw h _ _ (by decide), if_pos ⟨rfl, rfl⟩]⟩
  rw [State.gEpoch, State.flipBack_gw h _ _ (by decide), if_neg (by omega), if_pos ⟨rfl, rfl⟩, (epoch_written _ _ (s.gw_lt n 0)).2.1]
  omega

/-- The groups that the last commit flipped. -/
def State.flipped (s : State) : List Nat := s.groups.filter fun n => bits (s.gw n 15) 0 48 ≠ 0 && bits (s.gw n 15) 0 48 + 1 = s.ticket.toNat

theorem State.rollback_changes : Changes [.ticket, .commit, .reports] (s.each s.flipped State.flipBack) s.rollback := by
  unfold State.rollback
  extract_lets back s1 s2 s3
  have h2 : Changes [.ticket, .reports] s1 s2 := Changes.mono (Changes.ite Changes.refl Changes.setTicket)
  exact Changes.mono (h2.andThen (Changes.andThen Changes.modCommit (Changes.andThen Changes.occ Changes.raise)))

theorem State.setTicket_ticket (s : State) (t : Word48) : (s.setTicket t).ticket = t := by
  unfold State.setTicket
  extract_lets was u
  split
  · exact (Changes.raise (s := u)).kept .ticket (by decide)
  · rfl

theorem State.flipBack_changes : Changes [.table, .mcl, .wanted, .reports, .loft, .regs, .poison, .mem, .written] s (s.flipBack n) := by
  unfold State.flipBack
  extract_lets u
  exact Changes.mono (Changes.andThen (Changes.andThen Changes.setTableBits Changes.setTable) Changes.publish)

/-- What ROLLBACK leaves of the ticket and of the commit. -/
theorem State.rollback_result (s : State) :
    s.rollback.ticket = (if s.ticket = 0 then 0 else s.ticket - 1) ∧ s.rollback.commit.rollReady = false ∧ s.rollback.commit.mstate = 0 := by
  unfold State.rollback
  extract_lets back s1 s2 s3
  have hs1 : Changes [.table, .mcl, .wanted, .reports, .loft, .regs, .poison, .mem, .written] s s1 := Changes.each fun _ _ => State.flipBack_changes
  have hticket : s1.ticket = s.ticket := hs1.kept .ticket (by decide)
  have hend : Changes [.reports] s3 ((s3.occ 46 24).raise 0x343 46 s3.ticket.toNat) := Changes.mono (Changes.andThen Changes.occ Changes.raise)
  have hcommit := hend.kept .commit (by decide)
  refine ⟨(hend.kept .ticket (by decide)).trans ?_, congrArg Commit.rollReady hcommit, congrArg Commit.mstate hcommit⟩
  change s2.ticket = _
  unfold s2
  rw [hticket]
  split
  · rename_i h0
    rw [hticket, h0]
  · exact State.setTicket_ticket _ _

theorem State.rollback_groups (h : Sparse.wf (0 : Word64) s.table = true) {n : Nat} (hn : n < 4096) :
    (s.gValid n = true → bits (s.gw n 15) 0 48 ≠ 0 → bits (s.gw n 15) 0 48 + 1 = s.ticket.toNat →
      s.rollback.gEpoch n = 1 - s.gEpoch n ∧ s.rollback.gw n 15 = 0) ∧
    (s.gValid n = false ∨ bits (s.gw n 15) 0 48 = 0 ∨ bits (s.gw n 15) 0 48 + 1 ≠ s.ticket.toNat → ∀ k, k < 16 → s.rollback.gw n k = s.gw n k) := by
  have htable : s.rollback.table = (s.each s.flipped State.flipBack).table := State.rollback_changes.kept .table (by decide)
  have hmem : n ∈ s.flipped ↔ s.gValid n = true ∧ bits (s.gw n 15) 0 48 ≠ 0 ∧ bits (s.gw n 15) 0 48 + 1 = s.ticket.toNat := by
    simp [State.flipped, State.mem_groups h, hn]
  have hnodup : s.flipped.Nodup := (State.groups_nodup h).filter _
  obtain ⟨-, hout, hin⟩ := State.gw_each (f := State.flipBack) hnodup (fun u n hu => State.flipBack_wf hu n)
    (fun u n hu m k hk hm => by rw [State.flipBack_gw hu n m hk, if_neg fun h => hm h.1, if_neg fun h => hm h.1]) h n
  refine ⟨fun hv hl ht => ?_, fun hno k hk => ?_⟩
  · obtain ⟨u, hu, hsame, hstep⟩ := hin (hmem.2 ⟨hv, hl, ht⟩)
    obtain ⟨hepoch, hlast⟩ := State.flipBack_self hu n
    rw [State.gEpoch, State.gw_congr htable, hstep 0 (by decide), ← State.gEpoch, hepoch, State.gEpoch_of_gw (hsame 0 (by decide)), State.gw_congr htable,
      hstep 15 (by decide)]
    exact ⟨rfl, hlast⟩
  · rw [State.gw_congr htable]
    refine hout (fun hn => ?_) k hk
    obtain ⟨hv, hl, ht⟩ := hmem.1 hn
    rcases hno with h | h | h
    · rw [hv] at h
      exact absurd h (by decide)
    · exact hl h
    · exact h ht

/-- Settles O42. -/
theorem rollbackUndoesTheLastFlip : Obligations.RollbackUndoesTheLastFlip := by
  intro s r hs hlive hheard s0
  have hreach : Changes [.reports] s s0 := Changes.reached
  have hjobs : s0.jobActive = s.jobActive := congrArg (fun j => j.toList.any fun c : JobCtx => decide (c.state ≠ 0)) (hreach.kept .jobs (by decide))
  have hcommit : s0.commit = s.commit := hreach.kept .commit (by decide)
  have htable : s0.table = s.table := hreach.kept .table (by decide)
  have hticket : s0.ticket = s.ticket := hreach.kept .ticket (by decide)
  have hrollback : exec (.rollback r) s = waitRecall s (.next s0.writeRollback) := by
    rw [exec, execRollback, State.reachBy_heard _ hlive hheard]
    rfl
  have hrepub : exec (.repub r) s = waitRecall s (.next s0.writeRepub) := by
    rw [exec, execRepub, State.reachBy_heard _ hlive hheard]
    rfl
  refine ⟨?back, ?refused, ?publish, ?ignored⟩
  case back =>
    intro hready hidle t
    have hwrite : s0.writeRollback = t := if_pos (by rw [hcommit, hready, hjobs, hidle]; rfl)
    have hafter : Changes [.ticket, .commit, .reports] (s0.each s0.flipped State.flipBack) t := State.rollback_changes
    obtain ⟨ht, hready', hstate⟩ := s0.rollback_result
    rw [hticket] at ht
    refine ⟨Completes.of_waitRecall (by rw [hrollback, hwrite]), ht, hready', hstate, fun n hn => ?_⟩
    · have h := State.rollback_groups (s := s0) (by rw [htable]; exact hs.table) hn
      simp only [State.gw_congr htable, State.gEpoch_of_gw (State.gw_congr htable n 0), hticket] at h
      rwa [State.gValid, State.gw_congr htable, ← State.gValid] at h
  case refused =>
    intro hno
    have hwrite : s0.writeRollback = s0.orReg 46 0x40C 2 := if_neg (by rw [hcommit, hjobs]; rcases hno with h | h <;> simp [h])
    exact Completes.of_waitRecall (by rw [hrollback, hwrite])
  case publish =>
    intro hidle t
    have hwrite : s0.writeRepub = t := if_neg (by rw [hjobs, hidle]; decide)
    have ht : Changes [.mcl, .wanted, .reports, .loft, .regs, .poison, .mem, .written] s0 t := Changes.mono (Changes.andThen (Changes.each fun _ _ => Changes.publish) Changes.occ)
    exact ⟨Completes.of_waitRecall (by rw [hrepub, hwrite]), (ht.kept .table (by decide)).trans htable, (ht.kept .ticket (by decide)).trans hticket⟩
  case ignored =>
    intro hactive
    exact Completes.of_waitRecall (by rw [hrepub, State.writeRepub, if_pos (hjobs.trans hactive)])

end Sys2Proof.Machine
end

section
/-! SUPPORT. An outcome: the flip of the armed groups, and the next attempt (R370, R371, R382). -/
namespace Sys2Proof.Machine

variable {s t : State} {n : Nat}

theorem State.gArmed_of_gw (h : t.gw n 0 = s.gw n 0) : t.gArmed n = s.gArmed n := by rw [State.gArmed, h, ← State.gArmed]

theorem State.gValid_of_gw (h : t.gw n 0 = s.gw n 0) : t.gValid n = s.gValid n := by rw [State.gValid, h, ← State.gValid]

/-- One armed group flips at a ticket. -/
def State.flipOne (ticket : Nat) (s : State) (n : Nat) : State :=
  ((s.setTableBits (gKey n 0) 32 1 (1 - s.gEpoch n)).setTableBits (gKey n 0) 33 1 0).setTable (gKey n 15) ticket

theorem State.flipOne_wf (ticket : Nat) (h : Sparse.wf (0 : Word64) s.table = true) (n : Nat) : Sparse.wf (0 : Word64) (s.flipOne ticket n).table = true :=
  State.setTable_wf (State.setTableBits_wf (State.setTableBits_wf h _ _ _ _) _ _ _ _) _ _

/-- The first word of a group's entry after a flip of a group. -/
theorem State.flipOne_other (ticket : Nat) (h : Sparse.wf (0 : Word64) s.table = true) (n m : Nat) {k : Nat} (hk : k < 16) (hm : m ≠ n) :
    (s.flipOne ticket n).gw m k = s.gw m k := by
  unfold State.flipOne
  rw [State.gw_put (State.setTableBits_wf (State.setTableBits_wf h _ _ _ _) _ _ _ _) (by decide) _ _ hk, if_neg fun h => hm h.1,
    State.gw_putBits (State.setTableBits_wf h _ _ _ _) _ _ _ _ _ hk, if_neg fun h => hm h.1, State.gw_putBits h _ _ _ _ _ hk, if_neg fun h => hm h.1]

theorem State.flipOne_self (ticket : Nat) (h : Sparse.wf (0 : Word64) s.table = true) (n : Nat) :
    (s.flipOne ticket n).gEpoch n = 1 - s.gEpoch n ∧ (s.flipOne ticket n).gArmed n = false ∧ (s.flipOne ticket n).gValid n = s.gValid n := by
  have he := s.gEpoch_lt n
  have hw1 : (s.setTableBits (gKey n 0) 32 1 (1 - s.gEpoch n)).gw n 0 =
      (s.gw n 0 - bits (s.gw n 0) 32 1 * 2 ^ 32 + (1 - s.gEpoch n) % 2 ^ 1 * 2 ^ 32) % 2 ^ 64 :=
    (State.gw_putBits h _ _ _ _ _ (by decide)).trans (if_pos ⟨rfl, rfl⟩)
  have hw2 : (s.flipOne ticket n).gw n 0 = ((s.setTableBits (gKey n 0) 32 1 (1 - s.gEpoch n)).gw n 0 -
      bits ((s.setTableBits (gKey n 0) 32 1 (1 - s.gEpoch n)).gw n 0) 33 1 * 2 ^ 33 + 0 % 2 ^ 1 * 2 ^ 33) % 2 ^ 64 := by
    unfold State.flipOne
    rw [State.gw_put (State.setTableBits_wf (State.setTableBits_wf h _ _ _ _) _ _ _ _) (by decide) _ _ (by decide), if_neg (by omega),
      State.gw_putBits (State.setTableBits_wf h _ _ _ _) _ _ _ _ _ (by decide), if_pos ⟨rfl, rfl⟩]
  obtain ⟨hv1, he1, -⟩ := epoch_written (s.gw n 0) (1 - s.gEpoch n) (s.gw_lt n 0)
  obtain ⟨hv2, he2, ha2⟩ := armed_written ((s.setTableBits (gKey n 0) 32 1 (1 - s.gEpoch n)).gw n 0) 0 1 (.inl rfl) (State.gw_lt _ n 0)
  refine ⟨?_, ?_, ?_⟩
  · rw [State.gEpoch, hw2, he2, hw1, he1]
    omega
  · rw [State.gArmed, hw2, ha2]
    rfl
  · rw [State.gValid, hw2, hv2, hw1, hv1, ← State.gValid]

/-- A flip turns over the epoch of the armed groups, and no group stays armed (R370). -/
theorem State.flip_groups (h : Sparse.wf (0 : Word64) s.table = true) :
    Sparse.wf (0 : Word64) s.flip.table = true ∧ ∀ n, n < 4096 → s.gValid n = true →
      s.flip.gEpoch n = (if s.gArmed n then 1 - s.gEpoch n else s.gEpoch n) ∧ s.flip.gArmed n = false ∧ s.flip.gValid n = true := by
  unfold State.flip
  extract_lets armed s1 t s2 s3 s4
  have hs1 : s1.table = s.table :=
    (Changes.each (K := [.mcl, .wanted, .reports, .loft, .regs, .poison, .mem, .written]) fun _ _ => Changes.publish).kept .table (by decide)
  have h1 : Sparse.wf (0 : Word64) s1.table = true := by rw [hs1]; exact h
  have hs2 : (s4.modCommit fun c => { c with rollReady := true, mstate := 1 }).table = s2.table :=
    (Changes.mono (K' := [.ticket, .reports]) (Changes.ite (t := s2) (u := s2.setTicket (t + 1)) Changes.refl Changes.setTicket)).kept .table (by decide)
  have hnodup : armed.Nodup := (State.groups_nodup h).filter _
  have hmem (n : Nat) : n ∈ armed ↔ (n < 4096 ∧ s.gValid n = true) ∧ s.gArmed n = true := by rw [List.mem_filter, State.mem_groups h]
  have heach (n : Nat) := State.gw_each (s := s1) (f := State.flipOne t.toNat) hnodup (fun u n hu => State.flipOne_wf _ hu n)
    (fun u n hu m k hk hm => State.flipOne_other _ hu n m hk hm) h1 n
  refine ⟨by rw [hs2]; exact (heach 0).1, fun n hn hv => ?_⟩
  have hfinal := State.gw_congr hs2 n 0
  rw [State.gEpoch_of_gw hfinal, State.gArmed_of_gw hfinal, State.gValid_of_gw hfinal]
  have hsame : s1.gw n 0 = s.gw n 0 := State.gw_congr hs1 n 0
  have heach2 : s2 = s1.each armed (State.flipOne t.toNat) := rfl
  obtain ⟨-, hout, hin⟩ := heach n
  rw [← heach2] at hout hin
  cases ha : s.gArmed n with
  | true =>
    obtain ⟨u, hu, hu1, hstep⟩ := hin ((hmem n).2 ⟨⟨hn, hv⟩, ha⟩)
    have hu0 : u.gw n 0 = s.gw n 0 := (hu1 0 (by decide)).trans hsame
    obtain ⟨he, hd, hvalid⟩ := State.flipOne_self t.toNat hu n
    rw [State.gEpoch_of_gw (hstep 0 (by decide)), State.gArmed_of_gw (hstep 0 (by decide)), State.gValid_of_gw (hstep 0 (by decide)), he, hd, hvalid,
      State.gEpoch_of_gw hu0, State.gValid_of_gw hu0]
    exact ⟨rfl, rfl, hv⟩
  | false =>
    have hw := (hout (fun hn => by simp [((hmem n).1 hn).2] at ha) 0 (by decide)).trans hsame
    rw [State.gEpoch_of_gw hw, State.gArmed_of_gw hw, State.gValid_of_gw hw]
    exact ⟨rfl, ha, hv⟩

theorem State.flip_ticket (s : State) : s.flip.ticket = if s.ticketEnd then s.ticket else s.ticket + 1 := by
  unfold State.flip
  extract_lets armed s1 t s2 s3 s4
  have hs2 : s2.ticket = s.ticket :=
    (Changes.andThen (Changes.each (K := [.mcl, .wanted, .reports, .loft, .regs, .poison, .mem, .written]) fun _ _ => Changes.publish)
      (Changes.each (K := [.table]) fun _ _ => Changes.mono (Changes.andThen Changes.setTableBits (Changes.andThen Changes.setTableBits Changes.setTable)))).kept
      .ticket (by decide)
  have hs3 : s3.ticket = if s.ticketEnd then s.ticket else s.ticket + 1 := by
    have hend : s2.ticketEnd = s.ticketEnd := congrArg (fun x : Word48 => x == 0xFFFFFFFFFFFF) hs2
    unfold s3
    rw [hend]
    split
    · exact hs2
    · have ht : t = s.ticket := (Changes.each (K := [.mcl, .wanted, .reports, .loft, .regs, .poison, .mem, .written]) fun _ _ => Changes.publish).kept .ticket (by decide)
      rw [State.setTicket_ticket, ht]
  exact hs3

/-- The next attempt clears the ARMED bits and leaves the epochs. -/
theorem State.clearArmed_groups (h : Sparse.wf (0 : Word64) s.table = true) {n : Nat} (hn : n < 4096) (hv : s.gValid n = true) :
    s.clearArmed.gEpoch n = s.gEpoch n ∧ s.clearArmed.gArmed n = false := by
  obtain ⟨-, -, hin⟩ := State.gw_each (f := fun s n => s.setTableBits (gKey n 0) 33 2 0) (State.groups_nodup h) (fun u n hu => State.setTableBits_wf hu _ _ _ _)
    (fun u n hu m k hk hm => by rw [State.gw_putBits hu _ _ _ _ _ hk, if_neg fun h => hm h.1]) h n
  obtain ⟨u, hu, hsame, hstep⟩ := hin ((State.mem_groups h).2 ⟨hn, hv⟩)
  have hw : s.clearArmed.gw n 0 = _ := (hstep 0 (by decide)).trans ((State.gw_putBits hu _ _ _ _ _ (by decide)).trans (if_pos ⟨rfl, rfl⟩))
  obtain ⟨-, he, ha⟩ := armed_written (u.gw n 0) 0 2 (.inr rfl) (u.gw_lt n 0)
  rw [State.gEpoch, State.gArmed, hw, he, ha, ← State.gEpoch, State.gEpoch_of_gw (hsame 0 (by decide))]
  exact ⟨rfl, rfl⟩

/-- The next attempt of every context: no group is armed, the epochs and the attempt counters stay. -/
theorem State.newAttempt_groups (h : Sparse.wf (0 : Word64) s.table = true) {n : Nat} (hn : n < 4096) (hv : s.gValid n = true) (keep : List NoCause) :
    (s.newAttempt keep).gEpoch n = s.gEpoch n ∧ (s.newAttempt keep).gArmed n = false := by
  have he : s.endInstructions.table = s.table := Changes.endInstructions.kept .table (by decide)
  have hw := State.gw_congr he n 0
  have hclear := State.clearArmed_groups (s := s.endInstructions) (by rw [he]; exact h) hn (by rw [State.gValid_of_gw hw]; exact hv)
  rw [State.gEpoch_of_gw hw] at hclear
  exact hclear

/-- What a change of every context does to an attempt counter. -/
theorem attempt_map {jobs : Vector JobCtx 64} {f : JobCtx → JobCtx} (hf : ∀ c, (f c).attempt = c.attempt) {j : Nat} (hj : j < 64) :
    (vget (jobs.map f) j ({} : JobCtx)).attempt = (vget jobs j ({} : JobCtx)).attempt := by
  simp [vget, hj, hf]

theorem State.endInstructions_attempt (s : State) {j : Nat} (hj : j < 64) : (s.endInstructions.job j).attempt = (s.job j).attempt := by
  unfold State.endInstructions State.job
  extract_lets votes s1 s2
  have hjobs : s2.jobs = s.jobs :=
    (Changes.andThen (Changes.each (K := [.truss]) (l := votes) (f := fun s r => s.setImm r.ins.d r.immIdx 0) fun _ _ => Changes.setImm)
      (Changes.each (K := [.truss]) fun _ _ => Changes.modTr)).kept .jobs (by decide)
  rw [hjobs]
  refine attempt_map ?_ hj
  exact fun _ => rfl

theorem State.newAttempt_attempt (s : State) (keep : List NoCause) {j : Nat} (hj : j < 64) : ((s.newAttempt keep).job j).attempt = (s.job j).attempt := by
  unfold State.newAttempt State.job
  extract_lets s1 s2
  have hjobs : s2.jobs = s.endInstructions.jobs := (Changes.clearArmed (s := s.endInstructions)).kept .jobs (by decide)
  rw [hjobs]
  refine Eq.trans (attempt_map ?_ hj) (s.endInstructions_attempt hj)
  exact fun _ => rfl

theorem State.newAttempt_commit (s : State) (keep : List NoCause) : (s.newAttempt keep).commit.abandoned = false ∧ (s.newAttempt keep).commit.cast = none :=
  ⟨rfl, rfl⟩

/-- Without a twin the mirror is given up or left out; neither abandons the attempt nor casts a vote (R385). -/
theorem State.mirrorStart_commit (htwin : s.pins.twin = false) :
    s.mirrorStart.commit.abandoned = s.commit.abandoned ∧ s.mirrorStart.commit.cast = s.commit.cast := by
  have hpartner : s.partner = none := by
    unfold State.partner
    split
    · rfl
    · rw [htwin]
      rfl
  have hlost : s.mirrorLost.commit = (s.modCommit fun c => { c with unprot := true, mstate := 2, sending := none }).commit :=
    (Changes.andThen Changes.orReg Changes.raiseOnce).kept .commit (by decide)
  unfold State.mirrorStart
  split
  · exact ⟨rfl, rfl⟩
  · rw [hpartner, if_pos (by rfl)]
    exact ⟨(congrArg Commit.abandoned hlost).trans rfl, (congrArg Commit.cast hlost).trans rfl⟩

/-- Settles O36. -/
theorem outcomeFlipsArmedGroups : Obligations.OutcomeFlipsArmedGroups := by
  intro s yes extra hwf htwin t
  have ht : t = s.applyOutcome yes extra := rfl
  unfold State.applyOutcome at ht
  revert ht
  extract_lets code s1 s2 s3 s4 s5 s6
  intro ht
  have h2 : Changes [.commit, .reports] s s2 := Changes.mono <| Changes.andThen Changes.modCommit (Changes.ite Changes.occ (Changes.andThen Changes.occ Changes.occ))
  have h3 : Changes [.commit, .reports, .truss] s s3 := by
    refine Changes.mono (h2.andThen (K' := [.commit, .truss]) ?_)
    unfold s3
    split
    exacts [Changes.mono Changes.modCommit, Changes.mono <| Changes.andThen Changes.modCommit Changes.finishRef]
  have hgroups (n : Nat) (hn : n < 4096) (hv : s.gValid n = true) : Sparse.wf (0 : Word64) s4.table = true ∧ s4.gValid n = true ∧
      s4.gEpoch n = (if yes && s.gArmed n then 1 - s.gEpoch n else s.gEpoch n) := by
    have hw := State.gw_congr (h3.kept .table (by decide)) n 0
    have hwf3 : Sparse.wf (0 : Word64) s3.table = true := by rw [h3.kept .table (by decide)]; exact hwf
    cases yes with
    | true =>
      obtain ⟨hwf4, hflip⟩ := State.flip_groups hwf3
      obtain ⟨he, -, hvalid⟩ := hflip n hn ((State.gValid_of_gw hw).trans hv)
      rw [State.gArmed_of_gw hw, State.gEpoch_of_gw hw] at he
      exact ⟨hwf4, hvalid, he⟩
    | false => exact ⟨hwf3, (State.gValid_of_gw hw).trans hv, State.gEpoch_of_gw hw⟩
  have h34 : Changes [.mcl, .wanted, .reports, .loft, .regs, .poison, .mem, .written, .table, .ticket, .pwrc, .commit] s3 s4 :=
    Changes.mono (Changes.ite Changes.flip Changes.refl)
  have h46 : Changes [.jobs, .truss, .bktWait, .passes, .cores, .table, .commit] s4 s6 :=
    Changes.mono (Changes.andThen Changes.jobs (Changes.andThen Changes.newAttempt Changes.modCommit))
  have h6t : Changes [.commit, .regs, .reports, .once, .mcl, .wanted, .loft, .ports] s6 t := by
    rw [ht]
    exact Changes.mono (Changes.ite Changes.mirrorStart Changes.refl)
  have h4t := h46.andThen h6t
  refine ⟨?ticket, fun n hn hv => ?groups, ?memory, fun j hj hjob => ?attempts, ?next⟩
  case ticket =>
    have hticket := h3.kept .ticket (by decide)
    have hend : s3.ticketEnd = s.ticketEnd := congrArg (fun x : Word48 => x == 0xFFFFFFFFFFFF) hticket
    rw [h4t.kept .ticket (by decide)]
    unfold s4
    cases yes with
    | true =>
      rw [if_pos rfl, State.flip_ticket, hend, hticket]
      cases s.ticketEnd <;> rfl
    | false => exact hticket
  case groups =>
    obtain ⟨hwf4, hv4, he4⟩ := hgroups n hn hv
    obtain ⟨he, ha⟩ := State.newAttempt_groups (s := s5) hwf4 hn hv4 []
    have hw : t.gw n 0 = (s5.newAttempt []).gw n 0 := State.gw_congr (h6t.kept .table (by decide)) n 0
    exact ⟨(State.gEpoch_of_gw hw).trans (he.trans he4), (State.gArmed_of_gw hw).trans ha⟩
  case memory =>
    rintro rfl
    exact (h4t.kept .mem (by decide)).trans (h3.kept .mem (by decide))
  case attempts =>
    have hjobs : s4.jobs = s.jobs := (h3.andThen h34).kept .jobs (by decide)
    have hlast : (t.job j).attempt = (s5.job j).attempt :=
      (congrArg (fun v => (vget v j ({} : JobCtx)).attempt) (h6t.kept .jobs (by decide))).trans (s5.newAttempt_attempt [] hj)
    rw [hlast]
    unfold s5 State.job
    dsimp only
    rw [hjobs]
    unfold State.job at hjob
    simp [vget, hj] at hjob ⊢
    rw [if_neg hjob]
  case next =>
    have h6 : s6.commit.abandoned = false ∧ s6.commit.cast = none := s5.newAttempt_commit []
    have htwin6 : s6.pins.twin = false := (congrArg Pins.twin ((h3.andThen (h34.andThen h46)).kept .pins (by decide))).trans htwin
    rw [ht]
    cases yes with
    | true =>
      obtain ⟨ha, hc⟩ := State.mirrorStart_commit htwin6
      exact ⟨ha.trans h6.1, hc.trans h6.2⟩
    | false => exact h6

end Sys2Proof.Machine
end

section
/-! SUPPORT. UP.IMM, UP.PASSA and UP.PASSB at the head of Q_GUT (R258, R271 to R273, R364). -/
namespace Sys2Proof.Machine

theorem ofNat_bits (w : Word64) : (BitVec.ofNat 32 (bits w.toNat 6 16) : Word32) = (w.extractLsb' 6 16 : BitVec 16).setWidth 32 := by
  apply BitVec.eq_of_toNat_eq
  simp only [BitVec.toNat_ofNat, bits, BitVec.toNat_setWidth, BitVec.extractLsb'_toNat, Nat.shiftRight_eq_div_pow]

theorem lowMask : ∀ i : Fin 32, (0xFFFF : Word32).getLsbD i = decide (i.val < 16) := by decide
theorem highMask : ∀ i : Fin 32, (0xFFFF0000 : Word32).getLsbD i = decide (16 ≤ i.val) := by decide

/-- Half of an immediate that is written beside the half that stays. -/
theorem imm_high (old : Word32) (v : BitVec 16) :
    ((old &&& 0xFFFF) ||| (v.setWidth 32 <<< 16) : Word32) = v ++ (old.extractLsb' 0 16 : BitVec 16) := by
  change ((old &&& (0xFFFF : Word32)) ||| (v.setWidth 32 <<< 16) : Word32) = _
  refine BitVec.eq_of_getLsbD_eq fun i hi => ?_
  have hmask := lowMask ⟨i, hi⟩
  rw [BitVec.getLsbD_or, BitVec.getLsbD_and, hmask, BitVec.getLsbD_shiftLeft, BitVec.getLsbD_setWidth, BitVec.getLsbD_append, BitVec.getLsbD_extractLsb']
  by_cases h : i < 16 <;> simp [h, hi]
  omega

theorem imm_low (old : Word32) (v : BitVec 16) :
    ((old &&& (0xFFFF0000 : Word32)) ||| v.setWidth 32 : Word32) = (old.extractLsb' 16 16 : BitVec 16) ++ v := by
  refine BitVec.eq_of_getLsbD_eq fun i hi => ?_
  have hmask := highMask ⟨i, hi⟩
  rw [BitVec.getLsbD_or, BitVec.getLsbD_and, hmask, BitVec.getLsbD_setWidth, BitVec.getLsbD_append, BitVec.getLsbD_extractLsb']
  by_cases h : i < 16
  · simp [h, hi]
  · have hsub : 16 + (i - 16) = i := by omega
    simp [h, hi, hsub, BitVec.getLsbD_of_ge v i (by omega)]
    simp [show 16 ≤ i by omega, show i - 16 < 16 by omega]

variable {s : State} {d : TrussId} {e : QEntry}

theorem State.gFrozen_occ (dom i k n : Nat) : (s.occ dom i k).gFrozen n = s.gFrozen n := by rw [State.gFrozen, State.gw_occ, ← State.gFrozen]

theorem State.gProg_occ (dom i k n : Nat) (b : Bool) : (s.occ dom i k).gProg n b = s.gProg n b := by rw [State.gProg, State.gw_occ, ← State.gProg]

theorem State.imm_issue (s : State) (d : TrussId) (q : Nat) (e : QEntry) : ((s.issue d q e).tr d).imm = (s.tr d).imm := by
  rw [State.issue, State.tr_modTr_same]
  have hspar (t : Truss) (k : Nat) : (t.takeSpar k).imm = t.imm := by
    unfold Truss.takeSpar
    split <;> rfl
  have h : ((s.tr d).takeWaits e.wa e.wb).imm = (s.tr d).imm := (hspar _ _).trans (hspar _ _)
  exact h

/-- An instruction that issues and completes where it issues. -/
theorem State.finished_issue (s : State) (d : TrussId) (q : Nat) (e : QEntry) (f : Truss → Truss) (hf : ∀ t, (f t).issued = t.issued) :
    (((s.issue d q e).modTr d f).finish d e.seq).Finished d e none := by
  have hmem : ({ q, e } : Issued) ∈ (((s.issue d q e).modTr d f).tr d).issued := by
    rw [State.tr_modTr_same, hf, State.issue, State.tr_modTr_same]
    exact List.mem_append_right _ (List.mem_singleton.2 rfl)
  refine ⟨{ q, e, done := true, trap := none }, ?_, rfl, rfl, rfl⟩
  rw [State.finish, State.tr_modTr_same]
  exact List.mem_map.2 ⟨_, hmem, if_pos rfl⟩

/-- UP.IMM writes its half of the immediate. -/
theorem upImm_run (hhead : s.AtHead d 7 0x80 e) (hinert : s.inert = false) :
    exec (.upImm d) s = .next (((s.issue d 7 e).setImm d (bits e.cr 0 5)
      (if e.m 0 then (e.w0.extractLsb' 6 16 : BitVec 16) ++ ((vget (s.tr d).imm (bits e.cr 0 5) 0).extractLsb' 0 16 : BitVec 16)
        else ((vget (s.tr d).imm (bits e.cr 0 5) 0).extractLsb' 16 16 : BitVec 16) ++ (e.w0.extractLsb' 6 16 : BitVec 16))).finish d e.seq) := by
  have hready : s.ready d 7 0x80 = some e := hhead
  have hold : ((s.issue d 7 e).tr d).imm = (s.tr d).imm := s.imm_issue d 7 e
  have hinert' : (s.issue d 7 e).inert = false := hinert
  simp only [exec, execUpImm]
  rw [hready]
  simp only [hinert', hold, ofNat_bits, imm_high, imm_low]
  rfl

/-- Settles O37. -/
theorem upInstructionsStart : Obligations.UpInstructionsStart := by
  refine ⟨?imm, ?pass⟩
  case imm =>
    intro s d e hhead hinert k v old
    have hk : k < 32 := Nat.mod_lt _ (by decide)
    have himm (x : Word32) : ((((s.issue d 7 e).setImm d k x).finish d e.seq).tr d).imm = vmod (s.tr d).imm k fun _ => x := by
      rw [State.finish, State.tr_modTr_same, State.setImm, State.tr_modTr_same, s.imm_issue]
    refine ⟨_, upImm_run hhead hinert, State.finished_issue s d 7 e _ fun _ => rfl, ?_, fun j hj => ?_, fun x hx => ?_, rfl⟩
    · rw [himm]
      exact vget_vmod_same _ _ _ _ hk
    · rw [himm]
      exact vget_vmod_other _ _ _ _ _ (Ne.symm hj)
    · have hne : (d : Nat) ≠ x := fun h => hx (Fin.ext h.symm)
      rw [State.finish, State.tr_modTr_other _ _ _ _ hne, State.setImm, State.tr_modTr_other _ _ _ _ hne, State.issue, State.tr_modTr_other _ _ _ _ hne]
  case pass =>
    intro s d e b hhead hinert l hl s1 run bare s2 work p
    have hready : s.ready d 7 (if b then 0x82 else 0x81) = some e := hhead
    have hgood : firstTrap [if l.any (fun n => 4096 ≤ n || !(s.issue d 7 e).gValid n) then some .groupInvalid else none,
        if l.any (fun n => (s.issue d 7 e).gValid n && ((s.issue d 7 e).openJob ((s.issue d 7 e).gJob n)).isNone) then some .jobState else none] = none := by
      refine firstTrap_none fun x hx => ?_
      simp only [List.mem_cons, List.not_mem_nil, or_false] at hx
      rcases hx with rfl | rfl
      · refine if_neg (Bool.eq_false_iff.1 (List.any_eq_false.2 fun n hn => ?_))
        obtain ⟨h1, h2, -⟩ := hl n hn
        simp [h1, show (s.issue d 7 e).gValid n = true from h2]
      · refine if_neg (Bool.eq_false_iff.1 (List.any_eq_false.2 fun n hn => ?_))
        obtain ⟨-, -, h3⟩ := hl n hn
        simp [Option.isSome_iff_ne_none.1 (show ((s.issue d 7 e).openJob ((s.issue d 7 e).gJob n)).isSome = true from h3)]
    have himm : (s2.tr d).imm = (s.tr d).imm := by
      have h12 : Changes [.table, .commit, .mcl, .wanted, .reports, .loft, .poison, .mem, .written] (s.issue d 7 e) s2 :=
        Changes.mono (Changes.andThen Changes.occ (Changes.ite Changes.refl (Changes.each fun _ _ => Changes.passAEnd)))
      rw [State.tr_congr (h12.kept .truss (by decide)), s.imm_issue]
    have hinert' : (s.issue d 7 e).inert = false := hinert
    have hp : p = { p with imm := (s2.tr d).imm.toList } := by rw [himm]
    have hrun : upPass d b s = .next ((({ s2 with passes := s2.passes ++ [p], written := if s2.passes.isEmpty then [] else s2.written } : State).armFree.scanRows).passEnd) := by
      unfold upPass
      rw [hready]
      dsimp only
      rw [hinert', if_neg (by decide), hgood, hp]
      simp only [State.gFrozen_occ, State.gProg_occ]
      rfl
    cases b <;> exact Completes.of_waitRecall (congrArg (waitRecall s) hrun)

end Sys2Proof.Machine
end

section
/-! SUPPORT. Counters: saturation, snapshots, the freeze state and clears (R513 to R527). -/
namespace Sys2Proof.Machine

/-! ### Stores that are written over one another -/

theorem Sparse.foldl_put_wf {α : Type} [DecidableEq α] (z : α) (l : List (Nat × α)) {m : List (Nat × α)} (h : Sparse.wf z m = true) :
    Sparse.wf z (l.foldl (fun m p => Sparse.put z m p.1 p.2) m) = true := by
  induction l generalizing m with
  | nil => exact h
  | cons x l ih => exact ih (Sparse.wf_put z _ _ h)

/-- What stands in a store after another store is written over it. -/
theorem Sparse.get_foldl_put {α : Type} [DecidableEq α] (z : α) {l : List (Nat × α)} {lo : Nat} (hl : Sparse.wfFrom z lo l = true) {m : List (Nat × α)}
    (h : Sparse.wf z m = true) (k : Nat) :
    Sparse.get z (l.foldl (fun m p => Sparse.put z m p.1 p.2) m) k = if Sparse.get z l k = z then Sparse.get z m k else Sparse.get z l k := by
  induction l generalizing m lo with
  | nil => exact (if_pos rfl).symm
  | cons x l ih =>
    obtain ⟨a, v⟩ := x
    simp only [Sparse.wfFrom, Bool.and_eq_true, decide_eq_true_eq] at hl
    obtain ⟨⟨_, hv⟩, hl⟩ := hl
    rw [List.foldl_cons, ih hl (Sparse.wf_put z _ _ h), Sparse.get_put z _ _ _ h, Sparse.get]
    by_cases hk : a = k
    · subst hk
      rw [Sparse.get_below z (Nat.lt_succ_self a) hl, if_pos rfl, if_pos rfl, if_pos rfl, if_neg hv]
    · rw [if_neg hk, if_neg (Ne.symm hk)]

variable {s : State}

/-! ### Counts -/

theorem State.count_of_val {t : State} (h : t.ctr.val = s.ctr.val) (k : Nat) : t.count k = s.count k := by rw [State.count, h, ← State.count]

/-- A count that is added to holds the sum, at most 2^48 - 1 (R515). -/
theorem State.addCount_count (h : Sparse.wf 0 s.ctr.val = true) (key n k : Nat) :
    (s.addCount key n).1.count k = if k = key then min (2 ^ 48 - 1) (s.count k + n) else s.count k := by
  have hput : ((s.modCtr fun c => { c with val := Sparse.put 0 c.val key (satAdd (s.count key) n) }).count k) =
      if k = key then min (2 ^ 48 - 1) (s.count k + n) else s.count k := by
    refine (Sparse.get_put 0 key k (satAdd (s.count key) n) h).trans ?_
    by_cases hk : k = key
    · rw [if_pos hk, if_pos hk, hk]
      rfl
    · rw [if_neg hk, if_neg hk]
      rfl
  unfold State.addCount
  extract_lets v v' t u
  split
  · exact hput
  · exact hput

/-- One that reaches it has its SAT bit set. -/
theorem State.addCount_sat (h : Sparse.wf false s.ctr.sat = true) {key n : Nat} (hn : 2 ^ 48 - 1 ≤ s.count key + n) :
    Sparse.get false (s.addCount key n).1.ctr.sat key = true := by
  have hv : satAdd (s.count key) n = satMax := Nat.min_eq_left hn
  unfold State.addCount
  extract_lets v v' t u
  split
  · exact (Sparse.get_put false key key true h).trans (if_pos rfl)
  · rename_i hno
    rw [show v' = satMax from hv] at hno
    simpa [t] using hno

/-- The counters of an island are cleared, and no other (R516). -/
theorem State.clearCounters_count (n k : Nat) : (s.clearCounters n).count k = if keyDom k = n then 0 else s.count k := by
  have h : (s.clearCounters n).count k = Sparse.get 0 (s.ctr.val.filter fun p => decide (keyDom p.1 ≠ n)) k := rfl
  rw [h]
  by_cases hk : keyDom k = n
  · rw [if_pos hk, Sparse.get_filter_dropped 0 (fun v => by simp [hk])]
  · rw [if_neg hk, Sparse.get_filter 0 (fun v => by simp [hk])]
    rfl

theorem State.clearCounters_sat {n k : Nat} (hk : keyDom k = n) : Sparse.get false (s.clearCounters n).ctr.sat k = false := by
  have h : (s.clearCounters n).ctr.sat = s.ctr.sat.filter fun p => decide (keyDom p.1 ≠ n) := rfl
  rw [h, Sparse.get_filter_dropped false (fun v => by simp [hk])]

/-! ### Snapshots -/

/-- The end of a snapshot copies the counters of the powered islands, and leaves the other copies (R522). -/
theorem State.snapshot_get (hval : Sparse.wf 0 s.ctr.val = true) (hsnap : Sparse.wf 0 s.ctr.snap = true) (k : Nat) :
    Sparse.get 0 (((s.ctr.val.filter fun p => s.isLive (keyDom p.1)) ++ (s.ctr.snap.filter fun p => !s.isLive (keyDom p.1))).foldl
      (fun m p => Sparse.put 0 m p.1 p.2) []) k = if s.isLive (keyDom k) then s.count k else Sparse.get 0 s.ctr.snap k := by
  rw [List.foldl_append, Sparse.get_foldl_put 0 (Sparse.wf_filter 0 _ hsnap) (Sparse.foldl_put_wf 0 _ (Sparse.wf_nil 0)),
    Sparse.get_foldl_put 0 (Sparse.wf_filter 0 _ hval) (Sparse.wf_nil 0)]
  have hnil : Sparse.get 0 ([] : List (Nat × Nat)) k = 0 := rfl
  cases hk : s.isLive (keyDom k) with
  | true =>
    rw [Sparse.get_filter_dropped 0 (fun v => by simp [hk]), Sparse.get_filter 0 (fun v => by simp [hk]), if_pos rfl, if_pos rfl, hnil, ← State.count]
    split <;> simp_all
  | false =>
    rw [Sparse.get_filter 0 (fun v => by simp [hk]), Sparse.get_filter_dropped 0 (fun v => by simp [hk]), if_pos rfl, hnil]
    split <;> simp_all

/-- A field of the counter block that is neither a count nor a SAT bit stays where the block stays less its reports. -/
theorem Counters.field_of_lessReports {α : Type} {c d : Counters} (f : Counters → α) (hf : ∀ c : Counters, f c.lessReports = f c)
    (h : d.lessReports = c.lessReports) : f d = f c := by
  rw [← hf, h, hf]

/-- The start of a snapshot (R522). -/
theorem State.startSnap_ctr (s : State) (t st : Word48) :
    (s.startSnap t st).ctr.lessReports =
      { s.ctr with snapTicket := t, snapStamp := st, snapCount := satAdd s.ctr.snapCount 1, snapBusy := true }.lessReports :=
  (Changes.occ (s := s.modCtr fun c => { c with snapTicket := t, snapStamp := st, snapCount := satAdd c.snapCount 1, snapBusy := true })).kept .ctr (by decide)

/-- FREEZE writes the bit and is busy until it is applied (R521). -/
theorem State.setFreeze_result (h : s.Canonical) (on : Bool) :
    ((s.setFreeze on).regRaw 51 0x100).getLsbD 1 = on ∧ (s.setFreeze on).ctr.frzBusy = true ∧ (s.setFreeze on).ctr.frozen = s.ctr.frozen := by
  have hset : ((s.setField 51 0x100 1 1 (if on then 1 else 0)).regRaw 51 0x100).getLsbD 1 = on := by
    rw [State.setField, State.regRaw_setRegRaw_same s h]
    generalize s.regRaw 51 0x100 = x
    cases on <;> simp [Field.set]
  have hctr : (s.setField 51 0x100 1 1 (if on then 1 else 0)).ctr = s.ctr := rfl
  have heach (u : State) : Changes [.reports] u (u.each (List.range 60) fun s n => if vget s.live n false then s.lathControl n 1 else s) :=
    Changes.each fun _ _ => Changes.mono (Changes.ite Changes.lathControl Changes.refl)
  unfold State.setFreeze
  generalize s.setField 51 0x100 1 1 (if on then 1 else 0) = u at hset hctr
  have hv := heach u
  generalize (u.each (List.range 60) fun s n => if vget s.live n false then s.lathControl n 1 else s) = v at hv
  have hregs := State.regRaw_of_regs (hv.kept .regs (by decide)) (dom := 51) (off := 0x100) (by decide)
  refine ⟨(congrArg (fun x : Half => x.getLsbD 1) hregs).trans hset, rfl, ?_⟩
  have hfrozen : v.ctr.frozen = u.ctr.frozen := Counters.field_of_lessReports Counters.frozen (fun _ => rfl) (hv.kept .ctr (by decide))
  exact hfrozen.trans (congrArg Counters.frozen hctr)

/-- Settles O54. -/
theorem countersSnapshotFreezeClear : Obligations.CountersSnapshotFreezeClear := by
  intro s r hval hsnap hsat hs hheard
  have hreach (d : Nat) : ((s.reached d).ctr.lessReports = s.ctr.lessReports) := Changes.reached.kept .ctr (by decide)
  have hbusy51 : (s.reached 51).ctr.snapBusy = s.ctr.snapBusy := Counters.field_of_lessReports Counters.snapBusy (fun _ => rfl) (hreach 51)
  have hnext51 : (s.reached 51).ctr.snapNext = s.ctr.snapNext := Counters.field_of_lessReports Counters.snapNext (fun _ => rfl) (hreach 51)
  have hsnap51 : (s.reached 51).ctr.snap = s.ctr.snap := Counters.field_of_lessReports Counters.snap (fun _ => rfl) (hreach 51)
  have hticket : (s.reached 51).ticket = s.ticket := Changes.reached.kept .ticket (by decide)
  have hstamp : (s.reached 51).stamp = s.stamp := Changes.reached.kept .stamp (by decide)
  refine ⟨fun key n => ⟨State.addCount_count hval key n, State.addCount_sat hsat⟩, ?snap, ?wait, ?snapEnd, ?deferred, ?freeze, ?applied, ?clear, ?window⟩
  case snap =>
    intro hlive hbusy hnext
    have hstart : (s.reached 51).requestSnap = (s.reached 51).startSnap s.ticket s.stamp := by
      rw [State.requestSnap, hbusy51, hnext51, hbusy, hnext, hticket, hstamp]
      rfl
    have hctr := (s.reached 51).startSnap_ctr s.ticket s.stamp
    refine ⟨(s.reached 51).startSnap s.ticket s.stamp, ?_, Counters.field_of_lessReports Counters.snapTicket (fun _ => rfl) hctr,
      Counters.field_of_lessReports Counters.snapStamp (fun _ => rfl) hctr, Counters.field_of_lessReports Counters.snapBusy (fun _ => rfl) hctr,
      (Counters.field_of_lessReports Counters.snap (fun _ => rfl) hctr).trans hsnap51⟩
    rw [exec, execSnap, State.reachBy_heard _ hlive hheard, ← hstart]
    rfl
  case wait =>
    intro hlive hno
    have hwait : (s.reached 51).requestSnap = (s.reached 51).modCtr fun c => { c with snapNext := c.snapNext ++ [(s.ticket, s.stamp)] } := by
      rw [State.requestSnap, hbusy51, hnext51, hticket, hstamp]
      exact if_pos (by rcases hno with h | h <;> simp [h])
    refine ⟨(s.reached 51).modCtr fun c => { c with snapNext := c.snapNext ++ [(s.ticket, s.stamp)] }, ?_, ?_, hbusy51⟩
    · rw [exec, execSnap, State.reachBy_heard _ hlive hheard, ← hwait]
      rfl
    · exact congrArg (· ++ [(s.ticket, s.stamp)]) hnext51
  case snapEnd =>
    intro hbusy
    refine ⟨_, if_neg (by rw [hbusy]; decide), rfl, rfl, State.snapshot_get hval hsnap⟩
  case deferred =>
    intro x rest hnext hbusy
    have hctr := (s.modCtr fun c => { c with snapNext := rest }).startSnap_ctr x.1 x.2
    refine ⟨(s.modCtr fun c => { c with snapNext := rest }).startSnap x.1 x.2, ?_, Counters.field_of_lessReports Counters.snapNext (fun _ => rfl) hctr,
      Counters.field_of_lessReports Counters.snapBusy (fun _ => rfl) hctr, Counters.field_of_lessReports Counters.snapTicket (fun _ => rfl) hctr,
      Counters.field_of_lessReports Counters.snapStamp (fun _ => rfl) hctr⟩
    simp only [exec, execDeferredSnapshot, hnext]
    exact if_neg (by rw [hbusy]; decide)
  case freeze =>
    intro on hlive
    obtain ⟨hbit, hfrz, hfrozen⟩ := State.setFreeze_result (s := s.reached 51) (Changes.reached.canonical hs) on
    refine ⟨(s.reached 51).setFreeze on, ?_, hbit, hfrz, hfrozen.trans (Counters.field_of_lessReports Counters.frozen (fun _ => rfl) (hreach 51))⟩
    rw [exec, execFreeze, State.reachBy_heard _ hlive hheard]
    rfl
  case applied =>
    intro hbusy
    exact if_neg (by rw [hbusy]; decide)
  case clear =>
    intro n hlive u
    have hu : u = if s.mayCount r = true then s.clearCounters n else s := by
      unfold u State.clearFirst
      rw [hlive, Bool.true_and]
    have hulive : u.isLive n = true := by
      rw [← hlive]
      exact (SameGround.of_changes (s := s) (t := u) (K := [.regs, .ctr, .reports]) (Changes.mono Changes.clearFirst)).live n
    refine ⟨?_, fun k => ⟨?_, fun hk hcount => ?_⟩⟩
    · rw [exec, execClr, if_pos hheard, State.reach, if_pos hulive]
    · rw [hu]
      cases hcount : s.mayCount r with
      | true => simp only [if_true, and_true, State.clearCounters_count]
      | false => simp
    · rw [hu, if_pos hcount]
      exact State.clearCounters_sat hk
  case window =>
    intro p hlive
    have hp : (p : Nat) < 22 := p.isLt
    have hports : (s.modCtr fun c => { c with ports := vmod c.ports p fun w => (min satMax (s.port p).tx, min satMax (s.port p).rx, satAdd w.2.2 1) }).ports = s.ports := rfl
    refine ⟨_, if_neg (by rw [hlive]; decide), ?_, ?_, fun y => ?_, fun y hy => ?_⟩
    · rw [State.port_modPort_same]
    · rw [State.port_modPort_same]
    · by_cases hy : y = p
      · rw [if_pos hy, hy]
        exact vget_vmod_same _ _ _ _ hp
      · rw [if_neg hy]
        exact vget_vmod_other _ _ _ _ _ fun h => hy (Fin.ext h.symm)
    · rw [State.port_modPort_other _ _ _ _ fun h => hy (Fin.ext h.symm)]
      exact congrArg (fun v => vget v y ({} : Port)) hports

end Sys2Proof.Machine
end

section

/-! SUPPORT. How a packet comes in: it is not for this device, it stays at its port, or it is taken; and what a taken
packet does by its kind. -/

namespace Sys2Proof.Machine
open Machine

theorem State.packetIn_elsewhere {s : State} {q : Packet} (h : q.dest ≠ s.coord.inForce) : s.packetIn q = s := by
  simp [State.packetIn, h]

/-- The Gutter runs: its home slice is powered and the device is not in reset. -/
def GutterRuns (s : State) : Prop := s.isLive 46 = true ∧ s.pins.resetN = true

theorem State.packetIn_here {s : State} {q : Packet} (hrun : GutterRuns s) (h : q.dest = s.coord.inForce) :
    s.packetIn q =
      if s.gutterSettle.noRoom (s.gutterSettle.pathOf q) q || s.gutterSettle.notHead (s.gutterSettle.pathOf q) q
      then s.gutterSettle
      else ((s.gutterSettle.takeInbox (s.gutterSettle.pathOf q) q).receive
        (s.gutterSettle.pathOf q) q).gutterSettle := by
  obtain ⟨hlive, hreset⟩ := hrun
  simp [State.packetIn, hlive, hreset, h]

theorem State.receive_join (s : State) (path : Path) {q : Packet} (h : q.kind = Kind.join.code) :
    s.receive path q = s.joinIn q := by
  simp [State.receive, h]

theorem State.receive_lands {s : State} {path : Path} {q : Packet} {j src : Nat} (h : q.kind ≠ Kind.join.code)
    (hfate : s.fate path q = .lands j src) : s.receive path q = s.landPacket j src q := by
  simp [State.receive, h, hfate, State.apply]

/-- What an instruction that brings packet `q` says of it before it is taken. -/
def Waits (c : Instr) (s : State) (q : Packet) : Prop :=
  (q.dest ≠ s.coord.inForce → Completes c s s) ∧
    (q.dest = s.coord.inForce →
      (s.gutterSettle.noRoom (s.gutterSettle.pathOf q) q ||
        s.gutterSettle.notHead (s.gutterSettle.pathOf q) q) = true →
      Completes c s s.gutterSettle)

theorem waits_packetIn (c : Instr) {s : State} {q : Packet} (hrun : GutterRuns s)
    (hexec : exec c s = waitRecall s (.next (s.packetIn q))) : Waits c s q := by
  constructor
  · intro h
    exact .of_waitRecall (by rw [hexec, State.packetIn_elsewhere h])
  · intro h hstays
    exact .of_waitRecall (by rw [hexec, State.packetIn_here hrun h, if_pos hstays])

theorem completes_packetIn (c : Instr) {s t : State} {q : Packet} (hrun : GutterRuns s)
    (hexec : exec c s = waitRecall s (.next (s.packetIn q))) (hdest : q.dest = s.coord.inForce)
    (hgoes : (s.gutterSettle.noRoom (s.gutterSettle.pathOf q) q ||
      s.gutterSettle.notHead (s.gutterSettle.pathOf q) q) = false)
    (hreceive : (s.gutterSettle.takeInbox (s.gutterSettle.pathOf q) q).receive (s.gutterSettle.pathOf q) q = t) :
    Completes c s t.gutterSettle := by
  refine .of_waitRecall ?_
  rw [hexec, State.packetIn_here hrun hdest, if_neg (by rw [hgoes]; decide), hreceive]

/-- A packet of a kind other than JOIN waits as any does, and where it lands `f` is what its kind does. -/
theorem lands_packetIn (c : Instr) {s : State} {q : Packet} (f : State → Nat → Nat → State) (hrun : GutterRuns s)
    (hexec : exec c s = waitRecall s (.next (s.packetIn q))) (hkind : q.kind ≠ Kind.join.code)
    (hland : ∀ (s : State) j src, s.landPacket j src q = f s j src) :
    Waits c s q ∧ ∀ j src, q.dest = s.coord.inForce →
      (s.gutterSettle.noRoom (s.gutterSettle.pathOf q) q ||
        s.gutterSettle.notHead (s.gutterSettle.pathOf q) q) = false →
      (s.gutterSettle.takeInbox (s.gutterSettle.pathOf q) q).fate (s.gutterSettle.pathOf q) q = .lands j src →
      Completes c s (f (s.gutterSettle.takeInbox (s.gutterSettle.pathOf q) q) j src).gutterSettle := by
  refine ⟨waits_packetIn c hrun hexec, fun j src hdest hgoes hfate => ?_⟩
  exact completes_packetIn c hrun hexec hdest hgoes ((State.receive_lands hkind hfate).trans (hland _ j src))

theorem phaseOf_ofPhase {n : Nat} (hn : n < 256) (p : Packet) : phaseOf (ofPhase n p) = n := by
  have hlt := p.bucket.isLt
  simp only [phaseOf, ofPhase, bits, pow_zero, Nat.div_one, BitVec.toNat_add, BitVec.toNat_sub, BitVec.toNat_ofNat]
  omega

theorem kind_ne_join (x : Kind) (p : Packet) (h : x ≠ .join) : (ofKind x p).kind ≠ Kind.join.code := by
  revert h
  cases x <;> simp [ofKind, Kind.code]

theorem landPacket_commitVote (p : Packet) (s : State) (j src : Nat) :
    s.landPacket j src (ofPhase 1 p) = s.voteIn j (ofPhase 1 p) := by
  have hkind : Kind.ofCode (ofPhase 1 p).kind = some .commit := rfl
  simp only [State.landPacket, hkind, phaseOf_ofPhase (show 1 < 256 by decide)]

theorem landPacket_outcome (p : Packet) (s : State) (j src : Nat) :
    s.landPacket j src (ofPhase 2 p) = s.outcomeIn j (ofPhase 2 p) := by
  have hkind : Kind.ofCode (ofPhase 2 p).kind = some .commit := rfl
  simp only [State.landPacket, hkind, phaseOf_ofPhase (show 2 < 256 by decide)]

theorem landPacket_mirrored (p : Packet) (s : State) (j src : Nat) :
    s.landPacket j src (ofPhase 3 p) = s.mirroredIn j (ofPhase 3 p) := by
  have hkind : Kind.ofCode (ofPhase 3 p).kind = some .commit := rfl
  simp only [State.landPacket, hkind, phaseOf_ofPhase (show 3 < 256 by decide)]

theorem landPacket_confirm (p : Packet) (s : State) (j src : Nat) :
    s.landPacket j src (ofPhase 4 p) = s.confirmIn j (ofPhase 4 p) := by
  have hkind : Kind.ofCode (ofPhase 4 p).kind = some .commit := rfl
  simp only [State.landPacket, hkind, phaseOf_ofPhase (show 4 < 256 by decide)]

/-- Settles O38: a packet that is taken has the effect of its kind. -/
theorem packetsActByKind : Obligations.PacketsActByKind := by
  unfold Obligations.PacketsActByKind
  intro s p hlive hreset
  have hrun : GutterRuns s := ⟨hlive, hreset⟩
  refine ⟨?join, ?joined, ?joinAck, ?bucketRs, ?bucketAg, ?agree, ?reduce, ?vote, ?dispatch, ?dispatchEnd, ?combine,
    ?combineEnd, ?drain, ?abandon, ?commitVote, ?outcome, ?mirrored, ?confirm⟩
  case join => exact waits_packetIn (.join p) (q := ofKind .join p) hrun rfl
  case joined =>
    intro hdest hgoes
    exact completes_packetIn (.join p) (q := ofKind .join p) hrun rfl hdest hgoes (State.receive_join _ _ rfl)
  case joinAck =>
    exact lands_packetIn (.joinAck p) (q := ofKind .joinAck p)
      (fun s j src => s.joinAckIn j src (ofKind .joinAck p)) hrun rfl
      (kind_ne_join .joinAck p (by decide)) fun _ _ _ => rfl
  case bucketRs =>
    exact lands_packetIn (.bucketRs p) (q := ofKind .bucketRs p)
      (fun s j src => s.bucketIn j src (ofKind .bucketRs p)) hrun rfl
      (kind_ne_join .bucketRs p (by decide)) fun _ _ _ => rfl
  case bucketAg =>
    exact lands_packetIn (.bucketAg p) (q := ofKind .bucketAg p)
      (fun s j src => s.bucketIn j src (ofKind .bucketAg p)) hrun rfl
      (kind_ne_join .bucketAg p (by decide)) fun _ _ _ => rfl
  case agree =>
    exact lands_packetIn (.agree p) (q := ofKind .agree p)
      (fun s j src => s.agreeIn j src (ofKind .agree p)) hrun rfl
      (kind_ne_join .agree p (by decide)) fun _ _ _ => rfl
  case reduce =>
    exact lands_packetIn (.reduce p) (q := ofKind .reduce p)
      (fun s j src => s.redIn j src .reduce (ofKind .reduce p)) hrun rfl
      (kind_ne_join .reduce p (by decide)) fun _ _ _ => rfl
  case vote =>
    exact lands_packetIn (.vote p) (q := ofKind .vote p)
      (fun s j src => s.redIn j src .vote (ofKind .vote p)) hrun rfl
      (kind_ne_join .vote p (by decide)) fun _ _ _ => rfl
  case dispatch =>
    exact lands_packetIn (.dispatch p) (q := ofKind .dispatch p)
      (fun s j src => s.dispIn j src (ofKind .dispatch p)) hrun rfl
      (kind_ne_join .dispatch p (by decide)) fun _ _ _ => rfl
  case dispatchEnd =>
    exact lands_packetIn (.dispatchEnd p) (q := ofKind .dispatchEnd p)
      (fun s j src => s.dispIn j src (ofKind .dispatchEnd p)) hrun rfl
      (kind_ne_join .dispatchEnd p (by decide)) fun _ _ _ => rfl
  case combine =>
    exact lands_packetIn (.combine p) (q := ofKind .combine p)
      (fun s j src => s.combIn j src (ofKind .combine p)) hrun rfl
      (kind_ne_join .combine p (by decide)) fun _ _ _ => rfl
  case combineEnd =>
    exact lands_packetIn (.combineEnd p) (q := ofKind .combineEnd p)
      (fun s j src => s.combIn j src (ofKind .combineEnd p)) hrun rfl
      (kind_ne_join .combineEnd p (by decide)) fun _ _ _ => rfl
  case drain =>
    exact lands_packetIn (.drain p) (q := ofKind .drain p)
      (fun s j src => s.drainIn j src (ofKind .drain p)) hrun rfl
      (kind_ne_join .drain p (by decide)) fun _ _ _ => rfl
  case abandon =>
    exact lands_packetIn (.abandon p) (q := ofKind .abandon p)
      (fun s j _ => s.abandonIn j (ofKind .abandon p)) hrun rfl
      (kind_ne_join .abandon p (by decide)) fun _ _ _ => rfl
  case commitVote =>
    exact lands_packetIn (.commitVote p) (q := ofPhase 1 p)
      (fun s j _ => s.voteIn j (ofPhase 1 p)) hrun rfl
      (kind_ne_join .commit p (by decide)) (landPacket_commitVote p)
  case outcome =>
    exact lands_packetIn (.outcome p) (q := ofPhase 2 p)
      (fun s j _ => s.outcomeIn j (ofPhase 2 p)) hrun rfl
      (kind_ne_join .commit p (by decide)) (landPacket_outcome p)
  case mirrored =>
    exact lands_packetIn (.mirrored p) (q := ofPhase 3 p)
      (fun s j _ => s.mirroredIn j (ofPhase 3 p)) hrun rfl
      (kind_ne_join .commit p (by decide)) (landPacket_mirrored p)
  case confirm =>
    exact lands_packetIn (.confirm p) (q := ofPhase 4 p)
      (fun s j _ => s.confirmIn j (ofPhase 4 p)) hrun rfl
      (kind_ne_join .commit p (by decide)) (landPacket_confirm p)

end Sys2Proof.Machine
end

section

/-! SUPPORT. The timers of the collectives: a bucket that has landed, an inbox without acknowledgements. -/

namespace Sys2Proof.Machine
open Machine

/-! ### A bucket that has landed -/

/-- The blocks of bucket `b` of context `j` have all come, and it has not landed yet. -/
structure BucketCome (s : State) (j b : Nat) : Prop where
  openJob : (s.job j).state ≠ 0
  notLanded : ((s.job j).bucket b).isLanded = false
  allCome : ((s.job j).bucket b).landed.length = (s.job j).jr.blocks b
  some' : 0 < (s.job j).jr.blocks b

theorem BucketCome.goes {s : State} {j b : Nat} (h : BucketCome s j b) :
    ¬((s.job j).state = 0 || ((s.job j).bucket b).isLanded || (s.job j).jr.blocks b = 0 ||
      ((s.job j).bucket b).landed.length ≠ (s.job j).jr.blocks b) = true := by
  have h1 := h.openJob
  have h2 := h.notLanded
  have h3 := h.allCome
  have h4 := h.some'
  simp only [Bool.or_eq_true, decide_eq_true_eq, not_or, Bool.not_eq_true]
  exact ⟨⟨⟨h1, h2⟩, by omega⟩, fun h => h h3⟩

theorem JobCtx.bucket_modBucket {s : State} {j b : Nat} {f : Bucket → Bucket} (hj : j < 64) :
    ((s.modBucket j b f).job j).bucket b = f ((s.job j).bucket b) := by
  simp [State.modBucket, hj, JobCtx.bucket, Sparse.put, Sparse.get_ins]

theorem bucketLanded_landed {s : State} {j b : Nat} (hj : j < 64) (h : BucketCome s j b) :
    (((s.bucketLanded j b).job j).bucket b).isLanded = true := by
  unfold State.bucketLanded
  extract_lets
  rw [if_neg h.goes]
  exact congrArg Bucket.isLanded (JobCtx.bucket_modBucket hj)

theorem State.Writes.storeBucket {l : List Span} {s : State} {pre : Bool} {a : Nat} {bs : List Byte}
    (hl : ∀ b, (∀ x ∈ l, b < x.a ∨ x.a + x.n ≤ b) → b < a ∨ a + bs.length ≤ b) : s.Writes l (s.storeBucket pre a bs) :=
  trans (of_changes Changes.want) <| trans (writeRaw hl) <| trans (of_changes Changes.noteWrite) <| of_changes Changes.touch

theorem bucketLanded_writes {s : State} {j b : Nat} (h : BucketCome s j b)
    (hclean : ∀ u ∈ touchedUnits ((s.job j).jr.entry b) 16, s.poisonAt u = false) :
    s.Writes [{ a := (s.job j).jr.entry b, n := 16 }] (s.bucketLanded j b) := by
  unfold State.bucketLanded
  extract_lets c bk n m a tail esc
  rw [if_neg h.goes]
  generalize hdraw : (if m = 0 then s.drawFree else (0, s)) = drawn
  obtain ⟨f, s1⟩ := drawn
  have hs1 : s1 = (if m = 0 then s.drawFree else (0, s)).2 := by rw [hdraw]
  have h1 : s.Writes [{ a, n := 16 }] s1 := .of_mem (by rw [hs1]; split <;> rfl)
  have hpoison : s1.poisonAt = s.poisonAt := by rw [hs1]; funext u; split <;> rfl
  dsimp -zeta only
  extract_lets emax t head bad own other s2 s3
  have hbad : bad = [] := by
    simp only [bad, hpoison, List.filter_eq_nil_iff]
    exact fun u hu => by simp [hclean u hu]
  have hs2 : s2 = (s1.storeBucket bk.pre a head).storeBucket bk.pre (a + 14) tail := by simp [s2, hbad]
  have h2 : s1.Writes [{ a, n := 16 }] s2 := by
    rw [hs2]
    have hhead : head.length = 8 := by simp [head, leBytes_length]
    have htail : tail.length = 2 := by simp [tail, leBytes_length]
    refine .trans (.storeBucket fun x hx => ?_) (.storeBucket fun x hx => ?_) <;>
      have := hx _ (List.mem_singleton_self _)
    · dsimp only at this
      omega
    · dsimp only at this
      omega
  have h3 : s2.Writes [{ a, n := 16 }] s3 := .ite (fun _ => .of_changes Changes.raiseOnce) fun _ => .refl
  exact h1.trans <| h2.trans <| h3.trans <| .of_changes Changes.modBucket

/-! ### Ports whose inbox holds no acknowledgement of a mirror -/

theorem vmod_eq_self {α : Type} {n : Nat} (v : Vector α n) (i : Nat) (f : α → α) (d : α) (h : f (vget v i d) = vget v i d) :
    vmod v i f = v := by
  unfold vmod
  split
  · next hi =>
    rw [vget, dif_pos hi] at h
    rw [h]
    simp
  · rfl

theorem State.modPort_eq_self {s : State} {k : Nat} {f : Port → Port} (h : f (s.port k) = s.port k) : s.modPort k f = s :=
  congrArg (fun v => { s with ports := v }) (vmod_eq_self _ _ _ {} h)

/-- The inboxes of the twin ports without acknowledgements of a mirror. -/
def withoutAcks (q : Port) : Port := { q with inbox := q.inbox.filter fun x => x.2.kind != mirrorAckKind }

theorem withoutAcks_eq_self {q : Port} (h : ∀ x ∈ q.inbox, x.2.kind ≠ mirrorAckKind) : withoutAcks q = q := by
  have : (q.inbox.filter fun x => x.2.kind != mirrorAckKind) = q.inbox := List.filter_eq_self.mpr fun x hx => by simp [h x hx]
  rw [withoutAcks, this]

theorem each_withoutAcks {s : State} (h : ∀ k ∈ [20, 21], ∀ x ∈ (s.port k).inbox, x.2.kind ≠ mirrorAckKind) :
    (s.each [20, 21] fun s k => s.modPort k withoutAcks) = s := by
  have h20 : s.modPort 20 withoutAcks = s := State.modPort_eq_self (withoutAcks_eq_self (h 20 (by decide)))
  have h21 : s.modPort 21 withoutAcks = s := State.modPort_eq_self (withoutAcks_eq_self (h 21 (by decide)))
  exact (congrArg (fun t : State => t.modPort 21 withoutAcks) h20).trans h21

theorem execMirrorAck_unanswered {s : State} {n : Nat} (hn : s.commit.sending = some n)
    (h : ∀ k ∈ [20, 21], ∀ x ∈ (s.port k).inbox, x.2.kind ≠ mirrorAckKind) :
    execMirrorAck s = waitRecall s (.next ((s.modCommit fun c => { c with mstate := 2, sending := none }).sendMirrored.fenceMoved)) := by
  have hacks : ([20, 21].flatMap fun k => (s.port k).inbox.map (·.2)).filter (fun p => p.kind == mirrorAckKind) = [] := by
    simp only [List.filter_eq_nil_iff, List.mem_flatMap, List.mem_map]
    rintro p ⟨k, hk, x, hx, rfl⟩
    simp [h k hk x hx]
  have hself := each_withoutAcks h
  unfold withoutAcks at hself
  unfold execMirrorAck
  simp only [hacks, hself, hn, List.any_nil, Bool.false_eq_true, if_false]

/-! ### Each timer on a state that it acts on -/

theorem execPacketRelay_goes {s : State} {port : PortId} {stream : Bool} {p : Packet} (hdest : p.dest ≠ s.coord.inForce)
    (hhead : (s.port port).inbox.contains (stream, p) = true → s.notHead (some (port.val, stream)) p = false) :
    execPacketRelay port stream p s =
      (let t := s.takeRelay port stream p
       let out := (t.pathEntry p.dest.toNat p.job.toNat).bind fun e => (t.eligible e p.plevel.toNat).head?
       match if 6 ≤ p.hops.toNat then none else out with
       | none => .next (t.relayDrop port p)
       | some k => .next ((t.occPort port 11).emit k stream { p with hops := p.hops + 1 } false)) := by
  unfold execPacketRelay
  refine if_neg ?_
  simp only [Bool.or_eq_true, Bool.and_eq_true, decide_eq_true_eq, not_or]
  exact ⟨hdest, fun ⟨hin, hnot⟩ => by rw [hhead hin] at hnot; cases hnot⟩

/-- Settles O40: each timer of the collectives acts as its rule says. -/
theorem collectiveTimersAct : Obligations.CollectiveTimersAct := by
  unfold Obligations.CollectiveTimersAct
  refine ⟨?landed, ?peer, ?drain, ?vote, ?outcome, ?covote, ?mirror, ?ack, ?relay, ?relayDrop⟩
  case landed =>
    intro s j b hstate hnot hall hsome
    have hcome : BucketCome s j b := ⟨hstate, hnot, hall, hsome⟩
    exact ⟨.of_waitRecall rfl, bucketLanded_landed j.isLt hcome, fun hm hclean => (bucketLanded_writes hcome hclean hm).2⟩
  case peer =>
    intro s j hwaits habandoned
    refine .of_waitRecall ?_
    simp only [exec, execPeerTimeout, hwaits, habandoned]
    rfl
  case drain =>
    intro s j hstate hdrainer hdrained
    refine .of_waitRecall ?_
    simp only [exec, execDrainForced, hstate, hdrainer, hdrained]
    rfl
  case vote =>
    intro s c hjob hself hstate hcast
    refine .of_waitRecall ?_
    simp [exec, execVoteDeadline, hjob, hself, hstate, hcast]
  case outcome =>
    intro s c hjob hself hstate hcast
    refine .of_waitRecall ?_
    simp [exec, execOutcomeTimeout, hjob, hself, hstate, hcast]
  case covote =>
    intro s j seq r hred hself
    refine .of_waitRecall ?_
    simp only [exec, execCovoteDeadline, hred, hself]
    rfl
  case mirror =>
    intro s m hrec hsize
    refine .of_waitRecall ?_
    simp only [exec, execMirrorComplete, hrec, if_pos hsize]
  case ack =>
    intro s n hsend hno
    exact .of_waitRecall (execMirrorAck_unanswered hsend hno)
  case relay =>
    intro s port stream p e k hwf hdest hhead hhops t hentry hport
    have hout : ((t.pathEntry p.dest.toNat p.job.toNat).bind fun e => (t.eligible e p.plevel.toNat).head?) = some k := by
      rw [hentry]
      exact hport
    refine (execPacketRelay_goes hdest hhead).trans ?_
    simp only [if_neg (show ¬6 ≤ p.hops.toNat by omega)]
    rw [hout]
  case relayDrop =>
    intro s port stream p hdest hhead hhops
    refine (execPacketRelay_goes hdest hhead).trans ?_
    simp only [if_pos hhops]

end Sys2Proof.Machine
end

section

/-! SUPPORT. The collective instructions where they issue on a job that takes them (R263 to R270). -/

namespace Sys2Proof.Machine
open Machine

/-! ### What an issue leaves -/

theorem Truss.desc_takeWaits (t : Truss) (a b : Nat) : (t.takeWaits a b).desc = t.desc := by
  have hspar (t : Truss) (k : Nat) : (t.takeSpar k).desc = t.desc := by
    unfold Truss.takeSpar
    split <;> rfl
  exact (hspar _ _).trans (hspar _ _)

theorem State.descTable_issue (s : State) (d : TrussId) (q : Nat) (e : QEntry) : ((s.issue d q e).tr d).desc = (s.tr d).desc := by
  rw [State.issue, State.tr_modTr_same]
  exact Truss.desc_takeWaits _ _ _

theorem State.descWords_issue (s : State) (d : TrussId) (q : Nat) (e : QEntry) (i : Nat) :
    ((s.issue d q e).tr d).descWords i = (s.tr d).descWords i := by
  rw [Truss.descWords, s.descTable_issue]
  rfl

theorem State.alat_issue (s : State) (d : TrussId) (q : Nat) (e : QEntry) : ((s.issue d q e).tr d).alat = (s.tr d).alat := by
  have hspar (t : Truss) (k : Nat) : (t.takeSpar k).alat = t.alat := by
    unfold Truss.takeSpar
    split <;> rfl
  have h : ((s.tr d).takeWaits e.wa e.wb).alat = (s.tr d).alat := (hspar _ _).trans (hspar _ _)
  rw [State.issue, State.tr_modTr_same]
  exact h

theorem State.desc_issue (s : State) (d : TrussId) (q : Nat) (e : QEntry) (i : Nat) : (s.issue d q e).desc d i = s.desc d i := by
  rw [State.desc, s.descWords_issue]
  rfl

theorem State.tr_access (s : State) (m : Mover) (ok : Region → Bool) (l l' : List Span) (d : Nat) :
    (s.access m ok l l').1.tr d = s.tr d := State.tr_congr (Changes.access.kept .truss (by decide)) d

theorem State.self_access (s : State) (m : Mover) (ok : Region → Bool) (l l' : List Span) : (s.access m ok l l').1.self = s.self :=
  have hcoord : (s.access m ok l l').1.coord.inForce = s.coord.inForce :=
    (Prod.mk.inj (Prod.mk.inj (Changes.access.kept .coord (by decide))).2).1
  congrArg BitVec.toNat hcoord

/-- The descriptors after an instruction has issued, taken its ordinal and made its accesses. -/
theorem State.descWords_taken (s : State) (d : TrussId) (q : Nat) (e : QEntry) (j : Nat) (k : Kind) (m : Mover)
    (ok : Region → Bool) (l l' : List Span) (i : Nat) :
    (((((s.issue d q e).takeOrd j k d).1.access m ok l l').1.tr d).descWords i) = (s.tr d).descWords i := by
  rw [State.tr_access]
  exact s.descWords_issue d q e i

/-- Conditions that hold add no trap. -/
theorem firstTrap_append_none (a b c : Option TrapCause) : firstTrap [a, b, c, none, none] = firstTrap [a, b, c] := by
  cases a <;> cases b <;> cases c <;> rfl

theorem firstTrap_snoc_none (a b c : Option TrapCause) : firstTrap [a, b, c, none] = firstTrap [a, b, c] := by
  cases a <;> cases b <;> cases c <;> rfl

theorem firstTrap_pair : firstTrap [none, none] = none := rfl

theorem firstTrap_nones : firstTrap [none, none, none] = none := rfl

section
variable {s : State} {d : TrussId} {e : QEntry} {j : Nat}

/-! ### One lemma per instruction -/

theorem coJoin_open (hhead : s.AtHead d 7 0x60 e) (hctx : s.ctxOf e.da = some j) (hstate : (s.job j).state = 1)
    (hgen : (s.job j).gen = bits e.cr 0 4) :
    coJoin d s = .next (((s.issue d 7 e).modJob j fun c => { c with joiners := c.joiners ++ [⟨d, e.seq⟩] }).joinCheck j) := by
  have hready : s.ready d 7 0x60 = some e := hhead
  have hctx' : (s.issue d 7 e).ctxOf e.da = some j := hctx
  have hstate' : ((s.issue d 7 e).job j).state = 1 := hstate
  have hgen' : ((s.issue d 7 e).job j).gen = bits e.cr 0 4 := hgen
  unfold coJoin
  simp only [hready, hctx', hstate', hgen', decide_true, Bool.and_self, if_true, QEntry.ref]

theorem coVote_run (hinert : s.inert = false) (hjob : s.jobAt e = some j) (hhead : s.AtHead d 7 0x65 e) :
    execCoVote d s = waitRecall s (.next
      ((((s.issue d 7 e).takeOrd j .vote d).1.redStart j
        { ins := ⟨d, e.seq⟩, op := if e.m 1 then 4 else 3, seq := ((s.issue d 7 e).takeOrd j .vote d).2, view := [],
          immIdx := bits e.db 0 5, own := [(0, 0, [if e.m 0 then Num.one else Num.zero])] }).takeEarly j [.vote]
        ((s.issue d 7 e).takeOrd j .vote d).2 fun s i p => s.redIn j i .vote p)) := by
  have hready : s.ready d 7 0x65 = some e := hhead
  have hinert' : (s.issue d 7 e).inert = false := hinert
  have hjob' : (s.issue d 7 e).jobAt e = some j := hjob
  unfold execCoVote
  simp only [hready, hinert', hjob', Bool.false_eq_true, if_false, QEntry.ref]

theorem coDrain_run (hjob : s.jobAt e = some j) (hhead : s.AtHead d 7 0x66 e) :
    execCoDrain d s =
      (let s2 := (s.issue d 7 e).modJob j fun c => { c with state := 2, drainer := some ⟨d, e.seq⟩ }
       waitRecall s (.next ((s2.each (s2.job j).others fun s m => s.send (s.packetTo (s2.job j) .drain m)).drainCheck j))) := by
  have hready : s.ready d 7 0x66 = some e := hhead
  have hjob' : (s.issue d 7 e).jobAt e = some j := hjob
  unfold execCoDrain
  simp only [hready, hjob', QEntry.ref]

theorem coReduce_run (hinert : s.inert = false) (hjob : s.jobAt e = some j) (hhead : s.AtHead d 7 0x62 e)
    (hview : (s.desc d e.db).check (fun f => f = 7 || f = 9) = none) (hsize : (s.desc d e.db).rows * (s.desc d e.db).cols ≤ 1024) :
    let v := s.desc d e.db
    let o := (s.issue d 7 e).takeOrd j .reduce d
    let u := o.1.access .collective coPlace v.all (v.blockSpans 0 v.rows 0 v.cols)
    let vals := (List.range v.rows).flatMap fun r => (List.range v.cols).map fun c => u.1.widen v r c
    u.2 = none → coReduce d s = .next ((u.1.redStart j
      { ins := ⟨d, e.seq⟩, op := bits e.mod 0 2, seq := o.2, view := (s.tr d).descWords e.db,
        own := (pieces512 vals).map fun p => (0, p.1, p.2) }).takeEarly j [.reduce] o.2 fun s i p => s.redIn j i .reduce p) := by
  intro v o u vals htrap
  have hready : s.ready d 7 0x62 = some e := hhead
  have hinert' : (s.issue d 7 e).inert = false := hinert
  have hjob' : (s.issue d 7 e).jobAt e = some j := hjob
  have hwords := s.descWords_taken d 7 e j .reduce .collective coPlace v.all (v.blockSpans 0 v.rows 0 v.cols) e.db
  simp only [u, o, v] at htrap hwords
  unfold coReduce
  simp only [hready, hinert', hjob', s.desc_issue, hview, if_neg (Nat.not_lt.2 hsize), Option.isNone_some, Option.getD_some,
    Bool.false_eq_true, if_false, QEntry.ref, firstTrap_nones, htrap, Option.isSome_none]
  rw [hwords]

theorem coBucket_run (hinert : s.inert = false) (hview : (s.desc d e.db).check (fun f => f = 7 || isZ40 f) = none)
    (hhead : s.AtHead d 7 0x61 e) (hgroup : s.gValid e.da = true) (hjob : s.openJob (s.gJob e.da) = some j) :
    let v := s.desc d e.db
    let off := bits (s.gw e.da 1) 0 40
    let idx := v.elements.map (·.1)
    let u := (s.issue d 7 e).access .collective coPlace v.all []
    let todo := (idx.map fun i => (off + i) / (s.job j).jr.perBucket).eraseDups.foldl (fun l b => insertBy id b l) []
    (idx.any (fun i => bits (s.gw e.da 2) 0 40 ≤ i || (s.job j).jr.spaceLen ≤ off + i || s.contributed j (off + i)) ||
        idx.eraseDups.length ≠ idx.length) = false → u.2 = none →
      coBucket d s = .next ((u.1.contribute
        { ins := ⟨d, e.seq⟩, ctx := j, off, view := (s.tr d).descWords e.db, todo } todo).bktResume) := by
  intro v off idx u todo hrange htrap
  have hready : s.ready d 7 0x61 = some e := hhead
  have hinert' : (s.issue d 7 e).inert = false := hinert
  have hgroup' : (s.issue d 7 e).gValid e.da = true := hgroup
  have hjob' : (s.issue d 7 e).openJob ((s.issue d 7 e).gJob e.da) = some j := hjob
  have hrange' : (idx.any (fun i => bits ((s.issue d 7 e).gw e.da 2) 0 40 ≤ i ||
      ((s.issue d 7 e).job j).jr.spaceLen ≤ bits ((s.issue d 7 e).gw e.da 1) 0 40 + i ||
      (s.issue d 7 e).contributed j (bits ((s.issue d 7 e).gw e.da 1) 0 40 + i)) ||
        idx.eraseDups.length ≠ idx.length) = false := hrange
  have hper : ((u.1).job j).jr.perBucket = (s.job j).jr.perBucket :=
    congrArg (fun v => (vget v j {}).jr.perBucket) ((Changes.access.kept .jobs (by decide)).trans rfl)
  have hwords : (u.1.tr d).descWords e.db = (s.tr d).descWords e.db := by
    rw [State.tr_access]
    exact s.descWords_issue d 7 e e.db
  simp only [u, v, idx] at htrap hrange' hwords hper
  unfold coBucket
  simp only [hready, hinert', s.desc_issue, hview, hgroup', hjob', Bool.not_true, Bool.false_eq_true, if_false, QEntry.ref]
  rw [if_neg (fun h => Bool.false_ne_true (hrange'.symm.trans h))]
  simp only [firstTrap_pair, htrap, Option.isSome_none, Bool.false_eq_true, if_false]
  rw [hwords, hper]
  rfl

theorem State.jr_access (s : State) (j : Nat) (k : Kind) (d : Nat) (m : Mover) (ok : Region → Bool) (l l' : List Span) :
    (((s.takeOrd j k d).1.access m ok l l').1.job j).jr = (s.job j).jr := by
  have haccess : (((s.takeOrd j k d).1.access m ok l l').1.job j).jr = ((s.takeOrd j k d).1.job j).jr :=
    congrArg (fun v => (vget v j {}).jr) (Changes.access.kept .jobs (by decide))
  have hord : ((s.takeOrd j k d).1.job j).jr = (s.job j).jr := by
    simp only [State.takeOrd, State.job, State.modJob, vget_vmod]
    split <;> rfl
  exact haccess.trans hord

theorem coDispatch_run (hinert : s.inert = false) (hjob : s.jobAt e = some j) (hhead : s.AtHead d 7 0x63 e)
    (hcheck : firstTrap [(s.desc d e.db).check wireFmt, (s.desc d (descIdx (e.db + 1))).checkRun,
      (s.desc d (descIdx (e.db + 2))).check wireFmt] = none)
    (hfmt : (s.desc d e.db).fmt = (s.desc d (descIdx (e.db + 2))).fmt)
    (hcols : (s.desc d e.db).cols = (s.desc d (descIdx (e.db + 2))).cols) :
    let w (k : Nat) : List Word64 := (s.tr d).descWords (descIdx (e.db + k))
    let x (k : Nat) : Desc := s.desc d (descIdx (e.db + k))
    let v := s.desc d e.db
    let kr := bits e.mod 0 3 + 1
    let o := (s.issue d 7 e).takeOrd j .dispatch d
    let u := o.1.access .collective coPlace ({ a := (x 1).base, n := 4 * v.rows * kr } :: v.all)
      ((x 2).blockSpans 0 (x 2).rows 0 (x 2).cols)
    let y : Disp := { ins := ⟨d, e.seq⟩, seq := o.2, cap := e.cap (s.job j).jr, kr, rows := w 0, run := w 1, recv := w 2 }
    u.2 = none → coDispatch d s = .next (((u.1.modJob j fun c => { c with disps := c.disps ++ [y] }).dispStart j o.2).takeEarly j
      [.dispatch, .dispatchEnd] o.2 fun s i p => s.dispIn j i p) := by
  intro w x v kr o u y htrap
  have hready : s.ready d 7 0x63 = some e := hhead
  have hinert' : (s.issue d 7 e).inert = false := hinert
  have hjob' : (s.issue d 7 e).jobAt e = some j := hjob
  have hsame : ¬((s.desc d e.db).fmt ≠ (s.desc d (descIdx (e.db + 2))).fmt ∨
      (s.desc d e.db).cols ≠ (s.desc d (descIdx (e.db + 2))).cols) := by simp [hfmt, hcols]
  have hwords (i : Nat) := s.descWords_taken d 7 e j .dispatch .collective coPlace
    ({ a := (x 1).base, n := 4 * v.rows * kr } :: v.all) ((x 2).blockSpans 0 (x 2).rows 0 (x 2).cols) i
  have hjr := (s.issue d 7 e).jr_access j .dispatch d .collective coPlace
    ({ a := (x 1).base, n := 4 * v.rows * kr } :: v.all) ((x 2).blockSpans 0 (x 2).rows 0 (x 2).cols)
  simp only [u, o, v, x, kr] at htrap hwords hjr
  unfold coDispatch
  simp only [hready, hinert', s.desc_issue, if_neg hsame, hjob', Option.isNone_some, Bool.false_eq_true, if_false,
    firstTrap_append_none, hcheck, Option.getD_some, QEntry.ref, htrap, Option.isSome_none]
  rw [hjr]
  simp only [hwords]
  rfl

theorem coCombine_run {y : Disp} (hinert : s.inert = false) (hjob : s.jobAt e = some j) (hhead : s.AtHead d 7 0x64 e)
    (hpair : ((s.job j).disps.filter fun y => y.complete && y.ins.d = d).getLast? = some y)
    (hcheck : firstTrap [(s.desc d e.db).check wireFmt, (s.desc d (descIdx (e.db + 2))).check fmtOk,
      if (s.desc d (descIdx (e.db + 3))).valid then (s.desc d (descIdx (e.db + 3))).check (· = 7) else none] = none) :
    let w (k : Nat) : List Word64 := (s.tr d).descWords (descIdx (e.db + k))
    let x (k : Nat) : Desc := s.desc d (descIdx (e.db + k))
    let o := (s.issue d 7 e).takeOrd j .combine d
    let u := o.1.access .collective coPlace
      ((s.desc d e.db).all ++ (if (x 3).valid then (x 3).all else []) ++ (if e.m 3 then (x 2).all else []))
      ((x 2).blockSpans 0 (x 2).rows 0 (x 2).cols)
    let z : Comb := { ins := ⟨d, e.seq⟩, seq := o.2, acc := e.m 3, pair := y.seq, out := w 0, dst := w 2,
                      gate := if (x 3).valid then w 3 else [] }
    u.2 = none → coCombine d s = .next (((u.1.modJob j fun c => { c with combs := c.combs ++ [z] }).combSend j o.2 z y).takeEarly j
      [.combine, .combineEnd] o.2 fun s i p => s.combIn j i p) := by
  intro w x o u z htrap
  have hready : s.ready d 7 0x64 = some e := hhead
  have hinert' : (s.issue d 7 e).inert = false := hinert
  have hjob' : (s.issue d 7 e).jobAt e = some j := hjob
  have hpair' : (((s.issue d 7 e).job j).disps.filter fun y => y.complete && y.ins.d = d).getLast? = some y := hpair
  have hwords (i : Nat) : (((s.issue d 7 e).takeOrd j .combine d).1.tr d).descWords i = (s.tr d).descWords i :=
    s.descWords_issue d 7 e i
  simp only [u, o, x] at htrap
  unfold coCombine
  simp only [hready, hinert', s.desc_issue, hjob', Option.bind_some, hpair', Option.map_some, Option.isNone_some,
    Bool.false_eq_true, if_false, firstTrap_snoc_none, hcheck, QEntry.ref, htrap, Option.isSome_none]
  simp only [hwords]
  rfl

theorem coJoin_new (hhead : s.AtHead d 7 0x60 e) (hctx : s.ctxOf e.da = none)
    (hgen : Sparse.get none s.lastGen e.da ≠ some (bits e.cr 0 4))
    (hfree : (List.range 64).find? (fun j => (s.job j).state = 0) = some j) :
    let a := (s.tr d).alat.toNat / 256 * 256
    let u := (s.issue d 7 e).access .hub Region.isMem [{ a, n := 256 }] []
    let rec' := u.1.bytes a 256
    let f (k n : Nat) : Nat := leNat ((rec'.drop k).take n)
    let u2 := u.1.access .hub Region.isMem [{ a := f 8 8, n := 2 * (f 4 2 + 1) }] []
    let ms := (List.range (f 4 2 + 1)).map fun k => u2.1.readNat (f 8 8 + 2 * k) 2
    let r := JobRec.ofBytes rec' (f 4 2 + 1)
    u.2 = none → u2.2 = none → u2.1.joinBad rec' ms r e.da (bits e.cr 0 4) = false →
    coJoin d s = .next (u2.1.openJobAs j
      { state := 1, job := e.da, gen := bits e.cr 0 4, home := d, jr := r, members := ms, self := ms.findIdx (· = s.self),
        joiners := [⟨d, e.seq⟩] }) := by
  intro a u rec' f u2 ms r htrap htrap2 hlegal
  have hready : s.ready d 7 0x60 = some e := hhead
  have hctx' : (s.issue d 7 e).ctxOf e.da = none := hctx
  have hgen' : ¬Sparse.get none (s.issue d 7 e).lastGen e.da = some (bits e.cr 0 4) := hgen
  have hfree' : (List.range 64).find? (fun j => ((s.issue d 7 e).job j).state = 0) = some j := hfree
  have halat : ((s.issue d 7 e).tr d).alat = (s.tr d).alat := s.alat_issue d 7 e
  have hself : u2.1.self = s.self := (State.self_access _ _ _ _ _).trans (State.self_access _ _ _ _ _)
  unfold coJoin
  simp only [hready, hctx', if_neg hgen', hfree', halat]
  rw [if_neg (fun h => Option.isSome_iff_ne_none.1 h htrap)]
  simp only [u2, f, rec', u, a] at htrap2 hlegal hself
  rw [if_neg (fun h => Option.isSome_iff_ne_none.1 h htrap2), if_neg (fun h => Bool.false_ne_true (hlegal.symm.trans h))]
  simp only [hself]
  rfl
end

/-- Settles O33: each collective instruction starts as its rule says on a job that takes it. -/
theorem collectiveInstructionsStart : Obligations.CollectiveInstructionsStart := by
  unfold Obligations.CollectiveInstructionsStart
  intro s d e
  refine ⟨?joinOpen, ?joinNew, ?bucket, ?reduce, ?vote, ?dispatch, ?combine, ?drain⟩
  case joinOpen =>
    intro j hhead hctx hstate hgen
    exact .of_waitRecall (congrArg (waitRecall s) (coJoin_open hhead hctx hstate hgen))
  case joinNew =>
    intro j hhead hctx hgen hfree a u rec' f u2 ms r htrap htrap2 hlegal
    exact .of_waitRecall (congrArg (waitRecall s) (coJoin_new hhead hctx hgen hfree htrap htrap2 hlegal))
  case bucket =>
    intro hinert hview hhead hgroup j hjob v off idx hrange htrap todo
    exact .of_waitRecall (congrArg (waitRecall s) (coBucket_run hinert hview hhead hgroup hjob hrange htrap))
  case reduce =>
    intro j hinert hjob hhead hview hsize v o u vals htrap
    exact .of_waitRecall (congrArg (waitRecall s) (coReduce_run hinert hjob hhead hview hsize htrap))
  case vote =>
    intro j hinert hjob hhead o
    exact .of_waitRecall (coVote_run hinert hjob hhead)
  case dispatch =>
    intro j hinert hjob hhead hcheck hfmt hcols v kr o u y htrap
    exact .of_waitRecall (congrArg (waitRecall s) (coDispatch_run hinert hjob hhead hcheck hfmt hcols htrap))
  case combine =>
    intro j y hinert hjob hhead hpair hcheck o u z htrap
    exact .of_waitRecall (congrArg (waitRecall s) (coCombine_run hinert hjob hhead hpair hcheck htrap))
  case drain =>
    intro j hjob hhead s2
    exact .of_waitRecall (coDrain_run hjob hhead)

end Sys2Proof.Machine
end

section

/-! SUPPORT. The valley queue: a deferred product enters, a visit begins or goes on (R151 to R154, R224). -/

namespace Sys2Proof.Machine
open Machine

/-! ### Marking entries urgent changes the valley queues alone -/

/-- Whatever of the state does not read the valley queues is as it was. -/
theorem State.markUrgent_keeps {β : Type} (view : State → β) 
    (hview : ∀ (s : State) (d : Nat) (f : Truss → List VEntry), view (s.modTr d fun t => { t with valley := f t }) = view s)
    (s : State) (d : Nat) : view (s.markUrgent d) = view s := by
  unfold State.markUrgent
  split
  · rfl
  · exact hview s d fun (t : Truss) => ((List.range t.valley.length).zip t.valley).map fun p => { p.2 with urgent := p.2.urgent || s.urgentAt d p.1 }

/-- What a fill asks of the state beside the valley queue. -/
def State.fillAsks (s : State) (d : TrussId) (i : Nat) : Bool × Bool × Bool × Bool × Bool :=
  (s.pwrc.hold, (s.tr d).trapped, (s.tr d).aborting, s.isLive i, s.cfgBits (16 + d) 0x200 1 1 = 1)

theorem State.fillAsks_markUrgent (s : State) (d : TrussId) (i : Nat) : (s.markUrgent d).fillAsks d i = s.fillAsks d i :=
  State.markUrgent_keeps (fun s => s.fillAsks d i) (fun s x f => by
    have htruss : ((s.modTr x fun t => { t with valley := f t }).tr d).trapped = (s.tr d).trapped ∧
        ((s.modTr x fun t => { t with valley := f t }).tr d).aborting = (s.tr d).aborting := by
      simp only [State.tr, State.modTr, vget_vmod]
      constructor <;> split <;> rfl
    simp only [State.fillAsks, htruss]
    rfl) s d

theorem State.gaAt_markUrgent (s : State) (d : TrussId) (i : Nat) : (s.markUrgent d).gaAt i = s.gaAt i :=
  State.markUrgent_keeps (fun s => s.gaAt i) (fun _ _ _ => rfl) s d

/-! ### A deferred product enters the queue -/

theorem mmDefer_run {s s1 : State} {d : TrussId} {e : QEntry} (h : s.AtDecode d 0x13 e s1)
    (htraps : s1.deferTraps d e (s1.desc d (descIdx (e.da + 0))) (s1.desc d (descIdx (e.da + 1))) (s1.desc d (descIdx (e.da + 2))) = none)
    (hroom : (s1.tr d).valley.length < 64) :
    let v : VEntry := { e, stat := (s1.tr d).descWords (descIdx (e.da + 0)), mov := (s1.tr d).descWords (descIdx (e.da + 1)),
                        dst := (s1.tr d).descWords (descIdx (e.da + 2)),
                        bound := match bits e.mod 0 2 with | 0 => some false | 1 => some true | _ => none }
    execMmDefer d s = waitRecall s (.next
      (((s1.openAtIssue (2 * d.val + (if v.bound = some true then 1 else 0)) v.dstD (e.m 6)).modTr d fun t =>
        { t with valley := t.valley ++ [v], vqFull := false }).release d)) := by
  intro v
  have hinline : s.inline d 0x13 = some (e, s1) := h
  unfold execMmDefer
  simp only [hinline, htraps, if_neg (Nat.not_le.2 hroom)] <;> rfl

theorem mmDefer_truss (s1 : State) (d : TrussId) (i : Nat) (x : Desc) (mo : Bool) (v : VEntry) :
    ((((s1.openAtIssue i x mo).modTr d fun t => { t with valley := t.valley ++ [v], vqFull := false }).release d).tr d) =
      { s1.tr d with valley := (s1.tr d).valley ++ [v], vqFull := false, decTaken := none, progress := true } := by
  have htruss : (s1.openAtIssue i x mo).tr d = s1.tr d := State.tr_congr (Changes.openAtIssue.kept .truss (by decide)) d
  rw [State.release, State.tr_modTr_same, State.tr_modTr_same, htruss]

/-! ### A visit begins or goes on -/

section
variable {s : State} {d : TrussId} {a : LocalId} {k c : Nat} {v : VEntry}

theorem fillVisit_begins (hhold : s.pwrc.hold = false) (hcand : ((s.markUrgent d).tr d).candidate a = some (k, v))
    (hnone : v.visiting = none) (htrapped : (s.tr d).trapped = false) (haborting : (s.tr d).aborting = false)
    (hlive : s.isLive (2 * d.val + a.val) = true) (hurgent : v.urgent = true ∨ s.cfgBits (16 + d) 0x200 1 1 ≠ 1)
    (hedge : v.edge = (s.gaAt (2 * d.val + a.val)).cut) (hheld : (s.gaAt (2 * d.val + a.val)).held = false)
    (hfill : (s.markUrgent d).fillable d (2 * d.val + a.val) v.urgent v = some c) :
    fillVisit d a s =
      (let i := 2 * d.val + a.val
       let v' : VEntry := { v with bound := some (decide (a.val = 1)) }
       let w := (s.markUrgent d).occ (16 + d) 4
       .next (if v'.holds d ((s.gaAt i).course c).live then w.visitRun d a k c (w.visitLen d i v') v' else w.visitLoad d a k c v')) := by
  have hasks := s.fillAsks_markUrgent d (2 * d.val + a.val)
  simp only [State.fillAsks, Prod.mk.injEq, hhold, htrapped, haborting, hlive] at hasks
  obtain ⟨hhold', htrapped', haborting', hlive', hcfg⟩ := hasks
  have hgoes : ((!v.urgent && decide ((s.markUrgent d).cfgBits (16 + d) 0x200 1 1 = 1)) = false) := by
    rw [hcfg]
    rcases hurgent with h | h <;> simp [h]
  unfold fillVisit
  simp only [hhold', hcand, hnone, htrapped', haborting', hlive', hgoes, State.gaAt_markUrgent, hedge, hheld, hfill, Bool.or_false,
    Bool.not_true, Bool.false_eq_true, ne_eq, not_true_eq_false, if_false]

theorem fillVisit_swaps (hhold : s.pwrc.hold = false) (hcand : ((s.markUrgent d).tr d).candidate a = some (k, v))
    (hvisit : v.visiting = some c) (hhalted : ((s.gaAt (2 * d.val + a.val)).course c).halted = false)
    (hruns : (s.gaAt (2 * d.val + a.val)).liveRuns c = [])
    (hholds : v.holds d ((s.gaAt (2 * d.val + a.val)).course c).shadow = true) :
    fillVisit d a s = .next (((s.markUrgent d).swapCourse (2 * d.val + a.val) c).visitRun d a k c v.len v) := by
  have hhold' : (s.markUrgent d).pwrc.hold = false := (congrArg (·.1) (s.fillAsks_markUrgent d 0)).trans hhold
  unfold fillVisit State.visitSwap
  simp only [hhold', hcand, hvisit, State.gaAt_markUrgent, hhalted, hruns, hholds, List.isEmpty_nil, Bool.not_true, Bool.or_false,
    Bool.false_eq_true, if_false, if_true]
end

/-- Settles O24: deferred products enter the valley queue and are visited by their array. -/
theorem valleyEntriesAreVisited : Obligations.ValleyEntriesAreVisited := by
  unfold Obligations.ValleyEntriesAreVisited
  refine ⟨?defer, ?drain, ?visit⟩
  case defer =>
    intro s d e s1 h k htraps hroom v t
    have htruss := mmDefer_truss s1 d (2 * d.val + (if v.bound = some true then 1 else 0)) v.dstD (e.m 6) v
    exact ⟨.of_waitRecall (mmDefer_run h htraps hroom), congrArg Truss.valley htruss, (congrArg Truss.spcnt htruss :)⟩
  case drain =>
    intro s d e s1 h hempty
    have hinline : s.inline d 0x14 = some (e, s1) := h
    refine .of_waitRecall ?_
    simp only [exec, execMmVqdrain, hinline, hempty, List.isEmpty_nil, if_true]
  case visit =>
    intro s d a k c v hhold u hcand i v' w
    refine ⟨fun hnone htrapped haborting hlive hurgent hedge hheld hfill => ?_, fun hvisit hhalted hruns hholds => ?_⟩
    · have hrun := fillVisit_begins hhold hcand hnone htrapped haborting hlive hurgent hedge hheld hfill
      refine ⟨fun hempty => .of_waitRecall (congrArg (waitRecall s) (hrun.trans ?_)),
        fun hholds => .of_waitRecall (congrArg (waitRecall s) (hrun.trans ?_))⟩
      · exact congrArg Host.Outcome.next (if_neg fun h => Bool.false_ne_true (hempty.symm.trans h))
      · exact congrArg Host.Outcome.next (if_pos hholds)
    · exact .of_waitRecall (congrArg (waitRecall s) (fillVisit_swaps hhold hcand hvisit hhalted hruns hholds))

end Sys2Proof.Machine
end

section

/-! SUPPORT. The states of a port: training, UP, DOWN and DISABLED (R428 to R434, R440, R554). -/

namespace Sys2Proof.Machine
open Machine

/-! ### Steps that concern one port -/

/-- A step that leaves memory, the jobs and every port but `k`, and wants no new line. -/
def PortAlone (k : Nat) (s t : State) : Prop :=
  t.mem = s.mem ∧ t.jobs = s.jobs ∧ (s.mcl.wanted = [] → t.mcl.wanted = []) ∧ ∀ y, y ≠ k → t.port y = s.port y

namespace PortAlone

variable {k : Nat} {K : List Part} {s t u : State}

theorem refl : PortAlone k s s := ⟨rfl, rfl, id, fun _ _ => rfl⟩

theorem trans (h : PortAlone k s t) (h' : PortAlone k t u) : PortAlone k s u := by
  obtain ⟨hmem, hjobs, hwanted, hports⟩ := h
  obtain ⟨hmem', hjobs', hwanted', hports'⟩ := h'
  exact ⟨hmem'.trans hmem, hjobs'.trans hjobs, fun h => hwanted' (hwanted h), fun y hy => (hports' y hy).trans (hports y hy)⟩

theorem of_changes (h : Changes K s t) (hK : Part.mem ∉ K ∧ Part.jobs ∉ K ∧ Part.wanted ∉ K ∧ Part.ports ∉ K := by decide) :
    PortAlone k s t :=
  ⟨h.kept .mem hK.1, h.kept .jobs hK.2.1, h.kept .wanted hK.2.2.1,
    fun y _ => congrArg (fun v => vget v y ({} : Port)) (h.kept .ports hK.2.2.2)⟩

theorem modPort (f : Port → Port) : PortAlone k s (s.modPort k f) :=
  ⟨rfl, rfl, id, fun _ hy => vget_vmod_other _ _ _ _ _ (Ne.symm hy)⟩

theorem ite {c : Prop} [Decidable c] (ht : PortAlone k s t) (hu : PortAlone k s u) : PortAlone k s (if c then t else u) := by
  split
  · exact ht
  · exact hu

end PortAlone

theorem State.port_kept {K : List Part} {s t : State} (h : Changes K s t) (hK : Part.ports ∉ K := by decide) (k : Nat) :
    t.port k = s.port k := congrArg (fun v => vget v k ({} : Port)) (h.kept .ports hK)

theorem State.partner_congr {s t : State} (h20 : t.port 20 = s.port 20) (h21 : t.port 21 = s.port 21) (htwin : t.pins.twin = s.pins.twin) :
    t.partner = s.partner := by
  have hup : t.twinUp = s.twinUp := by simp [State.twinUp, List.filter_cons, h20, h21]
  unfold State.partner
  rw [hup]
  have hmem : ∀ x ∈ s.twinUp, t.port x = s.port x := by
    intro x hx
    have hx : x = 20 ∨ x = 21 := by simpa using (List.mem_filter.1 hx).1
    rcases hx with rfl | rfl <;> assumption
  rcases hl : s.twinUp with _ | ⟨x, xs⟩
  · rfl
  · rw [hl] at hmem
    have hx : t.port x = s.port x := hmem x (List.mem_cons_self ..)
    have hxs : xs.all (fun y => (t.port y).peer = (s.port x).peer) = xs.all fun y => (s.port y).peer = (s.port x).peer := by
      rw [Bool.eq_iff_iff]
      simp only [List.all_eq_true]
      exact forall₂_congr fun y hy => by rw [hmem y (List.mem_cons_of_mem _ hy)]
    simp only [hx, hxs, htwin]

theorem State.partnerCheck_same (s : State) (k : Nat) : s.partnerCheck k s.partner = s := by
  unfold State.partnerCheck
  split
  · rfl
  · next h => rw [if_pos h]

theorem State.mispaired_congr {s t : State} (h20 : t.port 20 = s.port 20) (h21 : t.port 21 = s.port 21) :
    t.mispaired = s.mispaired := by rw [State.mispaired, State.mispaired, h20, h21]

/-! ### Training begins, fails and ends -/

section
variable {s : State} {k : Nat} {p : PortId} {x : TrainInfo}

theorem enterTraining_alone : PortAlone k s (s.enterTraining k) := .modPort _

theorem enterTraining_port (s : State) (p : PortId) :
    ((s.enterTraining p).port p).state = .training ∧ ((s.enterTraining p).port p).retrains = (s.port p).retrains ∧
      ((s.enterTraining p).port p).disable = (s.port p).disable := by
  rw [State.enterTraining, State.port_modPort_same]
  exact ⟨rfl, rfl, rfl⟩

theorem trainFail_alone : PortAlone k s (s.trainFail k) :=
  .trans (.modPort _) <| .trans (.of_changes Changes.perr) (.of_changes Changes.occPort)

theorem trainFail_state (s : State) (p : PortId) : ((s.trainFail p).port p).state = .down := by
  rw [State.trainFail, State.port_kept Changes.occPort, State.port_kept Changes.perr, State.port_modPort_same]
  rfl

/-- A training whose exchange is illegal fails. -/
theorem trained_illegal (h : x.peerTwin ≠ isTwin k ∨ (s.port k).advert = 0 ∨ x.peerLevel = 0 ∨ lanesOk (s.port k).degrade x.laneBad = false) :
    s.trained k x = (s.modPort k fun q => { q with laneBad := x.laneBad }).trainFail k := by
  unfold State.trained
  extract_lets q s1 before was half s2 s3 s4 s5
  refine if_pos ?_
  simp only [Bool.or_eq_true, decide_eq_true_eq, Bool.not_eq_true']
  rcases h with h | h | h | h
  · exact .inl (.inl (.inl h))
  · exact .inl (.inl (.inr h))
  · exact .inl (.inr h)
  · exact .inr h

/-- The port as a completed training leaves it. -/
def Port.up (q : Port) (x : TrainInfo) : Port :=
  { q with laneBad := x.laneBad, state := .up, nlevel := min q.advert x.peerLevel.toNat, half := x.laneBad ≠ 0, peer := x.peerCoord,
           peerSeen := true, retrains := 0, credBulk := x.credBulk, credCtrl := x.credCtrl,
           grantBulk := 448 - q.inboxCells false, grantCtrl := 64 - q.inboxCells true }

theorem trained_legal (hp : p.val < 20) (htwin : x.peerTwin = isTwin p) (hadvert : (s.port p).advert ≠ 0) (hlevel : x.peerLevel ≠ 0)
    (hlanes : lanesOk (s.port p).degrade x.laneBad = true) :
    PortAlone p s (s.trained p x) ∧ (s.trained p x).port p = (s.port p).up x := by
  unfold State.trained
  extract_lets q s1 before was half s2 s3 s4 s5
  have hlevel' : ¬x.peerLevel = 0#4 := hlevel
  rw [if_neg (by simp [htwin, q, hadvert, hlevel', hlanes])]
  have h1 : PortAlone p s s1 := .modPort _
  have h2 : PortAlone p s1 s2 := .modPort _
  have h3 : PortAlone p s2 s3 := .ite (.of_changes Changes.perr) .refl
  have h4 : PortAlone p s3 s4 := .ite (.of_changes Changes.raise) .refl
  have h24 : PortAlone p s2 s4 := h3.trans h4
  obtain ⟨_, _, _, hports⟩ := h1.trans (h2.trans h24)
  have h20 : s4.port 20 = s1.port 20 := (hports 20 (by omega)).trans (h1.2.2.2 20 (by omega)).symm
  have h21 : s4.port 21 = s1.port 21 := (hports 21 (by omega)).trans (h1.2.2.2 21 (by omega)).symm
  have hpins : s4.pins.twin = s1.pins.twin := by
    have h3 : s3.pins = s2.pins := by
      unfold s3
      split
      · exact Changes.perr.kept .pins (by decide)
      · rfl
    have h4 : s4.pins = s3.pins := by
      unfold s4
      split
      · exact Changes.raise.kept .pins (by decide)
      · rfl
    rw [h4, h3]
    rfl
  have h5 : s5 = s4 := by
    have hpaired : s4.mispaired = was := State.mispaired_congr h20 h21
    unfold s5
    rw [hpaired]
    simp
  have hpartner : s4.partner = before := State.partner_congr h20 h21 hpins
  rw [h5, ← hpartner, State.partnerCheck_same]
  refine ⟨h1.trans (h2.trans h24), ?_⟩
  have hport3 : s3.port p = s2.port p := by
    unfold s3
    split
    · exact State.port_kept Changes.perr (by decide) p
    · rfl
  have hport4 : s4.port p = s3.port p := by
    unfold s4
    split
    · exact State.port_kept Changes.raise (by decide) p
    · rfl
  rw [hport4, hport3]
  unfold s2
  have hs1 (f : Pins → Pins) : (s1.modPins f).port p = { q with laneBad := x.laneBad } := State.port_modPort_same s p _
  rw [State.port_modPort_same, hs1]
  rfl

/-- A fabric port with nothing in flight falls quiet. -/
theorem leaveUp_idle {cause : Nat} (hp : p.val < 20) (hreplay : (s.port p).replay = []) (hwaiting : (s.port p).waiting = []) :
    s.leaveUp p cause .down =
      (((s.modPort p fun q => q.quiet .down).occPort p 8).raise 0x3C0 (portDom p) (p + 256 * cause) (s.port p).peer.toNat).occPort p 9 0 := by
  have htwin : isTwin p = false := by simp [isTwin]; omega
  unfold State.leaveUp
  simp only [hreplay, hwaiting, htwin]
  rfl

theorem leaveUp_idle_alone {cause : Nat} (hp : p.val < 20) (hreplay : (s.port p).replay = []) (hwaiting : (s.port p).waiting = []) :
    PortAlone p s (s.leaveUp p cause .down) ∧ ((s.leaveUp p cause .down).port p).state = .down := by
  rw [leaveUp_idle hp hreplay hwaiting]
  refine ⟨.trans (.modPort _) <| .trans (.of_changes Changes.occPort) <| .trans (.of_changes Changes.raise) (.of_changes Changes.occPort), ?_⟩
  rw [State.port_kept Changes.occPort, State.port_kept Changes.raise, State.port_kept Changes.occPort, State.port_modPort_same]
  rfl

/-! ### PCTL -/

theorem setDisable_down (h : (s.port p).state ≠ .up) :
    PortAlone p s (s.setDisable p true) ∧ ((s.setDisable p true).port p).state = .disabled ∧ ((s.setDisable p true).port p).disable = true := by
  have hport (v : Nat) : ((s.setField (portDom p) (portReg p 0xC) 0 1 v).port p) = s.port p := State.port_kept Changes.setField (by decide) p
  unfold State.setDisable State.disablePort
  rw [if_pos rfl, State.port_modPort_same, hport, if_neg h]
  refine ⟨.trans (.of_changes Changes.setField) <| .trans (.modPort _) (.modPort _), ?_⟩
  rw [State.port_modPort_same, State.port_modPort_same]
  exact ⟨rfl, rfl⟩

theorem setDisable_enabled (hp : p.val < 20) (h : (s.port p).state = .disabled) :
    PortAlone p s (s.setDisable p false) ∧ ((s.setDisable p false).port p).state = .training ∧ ((s.setDisable p false).port p).disable = false := by
  have htwin : isTwin p = false := by simp [isTwin]; omega
  have hport (v : Nat) : ((s.setField (portDom p) (portReg p 0xC) 0 1 v).port p) = s.port p := State.port_kept Changes.setField (by decide) p
  unfold State.setDisable State.enablePort
  rw [if_neg (by decide), State.port_modPort_same, hport, if_pos (by simp [h, htwin])]
  refine ⟨.trans (.of_changes Changes.setField) <| .trans (.modPort _) enterTraining_alone, ?_⟩
  obtain ⟨hstate, -, hdisable⟩ := enterTraining_port ((s.setField (portDom p) (portReg p 0xC) 0 1 (if false = true then 1 else 0)).modPort p
    fun q => { q with disable := false }) p
  exact ⟨hstate, hdisable.trans (by rw [State.port_modPort_same])⟩

theorem retrainPort_trains (h : (s.port p).state = .training ∨ (s.port p).state = .down) :
    PortAlone p s (s.retrainPort p) ∧ ((s.retrainPort p).port p).state = .training := by
  have heq : s.retrainPort p = s.enterTraining p := by
    unfold State.retrainPort
    rcases h with h | h <;> rw [h]
  rw [heq]
  exact ⟨enterTraining_alone, (enterTraining_port s p).1⟩

end

/-! ### The twin's pin and the coordinate -/

theorem State.partner_none {s : State} (h20 : (s.port 20).state ≠ .up) (h21 : (s.port 21).state ≠ .up) : s.partner = none := by
  have hup : s.twinUp = [] := by simp [State.twinUp, h20, h21]
  rw [State.partner, hup]

theorem twinPresent_absent {s : State} (hlive : s.isLive 45 = true) (h20 : (s.port 20).state ≠ .up) (h21 : (s.port 21).state ≠ .up) :
    s.twinPresent false = ((s.modPins fun p => { p with twin := false }).modPort 20 fun q => q.quiet .disabled).modPort 21
      fun q => q.quiet .disabled := by
  have hlive' : (s.modPins fun p => { p with twin := false }).isLive 45 = true := hlive
  unfold State.twinPresent
  simp only [State.partner_none h20 h21, hlive', Bool.not_true, Bool.false_eq_true, if_false, State.partnerCheck]
  have hfirst : (s.modPins fun p => { p with twin := false }).disablePort 20 =
      (s.modPins fun p => { p with twin := false }).modPort 20 fun q => q.quiet .disabled := if_neg h20
  have hsecond : ((s.modPins fun p => { p with twin := false }).modPort 20 fun q => q.quiet .disabled).disablePort 21 =
      ((s.modPins fun p => { p with twin := false }).modPort 20 fun q => q.quiet .disabled).modPort 21 fun q => q.quiet .disabled :=
    if_neg (by rw [State.port_modPort_other _ _ _ _ (by decide)]; exact h21)
  exact (congrArg (fun t : State => t.disablePort 21) hfirst).trans hsecond

theorem twinPresent_present {s : State} (hlive : s.isLive 45 = true)
    (hdisabled : ∀ y, y = 20 ∨ y = 21 → (s.port y).state = .disabled ∧ (s.port y).disable = false) :
    s.twinPresent true = ((s.modPins fun p => { p with twin := true }).enterTraining 20).enterTraining 21 := by
  have hlive' : (s.modPins fun p => { p with twin := true }).isLive 45 = true := hlive
  obtain ⟨hs20, hd20⟩ := hdisabled 20 (.inl rfl)
  obtain ⟨hs21, hd21⟩ := hdisabled 21 (.inr rfl)
  unfold State.twinPresent
  simp only [hlive', Bool.not_true, Bool.false_eq_true, if_false, if_true]
  have hfirst : (s.modPins fun p => { p with twin := true }).enablePort 20 = (s.modPins fun p => { p with twin := true }).enterTraining 20 :=
    if_pos (by
      have h1 : ((s.modPins fun p => { p with twin := true }).port 20).state = .disabled := hs20
      have h2 : ((s.modPins fun p => { p with twin := true }).port 20).disable = false := hd20
      simp [h1, h2])
  have hother : (((s.modPins fun p => { p with twin := true }).enterTraining 20).port 21) = s.port 21 :=
    State.port_modPort_other _ _ _ _ (by decide)
  have hsecond : ((s.modPins fun p => { p with twin := true }).enterTraining 20).enablePort 21 =
      ((s.modPins fun p => { p with twin := true }).enterTraining 20).enterTraining 21 :=
    if_pos (by rw [hother, hs21, hd21]; simp; exact .inr rfl)
  exact (congrArg (fun t : State => t.enablePort 21) hfirst).trans hsecond

/-- Applying a coordinate trains ports again; while none is UP nothing else follows. -/
theorem putCoord_coord {s : State} (c : BitVec 16) (hdown : ∀ y, y < 22 → (s.port y).state ≠ .up) :
    (s.putCoord c).coord = { valid := true, inForce := c, pending := none } := by
  have key : (∀ y, y < 22 → ((s.putCoord c).port y).state ≠ .up) ∧ (s.putCoord c).coord = { valid := true, inForce := c, pending := none } := by
    unfold State.putCoord
    refine State.each_induct (fun t => (∀ y, y < 22 → (t.port y).state ≠ .up) ∧ t.coord = { valid := true, inForce := c, pending := none })
      _ _ _ ⟨hdown, rfl⟩ ?_
    rintro t k hk ⟨hports, hcoord⟩
    split
    · next h => exact absurd h (hports k (List.mem_range.1 hk))
    · refine ⟨fun y hy => ?_, hcoord⟩
      by_cases hyk : y = k
      · subst hyk
        have := (enterTraining_port t ⟨y, hy⟩).1
        dsimp only at this
        rw [this]
        decide
      · rw [State.enterTraining, State.port_modPort_other _ _ _ _ (Ne.symm hyk)]
        exact hports y hy
    · exact ⟨hports, hcoord⟩
  exact key.2

/-- Settles O48: ports train, fall and are disabled as their commands say. -/
theorem portsTrainAndFall : Obligations.PortsTrainAndFall := by
  unfold Obligations.PortsTrainAndFall
  intro s p r x hcalm hlive hheard k q legal alone
  obtain ⟨hwanted, -⟩ := hcalm
  have hreached : ((s.reached (portDom p)).port p) = s.port p := State.port_kept Changes.reached (by decide) p
  have halone {t : State} (h : PortAlone p s t) : alone t := by
    obtain ⟨hmem, -, -, hports⟩ := h
    exact ⟨hmem, fun y hy _ => hports y hy⟩
  have hreach : PortAlone p s (s.reached (portDom p)) := .of_changes Changes.reached
  have hdisable : Completes (.pctlDisable p r) s ((s.reached (portDom p)).setDisable k true) := by
    refine .of_waitRecall ?_
    simp only [exec, execPctlDisable, State.reachBy_heard _ hlive hheard, if_true]
    rfl
  have henable : Completes (.pctlEnable p r) s ((s.reached (portDom p)).setDisable k false) := by
    refine .of_waitRecall ?_
    simp only [exec, execPctlEnable, State.reachBy_heard _ hlive hheard, if_true]
    rfl
  have hretrain : Completes (.pctlRetrain p r) s ((s.reached (portDom p)).retrainPort k) := by
    refine .of_waitRecall ?_
    simp only [exec, execPctlRetrain, State.reachBy_heard _ hlive hheard, if_true]
    rfl
  refine ⟨?wasUp, ?training, ?lost, ?retrain, hdisable, henable, hretrain, ?disabled, ?enabled, ?retrained, ?pin, ?absent, ?present, ?pending,
    ?applied⟩
  case wasUp =>
    intro hup hcoord
    refine .of_waitRecall ?_
    simp only [exec, execTrainingDone, show s.coordAt p = true from hcoord, hlive, show (s.port p).state = .up from hup]
    rfl
  case training =>
    intro hstate hcoord
    have hdone : exec (.trainingDone p x) s = waitRecall s (.next (s.trained p x)) := by
      simp only [exec, execTrainingDone, show s.coordAt p = true from hcoord, hlive, show (s.port p).state = .training from hstate]
      rfl
    refine ⟨?_, fun _ _ => .of_waitRecall hdone, ?_, ?_⟩
    · rintro ⟨htwin, hadvert, hlevel, hlanes⟩ hk
      obtain ⟨hal, hport⟩ := trained_legal hk htwin hadvert hlevel hlanes
      refine ⟨_, hdone.trans (waitRecall_next _ _ (hal.2.2.1 hwanted)), halone hal, ?_⟩
      rw [show ((s.trained p x).port k) = _ from hport]
      refine ⟨rfl, rfl, ?_, rfl, rfl, rfl⟩
      simp [Port.up]
    · intro hillegal
      have hbad : x.peerTwin ≠ isTwin p ∨ (s.port p).advert = 0 ∨ x.peerLevel = 0 ∨ lanesOk (s.port p).degrade x.laneBad = false := by
        by_contra hno
        simp only [not_or, Bool.not_eq_false, not_not] at hno
        exact hillegal hno
      have hal : PortAlone p s (s.trained p x) := by
        rw [trained_illegal hbad]
        exact .trans (.modPort _) trainFail_alone
      refine ⟨_, hdone.trans (waitRecall_next _ _ (hal.2.2.1 hwanted)), halone hal, ?_⟩
      rw [trained_illegal hbad]
      exact trainFail_state _ p
    · refine ⟨_, ?_, halone trainFail_alone, trainFail_state s p⟩
      simp only [exec, execTrainingTimeout, show s.coordAt p = true from hcoord, hlive, show (s.port p).state = .training from hstate]
      rfl
  case lost =>
    intro hup y hy t
    have hperr : (s.perr p 8).port p = s.port p := State.port_kept Changes.perr (by decide) p
    refine ⟨.of_waitRecall ?_, fun hk hreplay hwaiting => ?_⟩
    · have hlost (cause : Nat) : linkLost p cause s = waitRecall s (.next ((s.perr p 8).leaveUp p cause .down)) := by
        simp only [linkLost, show (s.port p).state = .up from hup, hlive]
        rfl
      rcases List.mem_pair.1 hy with rfl | rfl
      · exact hlost 1
      · exact hlost 2
    · obtain ⟨hal, hstate⟩ := leaveUp_idle_alone (s := s.perr p 8) (p := p) (cause := y.2) hk
        (by rw [hperr]; exact hreplay) (by rw [hperr]; exact hwaiting)
      have hall : PortAlone p s t := .trans (.of_changes Changes.perr) hal
      exact ⟨halone hall, hstate, hall.2.1⟩
  case retrain =>
    intro hstate hleft
    refine ⟨(s.enterTraining p).modPort p fun q => { q with retrains := q.retrains + 1 }, ?_,
      halone (.trans enterTraining_alone (.modPort _)), ?_⟩
    · simp only [exec, execDownRetrain, show (s.port p).state = .down from hstate, hlive, show decide ((s.port p).retrains < (s.port p).maxRetrains) = true from decide_eq_true hleft]
      rfl
    · obtain ⟨htrain, hretrains, -⟩ := enterTraining_port s p
      rw [show k = p.val from rfl, State.port_modPort_same]
      exact ⟨htrain, congrArg (· + 1) hretrains⟩
  case disabled =>
    intro hnot
    obtain ⟨hal, hstate, hset⟩ := setDisable_down (s := s.reached (portDom p)) (p := p) (by rw [hreached]; exact hnot)
    exact ⟨_, hdisable.1 ((hreach.trans hal).2.2.1 hwanted), halone (hreach.trans hal), hstate, hset⟩
  case enabled =>
    intro hstate hk
    obtain ⟨hal, htrain, hset⟩ := setDisable_enabled (s := s.reached (portDom p)) hk (by rw [hreached]; exact hstate)
    exact ⟨_, henable.1 ((hreach.trans hal).2.2.1 hwanted), halone (hreach.trans hal), htrain, hset⟩
  case retrained =>
    intro hstate
    obtain ⟨hal, htrain⟩ := retrainPort_trains (s := s.reached (portDom p)) (p := p) (by rw [hreached]; exact hstate)
    exact ⟨_, hretrain.1 ((hreach.trans hal).2.2.1 hwanted), halone (hreach.trans hal), htrain⟩
  case pin => exact fun b => .of_waitRecall rfl
  case absent =>
    intro hlive45 h20 h21
    have hrun := twinPresent_absent hlive45 h20 h21
    refine ⟨s.twinPresent false, waitRecall_next _ _ (by rw [hrun]; exact hwanted), by rw [hrun]; rfl, fun y hy => ?_⟩
    rw [hrun]
    rcases hy with rfl | rfl
    · rw [State.port_modPort_other _ _ _ _ (by decide)]
      exact congrArg Port.state (State.port_modPort_same _ 20 _)
    · exact congrArg Port.state (State.port_modPort_same _ 21 _)
  case present =>
    intro hlive45 hdisabled
    have hrun := twinPresent_present hlive45 hdisabled
    refine ⟨s.twinPresent true, waitRecall_next _ _ (by rw [hrun]; exact hwanted), by rw [hrun]; rfl, fun y hy => ?_⟩
    rw [hrun]
    rcases hy with rfl | rfl
    · rw [State.enterTraining, State.port_modPort_other _ _ _ _ (by decide)]
      exact (enterTraining_port _ 20).1
    · exact (enterTraining_port _ 21).1
  case pending =>
    intro c hpending hactive
    simp only [exec, execCoordApply, hpending, hactive, if_true]
  case applied =>
    intro c hpending hactive
    refine ⟨.of_waitRecall ?_, putCoord_coord c⟩
    simp only [exec, execCoordApply, hpending, hactive, Bool.false_eq_true, if_false]

end Sys2Proof.Machine
end

section

/-! SUPPORT. Frames at a port: what sending touches, a frame that is discarded and one without cells (R424 to R426). -/

namespace Sys2Proof.Machine
open Machine

/-! ### Sending touches the sender's side alone -/

/-- Sending leaves the receiver's side and the state of a port, and only uses credits. -/
structure Port.Sends (q r : Port) : Prop where
  state : r.state = q.state
  inbox : r.inbox = q.inbox
  partBulk : r.partBulk = q.partBulk
  partCtrl : r.partCtrl = q.partCtrl
  rxSeq : r.rxSeq = q.rxSeq
  discard : r.discard = q.discard
  credBulk : r.credBulk ≤ q.credBulk
  credCtrl : r.credCtrl ≤ q.credCtrl

theorem Port.Sends.refl (q : Port) : q.Sends q := ⟨rfl, rfl, rfl, rfl, rfl, rfl, le_refl _, le_refl _⟩

theorem Port.Sends.trans {q r u : Port} (h : q.Sends r) (h' : r.Sends u) : q.Sends u :=
  ⟨h'.state.trans h.state, h'.inbox.trans h.inbox, h'.partBulk.trans h.partBulk, h'.partCtrl.trans h.partCtrl,
    h'.rxSeq.trans h.rxSeq, h'.discard.trans h.discard, h'.credBulk.trans h.credBulk, h'.credCtrl.trans h.credCtrl⟩

theorem Port.sends_takeCell {q r : Port} {c : Cell} {t : PktTag} (h : q.takeCell = some (c, t, r)) : q.Sends r := by
  unfold Port.takeCell at h
  extract_lets go at h
  have hgo (stream : Bool) (h : go stream = some (c, t, r)) : q.Sends r := by
    simp only [go] at h
    split at h
    · cases h
    · split at h
      · cases h
      · cases h
        exact ⟨rfl, rfl, rfl, rfl, rfl, rfl, by dsimp only; split <;> omega, by dsimp only; split <;> omega⟩
  split at h
  · next x hx =>
    split at hx
    · exact hgo true (hx.trans h)
    · cases hx
  · split at h
    · exact hgo false h
    · cases h

theorem Port.takeCell_none {q : Port} (h : q.waiting = []) : q.takeCell = none := by
  unfold Port.takeCell Port.head?
  simp [h]

theorem Port.due_idle {q : Port} (hwaiting : q.waiting = []) (hbulk : q.retBulk = 0) (hctrl : q.retCtrl = 0) (hnak : q.nakDue = false) :
    q.due = false := by
  simp [Port.due, Port.takeCell_none hwaiting, hbulk, hctrl, hnak]

theorem Port.sends_takeCells (n : Nat) (q : Port) : q.Sends (Port.takeCells n q).2.2 := by
  induction n generalizing q with
  | zero => exact .refl q
  | succ n ih =>
    unfold Port.takeCells
    split
    · exact .refl q
    · next h => exact (Port.sends_takeCell h).trans (ih _)

theorem Port.sends_frameOut (q : Port) : q.Sends q.frameOut.1 := by
  obtain ⟨state, inbox, partBulk, partCtrl, rxSeq, discard, credBulk, credCtrl⟩ := Port.sends_takeCells 5 q
  unfold Port.frameOut
  exact ⟨state, inbox, partBulk, partCtrl, rxSeq, discard, credBulk, credCtrl⟩

theorem pump_alone (s : State) (p : PortId) (n : Nat) : PortAlone p s (s.pump p n) := by
  induction n generalizing s with
  | zero => exact .refl
  | succ n ih =>
    exact .ite (.trans (.modPort _) <| .trans (.of_changes Changes.occPort) <| .trans (.of_changes Changes.occPort) (ih _))
      (.ite (.of_changes Changes.occPort) .refl)

theorem pump_sends (s : State) (p : PortId) (n : Nat) : (s.port p).Sends ((s.pump p n).port p) := by
  induction n generalizing s with
  | zero => exact .refl _
  | succ n ih =>
    unfold State.pump
    dsimp only
    split
    · refine .trans ?_ (ih _)
      rw [State.port_kept Changes.occPort, State.port_kept Changes.occPort, State.port_modPort_same]
      exact Port.sends_frameOut _
    · split
      · rw [State.port_kept Changes.occPort]
        exact .refl _
      · exact .refl _

theorem pump_idle {s : State} {p : PortId} (hdue : (s.port p).due = false) (hwaiting : (s.port p).waiting = []) (n : Nat) :
    s.pump p n = s := by
  cases n with
  | zero => rfl
  | succ n =>
    unfold State.pump
    simp [hdue, hwaiting]

/-! ### Receiving -/

/-- The receiver's side of a port that discards a frame. -/
def Port.discards (q : Port) (f : Frame) : Port := { q with discard := true, nakDue := q.nakDue || !q.discard || f.fseq == q.rxSeq }

theorem discardFrame_alone (s : State) (p : PortId) (f : Frame) :
    PortAlone p s (s.discardFrame p f) ∧ (s.discardFrame p f).port p = (s.port p).discards f := by
  refine ⟨.trans (.of_changes Changes.occPort) (.modPort _), ?_⟩
  rw [State.discardFrame, State.port_modPort_same, State.port_kept Changes.occPort]
  rfl

theorem Port.acked_of_split {q : Port} {aseq : BitVec 12} {l r : List (Frame × List PktTag)} {x : Frame × List PktTag}
    (h : q.replay = l ++ x :: r) (hx : x.1.fseq = aseq) (hl : ∀ y ∈ l, y.1.fseq ≠ aseq) : (q.acked aseq).replay = r := by
  have hfind : q.replay.findIdx? (·.1.fseq == aseq) = some l.length := by
    rw [h, List.findIdx?_append, List.findIdx?_eq_none_iff.2 (fun y hy => by simp [hl y hy])]
    simp [List.findIdx?_cons, hx]
  rw [Port.acked, hfind, h]
  simp

/-- A frame without used cells leaves what its cells could change. -/
theorem each_cellIn_unused (s : State) (k : Nat) {l : List Cell} (h : ∀ c ∈ l, c.used = false) : (s.each l fun s c => s.cellIn k c) = s := by
  induction l generalizing s with
  | nil => rfl
  | cons c l ih =>
    have hc : s.cellIn k c = s := if_pos (by simp [h c (List.mem_cons_self ..)])
    exact (congrArg (fun t : State => t.each l fun s c => s.cellIn k c) hc).trans (ih s fun c hc => h c (List.mem_cons_of_mem _ hc))

/-- The frame fails a check of R424, or is not the expected one. -/
def FrameBad (f : Frame) (fec : Fec) (q : Port) : Prop :=
  fec.uncorr = true ∨ (∃ c ∈ f.cells, c.used = true ∧ c.crcOf ≠ c.crc.toNat) ∨ f.fseq ≠ q.rxSeq

section
variable {s : State} {p : PortId} {fec : Fec} {f : Frame}

theorem frameIn_bad (hbad : FrameBad f fec (s.port p)) :
    ∃ t, PortAlone p s t ∧ t.port p = s.port p ∧ s.frameIn p fec f = (t.discardFrame p f).pump p 2 := by
  have h1 : PortAlone p s ((s.occPort p 1).occPort p 3 fec.corrected) := .trans (.of_changes Changes.occPort) (.of_changes Changes.occPort)
  have hport : ((s.occPort p 1).occPort p 3 fec.corrected).port p = s.port p := by
    rw [State.port_kept Changes.occPort, State.port_kept Changes.occPort]
  unfold State.frameIn
  extract_lets s1 crcBad s2 s3
  change s1.port p = s.port p at hport
  split
  · refine ⟨s1.perr p 1, h1.trans (.of_changes Changes.perr), ?_, rfl⟩
    rw [State.port_kept Changes.perr, hport]
  · next huncorr =>
    split
    · refine ⟨(s1.perr p 2).occPort p 5, h1.trans (.trans (.of_changes Changes.perr) (.of_changes Changes.occPort)), ?_, rfl⟩
      rw [State.port_kept Changes.occPort, State.port_kept Changes.perr, hport]
    · next hcrc =>
      have hseq : f.fseq ≠ (s.port p).rxSeq := by
        rcases hbad with h | ⟨c, hc, hused, hne⟩ | h
        · exact absurd h huncorr
        · exact absurd (List.any_eq_true.2 ⟨c, hc, by simp [hused, hne]⟩) hcrc
        · exact h
      rw [if_pos (by rw [hport]; exact hseq)]
      exact ⟨s1, h1, hport, rfl⟩

/-- The receiver's side of a port that takes a frame without used cells. -/
def Port.takes (q : Port) (f : Frame) : Port :=
  { q.acked f.aseq with rxSeq := q.rxSeq + 1, discard := false, credBulk := q.credBulk + f.bcred.toNat, credCtrl := q.credCtrl + f.ccred.toNat }

theorem frameIn_good (hgood : ¬FrameBad f fec (s.port p)) (hcells : ∀ c ∈ f.cells, c.used = false) (hnak : f.nak = false) :
    ∃ t n, PortAlone p s t ∧ t.port p = (s.port p).takes f ∧ s.frameIn p fec f = t.pump p n := by
  have h1 : PortAlone p s ((s.occPort p 1).occPort p 3 fec.corrected) := .trans (.of_changes Changes.occPort) (.of_changes Changes.occPort)
  have hport : ((s.occPort p 1).occPort p 3 fec.corrected).port p = s.port p := by
    rw [State.port_kept Changes.occPort, State.port_kept Changes.occPort]
  unfold State.frameIn
  extract_lets s1 crcBad s2 s3 s4
  change s1.port p = s.port p at hport
  have hcrc : ¬crcBad = true := fun h => by
    obtain ⟨c, hc, hbad⟩ := List.any_eq_true.1 h
    simp [hcells c hc] at hbad
  rw [if_neg (fun h => hgood (.inl h)), if_neg hcrc, if_neg (by rw [hport]; exact fun h => hgood (.inr (.inr h)))]
  have h4 : s4 = s2 := (if_neg (by rw [hnak]; decide)).trans (each_cellIn_unused s2 p hcells)
  refine ⟨s2, _, h1.trans (.modPort _), ?_, by rw [h4]⟩
  unfold s2
  rw [State.port_modPort_same, hport]
  rfl

end

theorem Port.acked_keeps (q : Port) (aseq : BitVec 12) : q.acked aseq = { q with replay := (q.acked aseq).replay, replays := (q.acked aseq).replays } := by
  unfold Port.acked
  split <;> rfl

/-- Settles O49: frames advance the expected number only in order, and a discarded one delivers nothing. -/
theorem framesAdvanceInOrder : Obligations.FramesAdvanceInOrder := by
  unfold Obligations.FramesAdvanceInOrder
  intro s p fec f hwf hwanted k q bad still
  have hstill {t : State} (h : PortAlone p s t) (hp : (t.port p).inbox = q.inbox ∧ (t.port p).partBulk = q.partBulk ∧ (t.port p).partCtrl = q.partCtrl) :
      still t := by
    obtain ⟨hmem, hjobs, -, hports⟩ := h
    exact ⟨hp.1, hp.2.1, hp.2.2, hmem, hjobs, fun y hy _ => hports y hy⟩
  refine ⟨fun hup hlive => ?_, fun hnot => ?_⟩
  · have hrun : exec (.frame p fec f) s = waitRecall s (.next (s.frameIn p fec f)) := by
      simp only [exec, execFrame, hwf, hlive, show (s.port p).state = .up from hup]
      rfl
    refine ⟨.of_waitRecall hrun, fun hbad => ?_, fun hgood hcells hnak => ?_⟩
    · obtain ⟨t, hal, hport, hframe⟩ := frameIn_bad (s := s) (p := p) hbad
      obtain ⟨hal', hport'⟩ := discardFrame_alone t p f
      have hall : PortAlone p s (s.frameIn p fec f) := by
        rw [hframe]
        exact hal.trans (hal'.trans (pump_alone _ p 2))
      have hsends : ((s.port p).discards f).Sends ((s.frameIn p fec f).port p) := by
        rw [hframe, ← hport, ← hport']
        exact pump_sends _ p 2
      exact ⟨_, hrun.trans (waitRecall_next _ _ (hall.2.2.1 hwanted)), hstill hall ⟨hsends.inbox, hsends.partBulk, hsends.partCtrl⟩,
        hsends.rxSeq, hsends.discard, hsends.credBulk, hsends.credCtrl, hsends.state.trans hup⟩
    · obtain ⟨t, n, hal, hport, hframe⟩ := frameIn_good (s := s) (p := p) hgood hcells hnak
      have hall : PortAlone p s (s.frameIn p fec f) := by
        rw [hframe]
        exact hal.trans (pump_alone _ p n)
      have hsends : ((s.port p).takes f).Sends ((s.frameIn p fec f).port p) := by
        rw [hframe, ← hport]
        exact pump_sends _ p n
      have hkeeps := Port.acked_keeps (s.port p) f.aseq
      refine ⟨_, hrun.trans (waitRecall_next _ _ (hall.2.2.1 hwanted)), hstill hall ⟨?_, ?_, ?_⟩, hsends.rxSeq, hsends.discard, ?_, ?_⟩
      · exact hsends.inbox.trans (congrArg Port.inbox hkeeps :)
      · exact hsends.partBulk.trans (congrArg Port.partBulk hkeeps :)
      · exact hsends.partCtrl.trans (congrArg Port.partCtrl hkeeps :)
      · exact (hsends.state.trans (congrArg Port.state hkeeps :)).trans hup
      · intro hwaiting hbulk hctrl hnakDue l x r hreplay hx hl
        have hdue : (t.port p).due = false := by
          rw [hport]
          exact Port.due_idle ((congrArg Port.waiting hkeeps :).trans hwaiting) ((congrArg Port.retBulk hkeeps :).trans hbulk)
            ((congrArg Port.retCtrl hkeeps :).trans hctrl) ((congrArg Port.nakDue hkeeps :).trans hnakDue)
        have hwait : (t.port p).waiting = [] := by
          rw [hport]
          exact (congrArg Port.waiting hkeeps :).trans hwaiting
        have hend : (s.frameIn p fec f).port k = (s.port p).takes f := by
          rw [hframe, pump_idle hdue hwait]
          exact hport
        rw [hend]
        exact Port.acked_of_split hreplay hx hl
  · have hoff : ((s.port p).state ≠ .up || !s.isLive (portDom p)) = true := by
      rcases hnot with h | h
      · simp [show (s.port p).state ≠ .up from h]
      · simp [h]
    simp only [exec, execFrame, hwf]
    exact if_pos hoff

end Sys2Proof.Machine
end

section

/-! SUPPORT. The power controller: grants, the bubble loop, measurement, droop and heat (R467 to R488). -/

namespace Sys2Proof.Machine
open Machine

/-! ### Grants and bubbles -/

section
variable {s : State}

theorem grantApply_adopts {g : Nat} (hruns : s.pwrcRuns = true) (hpend : s.pwrc.gpend = some g) (hramp : s.pwrc.ramp = none)
    (hnow : s.pwrc.gNow = true ∨ s.jobActive = false) :
    execGrantApply s = .next { s with pwrc := { s.pwrc with gpend := none, gNow := false, ramp := some g, switched := false } } := by
  have hgo : (s.pwrcRuns && s.pwrc.ramp.isNone && (s.pwrc.gNow || !s.jobActive)) = true := by
    rcases hnow with h | h <;> simp [hruns, hramp, h]
  simp only [execGrantApply, hpend, hgo, if_true]
  rfl

theorem grantApply_waits {g : Nat} (hpend : s.pwrc.gpend = some g) (hnow : s.pwrc.gNow = false) (hactive : s.jobActive = true) :
    execGrantApply s = .next s := by
  simp [execGrantApply, hpend, hnow, hactive]

theorem grantSwitch_falls {g : Nat} (hruns : s.pwrcRuns = true) (hramp : s.pwrc.ramp = some g) (hsw : s.pwrc.switched = false) (hle : g ≤ s.pwrc.gnow) :
    execGrantSwitch s = .next { s with pwrc := { s.pwrc with switched := true, freq := g, gnow := g } } := by
  simp only [execGrantSwitch, hramp, hruns, hsw, if_neg (Nat.not_lt.2 hle), State.modPwrc]
  rfl

theorem grantSwitch_rises {g : Nat} (hruns : s.pwrcRuns = true) (hramp : s.pwrc.ramp = some g) (hsw : s.pwrc.switched = false) (hlt : s.pwrc.gnow < g) :
    execGrantSwitch s = .next { s with pwrc := { s.pwrc with
      switched := true, freq := g, n := raisedN s.pwrc.n s.pwrc.gnow g s.pwrc.bmax,
      arr := max s.pwrc.arr (raisedN s.pwrc.n s.pwrc.gnow g s.pwrc.bmax) } } := by
  simp only [execGrantSwitch, hramp, hruns, hsw, if_pos hlt, State.modPwrc]
  rfl

theorem grantRampEnd_ends {g : Nat} (hruns : s.pwrcRuns = true) (hramp : s.pwrc.ramp = some g) (hsw : s.pwrc.switched = true) :
    EndsIn (execGrantRampEnd s) { s with pwrc := { s.pwrc with gnow := g, ramp := none, switched := false } } := by
  refine ⟨((s.modPwrc fun p => { p with gnow := g, ramp := none, switched := false }).occ 52 3).raise 0x443 52 g, ?_,
    (State.raise_quiet ..).trans (State.occ_quiet ..)⟩
  simp only [execGrantRampEnd, hramp, hruns, hsw]
  rfl
end

/-- The bubbles of the first `m` cycles of a window of 256. -/
theorem bubbles_before (a m : Nat) (ha : a ≤ 256) :
    ((List.range m).filter fun j => decide (j * a / 256 < (j + 1) * a / 256)).length = m * a / 256 := by
  induction m with
  | zero => simp
  | succ m ih =>
    rw [List.range_succ, List.filter_append, List.length_append, ih]
    have hstep : (m + 1) * a = m * a + a := by ring
    by_cases h : m * a / 256 < (m + 1) * a / 256
    · simp only [List.filter_cons, h, decide_true, if_true, List.filter_nil, List.length_cons, List.length_nil]
      omega
    · simp only [List.filter_cons, h, decide_false, Bool.false_eq_true, if_false, List.filter_nil, List.length_nil]
      omega

theorem bubbles_length (p : Pwrc) (ha : p.arr ≤ 256) (hhold : p.hold = false) : ((List.range 256).filter p.bubbleAt).length = p.arr := by
  have heq : (List.range 256).filter p.bubbleAt = (List.range 256).filter fun j => decide (j * p.arr / 256 < (j + 1) * p.arr / 256) := by
    refine List.filter_congr fun j hj => ?_
    rw [Pwrc.bubbleAt, hhold, Nat.mod_eq_of_lt (List.mem_range.1 hj)]
    simp
  rw [heq, bubbles_before _ _ ha]
  omega

/-! ### The control period -/

/-- What the control law reads. -/
def Pwrc.law (p : Pwrc) : Nat × Nat × Nat × Nat × Bool × Bool × Nat × Nat × Nat × Nat :=
  (p.n, p.cap, p.gainUp, p.gainDn, p.hold, p.byMeas, p.bmax, p.est, p.rhoNum, p.rhoDen)

/-- The registers that no report and no status bit of the power controller touches. -/
def State.PowerRegs (s t : State) : Prop := ∀ off, off < 0x28 → t.regRaw 52 off = s.regRaw 52 off

theorem isReport_power : ∀ off, off < 0x28 → isReport (homeDom 52 off * 0x10000 + off) = false := by decide

theorem State.PowerRegs.refl {s : State} : s.PowerRegs s := fun _ _ => rfl

theorem State.PowerRegs.trans {s t u : State} (h : s.PowerRegs t) (h' : t.PowerRegs u) : s.PowerRegs u :=
  fun off hoff => (h' off hoff).trans (h off hoff)

theorem State.PowerRegs.of_changes {K : List Part} {s t : State} (h : Changes K s t) (hK : Part.regs ∉ K := by decide) : s.PowerRegs t :=
  fun off hoff => State.regRaw_of_regs (h.kept .regs hK) (isReport_power off hoff)

theorem State.PowerRegs.orReg {s : State} {off : Nat} {m : Half} (hoff : 0x28 ≤ off) : s.PowerRegs (s.orReg 52 off m) := fun x hx =>
  State.regRaw_setRegRaw_other _ _ (by
    have h52 (y : Nat) : homeDom 52 y = 52 := rfl
    rw [h52, h52]
    omega)

theorem State.PowerRegs.ite {c : Prop} [Decidable c] {s t u : State} (ht : s.PowerRegs t) (hu : s.PowerRegs u) :
    s.PowerRegs (if c then t else u) := by
  split
  · exact ht
  · exact hu

theorem State.PowerRegs.bmax {s t : State} (h : s.PowerRegs t) : t.cfgBits 52 8 0 8 = s.cfgBits 52 8 0 8 := by
  have hreg : findReg 52 8 = some { off := 8, lvl := 0, fields := [fx 0 8 240 16 240, fx 8 8 32 1] } := by decide
  have hcfg (u : State) : u.cfg 52 8 = if (u.regRaw 52 0).getLsbD 0 then u.regRaw 52 8
      else [fx 0 8 240 16 240, fx 8 8 32 1].foldl (fun x f => if f.expert then f.set x (f.get 0x20F0) else x) (u.regRaw 52 8) := by
    unfold State.cfg
    rw [hreg]
    rfl
  rw [State.cfgBits, State.cfgBits, hcfg, hcfg, h 0 (by decide), h 8 (by decide)]

/-! #### What the pieces of a control period keep -/

section
variable {s : State}

/-- A piece of a control period keeps the registers that the power controller reads, and what the control law reads. -/
def State.KeepsLaw (s t : State) : Prop := s.PowerRegs t ∧ t.pwrc.law = s.pwrc.law ∧ t.mem = s.mem

theorem State.KeepsLaw.refl : s.KeepsLaw s := ⟨.refl, rfl, rfl⟩

theorem State.KeepsLaw.trans {t u : State} (h : s.KeepsLaw t) (h' : t.KeepsLaw u) : s.KeepsLaw u :=
  ⟨h.1.trans h'.1, h'.2.1.trans h.2.1, h'.2.2.trans h.2.2⟩

theorem State.KeepsLaw.of_changes {K : List Part} {t : State} (h : Changes K s t) (hregs : Part.regs ∉ K := by decide)
    (hpwrc : Part.pwrc ∉ K := by decide) (hmem : Part.mem ∉ K := by decide) : s.KeepsLaw t :=
  ⟨.of_changes h hregs, congrArg Pwrc.law (h.kept .pwrc hpwrc), h.kept .mem hmem⟩

theorem State.KeepsLaw.modPwrc {f : Pwrc → Pwrc} (h : (f s.pwrc).law = s.pwrc.law) : s.KeepsLaw (s.modPwrc f) := ⟨fun _ _ => rfl, h, rfl⟩

theorem State.KeepsLaw.orReg {off : Nat} {m : Half} (hoff : 0x28 ≤ off) : s.KeepsLaw (s.orReg 52 off m) := ⟨.orReg hoff, rfl, rfl⟩

theorem State.KeepsLaw.ite {c : Prop} [Decidable c] {t u : State} (ht : s.KeepsLaw t) (hu : s.KeepsLaw u) :
    s.KeepsLaw (if c then t else u) := by
  split
  · exact ht
  · exact hu

theorem State.pwrc_orReg_raise (s : State) (off : Nat) (m : Half) (code d0 : Nat) : ((s.orReg 52 off m).raise code 52 d0).pwrc = s.pwrc :=
  (Changes.andThen Changes.orReg Changes.raise).kept .pwrc (by decide)

theorem capJudge_keepsLaw : s.KeepsLaw s.capJudge := by
  unfold State.capJudge
  extract_lets p sat clr s1
  have h1 : s.KeepsLaw s1 := .modPwrc rfl
  have hmark : s1.KeepsLaw (s1.modPwrc fun p => { p with capUnr := true }) := .modPwrc rfl
  have hclear : s1.KeepsLaw (s1.modPwrc fun p => { p with capUnr := false }) := .modPwrc rfl
  exact h1.trans (.ite (hmark.trans <| .trans (.orReg (by decide)) (.of_changes Changes.raise)) (.ite hclear .refl))

theorem bubbleMean_keepsLaw : s.KeepsLaw s.bubbleMean := by
  unfold State.bubbleMean
  extract_lets was s1
  have h1 : s.KeepsLaw s1 := .modPwrc rfl
  exact h1.trans (.ite (.of_changes Changes.raise) .refl)

/-- The bubble count as the control law sets it, before the new bound. -/
def Pwrc.controlled (p : Pwrc) : Nat := if p.hold || p.byMeas then p.n else p.update 16 (p.est * p.rhoNum) p.rhoDen

theorem Pwrc.controlled_congr {p q : Pwrc} (h : q.law = p.law) : q.controlled = p.controlled := by
  simp only [Pwrc.law, Prod.mk.injEq] at h
  obtain ⟨hn, hcap, hup, hdn, hhold, hby, hbmax, hest, hnum, hden⟩ := h
  simp only [Pwrc.controlled, Pwrc.update, hn, hcap, hup, hdn, hhold, hby, hbmax, hest, hnum, hden]

/-- The state at which the control law is applied. -/
def State.atControl (s : State) : State := (if s.pwrc.hold then s else s.capJudge).bubbleMean

theorem atControl_keepsLaw : s.KeepsLaw s.atControl := (State.KeepsLaw.ite .refl capJudge_keepsLaw).trans bubbleMean_keepsLaw

/-- The state after the control law. -/
def State.controlled (s : State) : State :=
  if s.pwrc.hold || s.pwrc.byMeas then s.atControl
  else s.atControl.modPwrc fun p => p.withN (p.update 16 p.control.1 p.control.2)

theorem controlled_spec (s : State) : s.PowerRegs s.controlled ∧ s.controlled.mem = s.mem ∧ s.controlled.pwrc.n = s.pwrc.controlled := by
  obtain ⟨hregs, hlaw, hmem⟩ := atControl_keepsLaw (s := s)
  have hn := Pwrc.controlled_congr hlaw
  simp only [Pwrc.law, Prod.mk.injEq] at hlaw
  obtain ⟨hlawn, -, -, -, hhold, hby, -⟩ := hlaw
  unfold State.controlled
  split
  · next h => exact ⟨hregs, hmem, hlawn.trans (if_pos h).symm⟩
  · next h =>
    refine ⟨hregs, hmem, ?_⟩
    have hno : s.atControl.pwrc.byMeas = false := by
      rw [hby]
      cases hm : s.pwrc.byMeas
      · rfl
      · exact absurd (by simp [hm]) h
    rw [← hn, Pwrc.controlled, if_neg (by rw [hby, hhold]; exact h)]
    have hcontrol : s.atControl.pwrc.control = (s.atControl.pwrc.est * s.atControl.pwrc.rhoNum, s.atControl.pwrc.rhoDen) := if_neg (by rw [hno]; decide)
    generalize s.atControl = t at hcontrol
    change t.pwrc.update 16 t.pwrc.control.1 t.pwrc.control.2 = _
    rw [hcontrol]

theorem controlPeriod_run (hruns : s.pwrcRuns = true) :
    execControlPeriod s = .next (s.controlled.countPeriod (s.pwrc.n = s.pwrc.bmax)).loadPower := if_neg (by rw [hruns]; decide)

theorem loadPower_law (s : State) : s.loadPower.mem = s.mem ∧ s.loadPower.pwrc.bmax = s.cfgBits 52 8 0 8 ∧
    s.loadPower.pwrc.n = min s.pwrc.n (s.cfgBits 52 8 0 8) := ⟨rfl, rfl, rfl⟩

theorem controlPeriod_spec (s : State) :
    let t := (s.controlled.countPeriod (s.pwrc.n = s.pwrc.bmax)).loadPower
    t.mem = s.mem ∧ t.pwrc.bmax = s.cfgBits 52 8 0 8 ∧ t.pwrc.n = min s.pwrc.controlled (s.cfgBits 52 8 0 8) := by
  obtain ⟨hregs, hmem, hn⟩ := controlled_spec s
  have hcount : s.controlled.KeepsLaw (s.controlled.countPeriod (s.pwrc.n = s.pwrc.bmax)) := .of_changes Changes.countPeriod
  generalize s.controlled.countPeriod (s.pwrc.n = s.pwrc.bmax) = u at hcount
  obtain ⟨hregs', hlaw, hmem'⟩ := hcount
  have hun : u.pwrc.n = s.controlled.pwrc.n := congrArg (fun l => l.1) hlaw
  obtain ⟨hlmem, hlbmax, hln⟩ := loadPower_law u
  have hbmax := (hregs.trans hregs').bmax
  exact ⟨hlmem.trans (hmem'.trans hmem), hlbmax.trans hbmax, by rw [hln, hbmax, hun, hn]⟩

/-! ### Measurement -/

theorem rhoOf_bounds (m sum cnt : Nat) : 85 * (rhoOf m sum cnt).2 ≤ 100 * (rhoOf m sum cnt).1 ∧ 100 * (rhoOf m sum cnt).1 ≤ 115 * (rhoOf m sum cnt).2 := by
  unfold rhoOf
  have hassoc : 100 * m * cnt = 100 * (m * cnt) := Nat.mul_assoc ..
  split
  · exact ⟨le_refl _, by decide⟩
  · split
    · exact ⟨by decide, le_refl _⟩
    · dsimp only
      omega

/-- What a measurement leaves: the power, and the ratio. -/
def Pwrc.measured (p : Pwrc) : Nat × Nat × Nat := (p.meas, p.rhoNum, p.rhoDen)

theorem judge_measured (b : Bool) : (s.judge b).pwrc.measured = s.pwrc.measured ∧ (s.judge b).mem = s.mem := by
  refine ⟨?_, Changes.judge.kept .mem (by decide)⟩
  unfold State.judge
  extract_lets p d o s1
  have hraise : (((s1.modPwrc fun p => { p with measMode := true }).orReg 52 0x28 2).raise 0x441 52).pwrc.measured = s.pwrc.measured :=
    (congrArg Pwrc.measured (State.pwrc_orReg_raise (s1.modPwrc fun p => { p with measMode := true }) 0x28 2 0x441 0)).trans rfl
  split
  · exact hraise
  · split <;> rfl

/-- After the ratio is judged, the control by measurement leaves what was measured. -/
theorem judge_end (b : Bool) (w : Nat) :
    ∃ t : State, (if (s.judge b).pwrc.byMeas then
        (Host.Outcome.next (if ((s.judge b).occ 52 2).pwrc.hold then (s.judge b).occ 52 2
          else ((s.judge b).occ 52 2).modPwrc fun p => p.withN (p.update 4 w 1)) : Host.Outcome State Fault Refusal)
      else .next (s.judge b)) = .next t ∧ t.pwrc.measured = s.pwrc.measured ∧ t.mem = s.mem := by
  obtain ⟨hmeasured, hmem⟩ := judge_measured (s := s) b
  have hocc : ((s.judge b).occ 52 2).pwrc.measured = s.pwrc.measured :=
    (congrArg Pwrc.measured (Changes.occ.kept .pwrc (by decide))).trans hmeasured
  have hoccMem : ((s.judge b).occ 52 2).mem = s.mem := (Changes.occ.kept .mem (by decide)).trans hmem
  split
  · refine ⟨_, rfl, ?_⟩
    split
    · exact ⟨hocc, hoccMem⟩
    · exact ⟨hocc, hoccMem⟩
  · exact ⟨_, rfl, hmeasured, hmem⟩

theorem measurementWindow_run (hruns : s.pwrcRuns = true) (w : Nat) :
    ∃ t, execMeasurementWindow w s = .next t ∧ t.pwrc.meas = w ∧ 85 * t.pwrc.rhoDen ≤ 100 * t.pwrc.rhoNum ∧
      100 * t.pwrc.rhoNum ≤ 115 * t.pwrc.rhoDen ∧ t.mem = s.mem := by
  have finish {num den : Nat} (hlow : 85 * den ≤ 100 * num) (hhigh : 100 * num ≤ 115 * den) {u : State} (hmem : u.mem = s.mem)
      (hm : u.pwrc.measured = (w, num, den)) {r : Host.Outcome State Fault Refusal}
      (hr : ∃ t : State, r = .next t ∧ t.pwrc.measured = u.pwrc.measured ∧ t.mem = u.mem) :
      ∃ t, r = .next t ∧ t.pwrc.meas = w ∧ 85 * t.pwrc.rhoDen ≤ 100 * t.pwrc.rhoNum ∧ 100 * t.pwrc.rhoNum ≤ 115 * t.pwrc.rhoDen ∧ t.mem = s.mem := by
    obtain ⟨t, hrt, hmeasured, htmem⟩ := hr
    rw [hm] at hmeasured
    simp only [Pwrc.measured, Prod.mk.injEq] at hmeasured
    obtain ⟨hmeas, hnum, hden⟩ := hmeasured
    exact ⟨t, hrt, hmeas, by rw [hnum, hden]; exact hlow, by rw [hnum, hden]; exact hhigh, htmem.trans hmem⟩
  unfold execMeasurementWindow
  rw [if_neg (by rw [hruns]; decide)]
  extract_lets p sum cnt
  by_cases h0 : (w = 0 && sum = 0) = true
  · simp only [h0, if_true, State.drawFree]
    refine finish (num := 85 + Config.freeValue s.free % 31) (den := 100) (by omega) (by omega) ?_ ?_ (judge_end _ w)
    · rfl
    · rfl
  · simp only [h0]
    obtain ⟨hlow, hhigh⟩ := rhoOf_bounds w sum cnt
    refine finish hlow hhigh ?_ ?_ (judge_end _ w)
    · rfl
    · rfl
end

/-! ### Heat -/

section
variable {s : State}

theorem Keeper.bstate_congr {k k' : Keeper} (h : k.lessReports = k'.lessReports) : k.bstate = k'.bstate :=
  (congrArg Keeper.bstate h : k.lessReports.bstate = k'.lessReports.bstate)

theorem mailboxLost_bstate (s : State) : s.mailboxLost.keeper.bstate = s.keeper.bstate := rfl

theorem mclDown_bstate (s : State) : s.mclDown.keeper.bstate = s.keeper.bstate := by
  unfold State.mclDown
  extract_lets reqs s1 s2 s3
  have h1 : s1.keeper.lessReports = s.keeper.lessReports :=
    (Changes.andThen (Changes.each fun _ _ => Changes.uwLost) Changes.linesLost).kept .keeper (by decide)
  have hwindow : (s1.modMcl (·.quiet 0)).windowSettle.keeper.lessReports = (s1.modMcl (·.quiet 0)).keeper.lessReports :=
    Changes.windowSettle.kept .keeper (by decide)
  have h2 : s2.keeper.bstate = s1.keeper.bstate := (mailboxLost_bstate _).trans (Keeper.bstate_congr hwindow)
  have h3 : ((s3.orReg 50 0xC 1).raise 0x400 50).keeper.lessReports = s2.keeper.lessReports :=
    (Changes.andThen (Changes.each fun _ _ => Changes.andThen Changes.moveDone Changes.freePages) <| Changes.andThen Changes.orReg Changes.raise).kept
      .keeper (by decide)
  exact (Keeper.bstate_congr h3).trans (h2.trans (Keeper.bstate_congr h1))

theorem goDark_bstate (s : State) : s.goDark.keeper.bstate = s.keeper.bstate := by
  have h : s.mclLost.keeper.bstate = s.keeper.bstate := by
    unfold State.mclLost
    split
    · exact mclDown_bstate s
    · rfl
  exact h

theorem live_goDark (s : State) (y : DomainId) : vget s.goDark.live y false = decide (y.val = 51 ∨ y.val = 52) := by
  have h : vget (Vector.ofFn fun n : Fin 60 => n.val = 51 || n.val = 52) y false = decide (y.val = 51 ∨ y.val = 52) := by
    simp [vget, y.isLt]
  exact h

theorem pins_goDark (s : State) : s.goDark.pins.trip = s.pins.trip := by
  have h : s.mclLost.pins = s.pins := Changes.mclLost.kept .pins (by decide)
  exact (congrArg Pins.trip h : s.mclLost.pins.trip = _)

/-- A trip latches, darkens the device, and ends the boot sequence. -/
theorem thermTrip_trips (hno : s.pwrc.trip = false) (sensor : Nat) :
    (s.thermTrip sensor).pwrc.trip = true ∧ (s.thermTrip sensor).pins.trip = true ∧ (s.thermTrip sensor).keeper.bstate = 3 ∧
      ∀ y : DomainId, vget (s.thermTrip sensor).live y false = decide (y.val = 51 ∨ y.val = 52) := by
  unfold State.thermTrip
  rw [if_neg (by rw [hno]; decide)]
  extract_lets s1 s2
  refine ⟨?_, ?_, ?_, fun y => live_goDark _ y⟩
  · exact congrArg Pwrc.trip (Changes.goDark.kept .pwrc (by decide))
  · exact pins_goDark _
  · exact goDark_bstate _

theorem pwrc_hbmHot (s : State) (k : Nat) : (s.hbmHot k).pwrc = s.pwrc := State.pwrc_orReg_raise s 0x28 8 0x445 k

/-- What a reading of a stack leaves beside hold. -/
def Pwrc.readings (p : Pwrc) : Vector (BitVec 8) 8 × Vector Nat 8 × Vector (BitVec 8 × Nat) 8 × Bool := (p.tstack, p.thermal, p.shown, p.trip)

theorem enterHold_pwrc (s : State) (k : Nat) : (s.enterHold k).pwrc.readings = s.pwrc.readings ∧ (s.enterHold k).pwrc.hold = true := by
  unfold State.enterHold
  split
  · next h => exact ⟨rfl, h⟩
  · have h := State.pwrc_orReg_raise (s.markEncoded.modPwrc fun p => { p with hold := true, holdDone := false }) 0x28 0x10 0x446 k
    exact ⟨(congrArg Pwrc.readings h).trans rfl, (congrArg Pwrc.hold h).trans rfl⟩

/-- The power controller after stack `k` reads `x`. -/
def State.afterReading (s : State) (k : StackId) (x : BitVec 8) : State :=
  let new := thermalNext (vget s.pwrc.thermal k 0) x.toNat
  s.modPwrc fun p => { p with tstack := vmod p.tstack k fun _ => x, thermal := vmod p.thermal k fun _ => new,
                              shown := vmod p.shown k fun _ => (x, new) }

/-- The state before a reading of 125 degrees trips. -/
def State.read (s : State) (k : StackId) (x : BitVec 8) : State :=
  let old := vget s.pwrc.thermal k 0
  let new := thermalNext old x.toNat
  let s1 := s.afterReading k x
  let s2 := if new = 2 && old < 2 then s1.hbmHot k else s1
  if new = 3 then s2.enterHold k else s2

theorem stackTempRead_run {k : StackId} {x : BitVec 8} (hsensed : s.sensed (24 + k) = true) :
    execStackTempRead k x s = if 125 ≤ x.toNat then .next ((s.read k x).thermTrip (64 + k)) else .next (s.read k x) :=
  if_neg (by rw [hsensed]; decide)

theorem read_pwrc (s : State) (k : StackId) (x : BitVec 8) : (s.read k x).pwrc.readings = (s.afterReading k x).pwrc.readings ∧
    (s.read k x).pwrc.hold = (s.pwrc.hold || decide (thermalNext (vget s.pwrc.thermal k 0) x.toNat = 3)) := by
  unfold State.read
  extract_lets old new s1 s2
  have h2 : s2.pwrc = s1.pwrc := by
    unfold s2
    split
    · exact pwrc_hbmHot s1 k
    · rfl
  split
  · next h =>
    obtain ⟨hreadings, hhold⟩ := enterHold_pwrc s2 k
    exact ⟨hreadings.trans (congrArg Pwrc.readings h2), hhold.trans (by rw [show decide (new = 3) = true from decide_eq_true h, Bool.or_true])⟩
  · next h =>
    refine ⟨congrArg Pwrc.readings h2, (congrArg Pwrc.hold h2).trans ?_⟩
    rw [show decide (new = 3) = false from decide_eq_false h, Bool.or_false]
    rfl

theorem read_mem (s : State) (k : StackId) (x : BitVec 8) : (s.read k x).mem = s.mem := by
  unfold State.read
  extract_lets old new s1 s2
  have h2 : s2.mem = s.mem := by
    unfold s2
    split
    · exact (Changes.hbmHot.kept .mem (by decide)).trans rfl
    · rfl
  split
  · exact (Changes.enterHold.kept .mem (by decide)).trans h2
  · exact h2

/-! ### Droop and the cap on heat -/

theorem pwrc_alone {s t : State} {f : Pwrc → Pwrc} (h : t.quiet = (s.modPwrc f).quiet) : t.quiet = { s.quiet with pwrc := t.pwrc } ∧ t.pwrc = f s.pwrc := by
  have hp : t.pwrc = f s.pwrc := congrArg State.pwrc h
  exact ⟨by rw [h, hp]; rfl, hp⟩

theorem droopDetect_run {n : DomainId} (hlive : s.isLive n = true) (hreset : s.pins.resetN = true) (hno : s.stretched n = false) :
    execDroopDetect n s = .next ((s.modPwrc fun p => { p with stretch := vmod p.stretch n fun _ => true }).common n 1) :=
  if_neg (by simp [hlive, hreset, hno])

theorem stretched_vmod (p : Pwrc) (n x : DomainId) (b : Bool) :
    vget (vmod p.stretch n fun _ => b) x false = if x = n then b else vget p.stretch x false := by
  by_cases h : x = n
  · subst h
    rw [if_pos rfl]
    exact vget_vmod_same _ _ _ _ x.isLt
  · rw [if_neg h]
    exact vget_vmod_other _ _ _ _ _ fun hv => h (Fin.ext hv.symm)

/-- The reduction that a check of the die's heat sets. -/
def Pwrc.cooled (p : Pwrc) : Nat :=
  let h := (hottest p.tisland.toList).1
  if p.tlim ≤ h then max p.tred (min (p.tred + 56) (min p.mcCap p.hostCap - 700)) else if h + 2 < p.tlim then p.tred - 56 else p.tred

/-- A step that sets the reduction and raises its first event touches the controller and its status alone. -/
theorem cooled_raised (s : State) (red d : Nat) :
    let t := ((s.modPwrc fun p => { p with tred := red }).orReg 52 0x28 4).raise 0x444 52 d
    t.quiet = { s.quiet with pwrc := t.pwrc, regs := t.quiet.regs } ∧ t.pwrc.tred = red := by
  intro t
  have hq : t.quiet = ((s.modPwrc fun p => { p with tred := red }).orReg 52 0x28 4).quiet := State.raise_quiet ..
  have hp : t.pwrc = { s.pwrc with tred := red } := congrArg State.pwrc hq
  rw [hp, hq]
  exact ⟨rfl, rfl⟩

theorem dieTempCheck_run (hruns : s.pwrcRuns = true) :
    ∃ t, execDieTempCheck s = .next t ∧ t.quiet = { s.quiet with pwrc := t.pwrc, regs := t.quiet.regs } ∧ t.pwrc.tred = s.pwrc.cooled := by
  unfold execDieTempCheck Pwrc.cooled
  rw [if_neg (by rw [hruns]; decide)]
  dsimp only
  split
  · generalize max s.pwrc.tred (min (s.pwrc.tred + 56) (min s.pwrc.mcCap s.pwrc.hostCap - 700)) = red
    refine ⟨_, rfl, ?_⟩
    split
    · exact cooled_raised s red _
    · exact ⟨rfl, rfl⟩
  · split
    · exact ⟨_, rfl, rfl, rfl⟩
    · exact ⟨_, rfl, rfl, rfl⟩
end

/-- Settles O53: the power controller follows its rules. -/
theorem powerFollowsItsRules : Obligations.PowerFollowsItsRules := by
  unfold Obligations.PowerFollowsItsRules
  intro s hruns p only
  have hreset : s.pins.resetN = true := (Bool.and_eq_true _ _ ▸ hruns : s.pins.pwrok = true ∧ s.pins.resetN = true).2
  refine ⟨?apply, ?ramp, bubbles_length p, ?control, ?estimate, measurementWindow_run hruns, ?droop, ?stretch, ?island, ?stack, ?trip, ?die, ?abandon⟩
  case apply => exact fun g hpend hramp => ⟨grantApply_adopts hruns hpend hramp, grantApply_waits hpend⟩
  case ramp => exact fun g hramp => ⟨grantSwitch_falls hruns hramp, grantSwitch_rises hruns hramp, grantRampEnd_ends hruns hramp⟩
  case control => exact ⟨_, controlPeriod_run hruns, controlPeriod_spec s⟩
  case estimate => exact fun w => if_neg (by rw [hruns]; decide)
  case droop =>
    intro n hlive hno
    obtain ⟨honly, hp⟩ := pwrc_alone (State.common_quiet (s.modPwrc fun p => { p with stretch := vmod p.stretch n fun _ => true }) n 1 _)
    refine ⟨_, droopDetect_run hlive hreset hno, honly, fun x => ?_⟩
    rw [State.stretched, hp]
    refine (stretched_vmod _ _ _ _).trans ?_
    by_cases h : x = n <;> simp [h, State.stretched]
  case stretch =>
    intro n
    refine ⟨_, rfl, rfl, fun x => (stretched_vmod _ _ _ _).trans ?_⟩
    by_cases h : x = n <;> simp [h, State.stretched]
  case island =>
    intro n x hsensed
    refine ⟨fun hcool => ?_, fun hhot hno => ?_⟩
    · simp only [exec, execIslandTempRead, hsensed, if_neg (Nat.not_le.2 hcool)]
      rfl
    · refine ⟨_, ?_, thermTrip_trips (s := s.modPwrc fun p => { p with tisland := vmod p.tisland n fun _ => x }) hno n⟩
      simp only [exec, execIslandTempRead, hsensed, if_pos hhot]
      rfl
  case stack =>
    intro k x hsensed hcool new
    obtain ⟨hreadings, hhold⟩ := read_pwrc s k x
    simp only [Pwrc.readings, Prod.mk.injEq] at hreadings
    obtain ⟨htstack, hthermal, hshown, -⟩ := hreadings
    refine ⟨_, (stackTempRead_run hsensed).trans (if_neg (Nat.not_le.2 hcool)), read_mem s k x, ?_, ?_, ?_, hhold⟩
    · rw [htstack]
      exact vget_vmod_same _ _ _ _ k.isLt
    · rw [hthermal]
      exact vget_vmod_same _ _ _ _ k.isLt
    · rw [hshown]
      exact vget_vmod_same _ _ _ _ k.isLt
  case trip =>
    intro k x hsensed hhot hno
    have htrip : (s.read k x).pwrc.trip = false := (congrArg (·.2.2.2) (read_pwrc s k x).1).trans hno
    exact ⟨_, (stackTempRead_run hsensed).trans (if_pos hhot), thermTrip_trips htrip _⟩
  case die => exact dieTempCheck_run hruns
  case abandon =>
    intro hhold hdone hlive
    refine .of_waitRecall ?_
    have hgo : ¬((!s.pwrc.hold || s.pwrc.holdDone || !s.isLive 46 || !s.pins.resetN) = true) := by
      rw [show s.pwrc.hold = true from hhold, show s.pwrc.holdDone = false from hdone, hlive, hreset]
      decide
    exact if_neg hgo

end Sys2Proof.Machine
end

section

/-! SUPPORT. The host link: flits, its states, the event ring, doorbells, the mailbox and the windows (R446 to R464). -/

namespace Sys2Proof.Machine
open Machine

/-! ### Sending flits leaves what has been received -/

/-- The link's state, what it has received, and the mailbox request. -/
def Mcl.received (m : Mcl) : Nat × Bool × BitVec 12 × Bool × List Byte × List Msg × Option Nat :=
  (m.link, m.half, m.rxSeq, m.discard, m.rxBytes, m.inbox, m.mbox)

theorem Mcl.received_congr {m m' : Mcl} (h : m.lessReports = m'.lessReports) : m.received = m'.received :=
  (congrArg Mcl.received h : m.lessReports.received = m'.lessReports.received)

theorem Mcl.received_gather (m : Mcl) (n : Nat) : (m.gather n).received = m.received := by
  induction n generalizing m with
  | zero => rfl
  | succ n ih =>
    unfold Mcl.gather
    split
    · rfl
    · split
      · rfl
      · exact ih _

theorem Mcl.received_pump (m : Mcl) (n : Nat) : (m.pump n).received = m.received := by
  induction n generalizing m with
  | zero => rfl
  | succ n ih =>
    unfold Mcl.pump
    split
    · exact (ih _).trans (m.received_gather 15)
    · rfl

theorem State.received_mclPump (s : State) : s.mclPump.mcl.received = s.mcl.received := Mcl.received_pump _ _

section
variable {s : State} {f : Flit}

/-! ### Flits -/

theorem flitIn_bad (hbad : f.crcOf ≠ f.crc.toNat ∨ f.fseq ≠ s.mcl.rxSeq) :
    (s.flitIn f).mcl.received = { s.mcl with discard := true }.received ∧ (s.flitIn f).mem = s.mem ∧
      (s.mcl.wanted = [] → (s.flitIn f).mcl.wanted = []) := by
  unfold State.flitIn
  split
  · exact ⟨State.received_mclPump _, rfl, (Changes.andThen Changes.orReg <| Changes.andThen Changes.discardFlit Changes.mclPump).kept .wanted (by decide)⟩
  · next h =>
    rw [if_pos (hbad.resolve_left h)]
    exact ⟨State.received_mclPump _, rfl, (Changes.andThen Changes.discardFlit Changes.mclPump).kept .wanted (by decide)⟩

theorem Mcl.acked_eq (m : Mcl) (aseq : BitVec 12) : m.acked aseq = { m with replay := (m.acked aseq).replay, replays := (m.acked aseq).replays } := by
  unfold Mcl.acked
  split <;> rfl

theorem flitIn_good (hcrc : f.crcOf = f.crc.toNat) (hseq : f.fseq = s.mcl.rxSeq) (hnak : f.nak = false) :
    let l := s.mcl.rxBytes ++ f.msg
    (s.flitIn f).mcl.received = { s.mcl with rxSeq := s.mcl.rxSeq + 1, discard := false, rxBytes := (parseAll l.length l).2,
                                             inbox := s.mcl.inbox ++ (parseAll l.length l).1 }.received ∧
      (s.flitIn f).mem = s.mem ∧ (s.mcl.wanted = [] → (s.flitIn f).mcl.wanted = []) := by
  intro l
  unfold State.flitIn
  rw [if_neg (not_not.2 hcrc), if_neg (not_not.2 hseq)]
  simp only [hnak, Bool.false_eq_true, if_false]
  refine ⟨(State.received_mclPump _).trans ?_, rfl, fun hw => Changes.mclPump.kept .wanted (by decide) ?_⟩
  · simp only [State.modMcl]
    rw [Mcl.acked_eq]
    rfl
  · simp only [State.modMcl]
    rw [Mcl.acked_eq]
    exact hw

/-! ### Training and loss -/

theorem trainingEnd_ends (hlink : s.mcl.link = 1) (hlive : s.isLive 50 = true) (hreset : s.pins.resetN = true) (b : BitVec 32) :
    ∃ t, execMclTrainingEnd b s = .next t ∧ t.mem = s.mem ∧ (b = 0 → t.mcl.link = 2 ∧ t.mcl.half = false) ∧
      (b ≠ 0 → s.mcl.degrade = true → b &&& 0xFFFF = 0 → t.mcl.link = 2 ∧ t.mcl.half = true) ∧
      (b ≠ 0 → (s.mcl.degrade = false ∨ b &&& 0xFFFF ≠ 0) → t.mcl.link = 0) := by
  have hstart : ¬((s.mcl.link ≠ 1 || !s.isLive 50 || !s.pins.resetN) = true) := by simp [hlink, hlive, hreset]
  unfold execMclTrainingEnd
  rw [if_neg hstart]
  extract_lets half again s1 s2 s3 s4
  split
  · next h =>
    simp only [Bool.and_eq_true, decide_eq_true_eq, Bool.not_eq_true', Bool.and_eq_false_imp, half] at h
    obtain ⟨hbad, hno⟩ := h
    exact ⟨_, rfl, rfl, fun h0 => absurd h0 hbad, fun _ hdeg hlow => absurd hlow (by simpa using hno hdeg), fun _ _ => rfl⟩
  · next h =>
    have h3 : s3.mem = s.mem ∧ s3.mcl.received = s2.mcl.received := by
      unfold s3
      split
      · exact ⟨(Changes.raise.kept .mem (by decide)).trans rfl, Mcl.received_congr (Changes.raise.kept .mcl (by decide))⟩
      · exact ⟨rfl, rfl⟩
    have h4 : s4.mem = s.mem ∧ s4.mcl.received = s2.mcl.received := by
      unfold s4
      split
      · exact ⟨(Changes.raise.kept .mem (by decide)).trans h3.1, (Mcl.received_congr (Changes.raise.kept .mcl (by decide))).trans h3.2⟩
      · exact h3
    have hend : s4.mclPump.mcl.received = s2.mcl.received := (State.received_mclPump _).trans h4.2
    have hlink2 : s4.mclPump.mcl.link = 2 := congrArg (·.1) hend
    have hhalf2 : s4.mclPump.mcl.half = decide half := congrArg (·.2.1) hend
    refine ⟨_, rfl, h4.1, fun h0 => ⟨hlink2, ?_⟩, fun hb _ _ => ⟨hlink2, ?_⟩, fun hb hno => ?_⟩
    · rw [hhalf2]
      simp [half, h0]
    · rw [hhalf2]
      exact decide_eq_true hb
    · refine absurd ?_ h
      rw [show decide half = true from decide_eq_true hb, Bool.true_and]
      rcases hno with hdeg | hlow
      · rw [hdeg, Bool.false_and, Bool.not_false]
      · rw [decide_eq_false hlow, Bool.and_false, Bool.not_false]

/-- The line of a snoop entry that the host owned is poisoned when the link is lost. -/
theorem mark_each_poison (s : State) (l : List Nat) {a : Nat} (h : s.poisonAt a = true ∨ unitOf a ∈ l) :
    (s.each l fun s u => s.mark u true).poisonAt a = true := by
  induction l generalizing s with
  | nil => exact h.resolve_right (by simp)
  | cons u l ih =>
    refine ih (s.mark u true) ?_
    have hput : (s.mark u true).poisonAt a = if unitOf a = u then true else s.poisonAt a := by
      simp [State.mark, State.poisonAt, Sparse.put, Sparse.get_ins]
    rw [hput]
    rcases h with h | h
    · exact .inl (by rw [h, ite_self])
    · rcases List.mem_cons.1 h with h | h
      · exact .inl (if_pos h)
      · exact .inr h

theorem unitOf_mem_touchedUnits (a n : Nat) (hn : 0 < n) : unitOf a ∈ touchedUnits a n := by
  unfold touchedUnits
  rw [if_neg (by omega)]
  exact List.mem_map.2 ⟨0, List.mem_range.2 (by omega), by rw [unitOf, Nat.add_zero]⟩

theorem linesLost_poison (s : State) {x : Snoop} (hx : x ∈ s.mcl.snoop) (hown : x.own = true) : s.linesLost.poisonAt (64 * x.line) = true := by
  have hline : x.line ∈ (s.mcl.snoop.filter (·.own)).map (·.line) := List.mem_map.2 ⟨x, List.mem_filter.2 ⟨hx, hown⟩, rfl⟩
  have key (l : List Nat) (s : State) (h : s.poisonAt (64 * x.line) = true ∨ x.line ∈ l) :
      (s.each l fun s n => s.each (touchedUnits (64 * n) 64) fun s u => s.mark u true).poisonAt (64 * x.line) = true := by
    induction l generalizing s with
    | nil => exact h.resolve_right (by simp)
    | cons n l ih =>
      refine ih _ ?_
      rcases h with h | h
      · exact .inl (mark_each_poison s _ (.inl h))
      · rcases List.mem_cons.1 h with rfl | h
        · exact .inl (mark_each_poison s _ (.inr (unitOf_mem_touchedUnits _ _ (by decide))))
        · exact .inr h
  exact key _ s (.inr hline)

/-- A loss of the link with no request of the Underlay outstanding. -/
theorem mclDown_idle (huw : s.mcl.uw = []) :
    ∃ u : State, s.mclDown = (u.orReg 50 0xC 1).raise 0x400 50 ∧ u.mcl.link = 0 ∧ u.mcl.snoop = [] ∧ u.mcl.out = [] ∧ u.mem = s.mem ∧
      u.poison = s.linesLost.poison ∧ u.regs = s.regs := by
  have hlost : s.linesLost.mcl.snoop = s.mcl.snoop ∧ s.linesLost.mem = s.mem ∧ s.linesLost.regs = s.regs ∧ s.linesLost.mcl.uw = s.mcl.uw := by
    refine State.each_induct (fun t => t.mcl.snoop = s.mcl.snoop ∧ t.mem = s.mem ∧ t.regs = s.regs ∧ t.mcl.uw = s.mcl.uw) _ _ s ⟨rfl, rfl, rfl, rfl⟩
      fun t n _ ht => State.each_induct (fun t => t.mcl.snoop = s.mcl.snoop ∧ t.mem = s.mem ∧ t.regs = s.regs ∧ t.mcl.uw = s.mcl.uw) _ _ t ht
        fun t u _ ht => ht
  obtain ⟨-, hmem, hregs, -⟩ := hlost
  unfold State.mclDown
  rw [huw]
  generalize hq : s.linesLost.modMcl (·.quiet 0) = q
  have hsnoop : q.mcl.snoop = [] := by rw [← hq]; rfl
  have hlink : q.mcl.link = 0 := by rw [← hq]; rfl
  have hout : q.mcl.out = [] := by rw [← hq]; rfl
  have hqmem : q.mem = s.mem := by rw [← hq]; exact hmem
  have hqregs : q.regs = s.regs := by rw [← hq]; exact hregs
  have hqpoison : q.poison = s.linesLost.poison := by rw [← hq]; rfl
  have hsettle : q.windowSettle.mcl.link = 0 ∧ q.windowSettle.mcl.snoop = [] ∧ q.windowSettle.mcl.out = [] ∧ q.windowSettle.mem = q.mem ∧
      q.windowSettle.poison = q.poison ∧ q.windowSettle.regs = q.regs := by
    have hno : q.uncovered = [] := by simp [State.uncovered, hsnoop]
    unfold State.windowSettle
    rw [hno]
    split
    · exact ⟨hlink, hsnoop, hout, rfl, rfl, rfl⟩
    · exact ⟨hlink, hsnoop, hout, rfl, rfl, rfl⟩
  obtain ⟨hwlink, hwsnoop, hwout, hwmem, hwpoison, hwregs⟩ := hsettle
  refine ⟨q.windowSettle.mailboxLost, ?_, hwlink, hwsnoop, hwout, hwmem.trans hqmem, hwpoison.trans hqpoison, hwregs.trans hqregs⟩
  rw [← hq]
  rfl

theorem isReport_mcl : ∀ off, off < 0x8000 → isReport (homeDom 50 off * 0x10000 + off) = false := by
  intro off hoff
  have h : homeDom 50 off = 50 := rfl
  rw [h, isReport]
  simp only [Bool.or_eq_false_iff, decide_eq_false_iff_not]
  omega

/-- The link, the lines of the host, and the messages to it. -/
def Mcl.traffic (m : Mcl) : Nat × List Snoop × List Msg := (m.link, m.snoop, m.out)

theorem Mcl.traffic_congr {m m' : Mcl} (h : m.lessReports = m'.lessReports) : m.traffic = m'.traffic :=
  (congrArg Mcl.traffic h : m.lessReports.traffic = m'.lessReports.traffic)

/-- A status bit that is set is read, and reports leave it. -/
theorem orReg_raise_spec (u : State) (hcanon : s.Canonical) (hregs : u.regs = s.regs) :
    let t := (u.orReg 50 0xC 1).raise 0x400 50
    t.mcl.traffic = u.mcl.traffic ∧ t.mem = u.mem ∧ t.poison = u.poison ∧ (t.regRaw 50 0xC).getLsbD 0 = true := by
  intro t
  have hraise : Changes [.reports] (u.orReg 50 0xC 1) t := Changes.raise
  have hset : (u.orReg 50 0xC 1).regRaw 50 0xC = s.regRaw 50 0xC ||| 1 := by
    have hsame : (u.orReg 50 0xC 1).regRaw 50 0xC = (s.orReg 50 0xC 1).regRaw 50 0xC :=
      congrArg (fun r => (State.orReg { s with regs := r } 50 0xC 1).regRaw 50 0xC) hregs
    exact hsame.trans (State.regRaw_setRegRaw_same s hcanon 50 0xC _)
  refine ⟨(Mcl.traffic_congr (hraise.kept .mcl (by decide))).trans rfl, (hraise.kept .mem (by decide)).trans rfl,
    (hraise.kept .poison (by decide)).trans rfl, ?_⟩
  rw [State.regRaw_of_regs (hraise.kept .regs (by decide)) (isReport_mcl _ (by decide)), hset]
  simp

theorem mclDown_spec (hcanon : s.Canonical) (huw : s.mcl.uw = []) :
    s.mclDown.mcl.link = 0 ∧ s.mclDown.mcl.snoop = [] ∧ s.mclDown.mcl.out = [] ∧ s.mclDown.mem = s.mem ∧
      (s.mclDown.regRaw 50 0xC).getLsbD 0 = true ∧ ∀ x ∈ s.mcl.snoop, x.own = true → s.mclDown.poisonAt (64 * x.line) = true := by
  obtain ⟨u, hdown, hlink, hsnoop, hout, hmem, hpoison, hregs⟩ := mclDown_idle huw
  obtain ⟨htraffic, htmem, htpoison, hstatus⟩ := orReg_raise_spec u hcanon hregs
  rw [← hdown] at htraffic htmem htpoison hstatus
  simp only [Mcl.traffic, Prod.mk.injEq] at htraffic
  obtain ⟨htlink, htsnoop, htout⟩ := htraffic
  refine ⟨htlink.trans hlink, htsnoop.trans hsnoop, htout.trans hout, htmem.trans hmem, hstatus, fun x hx hown => ?_⟩
  rw [State.poisonAt, htpoison, hpoison]
  exact linesLost_poison s hx hown

/-! ### The event ring and its doorbells -/

/-- Messages as the host sees them. -/
def Mcl.sent (m : Mcl) : List (BitVec 52 × List Byte) := m.out.map fun x => (x.addr, x.data)

theorem eventWrite_run {e : Event} {rest : List Event} (hup : s.mclUp = true) (hen : s.evEnabled = true) (hlost : s.mcl.lost = 0)
    (hq : s.evq = e :: rest) (hroom : s.ringRoom ≠ 0) :
    execEventWrite s = .next ((({ s with evq := rest } : State).modMcl fun m => { m with lostAfter := m.lostAfter - 1 }).writeEntry e).mclPump := by
  have hover : (if s.mcl.lostAfter = 0 then s.writeOverflow else s) = s := by
    split
    · exact if_pos (by simp [hlost])
    · rfl
  unfold execEventWrite
  rw [if_neg (by rw [hup, hen]; decide)]
  simp only [hover, hq, if_neg hroom]

theorem writeEntry_spec (s : State) (e : Event) : (s.writeEntry e).evq = s.evq ∧ (s.writeEntry e).mcl.prod = (s.mcl.prod + 1) % s.mcl.evSize ∧
    (s.writeEntry e).mcl.sent = s.mcl.sent ++ [(BitVec.ofNat 52 (s.mcl.evBase + 64 * s.mcl.prod), e.bytes s.mcl.phase)] := by
  refine ⟨rfl, rfl, ?_⟩
  exact List.map_append

theorem ring_spec (s : State) : s.ring.mcl.dbOwed = s.mcl.dbOwed ∧
    s.ring.mcl.sent = s.mcl.sent ++ [(BitVec.ofNat 52 (s.dbAddr 0x40), leBytes s.mcl.visible 4)] := by
  refine ⟨rfl, ?_⟩
  exact List.map_append

/-- The place in the event ring. -/
def Mcl.place (m : Mcl) : Nat × Bool := (m.prod, m.phase)

theorem Mcl.place_congr {m m' : Mcl} (h : m.lessReports = m'.lessReports) : m.place = m'.place :=
  (congrArg Mcl.place h : m.lessReports.place = m'.lessReports.place)

theorem fallbackSettle_keeps (s : State) : s.fallbackSettle.mcl.place = s.mcl.place ∧ s.fallbackSettle.regRaw 50 0x6C = s.regRaw 50 0x6C :=
  ⟨Mcl.place_congr (Changes.fallbackSettle.kept .mcl (by decide)),
    State.regRaw_of_regs (Changes.fallbackSettle.kept .regs (by decide)) (isReport_mcl _ (by decide))⟩

theorem State.regRaw_modMcl (s : State) (f : Mcl → Mcl) (dom off : Nat) : (s.modMcl f).regRaw dom off = s.regRaw dom off := rfl

theorem enableRing_spec (hcanon : s.Canonical) : s.enableRing.mcl.place = (0, true) ∧ s.enableRing.regRaw 50 0x6C = 0 := by
  unfold State.enableRing
  refine ⟨rfl, ?_⟩
  rw [State.regRaw_modMcl]
  exact State.regRaw_setRegRaw_same s hcanon 50 0x6C 0

theorem writeEvcfg_enables {r : Requester} {data mask : Half} (hcanon : s.Canonical) (hmask : mask.getLsbD 0 = true) (hdata : data.getLsbD 0 = true) :
    (s.writeEvcfg r data mask).mcl.prod = 0 ∧ (s.writeEvcfg r data mask).regRaw 50 0x6C = 0 ∧ (s.writeEvcfg r data mask).mcl.phase = true := by
  have hrun : s.writeEvcfg r data mask = (s.regWrite r 50 0x64 data mask).enableRing.fallbackSettle := if_pos (by rw [hmask, hdata]; rfl)
  have hwf : (s.regWrite r 50 0x64 data mask).Canonical := Changes.regWrite.canonical hcanon
  rw [hrun]
  generalize s.regWrite r 50 0x64 data mask = a at hwf
  obtain ⟨hplace, hreg⟩ := fallbackSettle_keeps a.enableRing
  obtain ⟨hstart, hzero⟩ := enableRing_spec hwf
  have hplace' := hplace.trans hstart
  exact ⟨congrArg (·.1) hplace', hreg.trans hzero, congrArg (·.2) hplace'⟩

theorem writeEvcfg_idle {r : Requester} {data mask : Half} (h : mask.getLsbD 0 = false ∨ data.getLsbD 0 = false) :
    (s.writeEvcfg r data mask).mcl.prod = s.mcl.prod := by
  have hrun : s.writeEvcfg r data mask = s.regWrite r 50 0x64 data mask := if_neg (by
    rcases h with h | h
    · rw [h, Bool.false_and]
      decide
    · rw [h, Bool.and_false]
      decide)
  rw [hrun]
  exact congrArg (·.1) (Mcl.place_congr (Changes.regWrite.kept .mcl (by decide)))

/-! ### The mailbox and the windows -/

theorem askHost_mbox (s : State) (who a n : Nat) : (s.askHost who a n).mcl.mbox = s.mcl.mbox := by
  unfold State.askHost
  split
  · rfl
  · exact State.each_induct (fun t => t.mcl.mbox = s.mcl.mbox) _ _ s rfl fun _ _ _ h => h

theorem mailboxGo_mbox (s : State) : s.mailboxGo.mclPump.mcl.mbox = some (s.mcl.mbox.getD (s.hostReg 0x30)) := by
  have hpump : s.mailboxGo.mclPump.mcl.mbox = s.mailboxGo.mcl.mbox := congrArg (·.2.2.2.2.2.2) (State.received_mclPump _)
  have hocc (t : State) (dom i : Nat) : (t.occ dom i).mcl.mbox = t.mcl.mbox :=
    congrArg (·.2.2.2.2.2.2) (Mcl.received_congr (Changes.occ.kept .mcl (by decide)))
  rw [hpump]
  unfold State.mailboxGo
  split
  · next h =>
    obtain ⟨a, ha⟩ := Option.isSome_iff_exists.1 h
    rw [hocc, ha]
    rfl
  · next h =>
    rw [hocc, askHost_mbox, Option.not_isSome_iff_eq_none.1 h, Option.getD_none]
    rfl

theorem State.windowRegs_congr {s t : State} (h : t.regs = s.regs) : t.windowRegs = s.windowRegs :=
  congrArg (fun r => State.windowRegs { s with regs := r }) h

theorem windowsChanged_alone (hsnoop : s.mcl.snoop = []) :
    s.windowsChanged.mcl.recalling = false ∧ s.windowsChanged.mcl.shared = s.windowRegs.1 ∧ s.windowsChanged.mcl.windows = s.windowRegs.2 ∧
      s.windowsChanged.regs = s.regs := by
  have hno : (s.modMcl fun m => { m with recalling := true }).uncovered = [] := by simp [State.uncovered, State.modMcl, hsnoop]
  have hrun : s.windowsChanged = (s.modMcl fun m => { m with recalling := true }).modMcl fun m =>
      { m with recalling := false, shared := (s.modMcl fun m => { m with recalling := true }).windowRegs.1,
               windows := (s.modMcl fun m => { m with recalling := true }).windowRegs.2 } := by
    unfold State.windowsChanged State.windowSettle
    rw [hno]
    rfl
  rw [hrun]
  exact ⟨rfl, rfl, rfl, rfl⟩

theorem sharedWindow_run {r : Requester} {data mask : Half} (off : Half) (hlive : s.isLive 50 = true) (hr : s.heard r = true) :
    execSharedWindowChange r off data mask s =
      if (decodeOff 50 off.toNat = 0 || (0x80 ≤ decodeOff 50 off.toNat && decodeOff 50 off.toNat < 0x100)) = true then
        if (findReg 50 (decodeOff 50 off.toNat)).isNone then .next (s.reached 50).badCsr
        else .next (((s.reached 50).regWrite r 50 (decodeOff 50 off.toNat) data mask).windowsChanged.mclPump)
      else .next (s.reached 50) := by
  unfold execSharedWindowChange
  simp only [State.reachBy_heard _ hlive hr, Bool.true_and]

theorem State.snoop_kept {K : List Part} {t : State} (h : Changes K s t) (hK : Part.mcl ∉ K := by decide) : t.mcl.snoop = s.mcl.snoop :=
  congrArg (·.2.1) (Mcl.traffic_congr (h.kept .mcl hK))
end

/-- Settles O52: flits, link states, the event ring, the mailbox and the windows. -/
theorem linkRingAndMailbox : Obligations.LinkRingAndMailbox := by
  unfold Obligations.LinkRingAndMailbox
  intro s r data mask hlive hreset hwanted hcanon hheard m s0
  have hreach (off : Nat) : s.reachBy r 50 off = (s0, true) := State.reachBy_heard off hlive hheard
  have hup (h : s.mcl.link = 2) : s.mclUp = true := by simp [State.mclUp, h, hlive, hreset]
  have hplace : s0.mcl.place = s.mcl.place := Mcl.place_congr (Changes.reached.kept .mcl (by decide))
  refine ⟨?flit, ?training, ?retrain, ?loss, ?event, ?doorbell, ?evcfg, ?evcons, ?mailbox, ?window, ?alone⟩
  case flit =>
    intro f hwf hlink
    have hrun : exec (.flit f) s = waitRecall s (.next (s.flitIn f)) := by
      simp only [exec, execFlit, hwf, hup hlink]
      rfl
    refine ⟨.of_waitRecall hrun, fun hbad => ?_, fun hcrc hseq hnak => ?_⟩
    · obtain ⟨hrec, hmem, hw⟩ := flitIn_bad hbad
      simp only [Mcl.received, Prod.mk.injEq] at hrec
      obtain ⟨-, -, hrx, hdiscard, hbytes, hinbox, -⟩ := hrec
      exact ⟨_, hrun.trans (waitRecall_next _ _ (hw hwanted)), hrx, hinbox, hbytes, hdiscard, hmem⟩
    · obtain ⟨hrec, hmem, hw⟩ := flitIn_good hcrc hseq hnak
      simp only [Mcl.received, Prod.mk.injEq] at hrec
      obtain ⟨-, -, hrx, hdiscard, -, hinbox, -⟩ := hrec
      exact ⟨_, hrun.trans (waitRecall_next _ _ (hw hwanted)), hrx, hdiscard, hinbox, hmem⟩
  case training => exact fun b hlink => trainingEnd_ends hlink hlive hreset b
  case retrain =>
    intro hlink horder
    exact ⟨if_pos (by rw [show s.mcl.link = 0 from hlink, decide_eq_true horder, hlive, hreset]; rfl), rfl⟩
  case loss =>
    intro hlink c hc
    refine ⟨.of_waitRecall ?_, fun huw => mclDown_spec hcanon huw⟩
    have hfails : mclFails s = waitRecall s (.next s.mclDown) := if_pos (hup hlink)
    rcases List.mem_pair.1 hc with rfl | rfl
    · exact hfails
    · exact hfails
  case event =>
    intro e rest hlink hen hlost hq hroom
    obtain ⟨hevq, hprod, hsent⟩ := writeEntry_spec (({ s with evq := rest } : State).modMcl fun m => { m with lostAfter := m.lostAfter - 1 }) e
    exact ⟨_, eventWrite_run (hup hlink) hen hlost hq hroom, hevq, hprod, hsent⟩
  case doorbell =>
    intro hlink hwait
    have hgo : ¬((!s.mclUp || !s.mcl.dbWait) = true) := by rw [hup hlink, show s.mcl.dbWait = true from hwait]; decide
    refine ⟨fun howed => ?_, fun hno => ?_⟩
    · obtain ⟨howed', hsent⟩ := ring_spec (s.modMcl fun m => { m with dbOwed := false })
      exact ⟨_, (if_neg hgo).trans (if_pos howed), howed', hsent⟩
    · exact (if_neg hgo).trans (if_neg (by rw [show s.mcl.dbOwed = false from hno]; decide))
  case evcfg =>
    refine ⟨s0.writeEvcfg r data mask, ?_, fun hmask hdata => ?_, fun h => ?_⟩
    · simp only [exec, execEvcfgEnable, hreach, if_true]
    · exact writeEvcfg_enables (Changes.reached.canonical hcanon) hmask hdata
    · exact (writeEvcfg_idle h).trans (congrArg (·.1) hplace)
  case evcons =>
    simp only [exec, execEvconsWrite, hreach, if_true]
  case mailbox =>
    refine ⟨s0.mailboxGo.mclPump, ?_, (mailboxGo_mbox s0).trans ?_⟩
    · simp only [exec, execMailboxGo, hreach, if_true]
    · have hmbox : s0.mcl.mbox = s.mcl.mbox := congrArg (·.2.2.2.2.2.2) (Mcl.received_congr (Changes.reached.kept .mcl (by decide)))
      have hreg (off : Nat) (hoff : off < 0x8000) : s0.regRaw 50 off = s.regRaw 50 off := s.regRaw_reached 50 (isReport_mcl off hoff)
      have hhost : s0.hostReg 0x30 = s.hostReg 0x30 := by
        simp only [State.hostReg, hreg _ (show 0x30 + 4 * 0 < 0x8000 by decide), hreg _ (show 0x30 + 4 * 1 < 0x8000 by decide),
          hreg _ (show 0x30 + 4 * 2 < 0x8000 by decide)]
      rw [hmbox, hhost]
  case window =>
    intro off o
    have hrun := sharedWindow_run (s := s) (r := r) (data := data) (mask := mask) off hlive hheard
    have hdec (h : o = 0 ∨ (0x80 ≤ o ∧ o < 0x100)) :
        (decodeOff 50 off.toNat = 0 || (0x80 ≤ decodeOff 50 off.toNat && decodeOff 50 off.toNat < 0x100)) = true := by simpa [o] using h
    refine ⟨fun h => hrun.trans (if_neg fun hb => h (by simpa [o] using hb)), fun h hnone => ?_, fun h hsome => ?_⟩
    · exact (hrun.trans (if_pos (hdec h))).trans (if_pos (by simpa [o] using hnone))
    · exact (hrun.trans (if_pos (hdec h))).trans (if_neg (by simpa [o, Option.isSome_iff_ne_none] using hsome))
  case alone =>
    intro off o h hsome hsnoop
    have hrun := sharedWindow_run (s := s) (r := r) (data := data) (mask := mask) off hlive hheard
    have hdec : (decodeOff 50 off.toNat = 0 || (0x80 ≤ decodeOff 50 off.toNat && decodeOff 50 off.toNat < 0x100)) = true := by simpa [o] using h
    have hnone : (s0.regWrite r 50 o data mask).mcl.snoop = [] :=
      (State.snoop_kept (Changes.andThen Changes.reached Changes.regWrite)).trans hsnoop
    obtain ⟨hrec, hshared, hwindows, hregs⟩ := windowsChanged_alone hnone
    have hw := State.windowRegs_congr hregs
    refine ⟨_, (hrun.trans (if_pos hdec)).trans (if_neg (by simpa [o, Option.isSome_iff_ne_none] using hsome)), hrec, ?_, ?_, hw⟩
    · exact hshared.trans (congrArg (·.1) hw).symm
    · exact hwindows.trans (congrArg (·.2) hw).symm

end Sys2Proof.Machine
end

section

/-! SUPPORT. Resets, and the loss of supplies and clocks (R529 to R531, R552 to R558). -/

namespace Sys2Proof.Machine
open Machine

/-- The state that a warm reset keeps from: lines of the host that it owned poisoned, changes of mode made. -/
def State.settled (s : State) : State := s.linesLost.each ((List.range 8).filter fun k => (s.loftAt k).reconf) State.loftApply

section
variable {s : State}

theorem linesLost_settled : Changes [.poison, .mem, .loft, .reports] s s.settled :=
  Changes.mono (Changes.andThen Changes.linesLost (Changes.each fun _ _ => Changes.loftApply))

theorem settled_idle (h : ∀ k : StackId, (s.loftAt k).reconf = false) : s.settled = s.linesLost := by
  have hnone : ((List.range 8).filter fun k => (s.loftAt k).reconf) = [] := by
    refine List.filter_eq_nil_iff.2 fun k hk => ?_
    rw [h ⟨k, List.mem_range.1 hk⟩]
    decide
  rw [State.settled, hnone]
  rfl

theorem linesLost_none (h : ∀ x ∈ s.mcl.snoop, x.own = false) : s.linesLost = s := by
  have hnone : (s.mcl.snoop.filter (·.own)) = [] := List.filter_eq_nil_iff.2 fun x hx => by rw [h x hx]; decide
  rw [State.linesLost, hnone]
  rfl

/-- What a warm reset of state `s` with cause `cause` leaves. -/
def WarmReset (s t : State) (cause : Nat) : Prop :=
  t.mem = s.settled.mem ∧ t.poison = s.settled.poison ∧ t.table = s.table ∧ t.ticket = s.ticket ∧
    t.stamp = s.stamp ∧ t.live = s.live ∧ t.jobActive = false ∧ t.ctr = {} ∧ t.pins.ready = false ∧ t.boot.order = 1 ∧
    t.keeper.rcause = cause ∧ t.keeper.flash = s.keeper.flash ∧ t.coord.valid = false ∧ t.pwrc.gnow = 0 ∧
    (∀ k : StackId, (t.loftAt k).mode = (s.settled.loftAt k).mode ∧ (t.loftAt k).reconf = false) ∧
    ((∀ k : StackId, (s.loftAt k).reconf = false) → s.settled = s.linesLost) ∧ ((∀ x ∈ s.mcl.snoop, x.own = false) → s.linesLost = s) ∧
    ∀ d : TrussId, (t.tr d).run = false ∧ (t.tr d).desc = (s.tr d).desc ∧ (t.tr d).imm = (s.tr d).imm

theorem jobActive_of_reset {s : State} (h : s.jobs = State.reset.jobs) : s.jobActive = false := by
  have hreset : State.reset.jobActive = false := by decide
  rw [State.jobActive, h]
  exact hreset

theorem vget_map {α β : Type} {n : Nat} (v : Vector α n) (f : α → β) {k : Nat} (hk : k < n) (a : α) (b : β) : vget (v.map f) k b = f (vget v k a) := by
  simp [vget, hk]

theorem warmReset_spec (s : State) (cause bstate : Nat) (f : Pins → Pins) (hf : ∀ p, (f p).ready = p.ready) :
    WarmReset s ((s.warmReset cause bstate).modPins f) cause := by
  have hkept := linesLost_settled (s := s)
  have htruss : s.settled.truss = s.truss := hkept.kept .truss (by decide)
  refine ⟨rfl, rfl, hkept.kept .table (by decide), hkept.kept .ticket (by decide), hkept.kept .stamp (by decide), hkept.kept .live (by decide),
    jobActive_of_reset rfl, rfl, hf _, rfl, rfl, hkept.kept .flash (by decide), rfl, rfl, fun k => ?_, settled_idle, linesLost_none, fun d => ?_⟩
  · have hloft : ((s.warmReset cause bstate).modPins f).loftAt k = { s.settled.loftAt k with reconf := false } := vget_map _ _ k.isLt _ _
    rw [hloft]
    exact ⟨rfl, rfl⟩
  · have hd : ((s.warmReset cause bstate).modPins f).tr d = { desc := (s.settled.tr d).desc, imm := (s.settled.tr d).imm } := vget_map _ _ d.isLt _ _
    rw [hd, State.tr_congr htruss]
    exact ⟨rfl, rfl, rfl⟩

/-- What is left where every island but D51 and D52 goes dark. -/
def WentDark (s t : State) : Prop :=
  (s.mcl.link ≠ 2 → t.mem = s.mem ∧ t.ticket = s.ticket) ∧ t.jobActive = false ∧ t.pins.ready = false ∧
    ∀ n : DomainId, vget t.live n false = decide (n.val = 51 ∨ n.val = 52)

theorem goDark_wentDark (s : State) (f : Pins → Pins) (hf : ∀ p, (f p).ready = p.ready) : WentDark s (s.goDark.modPins f) := by
  refine ⟨fun hlink => ⟨?_, Changes.goDark.kept .ticket (by decide)⟩, jobActive_of_reset rfl, hf _, live_goDark s⟩
  have hlost : s.mclLost = s.modMcl (·.quiet 0) := if_neg hlink
  have hmem : s.mclLost.mem = s.mem := by rw [hlost]; rfl
  exact hmem

theorem resetIgnored_quiet (s : State) : (s.resetIgnored.modPins fun p => { p with resetN := false }).quiet =
    { s.quiet with pins := { s.pins with resetN := false }, keeper := { s.quiet.keeper with rcause := 3 } } := by
  have h : s.resetIgnored.quiet = (s.modKeeper fun k => { k with rcause := 3 }).quiet := State.occ_quiet ..
  have hpins : s.resetIgnored.pins = s.pins := (congrArg State.pins h :)
  have hmod : (s.resetIgnored.modPins fun p => { p with resetN := false }).quiet =
      { s.resetIgnored.quiet with pins := { s.resetIgnored.pins with resetN := false } } := rfl
  rw [hmod, h, hpins]
  rfl

theorem isLive_off {s : State} (h : s.pins.pwrok = false) (n : Nat) : s.isLive n = false := by simp [State.isLive, h]

/-- The step to a boot that may begin leaves the SPI pins as they were. -/
theorem spirel_ready (k : Keeper) (h : k.spirel = false) : (if k.bstate = 4 then { k with bstate := 0 } else k).spirel = false := by
  split
  · exact h
  · exact h

/-- Settles O55: resets and losses clear and keep what the spec says. -/
theorem resetsKeepAndClear : Obligations.ResetsKeepAndClear := by
  unfold Obligations.ResetsKeepAndClear
  intro s s0 warm dark
  refine ⟨?rise, fun hon => if_pos hon, ?off, ?asserted, fun hn => if_pos hn, ?early, ?fall, ?assertWarm, ?mcWarm, ?mcTrip, ?ignored, ?release, rfl, ?losses⟩
  case rise =>
    intro hoff
    exact ⟨_, if_neg (by rw [hoff]; decide), rfl, rfl, rfl, rfl, rfl, rfl, rfl⟩
  case off =>
    intro hoff c hc
    have hno : (!s.pins.pwrok) = true := by rw [hoff]; rfl
    fin_cases hc
    all_goals exact if_pos hno
  case asserted => exact fun hn => if_pos (by rw [hn]; rfl)
  case early =>
    intro hn hoff
    exact (if_neg (by rw [hn]; decide)).trans (if_pos (by rw [hoff]; rfl))
  case fall =>
    intro hon
    refine ⟨_, if_neg (by rw [hon]; decide), rfl, Bool.and_false _, rfl, fun n => isLive_off rfl n⟩
  case assertWarm =>
    intro hn hon hcool
    refine ⟨_, ((if_neg (by rw [hn]; decide)).trans (if_neg (by rw [hon]; decide))).trans (if_neg (by rw [hcool]; decide)),
      warmReset_spec s 1 4 _ fun _ => rfl, rfl, rfl, fun hext => ?_⟩
    have htap : ((s.warmReset 1 4).modPins fun p => { p with resetN := false, released := true }).tap = s.tap :=
      linesLost_settled.kept .tap (by decide)
    exact (if_neg (by rw [htap, hext]; decide)).trans (Bool.and_false _)
  case mcWarm =>
    intro hon hcool
    exact ⟨_, (s.warmReset 2 (if s.pins.resetN then 0 else 4)).modPins fun p => { p with released := !p.resetN },
      (if_neg (by rw [hon]; decide)).trans (if_neg (by rw [hcool]; decide)), warmReset_spec s 2 _ _ fun _ => rfl, rfl⟩
  case mcTrip => exact fun hon htrip => (if_neg (by rw [hon]; decide)).trans (if_pos htrip)
  case ignored =>
    intro hn hon htrip
    exact ⟨_, ((if_neg (by rw [hn]; decide)).trans (if_neg (by rw [hon]; decide))).trans (if_pos htrip), resetIgnored_quiet s⟩
  case release =>
    intro hn
    refine ⟨_, if_neg (by rw [hn]; decide), ?_⟩
    split
    · exact ⟨rfl, rfl, rfl, rfl, rfl⟩
    · refine ⟨rfl, rfl, rfl, ?_, rfl⟩
      exact spirel_ready _ rfl
  case losses =>
    intro hon
    have hgo : ¬((!s.pins.pwrok) = true) := by rw [hon]; decide
    exact ⟨⟨_, if_neg hgo, goDark_wentDark s _ fun _ => rfl, rfl⟩, ⟨_, if_neg hgo, goDark_wentDark s _ fun _ => rfl, rfl⟩,
      .of_waitRecall (if_neg hgo), .of_waitRecall (if_neg hgo)⟩

end
end Sys2Proof.Machine
end

section

/-! SUPPORT. The MC's commands on a device that serves them all, the I3C codes, and TAP instructions (R544 to R547, R561, R563). -/

namespace Sys2Proof.Machine
open Machine

/-! ### The MC's commands -/

/-- A READY device with its supplies, out of hold and with no line of the host wanted. -/
structure Serves (s : State) : Prop where
  pwrok : s.pins.pwrok = true
  resetN : s.pins.resetN = true
  p12v : s.pins.p12v = true
  ref0 : s.pins.ref0 = true
  ready : s.keeper.bstate = 1
  outOfHold : s.pwrc.hold = false
  wanted : s.mcl.wanted = []

namespace Serves

variable {s : State} {c : McClass} {f : State → State × Nat × List Byte}

theorem all (h : Serves s) (c : McClass) : s.mcServes c = true := by
  unfold State.mcServes
  rw [if_neg (by rw [h.resetN, h.ready]; decide), if_neg (by rw [h.p12v, h.ref0]; decide), if_neg (by rw [h.ready, h.outOfHold]; decide)]

theorem answers (h : Serves s) (hwanted : (f s).1.mcl.wanted = []) : mcCommand c s f = .next ((f s).1.answer (f s).2.1 (f s).2.2) :=
  mcCommand_served h.pwrok (h.all c) hwanted

theorem waits (h : Serves s) : mcCommand c s f = waitRecall s (.next ((f s).1.answer (f s).2.1 (f s).2.2)) := by
  simp [mcCommand, h.pwrok, h.all c]

theorem evread_none (h : Serves s) (hheld : s.keeper.held = []) : execEvread s = .next (s.answer 0 []) := by
  refine (h.answers ?_).trans ?_
  · rw [hheld]
    exact h.wanted
  · rw [hheld]

theorem evread_some (h : Serves s) {e : Event} {rest : List Event} (hheld : s.keeper.held = e :: rest) :
    execEvread s = .next ((State.answer { s with keeper := { s.keeper with held := rest } }) 0 (e.bytes false)) := by
  refine (h.answers ?_).trans ?_
  · rw [hheld]
    exact h.wanted
  · rw [hheld]
    rfl

theorem setcoord_pending (h : Serves s) (x : BitVec 16) (hactive : s.jobActive = true) :
    execSetcoord x s = .next ((State.answer { s with coord := { s.coord with valid := true, pending := some x, gone := State.reset.coord.gone } }) 0 []) := by
  have hset : s.setCoord x = { s with coord := { s.coord with valid := true, pending := some x, gone := State.reset.coord.gone } } := if_pos hactive
  rw [execSetcoord, h.answers (show (s.setCoord x).mcl.wanted = [] by rw [hset]; exact h.wanted), hset]

theorem setcoord_applied (h : Serves s) (x : BitVec 16) (hidle : s.jobActive = false) :
    Completes (.setcoord x) s ((s.putCoord x).answer 0 []) := by
  have hset : s.setCoord x = s.putCoord x := if_neg (by rw [hidle]; decide)
  refine .of_waitRecall ?_
  rw [← hset]
  show execSetcoord x s = _
  unfold execSetcoord
  exact h.waits

theorem csrrd_word (h : Serves s) {d : Word48} (hword : (placeOf d.toNat).region.isWord = true) :
    let n := if (placeOf d.toNat).region = .csr then 4 else 8
    execMcCsrrd d s = .next ((s.wordRead .keeper d.toNat n).1.answer 0 (leBytes (s.wordRead .keeper d.toNat n).2 n)) := by
  intro n
  unfold execMcCsrrd
  refine (h.answers ?_).trans ?_
  · rw [if_neg (by rw [hword]; decide)]
    exact Changes.wordRead.kept .wanted (by decide) h.wanted
  · rw [if_neg (by rw [hword]; decide)]

theorem csrrd_other (h : Serves s) {d : Word48} (hword : (placeOf d.toNat).region.isWord = false) : execMcCsrrd d s = .next (s.answer 3 []) := by
  unfold execMcCsrrd
  refine (h.answers ?_).trans ?_
  · rw [if_pos (by rw [hword]; decide)]
    exact h.wanted
  · rw [if_pos (by rw [hword]; decide)]

theorem csrwr_word (h : Serves s) {d : Word48} (l : List Byte) (hword : (placeOf d.toNat).region.isWord = true) :
    Completes (.mcCsrwr d l) s ((s.wordWrite .keeper d.toNat l).answer 0 []) := by
  refine .of_waitRecall ?_
  show execMcCsrwr d l s = _
  unfold execMcCsrwr
  refine h.waits.trans ?_
  rw [if_pos hword]

theorem csrwr_other (h : Serves s) {d : Word48} (l : List Byte) (hword : (placeOf d.toNat).region.isWord = false) :
    execMcCsrwr d l s = .next (s.answer 3 []) := by
  unfold execMcCsrwr
  refine (h.answers ?_).trans ?_
  · rw [if_neg (by rw [hword]; decide)]
    exact h.wanted
  · rw [if_neg (by rw [hword]; decide)]

theorem report_busy (h : Serves s) (n : BitVec 8) (hsign : s.keeper.signing.any (·.2.isNone) = true) : execReport n s = .next (s.answer 1 []) := by
  unfold execReport
  refine (h.answers ?_).trans ?_
  · rw [if_pos hsign]
    exact h.wanted
  · rw [if_pos hsign]

theorem report_chunk (h : Serves s) (n : BitVec 8) (hsign : ¬s.keeper.signing.any (·.2.isNone) = true) :
    execReport n s = .next (s.answer 0 ((s.keeper.report.drop (255 * n.toNat)).take 255)) := by
  unfold execReport
  refine (h.answers ?_).trans ?_
  · rw [if_neg hsign]
    exact h.wanted
  · rw [if_neg hsign]

theorem mcAttest_asks (h : Serves s) {l : List Byte} (hlen : l.length = 32) :
    execMcAttest l s = .next ((State.answer { s with keeper := { s.keeper with signing := s.keeper.signing ++ [(l, none)] } }) 0 []) := by
  unfold execMcAttest
  refine (h.answers ?_).trans ?_
  · rw [if_pos hlen]
    exact h.wanted
  · rw [if_pos hlen]
    rfl

theorem mcBist_answers (h : Serves s) (w : Word64) :
    let b := s.bistStart (if w = 0 then s.bistSel else w.toNat) none
    Completes (.mcBist w) s (b.1.answer (if b.2 then 0 else 3) []) := by
  refine .of_waitRecall ?_
  show execMcBist w s = _
  unfold execMcBist
  exact h.waits

theorem status_answers (h : Serves s) : ∃ l, execStatus s = .next (s.answer 0 l) := by
  unfold execStatus
  exact ⟨_, h.answers h.wanted⟩

theorem telem_answers (h : Serves s) : ∃ l, execTelem s = .next (s.answer 0 l) := by
  unfold execTelem
  exact ⟨_, h.answers h.wanted⟩

theorem setgrant_writes (h : Serves s) (g : BitVec 7) (b : Bool) : execSetgrant g b s =
    .next (State.answer { s with pwrc := { s.pwrc with grant := min 46 g.toNat, gpend := some (min 46 g.toNat), gNow := b } } 0 []) := by
  unfold execSetgrant
  exact h.answers h.wanted

theorem setcap_writes (h : Serves s) (w : Half) : execSetcap w s = .next ((s.regWrite .keeper 52 0x14 w 0xFFFF).answer 0 []) := by
  unfold execSetcap
  exact h.answers (Changes.regWrite.kept .wanted (by decide) h.wanted)

theorem release_idle (h : Serves s) : execRelease s = .next (s.answer 0 []) := by
  have hsame : s.holdRelease = s := if_pos (by rw [h.outOfHold]; rfl)
  unfold execRelease
  rw [h.answers (show s.holdRelease.mcl.wanted = [] by rw [hsame]; exact h.wanted), hsame]

theorem spiRelease_releases (h : Serves s) : ∃ u : State, u.keeper.spirel = true ∧ u.mem = s.mem ∧ execSpiRelease s = .next (u.answer 0 []) := by
  have hraise : Changes [.reports] (s.modKeeper fun k => { k with spirel := true }) ((s.modKeeper fun k => { k with spirel := true }).raise 0x484 51) :=
    Changes.raise
  have hkeeper := hraise.kept .keeper (by decide)
  refine ⟨_, (congrArg Keeper.spirel hkeeper :), (hraise.kept .mem (by decide)).trans rfl, ?_⟩
  unfold execSpiRelease
  exact h.answers (hraise.kept .wanted (by decide) h.wanted)

end Serves

/-! ### The I3C codes and the TAP -/

section
variable {s : State} (hpwrok : s.pins.pwrok = true)
include hpwrok

theorem ccc_run (f : State → State) : ccc s f = .next (f s) := congrArg Host.Outcome.next (if_pos hpwrok)

theorem cccRead_run (hhas : s.keeper.i3cAddr.isSome = true) (l : List Byte) :
    ccc s (·.cccRead l) = .next { s with keeper := { s.keeper with ccc := l } } :=
  (ccc_run hpwrok _).trans (congrArg Host.Outcome.next (if_pos hhas))

omit hpwrok in
theorem State.takeAddr_none (haddr : s.keeper.i3cAddr = none) (a : BitVec 7) : s.takeAddr a = { s with keeper := { s.keeper with i3cAddr := some a } } := by
  simp only [State.takeAddr, State.modKeeper, haddr, Option.none_or]

omit hpwrok in
theorem State.takeAddr_some (haddr : s.keeper.i3cAddr.isSome = true) (a : BitVec 7) : s.takeAddr a = s := by
  obtain ⟨b, hb⟩ := Option.isSome_iff_exists.1 haddr
  have hor : s.keeper.i3cAddr.or (some a) = s.keeper.i3cAddr := by rw [hb]; rfl
  simp only [State.takeAddr, State.modKeeper, hor]

theorem entdaa_none (haddr : s.keeper.i3cAddr = none) (a : BitVec 7) :
    execEntdaa a s = .next { s with keeper := { s.keeper with i3cAddr := some a } } := by
  unfold execEntdaa
  rw [ccc_run hpwrok, s.takeAddr_none haddr a]

theorem entdaa_some (haddr : s.keeper.i3cAddr.isSome = true) (a : BitVec 7) : execEntdaa a s = .next s := by
  unfold execEntdaa
  rw [ccc_run hpwrok, s.takeAddr_some haddr a]

theorem rstdaa_run : execRstdaa s = .next { s with keeper := { s.keeper with i3cAddr := none } } := by
  unfold execRstdaa
  exact ccc_run hpwrok _

theorem getstatus_run (haddr : s.keeper.i3cAddr.isSome = true) : execGetstatus s =
    .next { s with free := s.free + 1, keeper := { s.keeper with ccc := beBytes (Config.i3cStatus s.free).toNat 2 } } := by
  unfold execGetstatus
  rw [ccc_run hpwrok]
  exact congrArg Host.Outcome.next (if_pos haddr)

theorem setdasa_none (haddr : s.keeper.i3cAddr = none) (st a : BitVec 7) : execSetdasa st a s =
    .next { s with keeper := { s.keeper with i3cAddr := if st.toNat = 0x40 + s.pins.slotId.toNat then some a else none } } := by
  refine (ccc_run hpwrok _).trans (congrArg Host.Outcome.next ?_)
  split
  · exact s.takeAddr_none haddr a
  · rw [← haddr]

theorem setdasa_some (haddr : s.keeper.i3cAddr.isSome = true) (st a : BitVec 7) : execSetdasa st a s = .next s := by
  refine (ccc_run hpwrok _).trans (congrArg Host.Outcome.next ?_)
  split
  · exact s.takeAddr_some haddr a
  · rfl

theorem tapCommand_run (f : State → State) : tapCommand s f = .next (f s) := congrArg Host.Outcome.next (if_pos hpwrok)

theorem tapCommand_ends {f : State → State} {t : State} (h : (f s).quiet = t.quiet) : EndsIn (tapCommand s f) t :=
  ⟨f s, tapCommand_run hpwrok f, h⟩

omit hpwrok in
theorem State.loadTap_quiet (s : State) (ir : BitVec 4) (dr : BitVec 32) (b : Bool) :
    (s.loadTap ir dr b).quiet = (State.quiet { s with tap := { s.tap with ir, dr, extest := b } }) := State.occ_quiet ..

theorem bypass_ends : EndsIn (execBypass s) { s with tap := { s.tap with ir := 1, dr := 0, extest := false } } := by
  unfold execBypass
  exact tapCommand_ends hpwrok (State.loadTap_quiet ..)

theorem idcode_ends : EndsIn (execIdcode s) { s with tap := { s.tap with ir := 2, dr := 0x10C883D5, extest := false } } := by
  unfold execIdcode
  exact tapCommand_ends hpwrok (State.loadTap_quiet ..)

theorem samplePreload_ends : EndsIn (execSamplePreload s) { s with free := s.free + 1, tap :=
    { ir := 3, dr := 0, cells := BitVec.ofNat 23 (Config.freeValue s.free), extest := false } } := by
  unfold execSamplePreload
  exact tapCommand_ends hpwrok (State.loadTap_quiet ..)

theorem extest_bypassed (hreset : s.pins.resetN = true) :
    EndsIn (execExtest s) { s with tap := { s.tap with ir := 1, dr := 0, extest := false } } := by
  unfold execExtest
  refine tapCommand_ends hpwrok ?_
  rw [if_pos hreset]
  exact (State.occ_quiet ..).trans (State.loadTap_quiet ..)

theorem extest_drives (hreset : s.pins.resetN = false) :
    EndsIn (execExtest s) { s with tap := { s.tap with ir := 4, dr := 0, extest := true } } := by
  unfold execExtest
  refine tapCommand_ends hpwrok ?_
  rw [if_neg (by rw [hreset]; decide)]
  exact State.loadTap_quiet ..

end

/-- Settles O58: the MC's commands, the I3C codes and the TAP instructions are answered and act. -/
theorem sidebandAndTapCommands : Obligations.SidebandAndTapCommands := by
  unfold Obligations.SidebandAndTapCommands
  refine ⟨?mc, ?codes⟩
  case mc =>
    intro s hpwrok hreset hp12v href0 hready hhold hwanted ok
    have h : Serves s := ⟨hpwrok, hreset, hp12v, href0, hready, hhold, hwanted⟩
    refine ⟨h.status_answers, h.telem_answers, h.evread_none, fun e rest => h.evread_some, h.setcoord_pending, h.setcoord_applied,
      h.setgrant_writes, h.setcap_writes, h.release_idle, fun d => ⟨fun hword => ⟨h.csrrd_word hword, fun l => h.csrwr_word l hword⟩,
        fun hword => ⟨h.csrrd_other hword, fun l => h.csrwr_other l hword⟩⟩, h.mcBist_answers, fun l => h.mcAttest_asks, fun n => ?report,
      h.spiRelease_releases⟩
    split
    · next hsign => exact h.report_busy n hsign
    · next hsign => exact h.report_chunk n hsign
  case codes =>
    intro s st a hpwrok k holds
    refine ⟨fun hnone => ⟨entdaa_none hpwrok hnone a, setdasa_none hpwrok hnone st a⟩, fun hsome => ⟨entdaa_some hpwrok hsome a,
      setdasa_some hpwrok hsome st a, ?getpid, ?getbcr, ?getdcr, ?getmrl, ?getmwl, getstatus_run hpwrok hsome⟩, rstdaa_run hpwrok,
      bypass_ends hpwrok, idcode_ends hpwrok, samplePreload_ends hpwrok, extest_bypassed hpwrok, extest_drives hpwrok, rfl⟩
    case getpid => exact cccRead_run hpwrok hsome _
    case getbcr => exact cccRead_run hpwrok hsome _
    case getdcr => exact cccRead_run hpwrok hsome _
    case getmrl => exact cccRead_run hpwrok hsome _
    case getmwl => exact cccRead_run hpwrok hsome _

end Sys2Proof.Machine
end

section

/-! SUPPORT. Self-test island by island, the mailbox services of the Keeper, and the reports it signs (R461, R540 to R543, R546, R562). -/

namespace Sys2Proof.Machine
open Machine

/-! ### What reports leave of the Keeper -/

theorem Keeper.flash_congr {k k' : Keeper} (h : k.lessReports = k'.lessReports) : k.flash = k'.flash :=
  (congrArg Keeper.flash h :)

theorem Keeper.signed_congr {k k' : Keeper} (h : k.lessReports = k'.lessReports) : (k.report, k.signing) = (k'.report, k'.signing) :=
  (congrArg (fun k : Keeper => (k.report, k.signing)) h :)

/-! ### Self-test -/

theorem bistStart_busy {s : State} (h : s.bist.busy = true) (mask : Nat) (mb : Option Word32) : s.bistStart mask mb = (s, false) :=
  if_pos h

theorem bistStart_occupied {s : State} (hbusy : s.bist.busy = false) (h : s.jobActive = true ∨ s.truss.toList.any (·.run) = true)
    (mask : Nat) (mb : Option Word32) : s.bistStart mask mb = ((s.orReg 57 0x1C 8).occ 57 2, false) :=
  (if_neg (by rw [hbusy]; decide)).trans (if_pos (by rw [Bool.or_eq_true]; exact h))

theorem bistGo_busy {s : State} (h : s.bist.busy = true) : s.bistGo = s := by
  rw [State.bistGo, bistStart_busy h]

theorem bistGo_occupied {s : State} (hbusy : s.bist.busy = false) (h : s.jobActive = true ∨ s.truss.toList.any (·.run) = true) :
    s.bistGo.bist = s.bist := by
  have hkeeps : Changes [.regs, .reports] s ((s.orReg 57 0x1C 8).occ 57 2) := .mono (.andThen .orReg .occ)
  rw [State.bistGo, bistStart_occupied hbusy h]
  exact hkeeps.kept .bist (by decide)

theorem bistGo_heard {r : Requester} {s : State} (hheard : s.heard r = true) (hlive : s.isLive 57 = true) :
    Completes (.bistGo r) s (s.reached 57).bistGo := by
  refine .of_waitRecall ?_
  show execBistGo r s = _
  unfold execBistGo
  rw [State.reachBy_heard _ hlive hheard]
  rfl

/-- What a run has found so far: the signatures, the aggregate and the islands that failed. -/
def Bist.findings (b : Bist) : Vector Word64 60 × Word64 × List Nat := (b.sigs, b.agg, b.failed)

/-- The next test leaves what the run has found, and the run goes on exactly while an island is left. -/
theorem testNext_bist {s : State} (hbusy : s.bist.busy = true) :
    s.testNext.bist.findings = s.bist.findings ∧ s.testNext.bist.busy = !s.bist.todo.isEmpty := by
  unfold State.testNext
  split
  next n rest htodo =>
    have h : (s.beforeTest n).bist = s.bist := Changes.beforeTest.kept .bist (by decide)
    refine ⟨(congrArg Bist.findings h :), ?_⟩
    rw [htodo]
    exact (congrArg Bist.busy h :).trans hbusy
  next htodo =>
    extract_lets b s1 s2 s3
    have h3 : s3.bist = s1.bist :=
      (show Changes [.reports, .boot] s1 s3 from .mono (.andThen .raise (.ite .bootTo .refl))).kept .bist (by decide)
    rw [htodo]
    split
    · have h : ∀ payload, (s3.respond ‹_› mbOk payload).bist = s1.bist := fun _ =>
        ((Changes.respond (s := s3)).kept .bist (by decide)).trans h3
      exact ⟨(congrArg Bist.findings (h _) :), (congrArg Bist.busy (h _) :)⟩
    · exact ⟨(congrArg Bist.findings h3 :), (congrArg Bist.busy h3 :)⟩

/-- The signature that a test ends with, taken into the run. -/
def Bist.take (b : Bist) (sig : Word64) : Bist :=
  { b with sigs := vmod b.sigs b.cur fun _ => sig, agg := b.agg.rotateLeft 1 ^^^ sig,
           failed := if decide (sig.toNat ≠ Config.bistPublished b.cur b.kind) then b.failed ++ [b.cur] else b.failed }

/-- What a run does between a signature and the next island leaves the record of the run. -/
theorem testDone_eq (s : State) (sig : Word64) : ∃ u : State, s.testDone sig = u.testNext ∧ u.bist = s.bist.take sig := by
  unfold State.testDone
  extract_lets b n bad s1 s2 s3 s4 s5 s6
  refine ⟨_, rfl, ?_⟩
  have h3 : s3.bist = s1.bist := ((Changes.ite (.andThen .orReg .occ) .refl : Changes _ s2 s3).kept .bist (by decide)).trans
    (Changes.occ.kept .bist (by decide))
  have h4 : s4.bist = s3.bist := (Changes.ite .raise .refl : Changes _ s3 s4).kept .bist (by decide)
  have h5 : s5.bist = s4.bist := (Changes.ite (.andThen .resetRegs .resetParts) .refl).kept .bist (by decide)
  have h6 : s6.bist = s5.bist := (Changes.ite .wipeParts .refl).kept .bist (by decide)
  have h7 : (s6.afterTest n).bist = s6.bist := Changes.afterTest.kept .bist (by decide)
  exact h7.trans (h6.trans (h5.trans (h4.trans (h3.trans rfl))))

theorem testDone_bist {s : State} (sig : Word64) (hbusy : s.bist.busy = true) (hcur : s.bist.cur < 60) :
    vget (s.testDone sig).bist.sigs s.bist.cur 0 = sig ∧ (s.testDone sig).bist.agg = s.bist.agg.rotateLeft 1 ^^^ sig ∧
      (s.testDone sig).bist.busy = !s.bist.todo.isEmpty ∧
      (s.testDone sig).bist.failed =
        s.bist.failed ++ (if sig.toNat = Config.bistPublished s.bist.cur s.bist.kind then [] else [s.bist.cur]) := by
  obtain ⟨u, heq, hu⟩ := testDone_eq s sig
  obtain ⟨hfound, hgoes⟩ := testNext_bist (s := u) (by rw [hu]; exact hbusy)
  rw [hu] at hfound hgoes
  rw [heq]
  simp only [Bist.findings, Prod.mk.injEq] at hfound
  obtain ⟨hsigs, hagg, hfailed⟩ := hfound
  refine ⟨?_, hagg, hgoes, hfailed.trans ?_⟩
  · rw [hsigs]
    exact vget_vmod_same _ _ _ _ hcur
  · by_cases h : sig.toNat = Config.bistPublished s.bist.cur s.bist.kind <;> simp [Bist.take, h]

theorem islandTestDone_ignored {s : State} (sig : Word64) (h : (s.bist.busy && s.pins.pwrok && s.pins.resetN) = false) :
    exec (.islandTestDone sig) s = .next s := by
  show execIslandTestDone sig s = _
  refine if_pos ?_
  revert h
  cases s.bist.busy <;> cases s.pins.pwrok <;> cases s.pins.resetN <;> decide

theorem islandTestDone_taken {s : State} (sig : Word64) (hbusy : s.bist.busy = true) (hpwrok : s.pins.pwrok = true)
    (hreset : s.pins.resetN = true) : Completes (.islandTestDone sig) s (s.testDone sig) := by
  refine .of_waitRecall ?_
  show execIslandTestDone sig s = _
  exact if_neg (by rw [hbusy, hpwrok, hreset]; decide)

/-! ### Reports signed -/

/-- The Keeper with the oldest report asked for made. -/
def State.sign (s : State) (nonce : List Byte) (rest : List (List Byte × Option Word32)) : State :=
  (s.modKeeper fun k => { k with signing := rest, report := s.mkReport nonce }).occ 51 3

theorem sign_keeper (s : State) (nonce : List Byte) (rest : List (List Byte × Option Word32)) :
    (s.sign nonce rest).keeper.report = s.mkReport nonce ∧ (s.sign nonce rest).keeper.signing = rest := by
  have h := Keeper.signed_congr
    ((Changes.occ (s := s.modKeeper fun k => { k with signing := rest, report := s.mkReport nonce }) (dom := 51) (i := 3) (n := 1)).kept
      .keeper (by decide))
  exact ⟨congrArg (·.1) h, congrArg (·.2) h⟩

theorem attestSigned_ignored {s : State} (h : s.isLive 51 = false ∨ s.keeper.signing = []) : exec .attestSigned s = .next s := by
  show execAttestSigned s = _
  unfold execAttestSigned
  obtain h | h := h
  · exact if_pos (by rw [h]; rfl)
  · split
    · rfl
    · rw [h]

theorem attestSigned_eq {s : State} {nonce : List Byte} {mb : Option Word32} {rest : List (List Byte × Option Word32)}
    (hlive : s.isLive 51 = true) (h : s.keeper.signing = (nonce, mb) :: rest) :
    exec .attestSigned s = .next (mb.elim (s.sign nonce rest) fun tag => (s.sign nonce rest).respond tag 0 (s.mkReport nonce)) := by
  show execAttestSigned s = _
  unfold execAttestSigned
  rw [if_neg (by rw [hlive]; decide), h]
  cases mb <;> rfl

/-! ### Mailbox requests -/

/-- The state in which a command of the mailbox acts: the Keeper has asked the host for the request's payload. -/
def State.payloadAsked (s : State) (len : Nat) : State := s.askHost 8 (s.mcl.mbox.getD 0 + 16) len

theorem mbServe_idle {s : State} (h : s.mbReady = false) (cmd len : Nat) (tag : Word32)
    (f : State → Host.Outcome State Fault Refusal) : mbServe cmd len tag f s = .next s := if_pos (by rw [h]; rfl)

theorem mbServe_ready {s : State} (h : s.mbReady = true) {cmd len : Nat} (hlen : mbStatus cmd len = 0) (tag : Word32)
    (f : State → Host.Outcome State Fault Refusal) : mbServe cmd len tag f s = f (s.payloadAsked len) :=
  (if_neg (by rw [h]; decide)).trans (if_neg (by rw [hlen]; decide))

theorem mbServe_badLen {s : State} (h : s.mbReady = true) {cmd len : Nat} (hlen : mbStatus cmd len = 2) (tag : Word32)
    (f : State → Host.Outcome State Fault Refusal) : mbServe cmd len tag f s = .next ((s.payloadAsked len).respond tag 2 []) := by
  refine (if_neg (by rw [h]; decide)).trans ((if_pos (by rw [hlen]; decide)).trans ?_)
  rw [hlen]
  rfl

theorem mbCommand_ready {s : State} (h : s.mbReady = true) {cmd len : Nat} (hlen : mbStatus cmd len = 0) (tag : Word32)
    (f : State → State × Nat × List Byte) : mbCommand cmd len tag f s =
      .next ((f (s.payloadAsked len)).1.respond tag (f (s.payloadAsked len)).2.1 (f (s.payloadAsked len)).2.2) :=
  mbServe_ready h hlen tag _

/-- Asking the host for the payload changes the link alone. -/
theorem payloadAsked_link (s : State) (len : Nat) : ∃ m, s.payloadAsked len = { s with mcl := m } := by
  unfold State.payloadAsked State.askHost
  split
  · exact ⟨s.mcl, rfl⟩
  · refine State.each_induct (fun t => ∃ m, t = { s with mcl := m }) _ _ s ⟨s.mcl, rfl⟩ ?_
    rintro _ _ - ⟨m, rfl⟩
    exact ⟨_, rfl⟩

theorem payloadAsked_keeper (s : State) (len : Nat) : (s.payloadAsked len).keeper = s.keeper := by
  obtain ⟨m, h⟩ := payloadAsked_link s len
  rw [h]

theorem cert_payloadAsked (s : State) (len : Nat) : (s.payloadAsked len).cert = s.cert := by
  unfold State.cert State.flash
  rw [payloadAsked_keeper]

theorem flashDenied_payloadAsked (s : State) (len off n : Nat) : (s.payloadAsked len).flashDenied off n = s.flashDenied off n := by
  unfold State.flashDenied
  rw [payloadAsked_keeper]

theorem bistSel_payloadAsked (s : State) (len : Nat) : (s.payloadAsked len).bistSel = s.bistSel := by
  obtain ⟨m, h⟩ := payloadAsked_link s len
  rw [h]
  rfl

theorem mailbox_idle {s : State} (h : s.mbReady = false) (tag : Word32) (w : Word64) (off : Word32) (l : List Byte) :
    ∀ c ∈ [Instr.info tag, .cert tag, .mbAttest tag l, .mbBist tag w, .flerase tag off, .flwrite tag off l, .seccommit tag],
      exec c s = .next s := by
  have hcommand (cmd len : Nat) (f : State → State × Nat × List Byte) : mbCommand cmd len tag f s = .next s := mbServe_idle h ..
  simp only [List.forall_mem_cons]
  refine ⟨show execInfo tag s = _ from hcommand .., show execCert tag s = _ from hcommand ..,
    mbServe_idle h 3 l.length tag fun s => .next (s.attest l (some tag)), show execMbBist tag w s = _ from mbServe_idle h ..,
    show execFlerase tag off s = _ from hcommand .., show execFlwrite tag off l s = _ from ?_,
    show execSeccommit tag s = _ from hcommand .., List.forall_mem_nil _⟩
  unfold execFlwrite
  exact hcommand ..

section ready

variable {s : State} (h : s.mbReady = true) (tag : Word32)
include h

theorem info_ready : exec (.info tag) s = .next ((s.payloadAsked 0).respond tag 0 (s.keeper.header ++
    [BitVec.ofNat 8 (flag s.keeper.slot), BitVec.ofNat 8 (flag s.keeper.fallback)] ++ (s.cert.drop 8).take 8)) := by
  show execInfo tag s = _
  refine (mbCommand_ready h (cmd := 1) (len := 0) rfl tag _).trans ?_
  rw [payloadAsked_keeper, cert_payloadAsked]

theorem cert_ready : exec (.cert tag) s = .next ((s.payloadAsked 0).respond tag 0 s.cert) := by
  show execCert tag s = _
  refine (mbCommand_ready h (cmd := 2) (len := 0) rfl tag _).trans ?_
  rw [cert_payloadAsked]

/-- A sector erased, under a Keeper that has asked for the payload. -/
theorem flerase_ready (off : Word32) : let a := off.toNat / 0x10000 * 0x10000
    (s.flashDenied a 0x10000 = true → exec (.flerase tag off) s = .next ((s.payloadAsked 4).respond tag 3 [])) ∧
    (s.flashDenied a 0x10000 = false → ∃ u : State, exec (.flerase tag off) s = .next (u.respond tag 0 []) ∧
      ∀ x, flashAt u.keeper.flash x = if a ≤ x ∧ x < a + 0x10000 then 0xFF else flashAt s.keeper.flash x) := by
  intro a
  have hready := mbCommand_ready h (cmd := 5) (len := 4) rfl tag fun s =>
    if s.flashDenied a 0x10000 then (s, mbDenied, [])
    else ((s.modKeeper fun k => { k with flash := .erase a :: k.flash }).occ 51 5, mbOk, [])
  rw [flashDenied_payloadAsked] at hready
  refine ⟨fun hdenied => hready.trans (by rw [if_pos hdenied]), fun hallowed => ?_⟩
  refine ⟨_, hready.trans (by rw [if_neg (by rw [hallowed]; decide)]), fun x => ?_⟩
  rw [Keeper.flash_congr (Changes.occ.kept .keeper (by decide))]
  show flashAt (.erase a :: (s.payloadAsked 4).keeper.flash) x = _
  rw [payloadAsked_keeper]
  simp [flashAt]

theorem flwrite_badLen (off : Word32) {l : List Byte} (hlen : l.length = 0 ∨ 4064 < l.length) :
    exec (.flwrite tag off l) s = .next ((s.payloadAsked (4 + l.length)).respond tag 2 []) := by
  show execFlwrite tag off l s = _
  unfold execFlwrite mbCommand
  refine mbServe_badLen h (cmd := 6) (len := 4 + l.length) ?_ tag _
  refine if_neg ?_
  simp only [Bool.and_eq_true, decide_eq_true_eq]
  omega

/-- Bytes programmed, under a Keeper that has asked for the payload. -/
theorem flwrite_ready (off : Word32) {l : List Byte} (hpos : 1 ≤ l.length) (hlen : l.length ≤ 4064) :
    (s.flashDenied off.toNat l.length = true → exec (.flwrite tag off l) s = .next ((s.payloadAsked (4 + l.length)).respond tag 3 [])) ∧
    (s.flashDenied off.toNat l.length = false → ∃ u : State, exec (.flwrite tag off l) s = .next (u.respond tag 0 []) ∧
      ∀ x, flashAt u.keeper.flash x = if off.toNat ≤ x ∧ x < off.toNat + l.length then
        l.getD (x - off.toNat) 0 &&& flashAt s.keeper.flash x else flashAt s.keeper.flash x) := by
  have hfits : mbStatus 6 (4 + l.length) = 0 := if_pos (by
    simp only [Bool.and_eq_true, decide_eq_true_eq]
    omega)
  have hready := mbCommand_ready h hfits tag fun s =>
    if s.flashDenied off.toNat l.length then (s, mbDenied, [])
    else ((s.modKeeper fun k => { k with flash := .write off.toNat l :: k.flash }).occ 51 6, mbOk, [])
  rw [flashDenied_payloadAsked] at hready
  refine ⟨fun hdenied => hready.trans (by rw [if_pos hdenied]), fun hallowed => ?_⟩
  refine ⟨_, hready.trans (by rw [if_neg (by rw [hallowed]; decide)]), fun x => ?_⟩
  rw [Keeper.flash_congr (Changes.occ.kept .keeper (by decide))]
  show flashAt (.write off.toNat l :: (s.payloadAsked _).keeper.flash) x = _
  rw [payloadAsked_keeper]
  simp [flashAt]

theorem seccommit_denied (hfallback : s.keeper.fallback = true) :
    exec (.seccommit tag) s = .next ((s.payloadAsked 0).respond tag 3 []) := by
  show execSeccommit tag s = _
  refine (mbCommand_ready h (cmd := 7) (len := 0) rfl tag _).trans ?_
  rw [if_pos (by rw [payloadAsked_keeper]; exact hfallback)]

theorem seccommit_ready (hfallback : s.keeper.fallback = false) : let m := max s.keeper.fuseMin s.keeper.running
    exec (.seccommit tag) s =
      .next (({ (s.payloadAsked 0) with keeper := { s.keeper with fuseMin := m } } : State).respond tag 0 (leBytes m 4)) := by
  show execSeccommit tag s = _
  refine (mbCommand_ready h (cmd := 7) (len := 0) rfl tag _).trans ?_
  rw [if_neg (by rw [payloadAsked_keeper, hfallback]; decide), ← payloadAsked_keeper s 0]
  rfl

/-- BIST through the mailbox, where the lines that its tests touch are no longer held, or are recalled first. -/
theorem mbBist_ready (w : Word64) :
    let b := (s.payloadAsked 8).bistStart (if w = 0 then s.bistSel else w.toNat) (some tag)
    let t := if b.2 then b.1 else b.1.respond tag 4 []
    exec (.mbBist tag w) s = waitRecall (s.payloadAsked 8) (.next t) := by
  show execMbBist tag w s = _
  refine (mbServe_ready h (cmd := 4) (len := 8) rfl tag _).trans ?_
  rw [bistSel_payloadAsked]

theorem mbAttest_ready {l : List Byte} (hlen : l.length = 32) : exec (.mbAttest tag l) s =
    .next { (s.payloadAsked 32) with keeper := { s.keeper with signing := s.keeper.signing ++ [(l, some tag)] } } := by
  show execMbAttest tag l s = _
  refine (mbServe_ready h (cmd := 3) (len := l.length) ?_ tag _).trans ?_
  · exact if_pos (by rw [hlen]; decide)
  · rw [hlen, ← payloadAsked_keeper s 32]
    rfl

theorem mbAttest_badLen {l : List Byte} (hlen : l.length ≠ 32) :
    exec (.mbAttest tag l) s = .next ((s.payloadAsked l.length).respond tag 2 []) := by
  show execMbAttest tag l s = _
  exact mbServe_badLen h (cmd := 3) (if_neg (by rw [decide_eq_true_eq]; exact hlen)) tag _

end ready

/-- Settles O57: an island's signature is folded before anything else of the run moves, and each mailbox command answers from the state in
which the Keeper has asked for its payload, which is the state before but for the link. -/
theorem selfTestAndMailboxServices : Obligations.SelfTestAndMailboxServices := by
  intro s r tag s1
  refine ⟨fun hwanted hheard => ?unheard, fun hheard hlive => ⟨bistGo_heard hheard hlive, fun hbusy hactive => ?occupied, fun hbusy => ?busy⟩,
    fun sig h => islandTestDone_ignored sig h, fun h => attestSigned_ignored h,
    fun sig hbusy hpwrok hreset hcur => ⟨islandTestDone_taken sig hbusy hpwrok hreset, testDone_bist sig hbusy hcur⟩,
    fun nonce rest hlive h => ⟨_, attestSigned_eq hlive h, sign_keeper s nonce rest⟩,
    fun nonce rest x hlive h => ⟨_, s.sign nonce rest, attestSigned_eq hlive h, (sign_keeper s nonce rest).1, rfl⟩,
    fun h w off l => mailbox_idle h tag w off l,
    fun h => ⟨info_ready h tag, cert_ready h tag, fun off => flerase_ready h tag off, fun off l hl => flwrite_badLen h tag off hl,
      fun off l hpos hl => flwrite_ready h tag off hpos hl, seccommit_denied h tag, seccommit_ready h tag, fun w => ?bist,
      fun l hl => mbAttest_ready h tag hl, fun l hl => mbAttest_badLen h tag hl⟩⟩
  case unheard => exact exec_unheard (c := .bistGo r) hwanted rfl hheard
  case occupied =>
    have hbist : (s.reached 57).bist = s.bist := Changes.reached.kept .bist (by decide)
    have hjobs : (s.reached 57).jobs = s.jobs := Changes.reached.kept .jobs (by decide)
    have htruss : (s.reached 57).truss = s.truss := Changes.reached.kept .truss (by decide)
    refine (bistGo_occupied (by rw [hbist]; exact hbusy) ?_).trans hbist
    rw [htruss, State.jobActive, hjobs]
    exact hactive
  case busy =>
    have hbist : (s.reached 57).bist = s.bist := Changes.reached.kept .bist (by decide)
    exact bistGo_busy (by rw [hbist]; exact hbusy)
  case bist =>
    intro b t
    have hrun := mbBist_ready h tag w
    refine ⟨fun hwanted => hrun.trans (if_pos ?_), fun hwanted => hrun.trans (if_neg ?_)⟩
    · rw [List.isEmpty_iff]
      exact hwanted
    · rw [List.isEmpty_iff]
      exact hwanted

end Sys2Proof.Machine

end

section

/-! SUPPORT. Host reads, writes and cached lines, and what each of them is answered (R450 to R463). -/

namespace Sys2Proof.Machine
open Machine

variable {s t : State} {K : List Part}

/-! ### Where a host access meets memory -/

/-- Nothing makes an access of the host wait: no hold, no slice that changes its mode, no memory being cleared. -/
structure State.Open (s : State) : Prop where
  hold : s.pwrc.hold = false
  clearing : s.clearing = false
  loft : ∀ k, (s.loftAt k).reconf = false ∧ (s.loftAt k).clearing = false

theorem State.Open.shut (h : s.Open) (l : List Span) : s.shut l = [] := by
  have hreconf (a : Nat) : s.reconfAt a = false := by
    unfold State.reconfAt
    split <;> simp [h.loft]
  have hclear (a : Nat) : s.clearingAt a = false := by
    unfold State.clearingAt
    split <;> simp [h.loft, h.clearing]
  simp [State.shut, State.busyHeld, State.reconfHeld, h.hold, hreconf, hclear]

theorem State.Open.holdWait (h : s.Open) (a n : Nat) : s.holdWait a n = s := by
  rw [State.holdWait, h.shut, State.want_nil]

/-- What the host meets is decided by supplies, slices and self-test alone. -/
theorem State.Open.kept (h : s.Open) (hst : Changes K s t) (hK : Part.pwrc ∉ K ∧ Part.clearing ∉ K ∧ Part.loft ∉ K := by decide) : t.Open where
  hold := (congrArg Pwrc.hold (hst.kept .pwrc hK.1)).trans h.hold
  clearing := (hst.kept .clearing hK.2.1).trans h.clearing
  loft k := by rw [State.loftAt_congr (hst.kept .loft hK.2.2)]; exact h.loft k

theorem State.hostRange_kept (hst : Changes K s t)
    (hK : Part.pins ∉ K ∧ Part.live ∉ K ∧ Part.bist ∉ K ∧ Part.loft ∉ K := by decide) (a n : Nat) : t.hostRange a n = s.hostRange a n := by
  obtain ⟨hpins, hlive, hbist, hloft⟩ := hK
  have hlives := SameGround.isLive_of (hst.kept .pins hpins) (hst.kept .live hlive) (hst.kept .bist hbist)
  have hlofts := State.loftAt_congr (hst.kept .loft hloft)
  have hbyte (a : Nat) : t.hostByte a = s.hostByte a := by
    unfold State.hostByte State.memOk
    simp only [hlives, hlofts]
  rw [State.hostRange, hbyte, hbyte, ← State.hostRange]

theorem State.readVia_congr (h : t.mem = s.mem) (a n : Nat) : t.readVia a n = s.readVia a n := by
  have hbytes (a n : Nat) : t.bytes a n = s.bytes a n := by rw [State.bytes, h, ← State.bytes]
  unfold State.readVia
  simp only [hbytes]

/-- A range that is served does not reach over the end of the Loft window, where no memory stands. -/
theorem hostRange_side {a n : Nat} (h : s.hostRange a n = .served) (htwist : (placeOf a).twist = 0) (hn : n ≤ 256) :
    a + n ≤ 0x8040000000 ∨ 0x8040000000 ≤ a := by
  by_contra hcross
  have hlast : s.hostByte (a + (n - 1)) = .unmapped := by
    have hplace : (placeOf (a + (n - 1))).region = .unmapped := by
      unfold placeOf
      have hhi : (a + (n - 1)) / 0x100000000 = 0x80 := by omega
      have hlo : ¬(a + (n - 1)) % 0x100000000 < 0x40000000 := by omega
      rw [if_neg (by omega), hhi]
      simp [hlo]
      rw [if_neg (by omega)]
    unfold State.hostByte
    rw [hplace]
    rfl
  rw [State.hostRange, if_neg (by rw [htwist]; decide), hlast] at h
  cases hfirst : s.hostByte a <;> rw [hfirst] at h <;> cases h

/-- Bytes on one side of the end of the Loft window, whose units are not poisoned, are not poisoned. -/
theorem State.poisonAt_clean_side {a n x : Nat} (hside : a + n ≤ 0x8040000000 ∨ 0x8040000000 ≤ a) (hb : s.badUnits [{ a, n }] = [])
    (hx : x < n) : s.poisonAt (a + x) = false := by
  have hsame : (placeOf (a + x)).region.unit = (placeOf a).region.unit := by
    rw [unit_eq, unit_eq]
    split <;> split <;> omega
  have hunit : unitOf (a + x) ∈ touchedUnits a n := by
    unfold unitOf touchedUnits
    rw [hsame, if_neg (by omega)]
    dsimp only
    generalize hu : (placeOf a).region.unit = u
    have hpos : 0 < u := by
      rw [← hu, unit_eq]
      split <;> decide
    have hlo : a / u ≤ (a + x) / u := Nat.div_le_div_right (by omega)
    have hhi : (a + x) / u ≤ (a + n - 1) / u := Nat.div_le_div_right (by omega)
    exact List.mem_map.2 ⟨(a + x) / u - a / u, List.mem_range.2 (by omega), by rw [Nat.add_sub_cancel' hlo]⟩
  have hclean := (s.badUnits_eq_nil _).1 hb _ (List.mem_singleton.2 rfl) _ hunit
  rwa [State.poisonAt, unitOf_unitOf, ← State.poisonAt] at hclean

theorem viaSpan_plain {a : Nat} (h : (placeOf a).twist = 0) (n : Nat) : viaSpan a n = { a, n } := by
  have hplain : (placeOf a).plain = a := by
    revert h
    unfold placeOf
    dsimp only
    repeat' split
    all_goals grind
  rw [viaSpan, if_neg (by rw [h]; decide), hplain]

/-! ### Messages that answer -/

/-- What the host sees of the link: the messages to it, the lines it holds, whether a window change is in progress, and the windows. -/
def Mcl.face (m : Mcl) : List Msg × List Snoop × Bool × Bool × List (Nat × Nat) := (m.out, m.snoop, m.recalling, m.shared, m.windows)

theorem Mcl.face_congr {m m' : Mcl} (h : m.lessReports = m'.lessReports) : m.face = m'.face :=
  (congrArg Mcl.face h : m.lessReports.face = m'.lessReports.face)

theorem State.face_kept (h : Changes K s t) (hK : Part.mcl ∉ K := by decide) : t.mcl.face = s.mcl.face := Mcl.face_congr (h.kept .mcl hK)

theorem takeMsg_face (s : State) (type : MsgType) (tag : BitVec 16) (addr : Option Nat) : (s.takeMsg type tag addr).mcl.face = s.mcl.face := by
  unfold State.takeMsg
  split <;> rfl

/-- A completion to the host. -/
def cplMsg (ch : Nat) (status : Nat) (tag : BitVec 16) (data : List Byte) (poison : Bool) : Msg :=
  { type := .cpl, ch := BitVec.ofNat 2 ch, poison, status := BitVec.ofNat 3 status, tag, len := BitVec.ofNat 16 data.length, addr := 0, data }

/-- A state that is another one with one completion behind its messages, and the host's lines unchanged. -/
structure Replies (m : Msg) (s t : State) : Prop where
  out : t.mcl.out = s.mcl.out ++ [m]
  snoop : t.mcl.snoop = s.mcl.snoop
  recalling : t.mcl.recalling = s.mcl.recalling
  wanted : s.mcl.wanted = [] → t.mcl.wanted = []

theorem Replies.of_complete {u : State} {ch status : Nat} {tag : BitVec 16} {data : List Byte} {poison : Bool} (hface : u.mcl.face = s.mcl.face)
    (hwanted : s.mcl.wanted = [] → u.mcl.wanted = []) : Replies (cplMsg ch status tag data poison) s (u.complete ch status tag data poison) := by
  simp only [Mcl.face, Prod.mk.injEq] at hface
  obtain ⟨hout, hsnoop, hrecalling, -⟩ := hface
  exact ⟨congrArg (· ++ [_]) hout, hsnoop, hrecalling, hwanted⟩

theorem Replies.from {m : Msg} {r : State} (h : Replies m s t) (hface : s.mcl.face = r.mcl.face)
    (hwanted : r.mcl.wanted = [] → s.mcl.wanted = []) : Replies m r t := by
  simp only [Mcl.face, Prod.mk.injEq] at hface
  obtain ⟨hout, hsnoop, hrecalling, -⟩ := hface
  exact ⟨h.out.trans (by rw [hout]), h.snoop.trans hsnoop, h.recalling.trans hrecalling, fun hw => h.wanted (hwanted hw)⟩

section access

variable {ch a n : Nat} {tag : BitVec 16} {poison : Bool} {data : List Byte}

theorem unmapped_replies : Replies (cplMsg ch 1 tag [] false) s (s.unmapped ch tag) ∧ (s.unmapped ch tag).mem = s.mem := by
  have h : Changes [.regs, .reports] s ((s.orReg 50 0xC 8).occ 50 0) := .mono (.andThen .orReg .occ)
  exact ⟨.of_complete (State.face_kept h) (h.kept .wanted (by decide)), h.kept .mem (by decide)⟩

theorem unmapped_noted (hcanon : s.Canonical) : ((s.unmapped ch tag).regRaw 50 0xC).getLsbD 3 = true := by
  have hocc : Changes [.reports] (s.orReg 50 0xC 8) ((s.orReg 50 0xC 8).occ 50 0) := .occ
  have hreg : (s.unmapped ch tag).regRaw 50 0xC = (s.orReg 50 0xC 8).regRaw 50 0xC :=
    State.regRaw_of_regs (t := (s.orReg 50 0xC 8).occ 50 0) (hocc.kept .regs (by decide)) (isReport_mcl _ (by decide))
  rw [hreg, State.orReg, State.regRaw_setRegRaw_same _ hcanon, BitVec.getLsbD_or]
  exact Bool.or_true _

theorem hostRead_unmapped (h : s.hostRange a n = .unmapped) : s.hostRead ch tag a n = s.unmapped ch tag := by
  rw [State.hostRead, h]

theorem hostRead_dark {d : Nat} (h : s.hostRange a n = .dark d) :
    Replies (cplMsg ch 0 tag (List.replicate n 0) false) s (s.hostRead ch tag a n) ∧ (s.hostRead ch tag a n).mem = s.mem := by
  have hd : Changes [.regs, .reports] s (s.darkAccess .host d 0) := .darkAccess
  rw [State.hostRead, h]
  exact ⟨.of_complete (State.face_kept hd) (hd.kept .wanted (by decide)), hd.kept .mem (by decide)⟩

theorem hostRead_served (h : s.hostRange a n = .served) (hopen : s.Open) :
    Replies (cplMsg ch 0 tag (s.readVia a n) (!(s.badUnits [viaSpan a n]).isEmpty)) s (s.hostRead ch tag a n) ∧
      (s.hostRead ch tag a n).mem = s.mem := by
  have hread : Changes [.regs, .reports, .loft] s
      ((s.each (s.badUnits [viaSpan a n]) State.memUncorr).touch .hub [viaSpan a n] false true) :=
    .mono (.andThen (.each fun _ _ => .memUncorr) .touch)
  rw [State.hostRead, h]
  dsimp only
  rw [hopen.holdWait]
  exact ⟨.of_complete (State.face_kept hread) (hread.kept .wanted (by decide)), hread.kept .mem (by decide)⟩

theorem hostStore_dark {d : Nat} (h : s.hostRange a data.length = .dark d) : s.hostStore a poison data = s.darkAccess .host d 0 := by
  rw [State.hostStore, h]

/-- Marks taken off leave a byte clean that was clean. -/
theorem mark_each_clean (hcanon : s.Canonical) (l : List Nat) {b : Nat} (h : s.poisonAt b = false) :
    (s.each l fun s u => s.mark u false).poisonAt b = false := by
  refine (State.each_induct (fun t : State => t.Canonical ∧ t.poisonAt b = false) l _ s ⟨hcanon, h⟩ fun t u _ ht => ⟨ht.1.mark u false, ?_⟩).2
  have hput : (t.mark u false).poisonAt b = if unitOf b = u then false else t.poisonAt b := by
    obtain ⟨-, hpoison, -⟩ := ht.1
    show Sparse.get false (Sparse.put false t.poison u false) (unitOf b) = if unitOf b = u then false else Sparse.get false t.poison (unitOf b)
    exact Sparse.get_put false u _ false hpoison
  rw [hput, ht.2, ite_self]

/-- The bytes of a write stand in memory, and nothing else of it changes. -/
def State.Stores (a : Nat) (data : List Byte) (s t : State) : Prop :=
  s.KeepsOutside t [{ a, n := data.length }] ∧ ∀ i, i < data.length → t.byte (a + i) = data.getD i 0

theorem write_stores (hcanon : s.Canonical) (hclean : ∀ i, i < data.length → s.poisonAt (a + i) = false) :
    s.Stores a data (s.write a data) := by
  have hmark : (s.each (wholeUnits a data.length) fun s u => s.mark u false).mem = s.mem := State.mem_mark_each ..
  have hwf : Memory.wf (s.each (wholeUnits a data.length) fun s u => s.mark u false).mem = true := by rw [hmark]; exact hcanon.mem
  refine ⟨((State.Writes.write a data (List.mem_singleton.2 rfl)) hcanon.mem).2, fun i hi => ?_⟩
  rw [State.write, State.byte_noteWrite, State.writeRaw, State.byte_putBytes_inside _ hwf _ _ (fun i hi => mark_each_clean hcanon _ (hclean i hi)) _ hi]

theorem hostStore_served (h : s.hostRange a data.length = .served) (hopen : s.Open) :
    Changes [.poison, .mem, .written, .reports, .loft] s (s.hostStore a poison data) ∧
    (poison = false → (placeOf a).twist = 0 → (s.hostStore a poison data).mem = (s.write a data).mem) := by
  rw [State.hostStore, h]
  dsimp only
  rw [hopen.holdWait]
  refine ⟨.mono (.andThen .writeVia (.andThen (.ite (.each fun _ _ => .mark) .refl) .touch)), fun hpoison htwist => ?_⟩
  have hvia : s.writeVia a data = s.write a data := by
    rw [State.writeVia, htwist]
    rfl
  rw [hpoison, if_neg (by decide), hvia]
  exact Changes.touch.kept .mem (by decide)

/-- A write that is served is answered, and unpoisoned data at plain addresses stand in memory. -/
theorem hostWrite_served (h : s.hostRange a data.length = .served) (hlen : data.length ≤ 256) (hopen : s.Open) (hcanon : s.Canonical) :
    Replies (cplMsg ch 0 tag [] false) s (s.hostWrite ch tag a poison data) ∧
    (poison = false → (placeOf a).twist = 0 → s.badUnits [viaSpan a data.length] = [] → s.Stores a data (s.hostWrite ch tag a poison data)) := by
  have hnote : Changes [.regs, .reports, .once] s (s.notePoison poison) := .notePoison
  have hserved : (s.notePoison poison).hostRange a data.length = .served := (State.hostRange_kept hnote (by decide) _ _).trans h
  obtain ⟨hchange, hmem⟩ := hostStore_served (poison := poison) hserved (hopen.kept hnote)
  have hall := hnote.andThen hchange
  have heq : s.hostWrite ch tag a poison data = ((s.notePoison poison).hostStore a poison data).complete ch 0 tag [] :=
    if_neg (by rw [hserved]; decide)
  rw [heq]
  refine ⟨.of_complete (State.face_kept hall) (hall.kept .wanted (by decide)), fun hpoison htwist hbad => ?_⟩
  subst hpoison
  rw [viaSpan_plain htwist] at hbad
  obtain ⟨hkeeps, hdata⟩ := write_stores hcanon fun i hi => State.poisonAt_clean_side (hostRange_side h htwist hlen) hbad hi
  have hsame (b : Nat) : (((s.notePoison false).hostStore a false data).complete ch 0 tag []).byte b = (s.write a data).byte b :=
    congrArg (fun m => Sparse.get emptyByte m b) (hmem rfl htwist)
  exact ⟨fun b hb => (hsame b).trans (hkeeps b hb), fun i hi => (hsame _).trans (hdata i hi)⟩

theorem hostWrite_dark {d : Nat} (h : s.hostRange a data.length = .dark d) :
    Replies (cplMsg ch 0 tag [] false) s (s.hostWrite ch tag a poison data) ∧ (s.hostWrite ch tag a poison data).mem = s.mem := by
  have hnote : Changes [.regs, .reports, .once] s (s.notePoison poison) := .notePoison
  have hdark : (s.notePoison poison).hostRange a data.length = .dark d := (State.hostRange_kept hnote (by decide) _ _).trans h
  have hall := hnote.andThen (Changes.darkAccess (s := s.notePoison poison) (r := .host) (window := d) (off := 0))
  have heq : s.hostWrite ch tag a poison data = ((s.notePoison poison).darkAccess .host d 0).complete ch 0 tag [] :=
    (if_neg (by rw [hdark]; exact nofun)).trans (by rw [hostStore_dark hdark])
  rw [heq]
  exact ⟨.of_complete (State.face_kept hall) (hall.kept .wanted (by decide)), hall.kept .mem (by decide)⟩

end access

/-! ### Lines that the host caches -/

/-- A state that may have sent recalls beside what another one sent, and in which the host holds the same lines. -/
structure Recalls (s t : State) (l : List Msg) : Prop where
  out : t.mcl.out = s.mcl.out ++ l
  recalls : ∀ x ∈ l, x.type = .recall
  lines : t.mcl.snoop.map (·.line) = s.mcl.snoop.map (·.line)
  still : s.mcl.recalling = false → l = [] ∧ t.mcl = s.mcl

theorem recall_recalls (s : State) (lines : List Nat) : ∃ l, (s.recall lines).mcl.out = s.mcl.out ++ l ∧ (∀ x ∈ l, x.type = .recall) ∧
    (s.recall lines).mcl.snoop.map (·.line) = s.mcl.snoop.map (·.line) := by
  refine State.each_induct (fun t : State => ∃ l, t.mcl.out = s.mcl.out ++ l ∧ (∀ x ∈ l, x.type = .recall) ∧
    t.mcl.snoop.map (·.line) = s.mcl.snoop.map (·.line)) lines _ s ⟨[], by simp⟩ ?_
  rintro t n - ⟨l, hout, hrecall, hlines⟩
  split
  · have hface : (t.occ 50 2).mcl.face = t.mcl.face := State.face_kept .occ
    simp only [Mcl.face, Prod.mk.injEq] at hface
    obtain ⟨hout', hsnoop', -⟩ := hface
    refine ⟨l ++ [_], (congrArg (· ++ [_]) (hout'.trans hout)).trans (List.append_assoc ..), ?_, ?_⟩
    · intro x hx
      rcases List.mem_append.1 hx with hx | hx
      · exact hrecall x hx
      · rw [List.mem_singleton.1 hx]
    · show ((t.occ 50 2).mcl.snoop.map fun x : Snoop => if x.line = n then { x with recalling := true } else x).map (fun x : Snoop => x.line) = _
      rw [hsnoop', List.map_map, ← hlines]
      refine List.map_congr_left fun x _ => ?_
      show (if x.line = n then { x with recalling := true } else x).line = x.line
      split <;> rfl
  · exact ⟨l, hout, hrecall, hlines⟩

theorem windowSettle_recalls (s : State) : ∃ l, Recalls s s.windowSettle l := by
  unfold State.windowSettle
  split
  next h => exact ⟨[], by simp, by simp, rfl, fun _ => ⟨rfl, rfl⟩⟩
  next h =>
    have hon (hoff : s.mcl.recalling = false) : False := h (by rw [hoff]; rfl)
    split
    · obtain ⟨l, hout, hrecall, hlines⟩ := recall_recalls s s.uncovered
      exact ⟨l, hout, hrecall, hlines, fun hoff => (hon hoff).elim⟩
    · exact ⟨[], by simp [State.modMcl], by simp, rfl, fun hoff => (hon hoff).elim⟩

theorem not_holds_of_lines {l l' : List Snoop} (h : l'.map (·.line) = l.map (·.line)) {n : Nat} (hn : ∀ x ∈ l, x.line ≠ n) :
    ∀ x ∈ l', x.line ≠ n := fun x hx hline => by
  have hmem : x.line ∈ l.map (·.line) := h ▸ List.mem_map_of_mem hx
  obtain ⟨y, hy, hyline⟩ := List.mem_map.1 hmem
  exact hn y hy (hyline.trans hline)

/-- After a line is dropped the host holds it no longer. -/
theorem dropLine_drops (s : State) (n : Nat) : ∃ l, (s.dropLine n).mcl.out = s.mcl.out ++ l ∧ (∀ x ∈ l, x.type = .recall) ∧
    (s.mcl.recalling = false → l = []) ∧ ∀ x ∈ (s.dropLine n).mcl.snoop, x.line ≠ n := by
  obtain ⟨l, h⟩ := windowSettle_recalls (s.modMcl fun m => { m with snoop := m.snoop.filter (·.line ≠ n) })
  refine ⟨l, h.out, h.recalls, fun hoff => (h.still hoff).1, not_holds_of_lines h.lines fun x hx => ?_⟩
  exact of_decide_eq_true (List.mem_filter.1 hx).2

/-! ### Commands that are answered -/

/-- A command is answered with a message, which recalls may follow while a window change is in progress, and what can be sent is sent. -/
def Responds (s : State) (c : Instr) (m : Msg) (holds : State → Prop) : Prop :=
  ∃ (u : State) (l : List Msg), exec c s = .next u.mclPump ∧ u.mcl.out = s.mcl.out ++ m :: l ∧ (∀ x ∈ l, x.type = .recall) ∧
    (s.mcl.recalling = false → l = []) ∧ holds u

theorem Responds.of_replies {c : Instr} {m : Msg} {u : State} {holds : State → Prop} (hwanted : s.mcl.wanted = [])
    (hexec : exec c s = waitRecall s (.next u.mclPump)) (h : Replies m s u) (hu : holds u) : Responds s c m holds := by
  refine ⟨u, [], ?_, h.out, by simp, fun _ => rfl, hu⟩
  rw [hexec, waitRecall_next]
  exact Changes.mclPump.kept .wanted (by decide) (h.wanted hwanted)

theorem Responds.of_settled {c : Instr} {m : Msg} {u v : State} {l : List Msg} {holds : State → Prop} (hwanted : s.mcl.wanted = [])
    (hexec : exec c s = waitRecall s (.next v.mclPump)) (hreply : u.mcl.out = s.mcl.out ++ [m])
    (hsame : u.mcl.recalling = s.mcl.recalling) (hwait : s.mcl.wanted = [] → u.mcl.wanted = []) (hout : v.mcl.out = u.mcl.out ++ l)
    (hrecalls : ∀ x ∈ l, x.type = .recall) (hstill : u.mcl.recalling = false → l = []) (hkeep : u.mcl.wanted = [] → v.mcl.wanted = [])
    (hv : holds v) : Responds s c m holds := by
  refine ⟨v, l, ?_, ?_, hrecalls, fun hoff => hstill (hsame.trans hoff), hv⟩
  · rw [hexec, waitRecall_next]
    exact Changes.mclPump.kept .wanted (by decide) (hkeep (hwait hwanted))
  · rw [hout, hreply, List.append_assoc]
    rfl

/-- A state in which a message has left the inbox: its access meets what it would have met before. -/
structure Takes (s t : State) : Prop where
  changes : Changes [.mcl] s t
  face : t.mcl.face = s.mcl.face

theorem takeMsg_takes (s : State) (type : MsgType) (tag : BitVec 16) (addr : Option Nat) : Takes s (s.takeMsg type tag addr) :=
  ⟨.takeMsg, takeMsg_face ..⟩

namespace Takes

variable (h : Takes s t)
include h

theorem range (a n : Nat) : t.hostRange a n = s.hostRange a n := State.hostRange_kept h.changes (by decide) a n

theorem mem : t.mem = s.mem := h.changes.kept .mem (by decide)

theorem bad (l : List Span) : t.badUnits l = s.badUnits l := State.badUnits_congr (h.changes.kept .poison (by decide)) l

theorem readVia (a n : Nat) : t.readVia a n = s.readVia a n := State.readVia_congr h.mem a n

theorem isOpen (hopen : s.Open) : t.Open := hopen.kept h.changes

theorem replies {m : Msg} {u : State} (hu : Replies m t u) : Replies m s u := hu.from h.face (h.changes.kept .wanted (by decide))

theorem stores {a : Nat} {data : List Byte} {u : State} (hu : t.Stores a data u) : s.Stores a data u :=
  ⟨fun b hb => (hu.1 b hb).trans (by rw [State.byte, h.mem, ← State.byte]), hu.2⟩

end Takes

theorem not_malformed {data : List Byte} (hlen : data.length ≤ 256) : ¬(!dataWf data) = true := by
  simp [dataWf, hlen]

section commands

variable (hup : s.mclUp = true) (tag : BitVec 16) (dpa : Word48)
include hup

theorem exec_rd {len : Nat} (hlen : len ≤ 256) : exec (.rd tag dpa len) s =
    waitRecall s (.next ((s.takeMsg .rd tag (some dpa.toNat)).hostRead 1 tag dpa.toNat len).mclPump) := by
  show execRd tag dpa len s = _
  exact (if_neg (by omega)).trans (if_neg (by rw [hup]; decide))

theorem exec_wr (poison : Bool) {data : List Byte} (hlen : data.length ≤ 256) : exec (.wr tag dpa poison data) s =
    waitRecall s (.next ((s.takeMsg .wr tag (some dpa.toNat)).hostWrite 1 tag dpa.toNat poison data).mclPump) := by
  show execWr tag dpa poison data s = _
  exact (if_neg (not_malformed hlen)).trans (if_neg (by rw [hup]; decide))

theorem exec_wb (poison : Bool) {data : List Byte} (hlen : data.length ≤ 256) : exec (.wb tag dpa poison data) s =
    waitRecall s (.next (((s.takeMsg .wb tag (some dpa.toNat)).hostWrite 0 tag dpa.toNat poison data).dropLine
      (dpa.toNat / 64)).mclPump) := by
  show execWb tag dpa poison data s = _
  exact (if_neg (not_malformed hlen)).trans (if_neg (by rw [hup]; decide))

variable (hwanted : s.mcl.wanted = []) (hopen : s.Open) (hcanon : s.Canonical)
include hwanted

theorem rd_unmapped {len : Nat} (hlen : len ≤ 256) (h : s.hostRange dpa.toNat len = .unmapped) (hcanon : s.Canonical) :
    Responds s (.rd tag dpa len) (cplMsg 1 1 tag [] false) fun u => u.mem = s.mem ∧ (u.regRaw 50 0xC).getLsbD 3 = true := by
  have ht := takeMsg_takes s .rd tag (some dpa.toNat)
  have hread := hostRead_unmapped (ch := 1) (tag := tag) ((ht.range _ _).trans h)
  refine .of_replies hwanted (exec_rd hup tag dpa hlen) ?_ ?_
  · rw [hread]
    exact ht.replies unmapped_replies.1
  · rw [hread]
    exact ⟨unmapped_replies.2.trans ht.mem, unmapped_noted (ht.changes.canonical hcanon)⟩

theorem rd_dark {len d : Nat} (hlen : len ≤ 256) (h : s.hostRange dpa.toNat len = .dark d) :
    Responds s (.rd tag dpa len) (cplMsg 1 0 tag (List.replicate len 0) false) fun u => u.mem = s.mem := by
  have ht := takeMsg_takes s .rd tag (some dpa.toNat)
  have hread := hostRead_dark (ch := 1) (tag := tag) ((ht.range _ _).trans h)
  exact .of_replies hwanted (exec_rd hup tag dpa hlen) (ht.replies hread.1) (hread.2.trans ht.mem)

theorem wr_dark {d : Nat} (poison : Bool) {data : List Byte} (hlen : data.length ≤ 256) (h : s.hostRange dpa.toNat data.length = .dark d) :
    Responds s (.wr tag dpa poison data) (cplMsg 1 0 tag [] false) fun u => u.mem = s.mem := by
  have ht := takeMsg_takes s .wr tag (some dpa.toNat)
  have hwrite := hostWrite_dark (ch := 1) (tag := tag) (poison := poison) ((ht.range _ _).trans h)
  exact .of_replies hwanted (exec_wr hup tag dpa poison hlen) (ht.replies hwrite.1) (hwrite.2.trans ht.mem)

include hopen

theorem rd_served {len : Nat} (hlen : len ≤ 256) (h : s.hostRange dpa.toNat len = .served) :
    Responds s (.rd tag dpa len) (cplMsg 1 0 tag (s.readVia dpa.toNat len) (!(s.badUnits [viaSpan dpa.toNat len]).isEmpty))
      fun u => u.mem = s.mem := by
  have ht := takeMsg_takes s .rd tag (some dpa.toNat)
  obtain ⟨hreplies, hmem⟩ := hostRead_served (ch := 1) (tag := tag) ((ht.range _ _).trans h) (ht.isOpen hopen)
  rw [ht.readVia, ht.bad] at hreplies
  exact .of_replies hwanted (exec_rd hup tag dpa hlen) (ht.replies hreplies) (hmem.trans ht.mem)

include hcanon

theorem wr_served (poison : Bool) {data : List Byte} (hlen : data.length ≤ 256) (h : s.hostRange dpa.toNat data.length = .served) :
    Responds s (.wr tag dpa poison data) (cplMsg 1 0 tag [] false) fun u => poison = false → (placeOf dpa.toNat).twist = 0 →
      s.badUnits [viaSpan dpa.toNat data.length] = [] → s.Stores dpa.toNat data u := by
  have ht := takeMsg_takes s .wr tag (some dpa.toNat)
  obtain ⟨hreplies, hstores⟩ := hostWrite_served (ch := 1) (tag := tag) (poison := poison) ((ht.range _ _).trans h) hlen (ht.isOpen hopen)
    (ht.changes.canonical hcanon)
  rw [ht.bad] at hstores
  exact .of_replies hwanted (exec_wr hup tag dpa poison hlen) (ht.replies hreplies) fun hp htw hbad => ht.stores (hstores hp htw hbad)

theorem wb_served (poison : Bool) {data : List Byte} (hlen : data.length ≤ 256) (h : s.hostRange dpa.toNat data.length = .served) :
    Responds s (.wb tag dpa poison data) (cplMsg 0 0 tag [] false) fun u => (∀ x ∈ u.mcl.snoop, x.line ≠ dpa.toNat / 64) ∧
      (poison = false → (placeOf dpa.toNat).twist = 0 → s.badUnits [viaSpan dpa.toNat data.length] = [] → s.Stores dpa.toNat data u) := by
  have ht := takeMsg_takes s .wb tag (some dpa.toNat)
  obtain ⟨hreplies, hstores⟩ := hostWrite_served (ch := 0) (tag := tag) (poison := poison) ((ht.range _ _).trans h) hlen (ht.isOpen hopen)
    (ht.changes.canonical hcanon)
  rw [ht.bad] at hstores
  have hexec := exec_wb hup tag dpa poison hlen
  revert hexec hreplies hstores
  generalize (s.takeMsg .wb tag (some dpa.toNat)).hostWrite 0 tag dpa.toNat poison data = v
  intro hreplies hstores hexec
  obtain ⟨l, hout, hrecalls, hstill, hdrops⟩ := dropLine_drops v (dpa.toNat / 64)
  have hdrop : Changes [.mcl, .reports] v (v.dropLine (dpa.toNat / 64)) := .dropLine
  have hall := ht.replies hreplies
  refine .of_settled hwanted hexec hall.out hall.recalling hall.wanted hout hrecalls hstill (hdrop.kept .wanted (by decide)) ⟨hdrops, fun hp htw hbad => ?_⟩
  obtain ⟨hkeeps, hdata⟩ := ht.stores (hstores hp htw hbad)
  have hsame (b : Nat) : (v.dropLine (dpa.toNat / 64)).byte b = v.byte b :=
    congrArg (fun m => Sparse.get emptyByte m b) (hdrop.kept .mem (by decide))
  exact ⟨fun b hb => (hsame b).trans (hkeeps b hb), fun i hi => (hsame _).trans (hdata i hi)⟩

omit hup hcanon in
/-- A line that the filter does not hold, entered where it lies in an operating window, and read. -/
theorem hostCache_enters (own : Bool) (hserved : s.hostRange (64 * (dpa.toNat / 64)) 64 = .served) (hfresh : ∀ y ∈ s.mcl.snoop, y.line ≠ dpa.toNat / 64)
    (hroom : s.mcl.snoop.length < 262144) {c : Instr} {type : MsgType}
    (hexec : exec c s = waitRecall s (.next (hostCache own tag dpa (s.takeMsg type tag (some dpa.toNat))).mclPump)) :
    Responds s c (cplMsg 0 0 tag (s.readVia (64 * (dpa.toNat / 64)) 64) (!(s.badUnits [viaSpan (64 * (dpa.toNat / 64)) 64]).isEmpty)) fun u =>
      u.mem = s.mem ∧ (s.mcl.recalling = false → u.mcl.snoop =
        if inWindows s.mcl.shared s.mcl.windows (dpa.toNat / 64) then s.mcl.snoop ++ [{ line := dpa.toNat / 64, own }] else s.mcl.snoop) := by
  have ht := takeMsg_takes s type tag (some dpa.toNat)
  revert hexec ht
  generalize s.takeMsg type tag (some dpa.toNat) = t
  intro hexec ht
  have hline : dpa.toNat / 64 * 64 = 64 * (dpa.toNat / 64) := Nat.mul_comm ..
  have hface := ht.face
  simp only [Mcl.face, Prod.mk.injEq] at hface
  obtain ⟨hout, hsnoop, hrecalling, hshared, hwindows⟩ := hface
  have hrange : t.hostRange (64 * (dpa.toNat / 64)) 64 = .served := (ht.range _ _).trans hserved
  have hnone : (t.mcl.snoop.any fun x => x.line = dpa.toNat / 64) = false := by
    rw [hsnoop, List.any_eq_false]
    exact fun x hx => by simpa using hfresh x hx
  have hcache : hostCache own tag dpa t =
      if (!inWindows s.mcl.shared s.mcl.windows (dpa.toNat / 64)) = true then (t.occ 50 1).hostRead 0 tag (64 * (dpa.toNat / 64)) 64
      else ((t.modMcl fun m => { m with snoop := m.snoop ++ [{ line := dpa.toNat / 64, own }] }).hostRead 0 tag (64 * (dpa.toNat / 64)) 64).windowSettle := by
    unfold hostCache
    simp only [hline]
    rw [if_neg (by rw [hrange]; decide), Nat.mul_div_cancel_left _ (by decide : 0 < 64), hshared, hwindows, hnone]
    refine ite_congr rfl (fun _ => rfl) fun _ => (if_neg (by decide)).trans (if_pos ?_)
    rw [hsnoop]
    exact hroom
  rw [hcache] at hexec
  cases hwin : inWindows s.mcl.shared s.mcl.windows (dpa.toNat / 64) with
  | false =>
    have hocc : Changes [.reports] t (t.occ 50 1) := .occ
    obtain ⟨hreplies, hmem⟩ := hostRead_served (ch := 0) (tag := tag) ((State.hostRange_kept hocc (by decide) _ _).trans hrange)
      ((ht.isOpen hopen).kept hocc)
    rw [State.readVia_congr ((hocc.kept .mem (by decide)).trans ht.mem), State.badUnits_congr (hocc.kept .poison (by decide)), ht.bad] at hreplies
    have hall := ht.replies (hreplies.from (State.face_kept hocc) (hocc.kept .wanted (by decide)))
    rw [hwin, if_pos (by decide)] at hexec
    exact .of_replies hwanted hexec hall ⟨hmem.trans ((hocc.kept .mem (by decide)).trans ht.mem), fun _ => hall.snoop⟩
  | true =>
    obtain ⟨hreplies, hmem⟩ := hostRead_served (s := t.modMcl fun m => { m with snoop := m.snoop ++ [{ line := dpa.toNat / 64, own }] })
      (ch := 0) (tag := tag) hrange ((ht.isOpen hopen).kept (Changes.modMcl (s := t)))
    rw [hwin, if_neg (by decide)] at hexec
    rw [State.readVia_congr (show (t.modMcl _).mem = s.mem from ht.mem), State.badUnits_congr (t := t.modMcl _) (s := t) rfl, ht.bad] at hreplies
    revert hexec hreplies hmem
    generalize State.hostRead (t.modMcl fun m => { m with snoop := m.snoop ++ [{ line := dpa.toNat / 64, own }] }) 0 tag
      (64 * (dpa.toNat / 64)) 64 = u
    intro hexec hreplies hmem
    obtain ⟨l, hl⟩ := windowSettle_recalls u
    have hsettle : Changes [.reports, .mcl] u u.windowSettle := .windowSettle
    refine .of_settled hwanted hexec (hreplies.out.trans (congrArg (· ++ [_]) hout)) (hreplies.recalling.trans hrecalling)
      (fun hw => hreplies.wanted (ht.changes.kept .wanted (by decide) hw)) hl.out hl.recalls (fun hoff => (hl.still hoff).1)
      (hsettle.kept .wanted (by decide)) ⟨(hsettle.kept .mem (by decide)).trans (hmem.trans ht.mem), fun hoff => ?_⟩
    rw [(hl.still ((hreplies.recalling.trans hrecalling).trans hoff)).2, hreplies.snoop]
    exact congrArg (· ++ [_]) hsnoop

end commands

/-! ### Acknowledged recalls, completions and CSR accesses -/

theorem Mcl.gather_snoop (m : Mcl) (n : Nat) : (m.gather n).snoop = m.snoop := by
  induction n generalizing m with
  | zero => rfl
  | succ n ih =>
    unfold Mcl.gather
    split
    · rfl
    · split
      · rfl
      · exact ih _

theorem Mcl.pump_snoop (m : Mcl) (n : Nat) : (m.pump n).snoop = m.snoop := by
  induction n generalizing m with
  | zero => rfl
  | succ n ih =>
    unfold Mcl.pump
    split
    · exact (ih _).trans (m.gather_snoop 15)
    · rfl

theorem mclPump_snoop (s : State) : s.mclPump.mcl.snoop = s.mcl.snoop := Mcl.pump_snoop _ _

/-- The end of an acknowledged recall, once its data are stored. -/
def State.released (s : State) (n : Nat) : State := ((s.modMcl fun m => { m with wanted := [] }).dropLine n).mclPump

theorem released_spec (s : State) (n : Nat) : (∀ x ∈ (s.released n).mcl.snoop, x.line ≠ n) ∧ (s.released n).mem = s.mem := by
  have h : Changes [.mcl, .reports] (s.modMcl fun m => { m with wanted := [] }) (s.released n) := .mono (.andThen .dropLine .mclPump)
  obtain ⟨-, -, -, -, hdrops⟩ := dropLine_drops (s.modMcl fun m => { m with wanted := [] }) n
  refine ⟨fun x hx => hdrops x ?_, h.kept .mem (by decide)⟩
  rwa [State.released, mclPump_snoop] at hx

section others

variable (hup : s.mclUp = true) (tag : BitVec 16) (dpa : Word48)
include hup

theorem exec_recallAck (dirty poison : Bool) {data : List Byte} (hlen : data.length ≤ 256) :
    let t := s.takeMsg .recallAck 0 (some dpa.toNat)
    let v := t.notePoison (dirty && poison)
    exec (.recallAck dpa dirty poison data) s = .next
      (if (t.mcl.snoop.any fun x => x.line = dpa.toNat / 64) = true then
        (if dirty = true then v.hostStore (64 * (dpa.toNat / 64)) poison (data.take 64) else v).released (dpa.toNat / 64)
      else t.mclPump) := by
  intro t v
  refine (show execRecallAck dpa dirty poison data s = _ from (if_neg (not_malformed hlen)).trans (if_neg (by rw [hup]; decide))).trans ?_
  exact (apply_ite Host.Outcome.next _ _ _).symm

/-- An acknowledged recall: the host holds the line no longer, and data that it had modified are stored. -/
theorem recallAck_run (hopen : s.Open) (hcanon : s.Canonical) (dirty poison : Bool) {data : List Byte} (hlen : data.length ≤ 256) :
    ∃ u : State, exec (.recallAck dpa dirty poison data) s = .next u ∧ (∀ x ∈ u.mcl.snoop, x.line ≠ dpa.toNat / 64) ∧
      (dirty = false → u.mem = s.mem) ∧ (dirty = true → poison = false → data.length = 64 → (∃ x ∈ s.mcl.snoop, x.line = dpa.toNat / 64) →
        s.hostRange (64 * (dpa.toNat / 64)) 64 = .served → (placeOf (64 * (dpa.toNat / 64))).twist = 0 →
        s.badUnits [viaSpan (64 * (dpa.toNat / 64)) 64] = [] → s.Stores (64 * (dpa.toNat / 64)) data u) := by
  have ht := takeMsg_takes s .recallAck 0 (some dpa.toNat)
  have hexec := exec_recallAck hup dpa dirty poison hlen
  revert hexec ht
  dsimp only
  generalize s.takeMsg .recallAck 0 (some dpa.toNat) = t
  intro ht hexec
  have hsnoop : t.mcl.snoop = s.mcl.snoop := (congrArg (·.2.1) ht.face :)
  refine ⟨_, hexec, ?_⟩
  generalize 64 * (dpa.toNat / 64) = base
  by_cases hheld : (t.mcl.snoop.any fun x => x.line = dpa.toNat / 64) = true
  · rw [if_pos hheld]
    have hnote : Changes [.regs, .reports, .once] t (t.notePoison (dirty && poison)) := .notePoison
    obtain ⟨hdrops, hmem⟩ := released_spec (if dirty = true then
      (t.notePoison (dirty && poison)).hostStore base poison (data.take 64) else t.notePoison (dirty && poison)) (dpa.toNat / 64)
    refine ⟨hdrops, fun hclean => ?_, fun hdirty hpoison hline _ hserved htwist hbad => ?_⟩
    · rw [hmem, hclean, if_neg (by decide)]
      exact (Changes.notePoison.kept .mem (by decide)).trans ht.mem
    · subst hdirty hpoison
      have htake : data.take 64 = data := List.take_of_length_le (by omega)
      have hrange : t.hostRange base data.length = .served := by rw [hline, ht.range]; exact hserved
      obtain ⟨-, hstored⟩ := hostStore_served (s := t) (poison := false) hrange (ht.isOpen hopen)
      rw [if_pos rfl, htake] at hmem
      rw [viaSpan_plain htwist] at hbad
      rw [← hline] at hserved hbad
      obtain ⟨hkeeps, hdata⟩ := ht.stores (write_stores (ht.changes.canonical hcanon) fun i hi =>
        State.poisonAt_clean_side (hostRange_side hserved htwist (by omega)) ((ht.bad _).trans hbad) hi)
      have hsame (b : Nat) : ((t.hostStore base false data).released (dpa.toNat / 64)).byte b =
          (t.write base data).byte b :=
        congrArg (fun m => Sparse.get emptyByte m b) (hmem.trans (hstored rfl htwist))
      rw [if_pos rfl, htake]
      exact ⟨fun b hb => (hsame b).trans (hkeeps b hb), fun i hi => (hsame _).trans (hdata i hi)⟩
  · rw [if_neg hheld]
    have hnone : ∀ x ∈ s.mcl.snoop, x.line ≠ dpa.toNat / 64 := fun x hx hline =>
      hheld (List.any_eq_true.2 ⟨x, hsnoop ▸ hx, decide_eq_true hline⟩)
    refine ⟨fun x hx => hnone x ?_, fun _ => (Changes.mclPump.kept .mem (by decide)).trans ht.mem, ?_⟩
    · rwa [mclPump_snoop, hsnoop] at hx
    · rintro - - - ⟨x, hx, hline⟩
      exact absurd hline (hnone x hx)

omit hup in
/-- What a completion matches: the requests of the tier engines, and MCL's own. -/
theorem cplTaken_requests (s : State) (poison : Bool) : ((s.takeMsg .cpl tag none).notePoison poison).mcl.uw = s.mcl.uw ∧
    ((s.takeMsg .cpl tag none).notePoison poison).mcl.own = s.mcl.own := by
  have htake : (s.takeMsg .cpl tag none).mcl.uw = s.mcl.uw ∧ (s.takeMsg .cpl tag none).mcl.own = s.mcl.own := by
    unfold State.takeMsg
    split <;> exact ⟨rfl, rfl⟩
  have hnote := (Changes.notePoison (s := s.takeMsg .cpl tag none) (p := poison)).kept .mcl (by decide)
  exact ⟨(congrArg Mcl.uw hnote :).trans htake.1, (congrArg Mcl.own hnote :).trans htake.2⟩

theorem exec_cpl (status : BitVec 3) (poison : Bool) {data : List Byte} (hlen : data.length ≤ 256) :
    let c := (s.takeMsg .cpl tag none).notePoison poison
    (∀ r, s.mcl.uw.find? (·.tag = tag.toNat) = some r → Completes (.cpl tag status poison data) s
      (c.uwDone r (status = 0 && !poison && (r.kind = .write || data.length = r.len)) data).mclPump) ∧
    (s.mcl.uw.find? (·.tag = tag.toNat) = none → exec (.cpl tag status poison data) s =
      .next (match s.mcl.own.find? (fun q : Nat × OwnReq => q.1 = tag.toNat) with
        | some q => c.ownDone q.1 q.2
        | none => c.modMcl fun m => { m with dbs := m.dbs.erase tag.toNat }).mclPump) := by
  intro c
  obtain ⟨huw, hown⟩ := cplTaken_requests tag s poison
  have hexec : exec (.cpl tag status poison data) s = _ :=
    show execCpl tag status poison data s = _ from (if_neg (not_malformed hlen)).trans (if_neg (by rw [hup]; decide))
  dsimp only at hexec
  rw [huw, hown] at hexec
  refine ⟨fun r hr => .of_waitRecall ?_, fun hr => ?_⟩
  · rw [hr] at hexec
    exact hexec
  · rw [hr] at hexec
    refine hexec.trans ?_
    dsimp only
    split
    next h => rw [h]
    next h => rw [h]

theorem exec_csrRd {len : Nat} (hlen : len ≤ 256) : exec (.csrRd tag dpa len) s =
    let t := s.takeMsg .csrRd tag (some dpa.toNat)
    if (placeOf dpa.toNat).region.isWord = true then
      .next ((t.wordRead .host dpa.toNat len).1.complete 2 0 tag (leBytes (t.wordRead .host dpa.toNat len).2 len)).mclPump
    else .next (t.unmapped 2 tag).mclPump :=
  show execCsrRd tag dpa len s = _ from (if_neg (by omega)).trans (if_neg (by rw [hup]; decide))

theorem exec_csrWr {data : List Byte} (hlen : data.length ≤ 256) : exec (.csrWr tag dpa data) s =
    if s.mcl.wrAhead = true then .next s else
    let t := s.takeMsg .csrWr tag (some dpa.toNat)
    if (placeOf dpa.toNat).region.isWord = true then
      waitRecall s (.next ((t.wordWrite .host dpa.toNat data).complete 2 0 tag []).mclPump)
    else .next (t.unmapped 2 tag).mclPump := by
  refine (show execCsrWr tag dpa data s = _ from if_neg (not_malformed hlen)).trans ?_
  rw [hup]
  rfl

omit hup in
/-- A CSR access at which no word stands is answered UNMAPPED. -/
theorem unmapped_responds (hwanted : s.mcl.wanted = []) {c : Instr} {type : MsgType}
    (hexec : exec c s = .next ((s.takeMsg type tag (some dpa.toNat)).unmapped 2 tag).mclPump) :
    Responds s c (cplMsg 2 1 tag [] false) fun u => u.mem = s.mem := by
  have ht := takeMsg_takes s type tag (some dpa.toNat)
  obtain ⟨hreplies, hmem⟩ := unmapped_replies (s := s.takeMsg type tag (some dpa.toNat)) (ch := 2) (tag := tag)
  refine .of_replies hwanted (hexec.trans (waitRecall_next _ _ ?_).symm) (ht.replies hreplies) (hmem.trans ht.mem)
  exact Changes.mclPump.kept .wanted (by decide) ((ht.replies hreplies).wanted hwanted)

end others

/-- Settles O51. -/
theorem hostAccessesAreAnswered : Obligations.HostAccessesAreAnswered := by
  intro s tag dpa hup hwanted hhold hclearing hloft hcanon a n tw cpl bad answers stored
  have hopen : s.Open := ⟨hhold, hclearing, hloft⟩
  have hclean {b len : Nat} (h : bad b len = false) : s.badUnits [viaSpan b len] = [] := by simpa [bad] using h
  refine ⟨fun len hlen => ⟨fun h => rd_served hup tag dpa hwanted hopen hlen h, fun h => rd_unmapped hup tag dpa hwanted hlen h hcanon,
    fun dom h => rd_dark hup tag dpa hwanted hlen h⟩, fun p data dom hlen h => wr_dark hup tag dpa hwanted p hlen h,
    fun p data hlen h => ⟨?wr, ?wb⟩, fun x hx hserved hfresh hroom => ?cache, fun d p data hlen => ?ack,
    fun st p data hlen => exec_cpl hup tag st p hlen, fun len data hlen hdata => ⟨fun hword => ⟨?csrRd, ?wait, ?csrWr⟩, fun hno => ⟨?noRd, fun hfree => ?noWr⟩⟩⟩
  case wr =>
    obtain ⟨u, l, hexec, hout, hrec, hstill, hstored⟩ := wr_served hup tag dpa hwanted hopen hcanon p hlen h
    exact ⟨u, l, hexec, hout, hrec, hstill, fun hp htw hbad => hstored hp htw (hclean hbad)⟩
  case wb =>
    obtain ⟨u, l, hexec, hout, hrec, hstill, hlines, hstored⟩ := wb_served hup tag dpa hwanted hopen hcanon p hlen h
    exact ⟨u, l, hexec, hout, hrec, hstill, hlines, fun hp htw hbad => hstored hp htw (hclean hbad)⟩
  case cache =>
    simp only [List.mem_cons, List.not_mem_nil, or_false] at hx
    rcases hx with rfl | rfl
    · exact hostCache_enters tag dpa hwanted hopen false hserved hfresh hroom
        (show execRdshared tag dpa s = _ from if_neg (by rw [hup]; decide))
    · exact hostCache_enters tag dpa hwanted hopen true hserved hfresh hroom
        (show execRdown tag dpa s = _ from if_neg (by rw [hup]; decide))
  case ack =>
    obtain ⟨u, hexec, hlines, hmem, hstored⟩ := recallAck_run hup dpa hopen hcanon d p hlen
    exact ⟨u, hexec, hlines, hmem, fun hd hp hl hheld hserved htw hbad => hstored hd hp hl hheld hserved htw (hclean hbad)⟩
  case csrRd => exact (exec_csrRd hup tag dpa hlen).trans (if_pos hword)
  case wait => exact fun hahead => (exec_csrWr hup tag dpa hdata).trans (if_pos hahead)
  case csrWr =>
    refine fun hfree => .of_waitRecall ((exec_csrWr hup tag dpa hdata).trans ((if_neg (by rw [hfree]; decide)).trans (if_pos hword)))
  case noRd =>
    exact unmapped_responds tag dpa hwanted ((exec_csrRd hup tag dpa hlen).trans (if_neg (by rw [hno]; decide)))
  case noWr =>
    exact unmapped_responds tag dpa hwanted ((exec_csrWr hup tag dpa hdata).trans ((if_neg (by rw [hfree]; decide)).trans
      (if_neg (by rw [hno]; decide))))

end Sys2Proof.Machine

end

section

/-! SUPPORT. A value that a layout represents is on the layout's grid, so that converting it drops no bit (R78 to R86). -/

namespace Sys2Proof.Machine
open Machine

variable {l : Layout} {s : Bool} {E f m : Nat} {e : Int}

theorem roundUnits_self (r : Round) (m : Nat) (e : Int) : roundUnits r m e e = m := by
  rw [roundUnits, if_pos (Int.le_refl e), Int.sub_self, Int.toNat_zero, Nat.pow_zero, Nat.mul_one]

/-- A magnitude whose unit in the last place is its own exponent keeps its encoding. -/
theorem Layout.convert_exact {b : Nat} (sat : Bool) (r : Round) (s : Bool) (hm : m ≠ 0) (hulp : l.ulp m e = e) (hmag : l.encodeMag m e = some b) :
    l.convert sat r (.fin s m e) = ⟨(if s then l.signBit else 0) + b, false⟩ := by
  rw [Layout.convert, if_neg hm, hulp]
  dsimp only
  rw [roundUnits_self, hmag]

theorem Layout.ulp_subnormal (hf : f < 2 ^ l.mbits) (h0 : f ≠ 0) : l.ulp f (1 - l.bias - l.mbits) = 1 - l.bias - l.mbits := by
  have hlog : Nat.log2 f < l.mbits := (Nat.log2_lt h0).2 hf
  rw [Layout.ulp, floorLog2, if_pos (by omega)]

theorem Layout.encodeMag_subnormal (hf : f < 2 ^ l.mbits) (h0 : f ≠ 0) (hmax : f ≤ l.maxCode) :
    l.encodeMag f (1 - l.bias - l.mbits) = some f := by
  have hlog : Nat.log2 f < l.mbits := (Nat.log2_lt h0).2 hf
  rw [Layout.encodeMag, if_neg h0, floorLog2]
  dsimp only
  have hlow : (Nat.log2 f : Int) + (1 - l.bias - l.mbits) < 1 - l.bias := by omega
  rw [if_pos hlow, Int.sub_self, Int.toNat_zero, Nat.pow_zero, Nat.mul_one, if_pos hmax]

/-- The leading one of a normal significand stands above its fraction bits. -/
theorem log2_normal {M : Nat} (hf : f < 2 ^ M) : Nat.log2 (2 ^ M + f) = M :=
  (Nat.log2_eq_iff (by positivity)).2 ⟨Nat.le_add_right .., by rw [Nat.pow_succ]; omega⟩

theorem Layout.ulp_normal (hf : f < 2 ^ l.mbits) (hE : E ≠ 0) :
    l.ulp (2 ^ l.mbits + f) ((E : Int) - l.bias - l.mbits) = (E : Int) - l.bias - l.mbits := by
  rw [Layout.ulp, floorLog2, log2_normal hf]
  split <;> omega

theorem Layout.encodeMag_normal (hf : f < 2 ^ l.mbits) (hE : E ≠ 0) (hmax : E * 2 ^ l.mbits + f ≤ l.maxCode) :
    l.encodeMag (2 ^ l.mbits + f) ((E : Int) - l.bias - l.mbits) = some (E * 2 ^ l.mbits + f) := by
  have hexp : ((l.mbits : Int) + (E - l.bias - l.mbits) + l.bias).toNat = E := by omega
  have hsig : ((l.mbits : Int) + (E - l.bias - l.mbits) - (E - l.bias - l.mbits) - l.mbits).toNat = 0 := by omega
  rw [Layout.encodeMag, if_neg (by positivity), floorLog2, log2_normal hf]
  dsimp only
  have hhigh : ¬(l.mbits : Int) + (E - l.bias - l.mbits) < 1 - l.bias := by omega
  have hwhole : (l.mbits : Int) ≤ l.mbits + (E - l.bias - l.mbits) - (E - l.bias - l.mbits) := by omega
  rw [if_neg hhigh, if_pos hwhole, hexp, hsig, Nat.pow_zero, Nat.div_one, Nat.add_sub_cancel_left, if_pos hmax]

/-- The encodings above the largest finite one are infinities and NaNs. -/
theorem Layout.le_maxCode {b : Nat} (hb : b < l.signBit) (hnan : ¬(l = .e4m3 ∧ b = 0x7F))
    (htop : ¬(l.hasInf = true ∧ b / 2 ^ l.mbits = 2 ^ l.ebits - 1)) : b ≤ l.maxCode := by
  cases l <;> simp [Layout.signBit, Layout.ebits, Layout.mbits, Layout.hasInf, Layout.maxCode] at * <;> omega

/-- Settles O22: the fields of an encoding are those of its value. -/
theorem representableValuesConvertExactly : Obligations.RepresentableValuesConvertExactly := by
  intro l c sat r hc hnan _
  have hwidth : c < 2 * l.signBit := l.two_pow_width ▸ hc
  have hb : c % l.signBit < l.signBit := Nat.mod_lt _ (Nat.two_pow_pos _)
  have hcode : (if decide (l.signBit ≤ c) = true then l.signBit else 0) + c % l.signBit = c := by
    by_cases hs : l.signBit ≤ c
    · rw [if_pos (decide_eq_true hs), Nat.mod_eq_sub_mod hs, Nat.mod_eq_of_lt (by omega)]
      omega
    · rw [if_neg (by simpa using hs), Nat.mod_eq_of_lt (by omega), Nat.zero_add]
  rw [Layout.decode, Nat.mod_eq_of_lt hc] at hnan ⊢
  generalize decide (l.signBit ≤ c) = s at hcode hnan ⊢
  generalize c % l.signBit = b at hcode hnan hb ⊢
  have hfrac : b % 2 ^ l.mbits < 2 ^ l.mbits := Nat.mod_lt _ (Nat.two_pow_pos _)
  have hfields : b / 2 ^ l.mbits * 2 ^ l.mbits + b % 2 ^ l.mbits = b := Nat.div_add_mod' ..
  by_cases h7f : l = .e4m3 ∧ b = 0x7F
  · rw [if_pos h7f] at hnan
    cases hnan
  rw [if_neg h7f] at hnan ⊢
  by_cases htop : l.hasInf = true ∧ b / 2 ^ l.mbits = 2 ^ l.ebits - 1
  · rw [if_pos htop] at hnan ⊢
    split at hnan
    next h0 =>
      rw [if_pos h0, Layout.convert, if_pos htop.1]
      have hinf : l.infCode = b := by rw [Layout.infCode, ← htop.2]; omega
      rw [hinf]
      cases s <;> simp_all
    next => cases hnan
  rw [if_neg htop]
  have hmax := Layout.le_maxCode hb h7f htop
  by_cases hsub : b / 2 ^ l.mbits = 0
  · have hbf : b % 2 ^ l.mbits = b := by rw [hsub] at hfields; omega
    rw [if_pos hsub, hbf]
    by_cases h0 : b = 0
    · subst h0
      exact congrArg (Conv.mk · false) hcode
    · rw [if_neg h0, Layout.convert_exact sat r s h0 (Layout.ulp_subnormal (hbf ▸ hfrac) h0) (Layout.encodeMag_subnormal (hbf ▸ hfrac) h0 hmax), hcode]
  · rw [if_neg hsub, Layout.convert_exact sat r s (by positivity) (Layout.ulp_normal hfrac hsub)
      (Layout.encodeMag_normal hfrac hsub (hfields.symm ▸ hmax)), hfields, hcode]

end Sys2Proof.Machine

end

section

/-! SUPPORT. The fold of the group sums of an output element, for a contraction of one chunk (R107, R108, R110, R113). -/

namespace Sys2Proof.Machine
open Machine

variable {spill : Nat → Num → Num → Num} {kc q : Nat}

/-- One group sum joins the running sum. -/
def joinGroup (sum : Nat × Nat → Num) (r : Num) (g : Nat × Nat) : Num := rneZ40 (r.add (sum g))

/-- Groups that end no chunk leave the spill total, and fold into the running sum. -/
theorem step_foldl_open (sum : Nat × Nat → Num) {l : List (Nat × Nat)} (h : ∀ g ∈ l, endsChunk kc g = false) (a : Acc) :
    l.foldl (fun a g => a.step spill kc g (sum g)) a = { a with r := l.foldl (joinGroup sum) a.r } := by
  induction l generalizing a with
  | nil => rfl
  | cons g l ih =>
    obtain ⟨hg, hl⟩ := List.forall_mem_cons.1 h
    have hstep : a.step spill kc g (sum g) = { a with r := joinGroup sum a.r g } := if_neg (by rw [hg]; decide)
    rw [List.foldl_cons, hstep, ih hl]
    rfl

/-- The end of the first chunk makes the running sum the total. -/
theorem step_first_chunk {g : Nat × Nat} (hends : endsChunk kc g = true) (hg : g.2 ≤ 65536) (a : Acc) (sum : Num) :
    (a.step spill kc g sum).total = rneZ40 (a.r.add sum) := by
  have hchunk : (g.2 - 1) / 65536 = 0 := Nat.div_eq_of_lt (by omega)
  rw [Acc.step, if_pos hends]
  exact if_pos hchunk

/-- The groups of a contraction of one chunk: those before the last end no chunk, and the last one does. -/
theorem groupsOf_one_chunk (hkc : 0 < kc) (hchunk : kc ≤ 65536) (hq : 0 < q) : ∃ l g, groupsOf q 0 kc = l ++ [g] ∧
    (∀ x ∈ l, endsChunk kc x = false) ∧ endsChunk kc g = true ∧ g.2 ≤ 65536 := by
  obtain ⟨k, hk⟩ : ∃ k, (kc - 0 + q - 1) / q = k + 1 := Nat.exists_eq_succ_of_ne_zero (Nat.div_pos (by omega) hq).ne'
  have hlow : k * q < kc := by
    have h : (k + 1) * q ≤ kc - 0 + q - 1 := (Nat.le_div_iff_mul_le hq).1 (Nat.le_of_eq hk.symm)
    rw [Nat.succ_mul] at h
    omega
  have hhigh : kc ≤ k * q + q := by
    have h : kc - 0 + q - 1 < (k + 1 + 1) * q := (Nat.div_lt_iff_lt_mul hq).1 (by omega)
    rw [Nat.succ_mul, Nat.succ_mul] at h
    omega
  refine ⟨(List.range k).map fun j => (0 + q * j, min kc (0 + q * j + q)), (0 + q * k, min kc (0 + q * k + q)), ?_, fun x hx => ?_, ?_, ?_⟩
  · rw [groupsOf, hk, List.range_succ, List.map_append]
    rfl
  · obtain ⟨j, hj, rfl⟩ := List.mem_map.1 hx
    have hnext : (j + 1) * q ≤ k * q := Nat.mul_le_mul_right q (List.mem_range.1 hj)
    rw [Nat.succ_mul] at hnext
    rw [endsChunk, Nat.mul_comm q j, min_eq_right (by omega), Bool.or_eq_false_iff, decide_eq_false_iff_not, decide_eq_false_iff_not]
    omega
  · rw [endsChunk, Nat.mul_comm q k, min_eq_left (by omega), decide_eq_true rfl, Bool.true_or]
  · exact (min_le_left ..).trans hchunk

/-- Settles O19: only the last group ends the chunk, and its sum is the total. -/
theorem productsFoldInAscendingGroups : Obligations.ProductsFoldInAscendingGroups := by
  intro s b t x m n hk0 hk1 hkc hchunk hq hseeded
  obtain ⟨l, g, hgroups, hopen, hends, hg⟩ := groupsOf_one_chunk hkc hchunk (q := t.q) (by omega)
  have hpart : t.readsPart x.seeded = false := by rw [TileGeo.readsPart, hseeded, Bool.false_and]
  unfold State.accAt
  extract_lets col
  rw [TileGeo.groups, hk0, hk1, hgroups, hpart, List.foldl_append, List.foldl_append,
    step_foldl_open (fun g => groupSum ((List.range (g.2 - g.1)).map fun j =>
      (s.valueT x.mov x.tr m (g.1 + j)).mul (col.getD (g.1 + j - 0) Num.zero))) hopen]
  exact step_first_chunk hends hg _ _

end Sys2Proof.Machine

end

section

/-! SUPPORT. Object requests from the head of the tier queue to the end of their copies (R277, R309 to R311). -/

namespace Sys2Proof.Machine
open Machine

variable {s t : State}

/-! ### Fields of an object's first word -/

/-- A word with `v` written into its field of `w` bits from bit `lo`. -/
def putField (x lo w v : Nat) : Nat := x - bits x lo w * 2 ^ lo + v % 2 ^ w * 2 ^ lo

theorem State.obj_setObj (h : s.Canonical) (n : Nat) {lo w v : Nat} (hlt : putField (s.tword (obKey n 0)) lo w v < 2 ^ 64) :
    (s.setObj n lo w v).obj n =
      Obj.ofWords (putField (s.tword (obKey n 0)) lo w v) (s.tword (obKey n 1)) (s.tword (obKey n 2)) (s.tword (obKey n 3)) :=
  (State.obj_setWord0 h hlt n).trans (if_pos rfl)

theorem State.tword_lt (s : State) (k : Nat) : s.tword k < 2 ^ 64 := BitVec.isLt _

/-- The fields of a first word that hardware writes, beside those that software owns. -/
theorem Obj.ofWords_fields {x y w1 w2 w3 : Nat} (h0 : bits y 0 1 = bits x 0 1) (h1 : bits y 1 2 = bits x 1 2) (h3 : bits y 3 2 = bits x 3 2)
    (h5 : bits y 5 1 = bits x 5 1) (h16 : bits y 16 12 = bits x 16 12) {p s u k : Nat} (hp : bits y 7 1 = p) (hs : bits y 8 2 = s)
    (hu : bits y 10 1 = u) (hk : bits y 11 4 = k) :
    Obj.ofWords y w1 w2 w3 = { Obj.ofWords x w1 w2 w3 with pending := decide (p = 1), state := s, upauth := decide (u = 1), pins := k } := by
  simp only [Obj.ofWords, h0, h1, h3, h5, h16, hp, hs, hu, hk]

theorem State.obj_setPins (h : s.Canonical) (n : Nat) {v : Nat} (hv : v < 16) : (s.setObj n 11 4 v).obj n = { s.obj n with pins := v } := by
  have hx := s.tword_lt (obKey n 0)
  rw [State.obj_setObj h n (by simp only [putField, bits]; omega), State.obj]
  generalize s.tword (obKey n 0) = x at hx
  refine Obj.ofWords_fields (x := x) (p := bits x 7 1) (s := bits x 8 2) (u := bits x 10 1) (k := v) ?_ ?_ ?_ ?_ ?_ ?_ ?_ ?_ ?_ <;>
    (simp only [putField, bits]; omega)

theorem State.obj_setPending (h : s.Canonical) (n : Nat) : (s.setObj n 7 1 0).obj n = { s.obj n with pending := false } := by
  have hx := s.tword_lt (obKey n 0)
  rw [State.obj_setObj h n (by simp only [putField, bits]; omega), State.obj]
  generalize s.tword (obKey n 0) = x at hx
  refine Obj.ofWords_fields (x := x) (p := 0) (s := bits x 8 2) (u := bits x 10 1) (k := bits x 11 4) ?_ ?_ ?_ ?_ ?_ ?_ ?_ ?_ ?_ <;>
    (simp only [putField, bits]; omega)

theorem State.obj_setState (h : s.Canonical) (n : Nat) {st : Nat} (hst : st < 4) : (s.setObj n 8 2 st).obj n = { s.obj n with state := st } := by
  have hx := s.tword_lt (obKey n 0)
  rw [State.obj_setObj h n (by simp only [putField, bits]; omega), State.obj]
  generalize s.tword (obKey n 0) = x at hx
  refine Obj.ofWords_fields (x := x) (p := bits x 7 1) (s := st) (u := bits x 10 1) (k := bits x 11 4) ?_ ?_ ?_ ?_ ?_ ?_ ?_ ?_ ?_ <;>
    (simp only [putField, bits]; omega)

theorem State.obj_setUpauth (h : s.Canonical) (n : Nat) (auth : Bool) :
    (s.setObj n 10 1 (if auth then 1 else 0)).obj n = { s.obj n with upauth := auth } := by
  have hx := s.tword_lt (obKey n 0)
  have hv : (if auth then 1 else 0) < 2 := by split <;> decide
  have hauth : auth = decide ((if auth then 1 else 0) = 1) := by cases auth <;> rfl
  conv_rhs => rw [hauth]
  generalize (if auth then 1 else 0) = v at hv
  rw [State.obj_setObj h n (by simp only [putField, bits]; omega), State.obj]
  generalize s.tword (obKey n 0) = x at hx
  refine Obj.ofWords_fields (x := x) (p := bits x 7 1) (s := bits x 8 2) (u := v) (k := bits x 11 4) ?_ ?_ ?_ ?_ ?_ ?_ ?_ ?_ ?_ <;>
    (simp only [putField, bits]; omega)

theorem State.obj_setObjState (h : s.Canonical) (n : Nat) {st : Nat} (hst : st < 4) (auth : Bool) :
    (s.setObjState n st auth).obj n = { s.obj n with state := st, upauth := auth } := by
  have hcanon : (s.setObj n 8 2 st).Canonical := h.setTableBits ..
  rw [State.setObjState, State.obj_setUpauth hcanon, State.obj_setState h n hst]

theorem State.slot_lt (s : State) (n : Nat) : (s.obj n).slot < 4096 := bits_lt _ 16 12

theorem State.pins_lt (s : State) (n : Nat) : (s.obj n).pins < 16 := bits_lt _ 11 4

/-- The slot table lies behind the object table. -/
theorem slotKey_ne_obKey {n : Nat} (hn : n < 16384) {i : Nat} (hi : i < 8) (k : Nat) : slotKey k ≠ obKey n i := by
  unfold slotKey obKey
  omega

theorem State.obj_setSlot (h : s.Canonical) {n : Nat} (hn : n < 16384) (k : Nat) {v : Nat} (hv : v < 2 ^ 64) : (s.setTable (slotKey k) v).obj n = s.obj n := by
  simp only [State.obj, s.tword_setTable h.table _ _ _ hv, if_neg (slotKey_ne_obKey hn (by decide : 0 < 8) k).symm,
    if_neg (slotKey_ne_obKey hn (by decide : 1 < 8) k).symm, if_neg (slotKey_ne_obKey hn (by decide : 2 < 8) k).symm,
    if_neg (slotKey_ne_obKey hn (by decide : 3 < 8) k).symm]

theorem State.slot_setObj (h : s.Canonical) {n : Nat} (hn : n < 16384) (lo w v k : Nat)
    (hlt : putField (s.tword (obKey n 0)) lo w v < 2 ^ 64) : (s.setObj n lo w v).tword (slotKey k) = s.tword (slotKey k) :=
  (s.tword_setTable h.table _ _ _ hlt).trans (if_neg (slotKey_ne_obKey hn (by decide) k))

/-- The PINS of an object once a Truss's bit is set or cleared. -/
def pinned (p : Nat) (d : TrussId) (off : Bool) : Nat :=
  if off then (if p / 2 ^ d.val % 2 = 1 then p - 2 ^ d.val else p) else if p / 2 ^ d.val % 2 = 1 then p else p + 2 ^ d.val

theorem pinned_spec : ∀ (p : Fin 16) (d : TrussId) (off : Bool), pinned p d off < 16 ∧
    ∀ x : TrussId, (pinned p d off).testBit x = if x = d then !off else p.val.testBit x := by
  decide

/-! ### Requests of a directory that holds one -/

theorem State.finishes (s : State) (d : TrussId) (e : QEntry) (q : Nat) (trap : Option TrapCause) (h : ({ q, e } : Issued) ∈ (s.tr d).issued) :
    ∃ i ∈ ((s.finishRef ⟨d, e.seq⟩ trap).tr d).issued, i.e = e ∧ i.done = true := by
  refine ⟨{ q, e, done := true, trap }, ?_, rfl, rfl⟩
  rw [State.finishRef, State.finish, State.tr_modTr_same]
  exact List.mem_map.2 ⟨_, h, if_pos rfl⟩

/-- A request that is done leaves the directory, and its instruction has reached its completion point. -/
theorem obDone_finishes {d : TrussId} {e : QEntry} (h : ({ q := 6, e } : Issued) ∈ (s.tr d).issued) (moved : Bool) :
    ∃ i ∈ ((s.obDone ⟨d, e.seq⟩ moved).tr d).issued, i.e = e ∧ i.done = true := by
  unfold State.obDone
  extract_lets u
  have hu := State.finishes { s with obreqs := s.obreqs.filter (·.ins ≠ ⟨d, e.seq⟩) } d e 6 (s.trapOf ⟨d, e.seq⟩) h
  split
  · exact hu
  · rw [State.tr_congr (Changes.occ.kept .truss (by decide))]
    exact hu

theorem obDone_obreqs (s : State) {r : ObReq} (h : s.obreqs = [r]) (moved : Bool) : (s.obDone r.ins moved).obreqs = [] := by
  have hfilter : s.obreqs.filter (·.ins ≠ r.ins) = [] := by simp [h]
  unfold State.obDone
  extract_lets u
  split
  · exact hfilter
  · exact (Changes.occ.kept .obreqs (by decide)).trans hfilter

theorem obSettle_empty (h : s.obreqs = []) (n : Nat) : s.obSettle n = s := by
  rw [State.obSettle, h]
  show s.serveWaits = s
  rw [State.serveWaits, h]
  rfl

/-- A request that waits for nothing in the queue of its object leaves the directory as it is, but for a wait that is met. -/
theorem obSettle_single {r : ObReq} (h : s.obreqs = [r]) (hq : r.queued = false) (n : Nat) :
    s.obSettle n = if s.waitMet r then s.obDone r.ins false else s := by
  have hserve : s.serveQueue n 1 = s := by
    rw [State.serveQueue]
    split
    · rfl
    · have hnone : s.obreqs.find? (fun r => r.obj = n && r.queued) = none := by simp [h, hq]
      rw [hnone]
  have hlen : s.obreqs.length = 1 := congrArg List.length h
  rw [State.obSettle, hlen, hserve, State.serveWaits, h]
  rfl

end Sys2Proof.Machine

end

section

/-! SUPPORT. What each object request does on a directory without another one, where no line is in the way (R277, R309 to R311). -/

namespace Sys2Proof.Machine
open Machine

variable {s t : State} {n : Nat} {r : ObReq}

/-! ### Nothing in the way -/

theorem State.Calm.isOpen (h : s.Calm) : s.Open := by
  obtain ⟨-, -, hhold, hclearing, hloft⟩ := h
  exact ⟨hhold, hclearing, hloft⟩

theorem State.Calm.snooped (h : s.Calm) (l : List Span) (w : Bool) : s.snooped l w = [] := by
  obtain ⟨-, hsnoop, -⟩ := id h
  rw [State.snooped, h.isOpen.shut, State.hostHeld, hsnoop]
  rfl

/-- A copy that meets no line does not wait for one. -/
theorem copyObj_unheld (h : ∀ l w, s.snooped l w = []) (ins : InsRef) (src dst size : Nat) :
    Changes [.mcl, .reports, .loft, .regs, .truss, .poison, .mem, .written] s (s.copyObj ins src dst size) := by
  unfold State.copyObj
  extract_lets dev s1 s2 ok s3
  have hw : s1 = s := by
    show s.want _ = s
    rw [h, h]
    rfl
  have h2 : Changes [.reports, .loft] s1 s2 := .touchTier
  have h3 : Changes [.regs, .reports] s2 s3 := .each fun _ _ => .memUncorr
  rw [hw] at h2
  exact .mono (h2.andThen (h3.andThen (.each fun _ _ => .movePiece)))

/-! ### Promotion -/

theorem slot_setPending (hcanon : s.Canonical) (hn : n < 16384) (k : Nat) : (s.setObj n 7 1 0).tword (slotKey k) = s.tword (slotKey k) := by
  have hx := s.tword_lt (obKey n 0)
  exact State.slot_setObj hcanon hn _ _ _ _ (by simp only [putField, bits]; omega)

theorem slot_setObjState (hcanon : s.Canonical) (hn : n < 16384) (k : Nat) {st : Nat} (hst : st < 4) :
    (s.setObjState n st false).tword (slotKey k) = s.tword (slotKey k) := by
  have hx := s.tword_lt (obKey n 0)
  have h1 : (s.setObj n 8 2 st).tword (slotKey k) = s.tword (slotKey k) :=
    State.slot_setObj hcanon hn _ _ _ _ (by simp only [putField, bits]; omega)
  have hc : (s.setObj n 8 2 st).Canonical := hcanon.setTableBits ..
  refine Eq.trans ?_ h1
  rw [State.setObjState]
  generalize s.setObj n 8 2 st = u at hc
  have hy := u.tword_lt (obKey n 0)
  exact State.slot_setObj hc hn _ _ _ _ (by simp only [putField, bits, Bool.false_eq_true, if_false]; omega)

/-- A promotion of an object whose home is in HBM takes its slot, and its copy runs until its end comes. -/
theorem obStart_spec (hcanon : s.Canonical) (hn : n < 16384) (hhome : (s.obj n).home = 1) (ins : InsRef) :
    Changes [.table] s (s.obStart n ins) ∧ ((s.obStart n ins).obj n).state = 2 ∧ ((s.obStart n ins).obj n).upauth = false ∧
      ((s.obj n).slot ≠ 0 → (s.obStart n ins).tword (slotKey (s.obj n).slot) = n) := by
  unfold State.obStart
  extract_lets o s1 s2
  have hfar : o.far = false := decide_eq_false (by rw [hhome]; decide)
  rw [if_neg (by rw [hfar]; decide)]
  have h1 : s1.Canonical ∧ s1.obj n = s.obj n ∧ (o.slot ≠ 0 → s1.tword (slotKey o.slot) = n) ∧ Changes [.table] s s1 := by
    unfold s1
    split
    next h0 => exact ⟨hcanon, rfl, fun h => absurd h0 h, .mono .refl⟩
    next => exact ⟨hcanon.setTable .., State.obj_setSlot hcanon hn _ (by omega), fun _ =>
        (s.tword_setTable hcanon.table _ _ _ (by omega)).trans (if_pos rfl), .setTable⟩
  obtain ⟨hc1, -, hslot, hch⟩ := h1
  have hc2 : (s1.setObj n 7 1 0).Canonical := hc1.setTableBits ..
  have hobj : s2.obj n = { (s1.setObj n 7 1 0).obj n with state := 2, upauth := false } := State.obj_setObjState hc2 n (by decide) false
  refine ⟨.mono (hch.andThen (.andThen .setObj .setObjState)), by rw [hobj], by rw [hobj], fun h => ?_⟩
  exact (slot_setObjState hc2 hn _ (by decide)).trans ((slot_setPending hc1 hn _).trans (hslot h))

/-- A promotion to the upper tier of an object at home with nothing pending starts, where its slot is free or its own. -/
theorem obPromote_starts (hup : r.tier = (s.obj r.obj).up) (hhome : r.tier ≠ (s.obj r.obj).home) (hstate : (s.obj r.obj).state = 1)
    (hpending : (s.obj r.obj).pending = false) (hauth : (s.obj r.obj).upauth = false) (hslot : s.slotFree r.obj = true) :
    s.obPromote r = s.obStart r.obj r.ins := by
  unfold State.obPromote
  extract_lets o
  have htier : ¬(r.tier ≠ o.tUp ∨ r.tier = o.tHome) := by
    rintro (h | h)
    exacts [h hup, hhome h]
  rw [if_neg (by simpa using htier), if_neg (by rw [hstate]; decide), if_neg (by rw [hstate, hpending]; decide),
    if_neg (by rw [hauth]; decide), if_pos hslot]

/-! ### Eviction -/

/-- An object whose copy has ended stands RESIDENT, and the one request has left the directory. -/
theorem resident_spec (hcanon : s.Canonical) (hreqs : s.obreqs = [r]) (auth : Bool) {v : Nat} (hv : v < 2 ^ 64) :
    let u := ((s.setObjState n 1 auth).setTable (obKey n 4) v).obDone r.ins true
    Changes [.table, .obreqs, .truss, .reports] s u ∧ u.obreqs = [] ∧ (u.obj n).state = 1 ∧ (u.obj n).upauth = auth ∧
      ∀ d e, r.ins = ⟨d, e.seq⟩ → ({ q := 6, e } : Issued) ∈ (s.tr d).issued → ∃ i ∈ (u.tr d).issued, i.e = e ∧ i.done = true := by
  intro u
  have hcanon' : (s.setObjState n 1 auth).Canonical := (hcanon.setTableBits ..).setTableBits ..
  have hobj : ((s.setObjState n 1 auth).setTable (obKey n 4) v).obj n = { s.obj n with state := 1, upauth := auth } :=
    (State.obj_setWord hcanon' (by decide) (by decide) hv n).trans (State.obj_setObjState hcanon n (by decide) auth)
  have hset : Changes [.table] s ((s.setObjState n 1 auth).setTable (obKey n 4) v) := .mono (.andThen .setObjState .setTable)
  have hall : u = ((s.setObjState n 1 auth).setTable (obKey n 4) v).obDone r.ins true := rfl
  clear_value u
  revert hobj hset hall
  generalize (s.setObjState n 1 auth).setTable (obKey n 4) v = w
  intro hobj hset hall
  subst hall
  have hdone : Changes [.obreqs, .truss, .reports] w (w.obDone r.ins true) := .obDone
  have hu : (w.obDone r.ins true).obj n = { s.obj n with state := 1, upauth := auth } := (State.obj_congr (hdone.kept .table (by decide)) n).trans hobj
  refine ⟨.mono (hset.andThen hdone), obDone_obreqs w ((hset.kept .obreqs (by decide)).trans hreqs) true, by rw [hu], by rw [hu],
    fun d e hins hmem => ?_⟩
  have hfin := obDone_finishes (s := w) (d := d) (e := e) (by rw [State.tr_congr (hset.kept .truss (by decide))]; exact hmem) true
  rw [← hins] at hfin
  exact hfin

/-- An eviction that ends in a directory without another request leaves the home copy authoritative. -/
theorem evictEnd_spec (hcanon : s.Canonical) (hreqs : s.obreqs = [r]) :
    Changes [.table, .obreqs, .truss, .reports] s (s.evictEnd n r.ins) ∧ (s.evictEnd n r.ins).obreqs = [] ∧
      ((s.evictEnd n r.ins).obj n).state = 1 ∧ ((s.evictEnd n r.ins).obj n).upauth = false ∧
      ∀ d e, r.ins = ⟨d, e.seq⟩ → ({ q := 6, e } : Issued) ∈ (s.tr d).issued →
        ∃ i ∈ ((s.evictEnd n r.ins).tr d).issued, i.e = e ∧ i.done = true := by
  unfold State.evictEnd
  extract_lets o s1 s2
  have h1 : Changes [.table] s s1 := .mono (.ite .refl .setTable)
  have hticket : s1.ticket.toNat < 2 ^ 64 := lt_of_lt_of_le (BitVec.isLt _) (by decide)
  obtain ⟨hchange, hempty, hstate, hauth, hdone⟩ :=
    resident_spec (n := n) (h1.canonical hcanon) ((h1.kept .obreqs (by decide)).trans hreqs) false hticket
  have htr (d : TrussId) : s1.tr d = s.tr d := State.tr_congr (h1.kept .truss (by decide)) d
  have hnone : s2.slotWaiter o.slot = none := by
    have hs2 : s2.obreqs = [] := hempty
    unfold State.slotWaiter
    rw [hs2]
    split <;> rfl
  rw [hnone]
  exact ⟨.mono (h1.andThen hchange), hempty, hstate, hauth, fun d e hins hmem => hdone d e hins (by rw [htr]; exact hmem)⟩

/-- An eviction to the home tier of an object that nothing refers to begins. -/
theorem obEvict_begins (hreqs : s.obreqs = [r]) (hkind : r.kind = 2) (htier : r.tier = (s.obj r.obj).home) (hstate : (s.obj r.obj).state = 1)
    (hpending : (s.obj r.obj).pending = false) (hauth : (s.obj r.obj).upauth = true) (hpins : (s.obj r.obj).pins = 0) :
    s.obEvict r =
      if (!(s.obj r.obj).wb) = true then (s.setObjState r.obj 3 true).evictEnd r.obj r.ins
      else if (s.obj r.obj).far = true then (s.setObjState r.obj 3 true).copyObj r.ins (s.obj r.obj).upDpa (s.obj r.obj).homeDpa (s.obj r.obj).size
      else s.setObjState r.obj 3 true := by
  have hmatch : s.mismatch r.obj r.tier = s := if_pos (by rw [Bool.or_eq_true]; exact .inl (decide_eq_true htier))
  have href : s.referenced r.obj = false := by
    unfold State.referenced
    simp [hpins, hreqs, hkind]
  have hother : (s.obreqs.any fun x => x.obj = r.obj && x.kind = 1) = false := by simp [hreqs, hkind]
  unfold State.obEvict
  extract_lets o u v
  have hu : u = s := hmatch
  have htier' : ¬r.tier ≠ o.tHome := fun h => h htier
  have hset : v = s.setObjState r.obj 3 true := congrArg (fun x : State => x.setObjState r.obj 3 true) hu
  rw [hset, hu, if_neg (by rw [hstate, hpending]; decide), if_neg htier', if_neg (by rw [hstate]; decide), if_neg (by rw [hauth]; decide),
    if_neg (by rw [href, hother]; decide)]

/-! ### Prefetch and wait -/

theorem obPrefetch_fills (hopen : s.Open) : ∃ u, Changes [.reports, .loft] s u ∧ s.obPrefetch r = u.obDone r.ins false := by
  unfold State.obPrefetch
  extract_lets o u
  refine ⟨u, ?_, rfl⟩
  unfold u
  rw [hopen.shut, State.want_nil]
  split
  · exact .mono .refl
  · refine .each fun x k => ?_
    dsimp only
    split
    · exact .mono (.ite .occ (.ite .touchLine .refl))
    · exact .mono .refl

/-- A wait for the tier of the authoritative copy is met. -/
theorem waitMet_single (hreqs : s.obreqs = [r]) (hkind : r.kind = 4) (htier : (s.obj r.obj).tier = r.tier) : s.waitMet r = true := by
  simp [State.waitMet, hreqs, hkind, htier]

end Sys2Proof.Machine

end

section

/-! SUPPORT. The object instructions, and the ends of their copies (R277, R309 to R311). -/

namespace Sys2Proof.Machine
open Machine

variable {s t : State} {d : TrussId} {e : QEntry}

/-- A state in which an object instruction has issued and its request has entered the directory. -/
def State.asked (s : State) (d : TrussId) (e : QEntry) (r : ObReq) : State :=
  { s.issue d 6 e with obreqs := (s.issue d 6 e).obreqs ++ [r] }

theorem asked_changes (s : State) (d : TrussId) (e : QEntry) (r : ObReq) : Changes [.truss, .obreqs] s (s.asked d e r) :=
  .andThen .issue .obreqs

theorem asked_obreqs (h : s.obreqs = []) (r : ObReq) : (s.asked d e r).obreqs = [r] := congrArg (· ++ [r]) h

theorem asked_issued (s : State) (d : TrussId) (e : QEntry) (r : ObReq) : ({ q := 6, e } : Issued) ∈ ((s.asked d e r).tr d).issued := by
  show _ ∈ ((s.issue d 6 e).tr d).issued
  rw [State.issue, State.tr_modTr_same]
  exact List.mem_append_right _ (List.mem_singleton.2 rfl)

/-- The object that an instruction names. -/
def QEntry.object (e : QEntry) : Nat := e.da + 0x1000 * bits e.cr 0 4

/-- The request that an instruction puts into the directory. -/
def QEntry.request (e : QEntry) (d : TrussId) (kind : Nat) : ObReq :=
  { ins := ⟨d, e.seq⟩, obj := e.object, kind, tier := bits e.mod 0 2, prio := e.hi 0 2 }

/-- An object instruction on a VALID object enters the directory and is served. -/
theorem obIssue_run {op kind : Nat} (hhead : s.AtHead d 6 op e) (h0 : 0 < e.object) (hn : e.object < 16384)
    (hvalid : (s.obj e.object).valid = true) : obIssue d op kind s = waitRecall s (.next
      (if kind = 0 then
        (((s.asked d e (e.request d 0)).setObj e.object 11 4 (pinned (s.obj e.object).pins d (e.m 0))).obDone ⟨d, e.seq⟩ false).obSettle e.object
      else ((s.asked d e (e.request d kind)).obServe (e.request d kind)).obSettle e.object)) := by
  have hready : s.ready d 6 op = some e := hhead
  have hok : ¬(e.object = 0 || 16384 ≤ e.object || !((s.issue d 6 e).obj e.object).valid) = true := by
    have hv : ((s.issue d 6 e).obj e.object).valid = true := hvalid
    simp only [hv, Bool.not_true, Bool.or_false, Bool.or_eq_true, decide_eq_true_eq]
    omega
  unfold obIssue
  rw [hready]
  refine congrArg (waitRecall s) ((if_neg hok).trans ?_)
  by_cases hk : kind = 0
  · subst hk
    rfl
  · rw [if_neg hk, if_neg hk]
    rfl

/-- A request that the directory keeps: nothing more follows it. -/
theorem obSettle_kept {r : ObReq} {u : State} (hu : u.obreqs = [r]) (hq : r.queued = false) (hkind : r.kind ≠ 4) (n : Nat) : u.obSettle n = u := by
  rw [obSettle_single hu hq, if_neg]
  simp [State.waitMet, hkind]

section alone

variable (hreqs : s.obreqs = [])
include hreqs

/-- OB.PIN changes the Truss's bit of PINS alone. -/
theorem obPin_alone (hcanon : s.Canonical) :
    let t := (((s.asked d e (e.request d 0)).setObj e.object 11 4 (pinned (s.obj e.object).pins d (e.m 0))).obDone ⟨d, e.seq⟩ false).obSettle
      e.object
    Changes [.truss, .obreqs, .table, .reports] s t ∧ (∃ i ∈ (t.tr d).issued, i.e = e ∧ i.done = true) ∧ t.obreqs = [] ∧
      t.obj e.object = { s.obj e.object with pins := pinned (s.obj e.object).pins d (e.m 0) } := by
  intro t
  obtain ⟨hpins, -⟩ := pinned_spec ⟨(s.obj e.object).pins, s.pins_lt _⟩ d (e.m 0)
  have hasked := asked_changes s d e (e.request d 0)
  have hmem := asked_issued s d e (e.request d 0)
  have hone := asked_obreqs (d := d) (e := e) hreqs (e.request d 0)
  have hset := State.obj_setPins (hasked.canonical hcanon) e.object hpins
  rw [State.obj_congr (hasked.kept .table (by decide))] at hset
  have hempty := obDone_obreqs (r := e.request d 0)
    ((s.asked d e (e.request d 0)).setObj e.object 11 4 (pinned (s.obj e.object).pins d (e.m 0))) hone false
  have ht : t = ((s.asked d e (e.request d 0)).setObj e.object 11 4 (pinned (s.obj e.object).pins d (e.m 0))).obDone ⟨d, e.seq⟩ false :=
    obSettle_empty hempty _
  rw [ht]
  exact ⟨.mono (hasked.andThen (.andThen .setObj .obDone)), obDone_finishes (s := (s.asked d e (e.request d 0)).setObj e.object 11 4 (pinned (s.obj e.object).pins d (e.m 0))) hmem false, hempty,
    (State.obj_congr (Changes.obDone.kept .table (by decide)) _).trans hset⟩

/-- OB.PROMOTE takes the slot and leaves the object PROMOTING. -/
theorem obPromote_alone (hcanon : s.Canonical) (hn : e.object < 16384) (hup : bits e.mod 0 2 = (s.obj e.object).up)
    (hne : bits e.mod 0 2 ≠ (s.obj e.object).home) (hstate : (s.obj e.object).state = 1) (hpending : (s.obj e.object).pending = false)
    (hauth : (s.obj e.object).upauth = false) (hslot : s.slotFree e.object = true) (hhome : (s.obj e.object).home = 1) :
    let t := ((s.asked d e (e.request d 1)).obServe (e.request d 1)).obSettle e.object
    Changes [.truss, .obreqs, .table] s t ∧ (t.obj e.object).state = 2 ∧ (t.obj e.object).upauth = false ∧
      ((s.obj e.object).slot ≠ 0 → t.tword (slotKey (s.obj e.object).slot) = e.object) ∧ t.obreqs = [e.request d 1] := by
  intro t
  have hasked := asked_changes s d e (e.request d 1)
  have hobj : (s.asked d e (e.request d 1)).obj e.object = s.obj e.object := State.obj_congr (hasked.kept .table (by decide)) _
  have hone := asked_obreqs (d := d) (e := e) hreqs (e.request d 1)
  have hstart : (s.asked d e (e.request d 1)).obServe (e.request d 1) = (s.asked d e (e.request d 1)).obStart e.object ⟨d, e.seq⟩ :=
    obPromote_starts (r := e.request d 1) hup hne hstate hpending hauth hslot
  obtain ⟨hchange, h2, h3, h4⟩ := obStart_spec (hasked.canonical hcanon) hn (by rw [hobj]; exact hhome) ⟨d, e.seq⟩
  rw [hobj] at h4
  have hreq : ((s.asked d e (e.request d 1)).obStart e.object ⟨d, e.seq⟩).obreqs = [e.request d 1] := (hchange.kept .obreqs (by decide)).trans hone
  have ht : t = (s.asked d e (e.request d 1)).obStart e.object ⟨d, e.seq⟩ := by
    refine Eq.trans (congrArg (·.obSettle e.object) hstart) ?_
    exact obSettle_kept hreq rfl (by show 1 ≠ 4; decide) _
  rw [ht]
  exact ⟨.mono (hasked.andThen hchange), h2, h3, h4, hreq⟩

/-- OB.EVICT without a write-back makes the home copy authoritative at once; with one it leaves the object EVICTING. -/
theorem obEvict_alone (hcanon : s.Canonical) (hcalm : s.Calm) (htier : bits e.mod 0 2 = (s.obj e.object).home)
    (hstate : (s.obj e.object).state = 1) (hpending : (s.obj e.object).pending = false) (hauth : (s.obj e.object).upauth = true)
    (hpins : (s.obj e.object).pins = 0) :
    let t := ((s.asked d e (e.request d 2)).obServe (e.request d 2)).obSettle e.object
    t.mcl.wanted = [] ∧
    ((s.obj e.object).wb = false → (t.obj e.object).state = 1 ∧ (t.obj e.object).upauth = false ∧ ∃ i ∈ (t.tr d).issued, i.e = e ∧ i.done = true) ∧
    ((s.obj e.object).wb = true → (t.obj e.object).state = 3 ∧ (t.obj e.object).upauth = true) := by
  intro t
  have hasked := asked_changes s d e (e.request d 2)
  have hobj : (s.asked d e (e.request d 2)).obj e.object = s.obj e.object := State.obj_congr (hasked.kept .table (by decide)) _
  have hone := asked_obreqs (d := d) (e := e) hreqs (e.request d 2)
  have hmem := asked_issued s d e (e.request d 2)
  have hcanon' := hasked.canonical hcanon
  obtain ⟨hwanted, -⟩ := id hcalm
  have hserve : (s.asked d e (e.request d 2)).obServe (e.request d 2) = _ :=
    obEvict_begins (r := e.request d 2) hone rfl htier hstate hpending hauth hpins
  have ht : t = ((s.asked d e (e.request d 2)).obServe (e.request d 2)).obSettle e.object := rfl
  clear_value t
  rw [hserve, show (e.request d 2).obj = e.object from rfl, hobj] at ht
  have hbegun : Changes [.truss, .obreqs, .table] s ((s.asked d e (e.request d 2)).setObjState e.object 3 true) := .mono (hasked.andThen .setObjState)
  have hevicting := State.obj_setObjState hcanon' e.object (show 3 < 4 by decide) true
  have hone' : ((s.asked d e (e.request d 2)).setObjState e.object 3 true).obreqs = [e.request d 2] := hone
  have hmem' : ({ q := 6, e } : Issued) ∈ (((s.asked d e (e.request d 2)).setObjState e.object 3 true).tr d).issued := by
    rw [State.tr_congr (Changes.setObjState.kept .truss (by decide))]
    exact hmem
  revert ht hbegun hevicting hone' hmem'
  generalize (s.asked d e (e.request d 2)).setObjState e.object 3 true = u
  intro ht hbegun hevicting hone' hmem'
  cases hwb : (s.obj e.object).wb with
  | false =>
    obtain ⟨hchange, hempty, h1, h2, hdone⟩ := evictEnd_spec (n := e.object) (hbegun.canonical hcanon) hone'
    rw [hwb, if_pos (by decide), obSettle_empty hempty] at ht
    subst ht
    exact ⟨(hbegun.andThen hchange).kept .wanted (by decide) hwanted, fun _ => ⟨h1, h2, hdone d e rfl hmem'⟩, nofun⟩
  | true =>
    have hcopy : Changes [.mcl, .reports, .loft, .regs, .truss, .poison, .mem, .written] u
        (if (s.obj e.object).far = true then u.copyObj (e.request d 2).ins (s.obj e.object).upDpa (s.obj e.object).homeDpa (s.obj e.object).size
          else u) := by
      split
      · exact copyObj_unheld (fun l w => ((SameGround.of_changes hbegun).snooped l w).trans (hcalm.snooped l w)) ..
      · exact .mono .refl
    rw [hwb, if_neg (by decide)] at ht
    revert ht hcopy
    generalize (if (s.obj e.object).far = true then u.copyObj (e.request d 2).ins (s.obj e.object).upDpa (s.obj e.object).homeDpa
      (s.obj e.object).size else u) = v
    intro ht hcopy
    have hreq : v.obreqs = [e.request d 2] := (hcopy.kept .obreqs (by decide)).trans hone'
    rw [obSettle_kept hreq rfl (by show 2 ≠ 4; decide)] at ht
    subst ht
    have hv : t.obj e.object = u.obj e.object := State.obj_congr (hcopy.kept .table (by decide)) _
    rw [hv, hevicting]
    exact ⟨(hbegun.andThen hcopy).kept .wanted (by decide) hwanted, nofun, fun _ => ⟨rfl, rfl⟩⟩

/-- OB.PREFETCH fills lines, completes, and changes no object. -/
theorem obPrefetch_alone (hcalm : s.Calm) :
    let t := ((s.asked d e (e.request d 3)).obServe (e.request d 3)).obSettle e.object
    Changes [.truss, .obreqs, .reports, .loft] s t ∧ ∃ i ∈ (t.tr d).issued, i.e = e ∧ i.done = true := by
  intro t
  have hasked := asked_changes s d e (e.request d 3)
  have hone := asked_obreqs (d := d) (e := e) hreqs (e.request d 3)
  obtain ⟨u, hfill, hserve⟩ := obPrefetch_fills (r := e.request d 3) (hcalm.isOpen.kept hasked)
  have hmem : ({ q := 6, e } : Issued) ∈ (u.tr d).issued := by
    rw [State.tr_congr (hfill.kept .truss (by decide))]
    exact asked_issued ..
  have hempty := obDone_obreqs (r := e.request d 3) u ((hfill.kept .obreqs (by decide)).trans hone) false
  have ht : t = u.obDone ⟨d, e.seq⟩ false := (congrArg (·.obSettle e.object) hserve).trans (obSettle_empty hempty _)
  rw [ht]
  exact ⟨.mono (hasked.andThen (hfill.andThen .obDone)), obDone_finishes hmem false⟩

/-- OB.WAIT for the tier of the authoritative copy completes. -/
theorem obWait_alone (htier : (s.obj e.object).tier = bits e.mod 0 2) :
    let t := ((s.asked d e (e.request d 4)).obServe (e.request d 4)).obSettle e.object
    Changes [.truss, .obreqs, .reports] s t ∧ ∃ i ∈ (t.tr d).issued, i.e = e ∧ i.done = true := by
  intro t
  have hasked := asked_changes s d e (e.request d 4)
  have hone := asked_obreqs (d := d) (e := e) hreqs (e.request d 4)
  have hserve : (s.asked d e (e.request d 4)).obServe (e.request d 4) = s.asked d e (e.request d 4) := by
    refine if_pos ?_
    show (decide (bits e.mod 0 2 = (s.obj e.object).tHome) || decide (bits e.mod 0 2 = (s.obj e.object).tUp)) = true
    rw [← htier, Obj.tier, Bool.or_eq_true, decide_eq_true_eq, decide_eq_true_eq]
    split
    exacts [.inr rfl, .inl rfl]
  have hmet : (s.asked d e (e.request d 4)).waitMet (e.request d 4) = true := waitMet_single hone rfl htier
  have ht : t = (s.asked d e (e.request d 4)).obDone ⟨d, e.seq⟩ false :=
    (congrArg (·.obSettle e.object) hserve).trans ((obSettle_single hone rfl _).trans (if_pos hmet))
  rw [ht]
  exact ⟨.mono (hasked.andThen .obDone), obDone_finishes (asked_issued ..) false⟩

end alone

/-! ### The ends of copies -/

section ends

variable {n : Fin 16384} {r : ObReq} (hcanon : s.Canonical) (hcalm : s.Calm) (hhome : (s.obj n).home = 1) (hreqs : s.obreqs = [r]) (hobj : r.obj = n)
  (hq : r.queued = false) (hidle : s.uwBusy r.ins = false)
include hcanon hcalm hhome hreqs hobj hq hidle

omit hcanon hcalm in
theorem copy_runs {kind : Nat} (hkind : r.kind = kind) : s.copying n kind = some r ∧ (s.uwBusy r.ins || s.outranked r) = false ∧ (s.obj n).far = false := by
  refine ⟨?_, ?_, decide_eq_false (by rw [hhome]; decide)⟩
  · simp [State.copying, hreqs, hobj, hkind, hq]
  · rw [hidle, State.outranked, hreqs]
    simp

theorem promoteCopyEnd_alone (hstate : (s.obj n).state = 2) (hkind : r.kind = 1) : ∃ t, exec (.promoteCopyEnd n) s = .next t ∧
    (t.obj n).state = 1 ∧ (t.obj n).upauth = true ∧ t.obreqs = [] := by
  obtain ⟨hcopying, hfree, hfar⟩ := copy_runs hhome hreqs hobj hq hidle hkind
  obtain ⟨hwanted, -⟩ := id hcalm
  have hcopy := copyObj_unheld (fun l w => hcalm.snooped l w) r.ins (s.obj n).homeDpa (s.obj n).upDpa (s.obj n).size
  have hend : promoteCopyEnd n s = (((((s.copyObj r.ins (s.obj n).homeDpa (s.obj n).upDpa (s.obj n).size).setObjState n 1 true).setTable (obKey n 4)
      (s.copyObj r.ins (s.obj n).homeDpa (s.obj n).upDpa (s.obj n).size).ticket.toNat).obDone r.ins true).serveWaits).obSettle n := by
    unfold promoteCopyEnd
    dsimp only
    rw [if_pos hstate, hcopying]
    dsimp only
    rw [if_neg (by rw [hfree]; decide), if_neg (by rw [hfar]; decide)]
  revert hend hcopy
  generalize s.copyObj r.ins (s.obj n).homeDpa (s.obj n).upDpa (s.obj n).size = u
  intro hcopy hend
  have hticket : u.ticket.toNat < 2 ^ 64 := lt_of_lt_of_le (BitVec.isLt _) (by decide)
  obtain ⟨hchange, hempty, h1, h2, -⟩ := resident_spec (n := n) (hcopy.canonical hcanon) ((hcopy.kept .obreqs (by decide)).trans hreqs) true hticket
  revert hend hchange hempty h1 h2
  generalize (((u.setObjState n 1 true).setTable (obKey n 4) u.ticket.toNat).obDone r.ins true) = v
  intro hend hchange hempty h1 h2
  have hwaits : v.serveWaits = v := by
    rw [State.serveWaits, hempty]
    rfl
  rw [hwaits, obSettle_empty hempty] at hend
  refine ⟨v, ?_, h1, h2, hempty⟩
  show waitRecall s (.next (promoteCopyEnd n s)) = _
  rw [hend, waitRecall_next]
  exact (hcopy.andThen hchange).kept .wanted (by decide) hwanted

theorem evictCopyEnd_alone (hstate : (s.obj n).state = 3) (hkind : r.kind = 2) : ∃ t, exec (.evictCopyEnd n) s = .next t ∧
    (t.obj n).state = 1 ∧ (t.obj n).upauth = false ∧ t.obreqs = [] := by
  obtain ⟨hcopying, hfree, hfar⟩ := copy_runs hhome hreqs hobj hq hidle hkind
  obtain ⟨hwanted, -⟩ := id hcalm
  have hcopy := copyObj_unheld (fun l w => hcalm.snooped l w) r.ins (s.obj n).upDpa (s.obj n).homeDpa (s.obj n).size
  have hend : evictCopyEnd n s = ((s.copyObj r.ins (s.obj n).upDpa (s.obj n).homeDpa (s.obj n).size).evictEnd n r.ins).obSettle n := by
    unfold evictCopyEnd
    dsimp only
    rw [if_pos hstate, hcopying]
    dsimp only
    rw [if_neg (by rw [hfree]; decide), if_neg (by rw [hfar]; decide)]
  revert hend hcopy
  generalize s.copyObj r.ins (s.obj n).upDpa (s.obj n).homeDpa (s.obj n).size = u
  intro hcopy hend
  obtain ⟨hchange, hempty, h1, h2, -⟩ := evictEnd_spec (n := n) (hcopy.canonical hcanon) ((hcopy.kept .obreqs (by decide)).trans hreqs)
  rw [obSettle_empty hempty] at hend
  refine ⟨_, ?_, h1, h2, hempty⟩
  show waitRecall s (.next (evictCopyEnd n s)) = _
  rw [hend, waitRecall_next]
  exact (hcopy.andThen hchange).kept .wanted (by decide) hwanted

end ends

/-- Settles O32: an object instruction enters the directory, and what it does there alone. -/
theorem objectRequestsRun : Obligations.ObjectRequestsRun := by
  refine ⟨?requests, fun s n r hcanon hcalm hhome hreqs hobj hq hidle =>
    ⟨promoteCopyEnd_alone hcanon hcalm hhome hreqs hobj hq hidle, evictCopyEnd_alone hcanon hcalm hhome hreqs hobj hq hidle⟩⟩
  intro s d e n o tier r s1 u pins done alone h0 hn hvalid
  refine ⟨fun hhead => ⟨.of_waitRecall (obIssue_run hhead h0 hn hvalid), ?pin⟩, fun hhead => ⟨.of_waitRecall (obIssue_run hhead h0 hn hvalid), ?promote⟩,
    fun hhead => ⟨.of_waitRecall (obIssue_run hhead h0 hn hvalid), ?evict⟩, fun hhead => ⟨.of_waitRecall (obIssue_run hhead h0 hn hvalid), ?prefetch⟩,
    fun hhead => ⟨.of_waitRecall (obIssue_run hhead h0 hn hvalid), ?wait⟩⟩
  case pin =>
    rintro ⟨hcanon, ⟨hwanted, -⟩, hreqs⟩
    obtain ⟨hchange, hdone, hempty, hobj⟩ := obPin_alone (d := d) (e := e) hreqs hcanon
    obtain ⟨-, hbits⟩ := pinned_spec ⟨o.pins, s.pins_lt _⟩ d (e.m 0)
    refine ⟨(obIssue_run hhead h0 hn hvalid).trans (waitRecall_next _ _ (hchange.kept .wanted (by decide) hwanted)), hdone, hempty, ?_⟩
    refine ⟨fun x => (congrArg (fun o : Obj => o.pins.testBit x) hobj).trans (hbits x), (congrArg Obj.state hobj :), (congrArg Obj.upauth hobj :),
      (congrArg Obj.pending hobj :)⟩
  case promote =>
    rintro ⟨hcanon, ⟨hwanted, -⟩, hreqs⟩ hup hne hstate hpending hauth hslot hhome
    obtain ⟨hchange, h1, h2, h3, h4⟩ := obPromote_alone (d := d) hreqs hcanon hn hup hne hstate hpending hauth hslot hhome
    exact ⟨(obIssue_run hhead h0 hn hvalid).trans (waitRecall_next _ _ (hchange.kept .wanted (by decide) hwanted)), h1, h2, h3, h4,
      hchange.kept .mem (by decide)⟩
  case evict =>
    rintro ⟨hcanon, hcalm, hreqs⟩ htier hstate hpending hauth hpins
    obtain ⟨hwanted, h1, h2⟩ := obEvict_alone (d := d) hreqs hcanon hcalm htier hstate hpending hauth hpins
    exact ⟨(obIssue_run hhead h0 hn hvalid).trans (waitRecall_next _ _ hwanted), h1, h2⟩
  case prefetch =>
    rintro ⟨-, hcalm, hreqs⟩
    obtain ⟨hwanted, -⟩ := id hcalm
    obtain ⟨hchange, hdone⟩ := obPrefetch_alone (d := d) (e := e) hreqs hcalm
    exact ⟨(obIssue_run hhead h0 hn hvalid).trans (waitRecall_next _ _ (hchange.kept .wanted (by decide) hwanted)), hdone,
      hchange.kept .table (by decide), hchange.kept .mem (by decide)⟩
  case wait =>
    rintro ⟨-, ⟨hwanted, -⟩, hreqs⟩ htier
    obtain ⟨hchange, hdone⟩ := obWait_alone (d := d) (e := e) hreqs htier
    exact ⟨(obIssue_run hhead h0 hn hvalid).trans (waitRecall_next _ _ (hchange.kept .wanted (by decide) hwanted)), hdone,
      hchange.kept .table (by decide), hchange.kept .mem (by decide)⟩

end Sys2Proof.Machine

end

section

/-! SUPPORT. Where the stores of views and records go: blocks, records, and what one list of places covers of another (R142 to R145, R123, R223). -/

namespace Sys2Proof.Machine
open Machine

/-! ### Places that cover others -/

/-- The places `l` together hold every byte of the places `l'`. -/
def Covers (l l' : List Span) : Prop :=
  ∀ b, (∀ x ∈ l, b < x.a ∨ x.a + x.n ≤ b) → ∀ x ∈ l', b < x.a ∨ x.a + x.n ≤ b

namespace Covers

variable {α : Type} {l l' k k' m : List Span}

theorem of_subset (h : l' ⊆ l) : Covers l l' := fun _ hb x hx => hb x (h hx)

theorem refl (l : List Span) : Covers l l := of_subset (List.Subset.refl l)

theorem trans (h : Covers l l') (h' : Covers l' m) : Covers l m := fun b hb => h' b (h b hb)

theorem append (h : Covers l k) (h' : Covers l k') : Covers l (k ++ k') := fun b hb x hx =>
  (List.mem_append.1 hx).elim (h b hb x) (h' b hb x)

theorem left (h : Covers l m) (l' : List Span) : Covers (l ++ l') m := trans (of_subset (List.subset_append_left ..)) h

theorem right (l : List Span) (h : Covers l' m) : Covers (l ++ l') m := trans (of_subset (List.subset_append_right ..)) h

theorem nil : Covers l [] := of_subset (List.nil_subset _)

theorem ite {c : Prop} [Decidable c] (h : c → Covers l k) (h' : ¬c → Covers l k') : Covers l (if c then k else k') := by
  split
  · exact h ‹_›
  · exact h' ‹_›

/-- A place inside another one. -/
theorem of_mem {x y : Span} (hx : x ∈ l) (hlo : x.a ≤ y.a) (hhi : y.a + y.n ≤ x.a + x.n) : Covers l [y] := fun b hb z hz => by
  rw [List.mem_singleton.1 hz]
  have h := hb x hx
  omega

theorem flatMap {xs : List α} {f : α → List Span} (h : ∀ x ∈ xs, Covers l (f x)) : Covers l (xs.flatMap f) := fun b hb _ hy =>
  have ⟨x, hx, hy⟩ := List.mem_flatMap.1 hy
  h x hx b hb _ hy

theorem of_flatMap {xs : List α} {f : α → List Span} {x : α} (hx : x ∈ xs) (h : Covers (f x) m) : Covers (xs.flatMap f) m :=
  trans (of_subset fun _ hy => List.mem_flatMap.2 ⟨x, hx, hy⟩) h

end Covers

namespace State.Writes

variable {α : Type} {l l' : List Span} {s t : State}

theorem within (h : s.Writes l t) (hl : Covers l' l) : s.Writes l' t := fun hm =>
  have ⟨ht, hst⟩ := h hm
  ⟨ht, fun b hb => hst b (hl b hb)⟩

theorem put {a : Nat} {v : Byte} (hl : Covers l [{ a, n := 1 }]) : s.Writes l (s.putByte a v) := fun hm =>
  ⟨s.putByte_wf hm a v, fun b hb => by
    have h := hl b hb _ (List.mem_singleton.2 rfl)
    rw [State.byte_putByte s hm, if_neg (by simp only at h; omega)]⟩

theorem writeNat (s : State) (a v n : Nat) (hl : Covers l [{ a, n }]) : s.Writes l (s.writeNat a v n) :=
  (write a (leBytes v n) (List.mem_singleton.2 (by rw [leBytes_length]))).within hl

/-- A run whose given bytes alone are written. -/
theorem writeSome (s : State) (a : Nat) (bs : List (Option Byte)) : s.Writes [{ a, n := bs.length }] (s.writeSome a bs) := by
  refine trans (of_mem (s.mem_mark_each ..)) (each fun t p hp => ?_)
  split
  · refine put (.of_mem (List.mem_singleton.2 rfl) (Nat.le_add_right ..) ?_)
    have hi := List.mem_range.1 (List.of_mem_zip hp).1
    show a + p.1 + 1 ≤ a + bs.length
    omega
  · exact refl

/-- A free value stored in a place. -/
theorem free (s : State) (x : Span) (hl : Covers l [x]) : s.Writes l (s.drawFree.2.write x.a (leBytes s.drawFree.1 x.n)) :=
  trans (of_changes Changes.drawFree) ((write (l := [{ a := x.a, n := x.n }]) x.a (leBytes s.drawFree.1 x.n) (List.mem_singleton.2 (by rw [leBytes_length]))).within
    (hl.trans (.of_mem (List.mem_singleton.2 rfl) (Nat.le_refl _) (Nat.le_refl _))))

/-- Bytes that are read and written become undefined where they are written. -/
theorem smear (s : State) (reads writes : List Span) : s.Writes writes (s.smear reads writes) := by
  refine each fun t x hx => free t x ?_
  obtain ⟨p, -, hx⟩ := List.mem_flatMap.1 hx
  obtain ⟨q, hq, hx⟩ := List.mem_filterMap.1 hx
  dsimp only at hx
  split at hx
  · cases hx
    refine .of_mem hq (Nat.le_max_right ..) ?_
    show max p.a q.a + (min (p.a + p.n) (q.a + q.n) - max p.a q.a) ≤ q.a + q.n
    omega
  · cases hx

theorem smearMove (s : State) (reads written recs : List Span) : s.Writes (written ++ recs) (s.smearMove reads written recs) :=
  trans (smear s reads _) ((smear _ recs written).within (.left (.refl _) _))

theorem spoil (s : State) (c : TrapCause) (l : List Span) : s.Writes l (s.spoil c l) := by
  unfold State.spoil
  refine ite (fun _ => each fun t x hx => free t x (.of_subset ?_)) fun _ => refl
  exact List.cons_subset.2 ⟨hx, List.nil_subset _⟩

end State.Writes

/-! ### Blocks of a view (R142 to R145) -/

theorem fmtBits_cases (f : Nat) : fmtBits f = 4 ∧ f = 4 ∨ f ≠ 4 ∧ (fmtBits f = 8 ∨ fmtBits f = 16 ∨ fmtBits f = 32 ∨ fmtBits f = 40 ∨ fmtBits f = 64) := by
  by_cases hf : f = 4
  · exact .inl ⟨by rw [hf]; rfl, hf⟩
  · refine .inr ⟨hf, ?_⟩
    unfold fmtBits
    split <;> simp_all

theorem codeBytes_length {f : Nat} (hf : f ≠ 4) (raw : Bool) (v : Nat) : (if raw then rawBytes f v else codeBytes f v).length = fmtBits f / 8 := by
  have hcode : (codeBytes f v).length = fmtBits f / 8 := by
    unfold codeBytes
    split
    · rename_i h
      subst h
      exact leBytes_length ..
    · exact leBytes_length ..
  split
  · unfold rawBytes
    split
    · rename_i h
      subst h
      exact leBytes_length ..
    · exact hcode
  · exact hcode

/-- A slate row of 32 elements. -/
theorem slateRow_length (f : Nat) (raw : Bool) (old : Nat → Nat) (g : Nat → Option Nat) : (slateRow f raw old g).length = 4 * fmtBits f := by
  unfold slateRow
  split
  · rename_i h
    subst h
    rw [List.length_map, List.length_range]
    rfl
  · rename_i h
    have hbits := fmtBits_cases f
    rw [List.length_flatMap, List.map_congr_left (g := fun _ => fmtBits f / 8), List.map_const', List.length_range, List.sum_replicate, smul_eq_mul]
    · omega
    · intro c _
      split
      · rw [List.length_map, codeBytes_length h]
      · exact List.length_replicate

/-- The places of one block of a view: its elements, and its scales where it has any. -/
def Desc.blockPair (x : Desc) (br bc : Nat) : List Span :=
  let d : Span := { a := x.block br bc, n := blockBytes x.fmt, home := x.base, last := x.lastByte }
  if isMx x.fmt then [d, { a := x.scaleLine br bc, n := 32, home := x.base, last := x.lastScale }] else [d]

theorem Desc.mem_blockPair (x : Desc) (br bc : Nat) : ∃ d ∈ x.blockPair br bc, d.a = x.block br bc ∧ d.n = 128 * fmtBits x.fmt := by
  refine ⟨{ a := x.block br bc, n := blockBytes x.fmt, home := x.base, last := x.lastByte }, ?_, rfl, rfl⟩
  unfold Desc.blockPair
  dsimp only
  split
  · exact List.mem_cons_self
  · exact List.mem_singleton.2 rfl

theorem Desc.mem_scales (x : Desc) (br bc : Nat) (h : isMx x.fmt = true) : ∃ d ∈ x.blockPair br bc, d.a = x.scaleLine br bc ∧ d.n = 32 := by
  refine ⟨{ a := x.scaleLine br bc, n := 32, home := x.base, last := x.lastScale }, ?_, rfl, rfl⟩
  unfold Desc.blockPair
  rw [if_pos h]
  exact List.mem_cons_of_mem _ (List.mem_singleton.2 rfl)

variable {s : State} {x : Desc}

theorem State.Writes.writeBlock {br bc : Nat} {g : Nat → Nat → Option Nat} {scale : Nat → Option Nat} {raw : Bool} :
    s.Writes (x.blockPair br bc) (s.writeBlock x br bc g scale raw) := by
  unfold State.writeBlock
  extract_lets rows u
  have hrows : rows.length = 128 * fmtBits x.fmt := by
    unfold rows
    rw [List.length_flatMap, List.map_congr_left fun i _ => slateRow_length .., List.map_const', List.length_range, List.sum_replicate, smul_eq_mul]
    omega
  have hu : s.Writes (x.blockPair br bc) u := by
    obtain ⟨d, hd, ha, hn⟩ := x.mem_blockPair br bc
    refine (State.Writes.writeSome s (x.block br bc) rows).within (.of_mem hd (Nat.le_of_eq ha) ?_)
    show x.block br bc + rows.length ≤ d.a + d.n
    omega
  refine .ite (fun hmx => hu.trans ?_) fun _ => hu
  obtain ⟨d, hd, ha, hn⟩ := x.mem_scales br bc hmx
  refine (State.Writes.writeSome u (x.scaleLine br bc) _).within (.of_mem hd (Nat.le_of_eq ha) ?_)
  show x.scaleLine br bc + ((List.range 32).map _).length ≤ d.a + d.n
  rw [List.length_map, List.length_range]
  omega

/-- The blocks that a range of rows and columns reaches. -/
theorem Desc.blockSpans_eq (x : Desc) (r0 r1 c0 c1 : Nat) : x.blockSpans r0 r1 c0 c1 =
    if r1 ≤ r0 ∨ c1 ≤ c0 then [] else (List.range ((r1 + 31) / 32 - r0 / 32)).flatMap fun i =>
      (List.range ((c1 + 31) / 32 - c0 / 32)).flatMap fun j => x.blockPair (r0 / 32 + i) (c0 / 32 + j) := by
  unfold Desc.blockSpans Desc.blockPair
  simp only [Bool.or_eq_true, decide_eq_true_eq]

/-- A block that a range reaches. -/
theorem Desc.covers_block {r0 r1 c0 c1 br bc : Nat} (hr : r0 / 32 ≤ br) (hr' : 32 * br < r1) (hr0 : r0 < r1) (hc : c0 / 32 ≤ bc) (hc' : 32 * bc < c1)
    (hc0 : c0 < c1) : Covers (x.blockSpans r0 r1 c0 c1) (x.blockPair br bc) := by
  rw [Desc.blockSpans_eq, if_neg (by omega)]
  refine .of_flatMap (x := br - r0 / 32) (List.mem_range.2 (by omega)) (.of_flatMap (x := bc - c0 / 32) (List.mem_range.2 (by omega)) ?_)
  rw [Nat.add_sub_cancel' hr, Nat.add_sub_cancel' hc]
  exact .refl _

theorem State.Writes.writeView {r0 r1 c0 c1 : Nat} {g : Nat → Nat → Option Nat} {scale : Nat → Nat → Option Nat} {raw : Bool} :
    s.Writes (x.blockSpans r0 r1 c0 c1) (s.writeView x r0 r1 c0 c1 g scale raw) := by
  unfold State.writeView
  refine .ite (fun _ => .refl) fun h => .each fun t i hi => .each fun u j hj => writeBlock.within ?_
  have hi := List.mem_range.1 hi
  have hj := List.mem_range.1 hj
  simp only [Bool.or_eq_true, decide_eq_true_eq] at h
  exact x.covers_block (by omega) (by omega) (by omega) (by omega) (by omega) (by omega)

/-- More rows and columns reach more blocks. -/
theorem Desc.blockSpans_mono {r0 r1 c0 c1 r0' r1' c0' c1' : Nat} (h : r0 ≤ r0') (h' : r1' ≤ r1) (hc : c0 ≤ c0') (hc' : c1' ≤ c1) :
    Covers (x.blockSpans r0 r1 c0 c1) (x.blockSpans r0' r1' c0' c1') := by
  rw [Desc.blockSpans_eq x r0' r1' c0' c1']
  refine .ite (fun _ => .nil) fun h => .flatMap fun i hi => .flatMap fun j hj => ?_
  have hi := List.mem_range.1 hi
  have hj := List.mem_range.1 hj
  exact x.covers_block (by omega) (by omega) (by omega) (by omega) (by omega) (by omega)

end Sys2Proof.Machine

end

section

/-! SUPPORT. The bytes that a move writes of its views and records lie in the blocks and records that they name (R123, R124, R131, R132, R144, R168). -/

namespace Sys2Proof.Machine
open Machine

variable {s : State} {x : Desc} {l : List Span}

/-! ### Elements within their block -/

/-- An element within its block. -/
theorem Desc.elem_within (x : Desc) (r c : Nat) :
    x.block (r / 32) (c / 32) ≤ x.elem r c ∧ x.elem r c + (fmtBits x.fmt + 7) / 8 ≤ x.block (r / 32) (c / 32) + 128 * fmtBits x.fmt := by
  unfold Desc.elem
  generalize x.block (r / 32) (c / 32) = b
  have hk : 32 * (r % 32) + c % 32 < 1024 := by omega
  generalize 32 * (r % 32) + c % 32 = k at hk
  rcases fmtBits_cases x.fmt with ⟨h, -⟩ | ⟨-, h | h | h | h | h⟩ <;> rw [h] <;> omega

/-- A run of elements of one row within their block. -/
theorem Desc.covers_run {r lo hi bc : Nat} {y : Span} (hlo : lo / 32 = bc) (hhi : (hi - 1) / 32 = bc) (ha : y.a = x.elem r lo)
    (hn : y.n = (x.elem r (hi - 1) + (fmtBits x.fmt + 7) / 8) - x.elem r lo) : Covers (x.blockPair (r / 32) bc) [y] := by
  obtain ⟨d, hd, hda, hdn⟩ := x.mem_blockPair (r / 32) bc
  have hl := x.elem_within r lo
  have hh := x.elem_within r (hi - 1)
  rw [hlo] at hl
  rw [hhi] at hh
  exact .of_mem hd (by omega) (by omega)

theorem Desc.covers_rowSpan {r lo hi bc : Nat} (hlo : 32 * bc ≤ lo) (hhi : hi ≤ 32 * bc + 32) : Covers (x.blockPair (r / 32) bc) (x.rowSpan r lo hi) := by
  unfold Desc.rowSpan
  refine .ite (fun _ => .nil) fun h => x.covers_run (lo := lo) (hi := hi) (by omega) (by omega) rfl rfl

/-- The scale byte of a row within the scales of its block. -/
theorem Desc.covers_scale {r bc : Nat} {y : Span} (h : isMx x.fmt = true) (ha : y.a = x.scaleLine (r / 32) bc + r % 32) (hn : y.n = 1) :
    Covers (x.blockPair (r / 32) bc) [y] := by
  obtain ⟨d, hd, hda, hdn⟩ := x.mem_scales (r / 32) bc h
  exact .of_mem hd (by omega) (by omega)

/-- What the elements of a range are written into. -/
theorem Desc.blockSpans_written {r0 r1 c0 c1 : Nat} : Covers (x.blockSpans r0 r1 c0 c1) (x.writtenSpans r0 r1 c0 c1) := by
  unfold Desc.writtenSpans
  refine .ite (fun _ => .nil) fun h => .flatMap fun i hi => .flatMap fun j hj => ?_
  simp only [Bool.or_eq_true, decide_eq_true_eq] at h
  have hi := List.mem_range.1 hi
  have hj := List.mem_range.1 hj
  dsimp only
  refine .flatMap fun k hk => ?_
  have hk := List.mem_range.1 hk
  generalize hr : 32 * (r0 / 32 + i) + k = r
  refine .trans (x.covers_block (br := r / 32) (bc := c0 / 32 + j) (by omega) (by omega) (by omega) (by omega) (by omega) (by omega)) ?_
  have hrow {lo hi : Nat} (h : 32 * (c0 / 32 + j) ≤ lo) (h' : hi ≤ 32 * (c0 / 32 + j) + 32) :
      Covers (x.blockPair (r / 32) (c0 / 32 + j)) (x.rowSpan r lo hi) := x.covers_rowSpan h h'
  have hscale : Covers (x.blockPair (r / 32) (c0 / 32 + j)) (if isMx x.fmt = true then
      [{ a := x.scaleLine (r / 32) (c0 / 32 + j) + k, n := 1, home := x.base, last := x.lastScale }] else []) :=
    .ite (fun hmx => x.covers_scale hmx (by dsimp only; omega) rfl) fun _ => .nil
  exact .ite (fun _ => .append (hrow (by omega) (by omega)) hscale) fun _ =>
    .append (.ite (fun _ => .append (hrow (by omega) (by omega)) hscale) fun _ => .nil) (hrow (by omega) (by omega))

/-- What the elements of a range are read from. -/
theorem Desc.blockSpans_dest {r0 r1 c0 c1 : Nat} : Covers (x.blockSpans r0 r1 c0 c1) (x.destSpans r0 r1 c0 c1) := by
  unfold Desc.destSpans
  refine .ite (fun _ => .nil) fun h => .flatMap fun i hi => .flatMap fun j hj => ?_
  simp only [Bool.or_eq_true, decide_eq_true_eq] at h
  have hi := List.mem_range.1 hi
  have hj := List.mem_range.1 hj
  dsimp only
  refine .trans (x.covers_block (br := (r0 + i) / 32) (bc := c0 / 32 + j) (by omega) (by omega) (by omega) (by omega) (by omega) (by omega)) ?_
  have hrun {y : Span} (ha : y.a = x.elem (r0 + i) (max c0 (32 * (c0 / 32 + j))))
      (hn : y.n = (x.elem (r0 + i) (min c1 (32 * (c0 / 32 + j) + 32) - 1) + (fmtBits x.fmt + 7) / 8) - x.elem (r0 + i) (max c0 (32 * (c0 / 32 + j)))) :
      Covers (x.blockPair ((r0 + i) / 32) (c0 / 32 + j)) [y] := x.covers_run (by omega) (by omega) ha hn
  exact .ite (fun hmx => .append (k := [_]) (hrun rfl rfl) (x.covers_scale hmx rfl rfl)) fun _ => hrun rfl rfl

/-! ### Records -/

/-- The blocks and records that an instruction may write of an operand. -/
def Desc.ownSpans (x : Desc) : List Span := x.blockSpans 0 x.rows 0 x.cols ++ x.recSpans true

theorem Desc.maxrec_mem (h : x.maxrec ≠ 0) (b : Bool) : { a := x.maxrec, n := 64 } ∈ x.recSpans b := by
  simp [Desc.recSpans, h]

theorem Desc.silrec_mem (h : x.maxrec ≠ 0) (h' : x.silrec ≠ 0) (b : Bool) : { a := x.silrec, n := 16 } ∈ x.recSpans b := by
  simp [Desc.recSpans, h, h']

theorem Desc.recSpans_subset (x : Desc) (b : Bool) : x.recSpans false ⊆ x.recSpans b := by
  cases b
  · exact List.Subset.refl _
  · intro y hy
    simp only [Desc.recSpans, Bool.false_and, Bool.false_eq_true, if_false, List.append_nil] at hy
    exact List.mem_append_left _ hy

theorem Desc.maxSpan_subset (x : Desc) : x.maxSpan ⊆ x.recSpans false := by
  unfold Desc.maxSpan
  split
  · exact List.nil_subset _
  · exact List.cons_subset.2 ⟨x.maxrec_mem ‹_› _, List.nil_subset _⟩

/-- A judgement of silence never reaches further than the silence record. -/
theorem Desc.recSpans_unsilent (x : Desc) (b : Bool) : { x with silrec := 0 : Desc }.recSpans b ⊆ x.recSpans b := by
  intro y hy
  have hnil : (if ({ x with silrec := 0 : Desc }.maxrec ≠ 0 && { x with silrec := 0 : Desc }.silrec ≠ 0) = true then
      [({ a := 0, n := 16 } : Span)] else []) = [] := if_neg (by simp)
  rcases List.mem_append.1 hy with hy | hy
  · rcases List.mem_append.1 hy with hy | hy
    · exact List.mem_append_left _ (List.mem_append_left _ hy)
    · rw [hnil] at hy
      exact absurd hy List.not_mem_nil
  · exact List.mem_append_right _ hy

namespace State.Writes

theorem setRecWord {a : Nat} (h : { a, n := 64 } ∈ l) (s : State) (k v : Nat) (hk : k < 8) : s.Writes l (s.setRecWord a k v) :=
  writeNat s _ v 8 (.of_mem h (Nat.le_add_right ..) (by show a + 8 * k + 8 ≤ a + 64; omega))

theorem judgeSilence {i : Nat} (hmax : x.maxrec ≠ 0) : s.Writes (x.recSpans false) (s.judgeSilence i x) := by
  unfold State.judgeSilence
  split
  · exact refl
  · rename_i hsil
    extract_lets t last count raised quiet count' raised' due flags u
    split
    · exact refl
    · have hu : s.Writes (x.recSpans false) u := by
        refine write _ _ ?_
        rw [List.length_append, List.length_append, leBytes_length, leBytes_length, leBytes_length]
        exact x.silrec_mem hmax hsil false
      exact ite (fun _ => trans hu (trans (of_changes Changes.raise) (of_changes Changes.occ))) fun _ => hu

theorem openRec {i : Nat} {t : Stats} : s.Writes (x.recSpans false) (s.openRec i x t) := by
  unfold State.openRec
  refine .ite (fun _ => .refl) fun h => ?_
  have hw := setRecWord (x.maxrec_mem h false)
  exact (judgeSilence h).trans (.trans (hw _ 0 _ (by decide)) (.trans (hw _ 1 _ (by decide)) (.trans (hw _ 2 _ (by decide)) (hw _ 6 _ (by decide)))))

theorem mergeRec {t : Stats} : s.Writes (x.recSpans false) (s.mergeRec x t) := by
  unfold State.mergeRec
  refine .ite (fun _ => .refl) fun h => ?_
  have hw := setRecWord (x.maxrec_mem h false)
  exact (hw _ 0 _ (by decide)).trans (.trans (hw _ 1 _ (by decide)) (hw _ 2 _ (by decide)))

/-- A measurement writes the max record, and the silence record where it judges one (R124, R168). -/
theorem measure {i : Nat} {opens : Bool} {t : Stats} : s.Writes (x.recSpans false) (s.measure i x opens t) := by
  unfold State.measure
  extract_lets u
  have hu : s.Writes (x.recSpans false) u := .ite (fun _ => openRec) fun _ => mergeRec
  exact .ite (fun _ => hu.trans (.of_changes Changes.orReg)) fun _ => hu

theorem quantRec {q : QCount} {recover ovf : Bool} : s.Writes (x.recSpans false) (s.quantRec x q recover ovf) := by
  unfold State.quantRec
  refine .ite (fun _ => .refl) fun h => ?_
  have hw := setRecWord (x.maxrec_mem h false)
  exact (hw _ 1 _ (by decide)).trans (.trans (hw _ 3 _ (by decide)) (.trans (hw _ 4 _ (by decide)) (.trans (hw _ 5 _ (by decide)) (hw _ 7 _ (by decide)))))

/-- A history entry is written within the history record (R132). -/
theorem histWrite {pm : Num} {opens recovering : Bool} :
    s.Writes (x.recSpans true) (s.histWrite x.hrec pm opens recovering) := by
  unfold State.histWrite
  refine .ite (fun _ => .refl) fun h => ?_
  extract_lets t k own stored keep u
  have hrec : { a := x.hrec, n := 320 } ∈ x.recSpans true := by simp [Desc.recSpans, h]
  have hw (s : State) (a v n : Nat) (h : x.hrec ≤ a) (h' : a + n ≤ x.hrec + 320) : s.Writes (x.recSpans true) (s.writeNat a v n) :=
    writeNat s a v n (.of_mem hrec h h')
  have hk : x.hrec ≤ k ∧ k + 8 ≤ x.hrec + 256 := by unfold k; omega
  have hu : s.Writes (x.recSpans true) u := (hw _ _ _ _ (by omega) (by omega)).trans (hw _ _ _ _ (by omega) (by omega))
  exact hu.trans (.trans (hw _ _ _ _ (by omega) (by omega)) (hw _ _ _ _ (by omega) (by omega)))

/-- A record is opened at issue where it can be reached (R224). -/
theorem openAtIssue {i : Nat} {mo : Bool} : s.Writes (x.recSpans false) (s.openAtIssue i x mo) := by
  unfold State.openAtIssue
  refine .ite (fun _ => ?_) fun _ => .refl
  split
  · exact measure
  · exact measure.within (.of_subset (x.recSpans_unsilent false))

theorem present {i : Nat} {src : Desc} : s.Writes (src.recSpans false) (s.present i src).1 := by
  unfold State.present
  split
  · exact refl
  · show s.Writes (src.recSpans false) (((s.measure i src true _).orReg (8 + i) 0x54 4).occ (8 + i) 0)
    exact trans measure (trans (of_changes Changes.orReg) (of_changes Changes.occ))

/-- A pass writes its destination's blocks and the records that it names (R123, R127, R131, R132). -/
theorem quantInto {d idx : Nat} {b : ScaleBy} {sexp : Int} {opens : Bool} {pm : Num} {q : QuantIn} {o : QuantOut} :
    s.Writes (x.blockSpans q.r0 q.r1 q.c0 q.c1 ++ x.recSpans true) (s.quantInto d idx x b sexp opens pm q o) := by
  unfold State.quantInto
  extract_lets recover u v w
  have hu : s.Writes (x.blockSpans q.r0 q.r1 q.c0 q.c1 ++ x.recSpans true) u := (writeView).within (.left (.refl _) _)
  have hv : u.Writes (x.blockSpans q.r0 q.r1 q.c0 q.c1 ++ x.recSpans true) v :=
    quantRec.within (.right _ (.of_subset (x.recSpans_subset true)))
  have hist : v.Writes (x.blockSpans q.r0 q.r1 q.c0 q.c1 ++ x.recSpans true) (v.histWrite x.hrec pm opens recover) :=
    histWrite.within (.right _ (.refl _))
  have hw : s.Writes (x.blockSpans q.r0 q.r1 q.c0 q.c1 ++ x.recSpans true) w := by
    unfold w
    split
    · exact (hu.trans hv).trans hist
    · exact (hu.trans hv).trans hist
    · exact hu.trans hv
  split
  · exact hw
  · exact hw
  · exact hw.trans (.of_changes Changes.setSexp)

end State.Writes

end Sys2Proof.Machine

end

section

/-! Obligations on moves through a feeder: TX.COPY, TX.TRANS and TX.QUANT move their windows and store only into destination blocks and records (R242 to R244, R253). -/

namespace Sys2Proof.Machine
open Machine

variable {s : State} {x : Desc} {l : List Span}

/-! ### Copies (R243) -/

/-- The records that a copy names. -/
theorem Desc.covers_copyRecs (x : Desc) (late mo : Bool) (l : List Span) :
    Covers (l ++ x.recSpans false) (if late then [] else if mo then x.recSpans false else x.maxSpan) :=
  .ite (fun _ => .nil) fun _ => .right _ (.ite (fun _ => .refl _) fun _ => .of_subset x.maxSpan_subset)

theorem State.Writes.copyView {i : Nat} {e : QEntry} {src dst : Desc} {tr : Bool} : s.Writes
    (dst.blockSpans (moveWindow e src dst tr).1 (moveWindow e src dst tr).2.1 0 (moveWindow e src dst tr).2.2 ++ dst.recSpans false)
    (s.copyView i e src dst tr).1 := by
  unfold State.copyView
  generalize moveWindow e src dst tr = w
  obtain ⟨r0, r1, n⟩ := w
  dsimp -zeta only
  split
  · exact refl
  · extract_lets reads
    split
    · rename_i hx
      exact trans (of_changes (Changes.fst Changes.accessMove hx)) ((spoil _ _ _).within (.left Desc.blockSpans_dest _))
    · rename_i hx
      extract_lets raw t vals recs
      have ht : s.Writes (dst.blockSpans r0 r1 0 n ++ dst.recSpans false) t :=
        trans (of_changes (Changes.fst Changes.accessMove hx)) (writeView.within (.left (.refl _) _))
      have hmeasure : t.Writes (dst.blockSpans r0 r1 0 n ++ dst.recSpans false) (t.measure i dst false (statsOf vals)) :=
        measure.within (.right _ (.refl _))
      exact trans ht (trans (ite (fun _ => refl) fun _ => hmeasure) ((smearMove _ _ _ _).within
        (.append (.left Desc.blockSpans_written _) (dst.covers_copyRecs _ _ _))))

theorem copy_complete {d : TrussId} {f : LocalId} {e : QEntry} {tr : Bool} (h : s.AtHead d (3 + f) (if tr then 0x31 else 0x30) e)
    (htraps : copyTraps (s.desc d e.da) (s.desc d e.db) tr = none) :
    let rows := e.window ((s.desc d e.da).rowsT tr)
    let u := ((s.issue d (3 + f) e).openAtIssue (2 * d.val + f.val) (s.desc d e.db) (e.m 1 && rows.1 < rows.2)).copyView (2 * d.val + f.val) e
      (s.desc d e.da) (s.desc d e.db) tr
    Completes (if tr then .txTrans d f else .txCopy d f) s (u.1.finish d e.seq u.2) := by
  intro rows u
  have hready : s.ready d (3 + f) (if tr then 0x31 else 0x30) = some e := h
  have hrun : runCopy d f tr s = .next (u.1.finish d e.seq u.2) := by
    simp only [runCopy]
    rw [hready]
    simp only [State.issue_desc]
    rw [htraps]
  cases tr
  · exact Completes.of_waitRecall (congrArg (waitRecall s) hrun)
  · exact Completes.of_waitRecall (congrArg (waitRecall s) hrun)

/-! ### TX.QUANT (R244) -/

theorem covers_quantRecs (x : Desc) (b : ScaleBy) : Covers (x.recSpans true) (quantRecs x b) := by
  unfold quantRecs
  have hrec (h : x.hrec ≠ 0) : { a := x.hrec, n := 320 } ∈ x.recSpans true := by simp [Desc.recSpans, h]
  have hist : Covers (x.recSpans true) (if x.hrec = 0 then [] else [{ a := x.hrec, n := 320 }]) :=
    .ite (fun _ => .nil) fun h => .of_subset (List.cons_subset.2 ⟨hrec h, List.nil_subset _⟩)
  refine .append (.of_subset (List.Subset.trans x.maxSpan_subset (x.recSpans_subset true))) ?_
  split
  · exact hist
  · exact hist
  · exact .nil

/-- What a pass writes of a destination lies in its blocks and records. -/
theorem Desc.ownSpans_blocks {r0 r1 c0 c1 : Nat} (hr : r1 ≤ x.rows) (hc : c1 ≤ x.cols) : Covers x.ownSpans (x.blockSpans r0 r1 c0 c1) :=
  .left (x.blockSpans_mono (Nat.zero_le _) hr (Nat.zero_le _) hc) _

theorem State.Writes.quantize {d : TrussId} {i : Nat} {e : QEntry} {src : Desc} {dsts : List (Nat × Desc)} :
    s.Writes ((dsts.flatMap fun p => p.2.ownSpans) ++ src.recSpans false) (s.quantize d i e src dsts).1 := by
  unfold State.quantize
  extract_lets tr n bys measures jobs recs deciding
  split
  rename_i r0 rEnd hw
  extract_lets ins reads writes dest written pm
  have hins (k : Nat) (x : Desc) : (ins k x).r1 ≤ x.rows ∧ (ins k x).c1 ≤ x.cols := by
    unfold ins
    split
    · exact ⟨Nat.min_le_right .., Nat.min_le_right ..⟩
    · exact ⟨Nat.min_le_right .., Nat.min_le_right ..⟩
  have hown : ∀ p ∈ jobs, Covers ((dsts.flatMap fun p => p.2.ownSpans) ++ src.recSpans false) p.2.2.1.ownSpans := by
    intro p hp
    obtain ⟨q, hq, rfl⟩ := List.mem_map.1 hp
    exact .left (.of_flatMap (List.of_mem_zip (List.of_mem_zip hq).2).1 (.refl _)) _
  have hblocks : ∀ p ∈ jobs, Covers ((dsts.flatMap fun p => p.2.ownSpans) ++ src.recSpans false)
      (p.2.2.1.blockSpans (ins p.1 p.2.2.1).r0 (ins p.1 p.2.2.1).r1 (ins p.1 p.2.2.1).c0 (ins p.1 p.2.2.1).c1) := fun p hp =>
    (hown p hp).trans (Desc.ownSpans_blocks (hins _ _).1 (hins _ _).2)
  have hdest : Covers ((dsts.flatMap fun p => p.2.ownSpans) ++ src.recSpans false) dest := .flatMap fun p hp =>
    (hblocks p hp).trans Desc.blockSpans_dest
  have hwritten : Covers ((dsts.flatMap fun p => p.2.ownSpans) ++ src.recSpans false) written := .flatMap fun p hp =>
    (hblocks p hp).trans Desc.blockSpans_written
  have hrecs : Covers ((dsts.flatMap fun p => p.2.ownSpans) ++ src.recSpans false) recs :=
    .append (.flatMap fun p hp => (hown p hp).trans (.right _ (covers_quantRecs _ _))) (.ite (fun _ => .right _ (.refl _)) fun _ => .nil)
  split
  · exact refl
  · split
    · rename_i hx
      exact trans (of_changes (Changes.fst Changes.accessMove hx)) ((spoil _ _ _).within hdest)
    · rename_i s1 late hx
      refine trans (of_changes (Changes.fst Changes.accessMove hx)) ?_
      split
      · exact (spoil _ _ _).within hdest
      · split
        rename_i s2 a ha
        have h2 : s1.Writes ((dsts.flatMap fun p => p.2.ownSpans) ++ src.recSpans false) s2 := by
          split at ha
          · cases ha
            exact ite (fun _ => refl) fun _ => present.within (.right _ (.refl _))
          · cases ha
            exact refl
        extract_lets outs s3
        have h3 : s2.Writes ((dsts.flatMap fun p => p.2.ownSpans) ++ src.recSpans false) s3 := by
          refine each fun t o ho => ?_
          obtain ⟨p, hp, rfl⟩ := List.mem_map.1 ho
          refine ite (fun _ => writeView.within (hblocks p hp)) fun _ => trans (quantInto.within ?_) (of_changes Changes.passEvents)
          exact .append (hblocks p hp) ((hown p hp).trans (.right _ (.refl _)))
        have h4 : s3.Writes ((dsts.flatMap fun p => p.2.ownSpans) ++ src.recSpans false)
            ((s3.smearMove reads written (if late.isSome then [] else recs)).occ (8 + i) 1) :=
          trans ((smearMove _ _ _ _).within (.append hwritten (.ite (fun _ => .nil) fun _ => hrecs))) (of_changes Changes.occ)
        exact trans h2 (trans h3 h4)

theorem quant_complete {d : TrussId} {f : LocalId} {e : QEntry} (h : s.AtHead d (3 + f) 0x32 e) :
    let idx := e.db :: (if e.m 3 then [descIdx (e.db + 1)] else [])
    let dsts := idx.map fun k => (k, s.desc d k)
    quantTraps (s.desc d e.da) (dsts.map (·.2)) (e.m 1 || e.m 3) = none →
    let u := (s.issue d (3 + f) e).quantize d (2 * d.val + f.val) e (s.desc d e.da) dsts
    Completes (.txQuant d f) s (u.1.finish d e.seq u.2) := by
  intro idx dsts htraps u
  have hready : s.ready d (3 + f) 0x32 = some e := h
  refine Completes.of_waitRecall (congrArg (waitRecall s) ?_)
  simp only [txQuant]
  rw [hready]
  simp only [State.issue_desc]
  rw [htraps]

/-- Settles O25: the writes of the views' elements and records, each covered by the blocks and records that the statement names. -/
theorem feederMovesStoreIntoDestinations : Obligations.FeederMovesStoreIntoDestinations := by
  unfold Obligations.FeederMovesStoreIntoDestinations
  refine ⟨fun s d f e tr hhead => ?_, fun s d f e hhead => ?_⟩
  · intro i src dst htraps rows u t
    refine ⟨copy_complete hhead htraps, fun hm => ?_⟩
    have h : s.Writes (dst.blockSpans (moveWindow e src dst tr).1 (moveWindow e src dst tr).2.1 0 (moveWindow e src dst tr).2.2 ++ dst.recSpans false) t :=
      .trans (.of_changes Changes.issue) (.trans (State.Writes.openAtIssue.within (.right _ (.refl _)))
        (.trans .copyView (.of_changes Changes.finish)))
    exact (h hm).2
  · intro i src idx dsts htraps u t
    refine ⟨quant_complete hhead htraps, fun hm => ?_⟩
    have h : s.Writes ((dsts.flatMap fun p => p.2.ownSpans) ++ src.recSpans false) t :=
      .trans (.of_changes Changes.issue) (.trans .quantize (.of_changes Changes.finish))
    exact (h hm).2

end Sys2Proof.Machine

end

section

/-! Obligation on MM.RUN: it runs the live tile, and stores only into its destination blocks and records (R236 to R238, R65). -/

namespace Sys2Proof.Machine
open Machine

variable {s : State} {x : TileRun} {t : TileGeo}

/-! ### What a run stores -/

/-- The places that a run of a tile may write. -/
def TileRun.stored (x : TileRun) (t : TileGeo) : List Span := x.writes t ++ x.dst.recSpans false

/-- A view that a run writes. -/
theorem TileRun.covers_view {l k : List Span} {c : Bool} {y : Desc} {r1 : Nat} (hr : r1 ≤ x.rows.2)
    (h : Covers l (if c then y.blockSpans x.rows.1 (min x.rows.2 x.dst.rows) t.n0 (min t.n1 x.dst.cols) else [])) (hc : c = true) :
    Covers (l ++ k) (y.blockSpans x.rows.1 (min r1 x.dst.rows) t.n0 (min t.n1 x.dst.cols)) := by
  rw [if_pos hc] at h
  exact .left (h.trans (Desc.blockSpans_mono (Nat.le_refl _) (by omega) (Nat.le_refl _) (Nat.le_refl _))) k

theorem TileRun.covers_dst {r1 : Nat} (hr : r1 ≤ x.rows.2) (h : t.last = true) :
    Covers (x.stored t) (x.dst.blockSpans x.rows.1 (min r1 x.dst.rows) t.n0 (min t.n1 x.dst.cols)) :=
  TileRun.covers_view hr (.left (.left (.refl _) _) _) h

theorem TileRun.covers_part {r1 : Nat} (hr : r1 ≤ x.rows.2) (h : t.writesPart = true) :
    Covers (x.stored t) (x.part.blockSpans x.rows.1 (min r1 x.dst.rows) t.n0 (min t.n1 x.dst.cols)) :=
  TileRun.covers_view hr (.left (.right _ (.refl _)) _) h

theorem TileRun.covers_total {r1 : Nat} (hr : r1 ≤ x.rows.2) (h : t.writesTotal = true) :
    Covers (x.stored t) (x.total.blockSpans x.rows.1 (min r1 x.dst.rows) t.n0 (min t.n1 x.dst.cols)) :=
  TileRun.covers_view hr (.right _ (.refl _)) h

theorem TileRun.covers_written {r1 : Nat} (hr : r1 ≤ x.rows.2) : Covers (x.stored t) (x.written t x.rows.1 r1).1 ∧
    Covers (x.stored t) (x.written t x.rows.1 r1).2.1 ∧ Covers (x.stored t) (x.written t x.rows.1 r1).2.2 :=
  ⟨.ite (fun h => (covers_dst hr h).trans Desc.blockSpans_written) fun _ => .nil,
    .ite (fun h => (covers_part hr h).trans Desc.blockSpans_written) fun _ => .nil,
    .ite (fun h => (covers_total hr h).trans Desc.blockSpans_written) fun _ => .nil⟩

theorem TileRun.covers_dest : Covers (x.stored t) (x.dest t) :=
  .append (.append (.ite (fun h => (covers_dst (Nat.le_refl _) h).trans Desc.blockSpans_dest) fun _ => .nil)
    (.ite (fun h => (covers_part (Nat.le_refl _) h).trans Desc.blockSpans_dest) fun _ => .nil))
    (.ite (fun h => (covers_total (Nat.le_refl _) h).trans Desc.blockSpans_dest) fun _ => .nil)

theorem TileRun.covers_records : Covers (x.stored t) (x.dst.recSpans false) := .right _ (.refl _)

namespace State.Writes

theorem smearRun {r1 : Nat} {recs : List Span} (hr : r1 ≤ x.rows.2) (hrecs : Covers (x.stored t) recs) :
    s.Writes (x.stored t) (s.smearRun x t x.rows.1 r1 recs) := by
  obtain ⟨hd, hp, ht⟩ := TileRun.covers_written (x := x) (t := t) hr
  unfold State.smearRun
  generalize x.written t x.rows.1 r1 = w at *
  obtain ⟨wd, wp, wt⟩ := w
  dsimp -zeta only
  extract_lets rows n1 s1 s2 s3
  have h1 : s.Writes (x.stored t) s1 := (smear _ _ _).within (.append (.append (.append hd hp) ht) hrecs)
  have h2 : s1.Writes (x.stored t) s2 := (smear _ _ _).within (.append (.append hd hp) ht)
  have h3 : s2.Writes (x.stored t) s3 :=
    ite (fun _ => (smear _ _ _).within (.append (.append (.ite (fun _ => .nil) fun _ => hd) ht) hrecs)) fun _ => refl
  exact trans h1 (trans h2 (trans h3 (ite (fun _ => (smear _ _ _).within (.append (.append hd hp) hrecs)) fun _ => refl)))

/-- What rows of a run write (R236 to R238). -/
theorem drain {view : State} {i r1 bad : Nat} {b : Bank} {late : Bool} (hr : r1 ≤ x.rows.2) :
    s.Writes (x.stored t) (s.drain view i b t x x.rows.1 r1 bad late) := by
  unfold State.drain
  extract_lets n1 accs acc z code e s1 s2 s3 vals
  have h1 : s.Writes (x.stored t) s1 := ite (fun h => writeView.within (TileRun.covers_part hr h)) fun _ => refl
  have h2 : s1.Writes (x.stored t) s2 := ite (fun h => writeView.within (TileRun.covers_total hr h)) fun _ => refl
  have h3 : s2.Writes (x.stored t) s3 := ite (fun h => writeView.within (TileRun.covers_dst hr h)) fun _ => refl
  have h4 : s3.Writes (x.stored t) (s3.measure i x.dst false (statsOf vals)) := measure.within TileRun.covers_records
  refine trans h1 (trans h2 (trans h3 (trans (ite (fun _ => h4) fun _ => refl) (smearRun hr ?_))))
  exact .ite (fun _ => .nil) fun _ => .ite (fun _ => TileRun.covers_records) fun _ =>
    .ite (fun _ => TileRun.covers_records.trans (.of_subset x.dst.maxSpan_subset)) fun _ => .nil

theorem runTile {i c : Nat} {f : RunFaults} {fill : Bool} :
    s.Writes (x.stored (tileGeo ((s.gaAt i).course c).live (edgeOf (s.gaAt i).cut) (x.mov.colsT x.tr))) (s.runTile i c x f fill).1 := by
  unfold State.runTile
  split
  · exact refl
  · extract_lets g b t
    change s.Writes (x.stored t) _
    split
    · rename_i hx
      exact trans (of_changes (Changes.fst Changes.accessMove hx)) (trans ((spoil _ _ _).within TileRun.covers_dest) (of_changes Changes.injected))
    · rename_i s1 late hx
      have h1 : s.Writes (x.stored t) s1 := of_changes (Changes.fst Changes.accessMove hx)
      extract_lets s2
      have h2 : s1.Writes (x.stored t) s2 := by
        unfold s2
        split
        exacts [of_changes Changes.memCorr, refl]
      split
      rename_i r0 r1 hrows
      split
      split
      rename_i s3 view hv
      have h3 : s2.Writes (x.stored t) s3 := by
        split at hv
        · split at hv
          · cases hv
            exact trans (of_changes Changes.drawFree) (of_changes Changes.collide)
          · split at hv
            · cases hv
              exact of_changes Changes.collide
            · cases hv
              exact refl
        · cases hv
          exact refl
      have h : s.Writes (x.stored t) s3 := trans h1 (trans h2 h3)
      extract_lets beats bad0 s4
      have hr0 : x.rows.1 = r0 := by rw [hrows]
      have hr1 : x.rows.2 = r1 := by rw [hrows]
      have hdrain {u : State} {bad stop : Nat} {late : Bool} (hstop : stop ≤ r1) :
          u.Writes (x.stored t) (beats (u.drain view i b t x r0 stop bad late) stop) := by
        rw [← hr0]
        exact trans (drain (by omega)) (of_changes Changes.injected)
      split
      · exact trans h (hdrain (Nat.le_refl _))
      · rename_i v hpar
        have hv : r0 + v < r1 := by
          have hp := (Option.filter_eq_some_iff.1 hpar).2
          simpa using hp
        extract_lets bad
        have h4 : s.Writes (x.stored t) s4 := trans h (of_changes Changes.parityError)
        split
        · split
          rename_i n s5 hn
          extract_lets stop
          have hstop : stop ≤ r1 := by
            have hmod := Nat.mod_lt n (show 0 < r1 - r0 - v by omega)
            unfold stop
            omega
          have h5 : s4.Writes (x.stored t) s5 := of_changes (Changes.snd Changes.drawFree hn)
          exact trans h4 (trans h5 (trans (hdrain hstop) (of_changes Changes.modCourse)))
        · exact trans h4 (hdrain (Nat.le_refl _))

end State.Writes

/-! ### MM.RUN at a queue head -/

/-- The request that a run bound to the live bank makes. -/
def State.runReq (s : State) (d : TrussId) (i : Nat) (e : QEntry) (f : RunFaults) : RunReq :=
  let w (n : Nat) : List Word64 := (s.tr d).descWords n
  let p := partIdx (s.desc d e.db) e.db
  { ins := ⟨d, e.seq⟩, e, mov := w e.da, dst := w e.db, part := w p, total := w (descIdx (p + 1)), seed := s.seed i, faults := f,
    toShadow := false }

theorem State.issue_seed (s : State) (d q : Nat) (e : QEntry) (i : Nat) : (s.issue d q e).seed i = s.seed i := rfl

/-- A run that comes alone, on a course that runs, finds its tile live and runs it. -/
theorem State.enqueue_run (s : State) {i c : Nat} {r : RunReq} (hi : i < 8) (hheld : (s.gaAt i).held = false) (hops : (s.gaAt i).ops = [])
    (hhalted : ((s.gaAt i).course c).halted = false) (hlive : ((s.gaAt i).course c).live.valid = true) (hhold : s.pwrc.hold = false)
    (hr : r.toShadow = false) :
    s.enqueue i (.run c r) = (s.runTile i c r.tileRun r.faults false).1.finishRef r.ins (s.runTile i c r.tileRun r.faults false).2 := by
  have hrecut : (s.gaAt i).recut = false := (Bool.or_eq_false_iff.1 hheld).2
  rw [State.enqueue_ready s hi hops hhold]
  · simp only [State.fire, hlive, if_true]
  · change (!(s.gaAt i).recut && (!false && !((s.gaAt i).course c).halted && !((s.gaAt i).autoswap && r.toShadow))) = true
    rw [hrecut, hhalted, hr, Bool.and_false]
    rfl

theorem mmRun_complete {d : TrussId} {a : LocalId} {f : RunFaults} {e : QEntry} (h : s.AtHead d (1 + a) 0x12 e)
    (hheld : (s.gaAt (2 * d.val + a.val)).held = false) (hops : (s.gaAt (2 * d.val + a.val)).ops = [])
    (hbinds : (s.gaAt (2 * d.val + a.val)).bindsShadow e.cr = false) (hlive : ((s.gaAt (2 * d.val + a.val)).course e.cr).live.valid = true)
    (hhalted : ((s.gaAt (2 * d.val + a.val)).course e.cr).halted = false) (hhold : s.pwrc.hold = false)
    (htraps : runTraps (s.gaAt (2 * d.val + a.val)) (some ((s.gaAt (2 * d.val + a.val)).course e.cr).live) (s.desc d e.da) (s.desc d e.db)
      (s.desc d (partIdx (s.desc d e.db) e.db)) (s.desc d (descIdx (partIdx (s.desc d e.db) e.db + 1))) e = none) :
    let rows := e.window ((s.desc d e.da).rowsT (e.m 1))
    let u := ((s.issue d (1 + a) e).openAtIssue (2 * d.val + a.val) (s.desc d e.db) (e.m 3 && rows.1 < rows.2)).runTile (2 * d.val + a.val) e.cr
      (s.runReq d (2 * d.val + a.val) e f).tileRun f false
    Completes (.mmRun d a f) s (u.1.finishRef ⟨d, e.seq⟩ u.2) := by
  intro rows u
  have hready : s.ready d (1 + a) 0x12 = some e := h
  have hbank : (s.gaAt (2 * d.val + a.val)).boundBank e.cr = some ((s.gaAt (2 * d.val + a.val)).course e.cr).live := by
    simp [Ga.boundBank, hbinds, hlive]
  refine Completes.of_waitRecall (congrArg (waitRecall s) ?_)
  simp only [mmRun]
  rw [hready]
  simp only [State.issue_desc, State.issue_descWords, State.issue_seed]
  rw [hbank, htraps, hbinds]
  have hopen : Changes [.poison, .mem, .written, .reports, .regs] (s.issue d (1 + a) e) _ :=
    Changes.openAtIssue (i := 2 * d.val + a.val) (x := s.desc d e.db) (mo := e.m 3 && rows.1 < rows.2)
  have hga : ((s.issue d (1 + a) e).openAtIssue (2 * d.val + a.val) (s.desc d e.db) (e.m 3 && rows.1 < rows.2)).gaAt (2 * d.val + a.val) =
      s.gaAt (2 * d.val + a.val) := (hopen.gaAt _).trans (s.issue_gaAt ..)
  have hpwrc := hopen.kept .pwrc (by decide)
  exact congrArg Host.Outcome.next (State.enqueue_run _ (r := s.runReq d (2 * d.val + a.val) e f) (arrayOf_lt d a) (by rw [hga]; exact hheld)
    (by rw [hga]; exact hops) (by rw [hga]; exact hhalted) (by rw [hga]; exact hlive) ((congrArg Pwrc.hold hpwrc).trans hhold) rfl)

/-- What an MM.RUN whose record opens writes. -/
theorem State.Writes.openedRun {i c : Nat} {f : RunFaults} {y : Desc} {mo : Bool} (hy : y.recSpans false = x.dst.recSpans false) :
    s.Writes (x.stored (tileGeo ((s.gaAt i).course c).live (edgeOf (s.gaAt i).cut) (x.mov.colsT x.tr)))
      ((s.openAtIssue i y mo).runTile i c x f false).1 := by
  have hrun := State.Writes.runTile (s := s.openAtIssue i y mo) (x := x) (i := i) (c := c) (f := f) (fill := false)
  rw [Changes.openAtIssue.gaAt] at hrun
  exact .trans (State.Writes.openAtIssue.within (hy ▸ TileRun.covers_records)) hrun

/-- Whether a descriptor may be used says nothing of the records that it names. -/
theorem State.desc_recSpans (s : State) (d n : Nat) (b : Bool) : (s.desc d n).recSpans b = (Desc.ofWords ((s.tr d).descWords n)).recSpans b := rfl

/-- Settles O18: what a run drains, spoils and smears, each covered by its blocks and records. -/
theorem runStoresItsResults : Obligations.RunStoresItsResults := by
  unfold Obligations.RunStoresItsResults
  intro s d a f e hhead hcr i g k hheld hops hbinds hlive hhalted hhold mov dst p htraps w r rows u t
  refine ⟨mmRun_complete hhead hheld hops hbinds hlive hhalted hhold htraps, fun hm => ?_⟩
  have hrun := State.Writes.openedRun (s := s.issue d (1 + a) e) (x := (s.runReq d i e f).tileRun) (i := i) (c := e.cr) (f := f)
    (mo := e.m 3 && rows.1 < rows.2) (s.desc_recSpans d e.db false)
  rw [State.issue_gaAt] at hrun
  exact ((State.Writes.of_changes Changes.issue).trans (hrun.trans (.of_changes Changes.finishRef)) hm).2

end Sys2Proof.Machine

end

section

/-! Obligation on RD.NORMF, RD.NORMB, RD.SMAXF and RD.SMAXB: each works its rows and stores only its outputs and its record run (R160 to R166, R248 to R251). -/

namespace Sys2Proof.Machine
open Machine

variable {s : State} {l : List Span} {o : RidgeOp}

/-! ### What a Ridge instruction stores -/

/-- The places `l` hold everything that the operands of a Ridge instruction name to be written. -/
structure RidgeOp.StoresIn (o : RidgeOp) (l : List Span) : Prop where
  outs : ∀ p ∈ o.outs, Covers l p.1.ownSpans
  recOut : Covers l o.recOut
  opens : ∀ x ∈ o.opens, Covers l (x.recSpans false)

namespace RidgeOp.StoresIn

theorem blocks (h : o.StoresIn l) {p : Desc × Nat × Nat × Nat} (hp : p ∈ o.outs) :
    Covers l (p.1.blockSpans p.2.1 (min p.2.2.1 p.1.rows) 0 (min p.2.2.2 p.1.cols)) :=
  (h.outs p hp).trans (Desc.ownSpans_blocks (Nat.min_le_right ..) (Nat.min_le_right ..))

theorem written (h : o.StoresIn l) : Covers l o.written := .flatMap fun _ hp => (h.blocks hp).trans Desc.blockSpans_written

theorem dest (h : o.StoresIn l) : Covers l o.dest := .flatMap fun _ hp => (h.blocks hp).trans Desc.blockSpans_dest

theorem recs (h : o.StoresIn l) : Covers l o.recs := by
  refine .append (.flatMap fun p hp => (h.outs p hp).trans (.right _ ?_)) (.flatMap h.opens)
  refine .append (.of_subset (List.Subset.trans p.1.maxSpan_subset (p.1.recSpans_subset true))) (.ite (fun hh => ?_) fun _ => .nil)
  simp only [Bool.and_eq_true, decide_eq_true_eq] at hh
  exact .of_subset (List.cons_subset.2 ⟨by simp [Desc.recSpans, hh.2], List.nil_subset _⟩)

/-- A part of the outputs. -/
theorem filter (h : o.StoresIn l) (f : Desc × Nat × Nat × Nat → Bool) : ({ o with outs := o.outs.filter f } : RidgeOp).StoresIn l :=
  ⟨fun p hp => h.outs p (List.mem_filter.1 hp).1, h.recOut, h.opens⟩

end RidgeOp.StoresIn

namespace State.Writes

theorem ridgeAccess {d : Nat} (h : o.StoresIn l) : s.Writes l (s.ridgeAccess d o).1 := by
  unfold State.ridgeAccess
  split
  rename_i t trap hx
  have ht : s.Writes l t := by
    split at hx
    · rename_i hx'
      cases hx
      exact of_changes (Changes.fst Changes.access hx')
    · rename_i u hx'
      exact trans (of_changes (Changes.fst Changes.access hx')) (of_changes (Changes.fst Changes.accessAll hx))
  split
  · exact trans ht (ite (fun _ => (spoil _ _ _).within h.dest) fun _ => refl)
  · exact ht

theorem ridgeWrite {d : Nat} {o : RidgeDst} : s.Writes o.x.ownSpans (s.ridgeWrite d o) := by
  unfold State.ridgeWrite
  extract_lets x src q pm b sexp port conv out rows vals ports u
  have hmeasure : s.Writes x.ownSpans (s.each ports fun s p => s.measure p x false (statsOf (vals p))) :=
    each fun _ _ _ => measure.within (.right _ (.of_subset (x.recSpans_subset true)))
  have hu : s.Writes x.ownSpans u := trans hmeasure (quantInto.within
    (.append (Desc.ownSpans_blocks (Nat.min_le_right ..) (Nat.min_le_right ..)) (.right _ (.refl _))))
  exact trans hu (each fun _ _ _ => trans (of_changes Changes.occ) (of_changes Changes.passEvents))

theorem smearRidge {reads : List Span} (h : o.StoresIn l) : s.Writes l (s.smearRidge o reads) :=
  (smearMove _ _ _ _).within (.append (.append h.written h.recOut) h.recs)

/-- A record is written where its row lies within the window and the run (R162). -/
theorem setRecord {x : Desc} {r0 r1 j : Nat} {r : RidgeRow} (h0 : r0 ≤ j) (h1 : j < r1) : s.Writes (x.recRows r0 r1) (s.setRecord x j r) := by
  unfold State.setRecord
  refine ite (fun _ => refl) fun h => (write (l := [{ a := x.recAt j, n := 10 }]) _ _ ?_).within ?_
  · rw [List.length_append, leBytes_length, leBytes_length]
    exact List.mem_singleton.2 rfl
  · unfold Desc.recRows
    rw [if_neg (by omega)]
    refine .of_mem (List.mem_singleton.2 rfl) ?_ ?_
    · show x.base + 10 * r0 ≤ x.base + 10 * j
      omega
    · show x.base + 10 * j + 10 ≤ x.base + 10 * r0 + 10 * (min r1 x.rows - r0)
      omega

theorem ridgeRows {d r0 r1 : Nat} {rec : Option Desc} {rows : List RidgeRow} (hn : rows.length = r1 - r0)
    (h : ∀ x, rec = some x → Covers l (x.recRows r0 r1)) : s.Writes l (s.ridgeRows d rec r0 rows) := by
  unfold State.ridgeRows
  extract_lets u bad v
  have hu : s.Writes l u := by
    unfold u
    split
    · rename_i x
      refine each fun t p hp => (setRecord (Nat.le_add_right ..) ?_).within (h x rfl)
      have hp := List.mem_range.1 (List.of_mem_zip hp).1
      omega
    · exact refl
  have hv : u.Writes l v := trans (of_changes Changes.occ) (trans (of_changes Changes.occ) (of_changes Changes.occ))
  exact trans hu (trans hv (ite (fun _ => refl) fun _ => of_changes Changes.ridgeNonfinite))

end State.Writes

/-! ### The four works -/

theorem length_rowsFrom (r0 r1 : Nat) : (rowsFrom r0 r1).length = r1 - r0 := by
  rw [rowsFrom, List.length_map, List.length_range]

/-- An operand slot of an RD instruction, and its row window. -/
def State.ridgeSlot (s : State) (d : TrussId) (e : QEntry) (j : Nat) : Desc := s.desc d (e.da + j)
def State.ridgeWindow (s : State) (d : TrussId) (e : QEntry) : Nat × Nat := e.window ((s.ridgeSlot d e 0).rowsT (e.m 6))

/-- The outputs of RD.NORMB whose records MO opens are among its outputs. -/
theorem State.covers_normBOuts {d : TrussId} {e : QEntry} {y : Desc} (hy : y ∈ s.normBOuts d e) :
    Covers ((s.ridgeSlot d e 4).ownSpans ++ (s.ridgeSlot d e 5).ownSpans ++ (s.ridgeSlot d e 6).ownSpans) y.ownSpans := by
  rcases List.mem_cons.1 hy with rfl | hy
  · exact .left (.left (.refl _) _) _
  · split at hy
    · exact absurd hy List.not_mem_nil
    · rcases List.mem_cons.1 (List.mem_filter.1 hy).1 with rfl | hy
      · exact .left (.right _ (.refl _)) _
      · rw [List.mem_singleton.1 hy]
        exact .right _ (.refl _)

namespace State.Writes

variable {d : TrussId} {e : QEntry}

/-- The accesses of an RD instruction end it, or leave it to its work. -/
theorem ridgeAccess_cases {d : Nat} (h : o.StoresIn l) : (∃ t c, s.ridgeAccess d o = (t, some c) ∧ s.Writes l t) ∨
    ∃ t, s.ridgeAccess d o = (t, none) ∧ s.Writes l t.oob.1 := by
  have ht := State.Writes.ridgeAccess (s := s) (d := d) h
  match hx : s.ridgeAccess d o with
  | (t, some c) =>
    rw [hx] at ht
    exact .inl ⟨t, c, rfl, ht⟩
  | (t, none) =>
    rw [hx] at ht
    exact .inr ⟨t, rfl, trans ht (of_changes Changes.oob)⟩

/-- The records that MO opens are those of outputs. -/
theorem covers_opens {b : Bool} {k : Desc} (h : Covers l k.ownSpans) : ∀ y ∈ (if b then [k] else []), Covers l (y.recSpans false) := by
  intro y hy
  cases b with
  | false => exact absurd hy List.not_mem_nil
  | true =>
    rw [List.mem_singleton.1 hy]
    exact h.trans (.right _ (.of_subset (k.recSpans_subset true)))

/-- An instruction with one output. -/
theorem storesIn_one {r0 r1 n m r0' r1' : Nat} {k : Desc} {reads recIn recOut : List Span} {b : Bool} (h : Covers l k.ownSpans) (hrec : Covers l recOut) :
    ({ r0, r1, n, reads, recIn, recOut, outs := [(k, r0', r1', m)], opens := if b then [k] else [] } : RidgeOp).StoresIn l :=
  ⟨fun p hp => by
    rw [List.mem_singleton.1 hp]
    exact h, hrec, covers_opens h⟩

/-- An output written, its rows finished, and what overlaps smeared. -/
theorem ridgeStored {d r0 r1 : Nat} {y : RidgeDst} {rec : Option Desc} {f : Nat → RidgeRow} {reads : List Span} (ho : o.StoresIn l)
    (hy : Covers l y.x.ownSpans) (hrec : ∀ x, rec = some x → Covers l (x.recRows r0 r1)) :
    s.Writes l (((s.ridgeWrite d y).ridgeRows d rec r0 ((rowsFrom r0 r1).map f)).smearRidge o reads) :=
  trans (ridgeWrite.within hy) (trans (ridgeRows (by rw [List.length_map, length_rowsFrom]) hrec) (smearRidge ho))

theorem ridgeNormF : s.Writes ((s.ridgeSlot d e 1).ownSpans ++ (s.ridgeSlot d e 4).recRows (s.ridgeWindow d e).1 (s.ridgeWindow d e).2)
    (s.ridgeNormF d e).1 := by
  unfold State.ridgeNormF
  extract_lets k tr x n p1
  split
  rename_i r0 r1 hw
  rw [show s.ridgeWindow d e = (r0, r1) from hw]
  extract_lets o
  have hout : Covers ((k 1).ownSpans ++ (k 4).recRows r0 r1) (k 1).ownSpans := .left (.refl _) _
  have hrec : Covers ((k 1).ownSpans ++ (k 4).recRows r0 r1) ((k 4).recRows r0 r1) := .right _ (.refl _)
  have ho : o.StoresIn ((k 1).ownSpans ++ (k 4).recRows r0 r1) := storesIn_one hout hrec
  obtain ⟨t, c, hx, ht⟩ | ⟨t, hx, ht⟩ := ridgeAccess_cases (s := s) (d := d) ho
  · rw [hx]
    exact ht
  · rw [hx]
    refine trans ht (ridgeStored ho hout fun y hy => ?_)
    cases hy
    exact hrec

theorem ridgeSmaxF : s.Writes ((s.ridgeSlot d e 1).ownSpans ++ (s.ridgeSlot d e 2).recRows (s.ridgeWindow d e).1 (s.ridgeWindow d e).2)
    (s.ridgeSmaxF d e).1 := by
  unfold State.ridgeSmaxF
  extract_lets k tr x n slot
  split
  rename_i r0 r1 hw
  rw [show s.ridgeWindow d e = (r0, r1) from hw]
  extract_lets o
  have hout : Covers ((k 1).ownSpans ++ (k 2).recRows r0 r1) (k 1).ownSpans := .left (.refl _) _
  have hrec : Covers ((k 1).ownSpans ++ (k 2).recRows r0 r1) ((k 2).recRows r0 r1) := .right _ (.refl _)
  have ho : o.StoresIn ((k 1).ownSpans ++ (k 2).recRows r0 r1) := storesIn_one hout hrec
  obtain ⟨t, c, hx, ht⟩ | ⟨t, hx, ht⟩ := ridgeAccess_cases (s := s) (d := d) ho
  · rw [hx]
    exact ht
  · rw [hx]
    refine trans ht (ridgeStored ho hout fun y hy => ?_)
    cases hy
    exact hrec

theorem ridgeSmaxB : s.Writes (s.ridgeSlot d e 3).ownSpans (s.ridgeSmaxB d e).1 := by
  unfold State.ridgeSmaxB
  extract_lets k tr x n slot
  split
  rename_i r0 r1 hw
  extract_lets o
  have ho : o.StoresIn (k 3).ownSpans := storesIn_one (.refl _) .nil
  obtain ⟨t, c, hx, ht⟩ | ⟨t, hx, ht⟩ := ridgeAccess_cases (s := s) (d := d) ho
  · rw [hx]
    exact ht
  · rw [hx]
    exact trans ht (ridgeStored ho (.refl _) fun _ hy => nomatch hy)

theorem ridgeNormB : s.Writes ((s.ridgeSlot d e 4).ownSpans ++ (s.ridgeSlot d e 5).ownSpans ++ (s.ridgeSlot d e 6).ownSpans)
    (s.ridgeNormB d e).1 := by
  unfold State.ridgeNormB
  extract_lets k tr acc x n p1 out1 one
  split
  rename_i r0 r1 hw
  extract_lets ins o but
  have h4 : Covers ((k 4).ownSpans ++ (k 5).ownSpans ++ (k 6).ownSpans) (k 4).ownSpans := .left (.left (.refl _) _) _
  have h5 : Covers ((k 4).ownSpans ++ (k 5).ownSpans ++ (k 6).ownSpans) (k 5).ownSpans := .left (.right _ (.refl _)) _
  have h6 : Covers ((k 4).ownSpans ++ (k 5).ownSpans ++ (k 6).ownSpans) (k 6).ownSpans := .right _ (.refl _)
  have hout {j : Nat} (h : Covers ((k 4).ownSpans ++ (k 5).ownSpans ++ (k 6).ownSpans) (k j).ownSpans) :
      ∀ p ∈ out1 j, Covers ((k 4).ownSpans ++ (k 5).ownSpans ++ (k 6).ownSpans) p.1.ownSpans := fun p hp => by
    unfold out1 at hp
    split at hp
    · rwa [List.mem_singleton.1 hp]
    · exact absurd hp List.not_mem_nil
  have ho : o.StoresIn ((k 4).ownSpans ++ (k 5).ownSpans ++ (k 6).ownSpans) := by
    refine ⟨fun p hp => ?_, .nil, fun y hy => ?_⟩
    · rcases List.mem_append.1 hp with hp | hp
      · rcases List.mem_cons.1 hp with rfl | hp
        · exact h4
        · exact hout h5 p hp
      · exact hout h6 p hp
    · refine Covers.trans (l' := y.ownSpans) (State.covers_normBOuts ?_) (.right _ (.of_subset (y.recSpans_subset true)))
      by_cases hm : e.m 3 = true
      · simpa [o, hm] using hy
      · simp [o, hm] at hy
  have hone {u : State} {j : Nat} {v : List Num} (h : Covers ((k 4).ownSpans ++ (k 5).ownSpans ++ (k 6).ownSpans) (k j).ownSpans) :
      u.Writes ((k 4).ownSpans ++ (k 5).ownSpans ++ (k 6).ownSpans) (one u j v) := ite (fun _ => ridgeWrite.within h) fun _ => refl
  have hbut (j : Nat) : Covers ((k 4).ownSpans ++ (k 5).ownSpans ++ (k 6).ownSpans) (but j ++ o.recs) := .append (ho.filter _).written ho.recs
  obtain ⟨t, c, hx, ht⟩ | ⟨t, hx, ht⟩ := ridgeAccess_cases (s := s) (d := d) ho
  · rw [hx]
    exact ht
  · rw [hx]
    dsimp -zeta only
    extract_lets gamma rows dg db v w
    have hv : t.oob.1.Writes (k 4).ownSpans v := ridgeWrite
    have hw : v.Writes ((k 4).ownSpans ++ (k 5).ownSpans ++ (k 6).ownSpans) w := trans (hone h5) (hone h6)
    refine trans ht (trans (hv.within h4) (trans hw ?_))
    exact trans (ridgeRows (r1 := r1) (rec := none) (by rw [List.length_map, length_rowsFrom]) fun _ hy => nomatch hy)
      (trans (smearRidge ho) (trans ((smear _ _ _).within (hbut 5)) ((smear _ _ _).within (hbut 6))))

end State.Writes

/-! ### RD instructions at a queue head -/

variable {d : TrussId} {e : QEntry}

/-- The state in which an RD instruction works: issued, its row buffer taken (R166), the records of its outputs opened (R249). -/
def State.ridgeOpened (s : State) (d : TrussId) (e : QEntry) (outs : List Desc) : State :=
  ((s.issue d 5 e).modTr d fun t => { t with rowBuf := (s.ridgeSlot d e 0).colsT (e.m 6) ≤ 16384 }).each outs fun s x =>
    s.openAtIssue (s.ridgePort d 0) x (e.m 3)

theorem State.desc_congr {s t : State} (h : s.TrussKeeps Truss.desc t) (d n : Nat) : t.desc d n = s.desc d n := by
  rw [State.desc, State.desc, Truss.descWords, Truss.descWords, h d]

theorem State.ridgeBuffered_desc (s : State) (d : TrussId) (e : QEntry) (b : Bool) (x n : Nat) :
    ((s.issue d 5 e).modTr d fun t => { t with rowBuf := b }).desc x n = s.desc x n := by
  have h : (s.issue d 5 e).TrussKeeps Truss.desc ((s.issue d 5 e).modTr d fun t => { t with rowBuf := b }) := .modTr fun _ => rfl
  rw [State.desc_congr h, State.issue_desc]

theorem State.ridgeOpened_desc (s : State) (d : TrussId) (e : QEntry) (outs : List Desc) (x n : Nat) : (s.ridgeOpened d e outs).desc x n = s.desc x n := by
  have h : State.TrussKeeps Truss.desc _ (s.ridgeOpened d e outs) := .each fun _ _ => .of_changes Changes.openAtIssue
  rw [State.desc_congr h, State.ridgeBuffered_desc]

/-- What an RD instruction at the head of Q_RD does: nothing but complete where its window is empty, else its work, which stores within `stored`. -/
def State.RidgeWorks (s : State) (d : TrussId) (e : QEntry) (c : Instr) (outs : List Desc) (work : State → QEntry → State × Option TrapCause)
    (stored : List Span) : Prop :=
  ((s.ridgeWindow d e).2 ≤ (s.ridgeWindow d e).1 → Completes c s (((s.issue d 5 e).occ (20 + d) 0).finish d e.seq)) ∧
  ((s.ridgeWindow d e).1 < (s.ridgeWindow d e).2 →
    Completes c s ((work (s.ridgeOpened d e outs) e).1.finish d e.seq (work (s.ridgeOpened d e outs) e).2) ∧
    (Memory.wf s.mem = true → s.KeepsOutside ((work (s.ridgeOpened d e outs) e).1.finish d e.seq (work (s.ridgeOpened d e outs) e).2) stored))

theorem ridge_works {c : Instr} {op : Nat} {traps : State → QEntry → List (Option TrapCause)} {outs : State → QEntry → List Desc}
    {work : State → QEntry → State × Option TrapCause} {outs' : List Desc} {stored : List Span}
    (hexec : exec c s = waitRecall s (runRidge d op traps outs work s)) (hhead : s.AtHead d 5 op e)
    (htraps : firstTrap (traps (s.issue d 5 e) e) = none) (houts : ∀ t : State, (∀ n, t.desc d n = s.desc d n) → outs t e = outs')
    (hrecs : ∀ x ∈ outs', Covers stored (x.recSpans false))
    (hwork : ∀ t : State, (∀ n, t.desc d n = s.desc d n) → t.Writes stored (work t e).1) : s.RidgeWorks d e c outs' work stored := by
  have hready : s.ready d 5 op = some e := hhead
  have hrun : runRidge d op traps outs work s = if (s.ridgeWindow d e).2 ≤ (s.ridgeWindow d e).1 then
      .next (((s.issue d 5 e).occ (20 + d) 0).finish d e.seq)
      else .next ((work (s.ridgeOpened d e outs') e).1.finish d e.seq (work (s.ridgeOpened d e outs') e).2) := by
    simp only [runRidge]
    rw [hready]
    simp only [htraps, State.issue_desc]
    rw [houts _ (s.ridgeBuffered_desc d e _ d)]
    rfl
  refine ⟨fun hw => Completes.of_waitRecall (hexec.trans (congrArg (waitRecall s) (hrun.trans (if_pos hw)))), fun hw =>
    ⟨Completes.of_waitRecall (hexec.trans (congrArg (waitRecall s) (hrun.trans (if_neg (by omega))))), fun hm => ?_⟩⟩
  have hopen : s.Writes stored (s.ridgeOpened d e outs') := .trans (.of_changes Changes.issue) (.trans (.of_changes Changes.modTr)
    (.each fun t x hx => State.Writes.openAtIssue.within (hrecs x hx)))
  exact (hopen.trans (.trans (hwork _ fun n => s.ridgeOpened_desc d e outs' d n) (.of_changes Changes.finish)) hm).2

theorem State.ridgeSlot_congr {t : State} (ht : ∀ n, t.desc d n = s.desc d n) (j : Nat) : t.ridgeSlot d e j = s.ridgeSlot d e j := ht _

theorem State.ridgeWindow_congr {t : State} (ht : ∀ n, t.desc d n = s.desc d n) : t.ridgeWindow d e = s.ridgeWindow d e := by
  rw [State.ridgeWindow, State.ridgeSlot_congr ht, State.ridgeWindow]

/-- The records of the one output of an instruction. -/
theorem covers_oneRecs {k : Desc} (h : Covers l k.ownSpans) : ∀ x ∈ [k], Covers l (x.recSpans false) := fun x hx => by
  rw [List.mem_singleton.1 hx]
  exact h.trans (.right _ (.of_subset (k.recSpans_subset true)))

theorem rdNormf_works (hhead : s.AtHead d 5 0x50 e) (htraps : firstTrap ((s.issue d 5 e).normFTraps d e) = none) :
    s.RidgeWorks d e (.rdNormf d) [s.ridgeSlot d e 1] (fun s e => s.ridgeNormF d e)
      ((s.ridgeSlot d e 1).ownSpans ++ (s.ridgeSlot d e 4).recRows (s.ridgeWindow d e).1 (s.ridgeWindow d e).2) := by
  refine ridge_works (op := 0x50) (traps := fun s e => s.normFTraps d e) (outs := fun s e => [s.desc d (e.da + 1)]) rfl hhead htraps
    (fun t ht => by rw [ht]; rfl) (covers_oneRecs (.left (.refl _) _)) fun t ht => ?_
  rw [← State.ridgeSlot_congr ht, ← State.ridgeSlot_congr ht, ← State.ridgeWindow_congr ht]
  exact State.Writes.ridgeNormF

theorem rdNormb_works (hhead : s.AtHead d 5 0x51 e) (htraps : firstTrap ((s.issue d 5 e).normBTraps d e) = none) :
    s.RidgeWorks d e (.rdNormb d) ((s.issue d 5 e).normBOuts d e) (fun s e => s.ridgeNormB d e)
      ((s.ridgeSlot d e 4).ownSpans ++ (s.ridgeSlot d e 5).ownSpans ++ (s.ridgeSlot d e 6).ownSpans) := by
  have houts {t : State} (ht : ∀ n, t.desc d n = s.desc d n) : t.normBOuts d e = s.normBOuts d e := by simp only [State.normBOuts, ht]
  have hissue := houts fun n => s.issue_desc d 5 e d n
  refine ridge_works (op := 0x51) (traps := fun s e => s.normBTraps d e) (outs := fun s e => s.normBOuts d e) rfl hhead htraps
    (fun t ht => (houts ht).trans hissue.symm) (fun x hx => ?_) fun t ht => ?_
  · exact (State.covers_normBOuts (hissue ▸ hx)).trans (.right _ (.of_subset (x.recSpans_subset true)))
  · rw [← State.ridgeSlot_congr ht, ← State.ridgeSlot_congr ht, ← State.ridgeSlot_congr ht]
    exact State.Writes.ridgeNormB

theorem rdSmaxf_works (hhead : s.AtHead d 5 0x52 e) (htraps : firstTrap ((s.issue d 5 e).smaxFTraps d e) = none) :
    s.RidgeWorks d e (.rdSmaxf d) [s.ridgeSlot d e 1] (fun s e => s.ridgeSmaxF d e)
      ((s.ridgeSlot d e 1).ownSpans ++ (s.ridgeSlot d e 2).recRows (s.ridgeWindow d e).1 (s.ridgeWindow d e).2) := by
  refine ridge_works (op := 0x52) (traps := fun s e => s.smaxFTraps d e) (outs := fun s e => [s.desc d (e.da + 1)]) rfl hhead htraps
    (fun t ht => by rw [ht]; rfl) (covers_oneRecs (.left (.refl _) _)) fun t ht => ?_
  rw [← State.ridgeSlot_congr ht, ← State.ridgeSlot_congr ht, ← State.ridgeWindow_congr ht]
  exact State.Writes.ridgeSmaxF

theorem rdSmaxb_works (hhead : s.AtHead d 5 0x53 e) (htraps : firstTrap ((s.issue d 5 e).smaxBTraps d e) = none) :
    s.RidgeWorks d e (.rdSmaxb d) [s.ridgeSlot d e 3] (fun s e => s.ridgeSmaxB d e) (s.ridgeSlot d e 3).ownSpans := by
  refine ridge_works (op := 0x53) (traps := fun s e => s.smaxBTraps d e) (outs := fun s e => [s.desc d (e.da + 3)]) rfl hhead htraps
    (fun t ht => by rw [ht]; rfl) (covers_oneRecs (.refl _)) fun t ht => ?_
  rw [← State.ridgeSlot_congr ht]
  exact State.Writes.ridgeSmaxB

/-- Settles O26: each work's outputs, records and smears, covered by the blocks, records and record rows that the statement names. -/
theorem ridgeInstructionsStoreTheirOutputs : Obligations.RidgeInstructionsStoreTheirOutputs := by
  unfold Obligations.RidgeInstructionsStoreTheirOutputs
  intro s d e
  exact ⟨rdNormf_works, rdNormb_works, rdSmaxf_works, rdSmaxb_works⟩

end Sys2Proof.Machine

end

section

/-! SUPPORT. Moves of the tier engine: where their pieces lie, and where the stash map puts what they write (R144 to R147, R246, R290, R317). -/

namespace Sys2Proof.Machine
open Machine

variable {l : List Span} {m : Stash}

/-! ### The stash map within a page (R317) -/

theorem pageBytes_eq : pageBytes = 2097152 := rfl

/-- An address of the stash range is routed by its page. -/
theorem Stash.route_in {a : Nat} (h : m.range ≤ a ∧ a < m.range + m.rpages * pageBytes) :
    m.route a = (m.base ((a - m.range) / pageBytes)).map (· + (a - m.range) % pageBytes) := by
  rw [Stash.route, Stash.pageOf, if_pos (by simpa using h)]

/-- Any other stands for itself. -/
theorem Stash.route_out {a : Nat} (h : ¬(m.range ≤ a ∧ a < m.range + m.rpages * pageBytes)) : m.route a = some a := by
  rw [Stash.route, Stash.pageOf, if_neg (by simpa using h)]

/-- Within a page the map keeps distances. -/
theorem Stash.route_add (hm : m.range % pageBytes = 0) {a b j : Nat} (hroute : m.route a = some b) (hj : a % pageBytes + j < pageBytes) :
    m.route (a + j) = some (b + j) := by
  by_cases hin : m.range ≤ a ∧ a < m.range + m.rpages * pageBytes
  · have hsame : (a + j < m.range + m.rpages * pageBytes) ∧ (a + j - m.range) / pageBytes = (a - m.range) / pageBytes ∧
        (a + j - m.range) % pageBytes = (a - m.range) % pageBytes + j := by
      rw [pageBytes_eq] at *
      omega
    obtain ⟨hhi, hpage, hoff⟩ := hsame
    rw [Stash.route_in hin] at hroute
    obtain ⟨c, hc, rfl⟩ := Option.map_eq_some_iff.1 hroute
    rw [Stash.route_in ⟨by omega, hhi⟩, hpage, hc, hoff, Nat.add_assoc]
    rfl
  · have hin' : ¬(m.range ≤ a + j ∧ a + j < m.range + m.rpages * pageBytes) := by
      rw [pageBytes_eq] at *
      omega
    rw [Stash.route_out hin] at hroute
    cases hroute
    exact Stash.route_out hin'

/-- Every byte of the places `k` is what the map makes of a byte of the places `l`. -/
def Stash.Reaches (m : Stash) (l k : List Span) : Prop :=
  ∀ y ∈ k, ∀ a, y.a ≤ a → a < y.a + y.n → ∃ x ∈ l, ∃ b, x.a ≤ b ∧ b < x.a + x.n ∧ m.route b = some a

theorem State.Writes.keepsRouted {s t : State} {k : List Span} (h : s.Writes k t) (hm : Memory.wf s.mem = true) (hk : m.Reaches l k) :
    s.KeepsOutsideRouted t m l := fun a ha => (h hm).2 a fun y hy => by
  by_contra hin
  obtain ⟨x, hx, b, hlo, hhi, hroute⟩ := hk y hy a (by omega) (by omega)
  exact ha x hx b hlo hhi hroute

theorem Stash.Reaches.of_route {m' : Stash} {k : List Span} (h : m'.Reaches l k) (hroute : ∀ a, m'.route a = m.route a) : m.Reaches l k :=
  fun y hy a hlo hhi =>
    have ⟨x, hx, b, hb, hb', hr⟩ := h y hy a hlo hhi
    ⟨x, hx, b, hb, hb', (hroute b).symm.trans hr⟩

/-! ### Pieces cut and routed -/

/-- The destination bytes of a piece. -/
def Piece.span (p : Piece) : Span := { a := p.dst, n := p.n }

/-- The parts of a piece lie within it, and each within one page. -/
theorem Piece.cut_within (k : Nat) (p : Piece) : ∀ q ∈ p.cut k,
    p.dst ≤ q.dst ∧ q.dst + q.n ≤ p.dst + p.n ∧ q.dst % pageBytes + q.n ≤ pageBytes ∧ 0 < q.n := by
  induction k generalizing p with
  | zero => exact fun q hq => absurd hq List.not_mem_nil
  | succ k ih =>
    intro q hq
    rw [Piece.cut] at hq
    split at hq
    · exact absurd hq List.not_mem_nil
    · rename_i hn
      extract_lets room at hq
      have hmod (a : Nat) : a % pageBytes < pageBytes := Nat.mod_lt a (by decide)
      have hdst := hmod p.dst
      have hroom : room ≤ pageBytes - p.dst % pageBytes := Nat.min_le_left ..
      have hpos : 0 < room := by
        refine Nat.lt_min.2 ⟨by omega, ?_⟩
        split
        · rename_i a _
          have ha := hmod a
          omega
        · omega
      split at hq
      · rw [List.mem_singleton.1 hq]
        omega
      · rcases List.mem_cons.1 hq with rfl | hq
        · dsimp only
          omega
        · have h := ih _ q hq
          dsimp only at h
          omega

theorem Piece.routed_dst {p q : Piece} (h : p.routed m = some q) : m.route p.dst = some q.dst ∧ q.n = p.n := by
  unfold Piece.routed at h
  split at h
  · exact absurd h (by simp)
  · rename_i b hb
    split at h
    · obtain ⟨a, -, rfl⟩ := Option.map_eq_some_iff.1 h
      exact ⟨hb, rfl⟩
    · cases h
      exact ⟨hb, rfl⟩

/-- The pieces of a move as the tier engine moves them. -/
def Stash.parts (m : Stash) (pieces : List Piece) : List Piece := (pieces.flatMap fun p => p.cut 3).filterMap (·.routed m)

theorem Stash.parts_pos {pieces : List Piece} {p : Piece} (h : p ∈ m.parts pieces) : 0 < p.n := by
  obtain ⟨q, hq, hp⟩ := List.mem_filterMap.1 h
  obtain ⟨p0, -, hq⟩ := List.mem_flatMap.1 hq
  have hcut := Piece.cut_within 3 p0 q hq
  have hdst := Piece.routed_dst hp
  omega

theorem mem_writtenBy {y : Span} {ps : List Piece} (h : y ∈ writtenBy false ps) : ∃ p ∈ ps, y = p.span := by
  obtain ⟨p, hp, hy⟩ := List.mem_filterMap.1 h
  split at hy
  · cases hy
  · cases hy
    exact ⟨p, hp, rfl⟩

theorem span_mem_writtenBy {ps : List Piece} {p : Piece} (hp : p ∈ ps) (hdev : (placeOf p.dst).region ≠ .underlay) : p.span ∈ writtenBy false ps :=
  List.mem_filterMap.2 ⟨p, hp, by rw [if_neg hdev]; rfl⟩

/-- Pieces of a destination within its places are written where the map puts those places. -/
theorem Stash.reaches_parts (hm : m.range % pageBytes = 0) {pieces : List Piece} (h : ∀ p ∈ pieces, Covers l [p.span]) :
    m.Reaches l (writtenBy false (m.parts pieces)) := by
  intro y hy a hlo hhi
  obtain ⟨q, hq, rfl⟩ := mem_writtenBy hy
  obtain ⟨p, hp, hroute⟩ := List.mem_filterMap.1 hq
  obtain ⟨p0, hp0, hp⟩ := List.mem_flatMap.1 hp
  obtain ⟨hdst, hn⟩ := Piece.routed_dst hroute
  obtain ⟨hge, hle, hpage, -⟩ := Piece.cut_within 3 p0 p hp
  have hlo : q.dst ≤ a := hlo
  have hhi : a < q.dst + q.n := hhi
  have hb : m.route (p.dst + (a - q.dst)) = some a := by
    rw [Stash.route_add hm hdst (by omega)]
    congr 1
    omega
  by_contra hno
  have hout := h p0 hp0 (p.dst + (a - q.dst)) (fun x hx => by
    by_contra hin
    exact hno ⟨x, hx, _, by omega, by omega, hb⟩) p0.span (List.mem_singleton.2 rfl)
  have hout : p.dst + (a - q.dst) < p0.dst ∨ p0.dst + p0.n ≤ p.dst + (a - q.dst) := hout
  omega

/-! ### What a move writes -/

namespace State.Writes

variable {s : State} {ins : InsRef} {ps : List Piece} {p : Piece}

theorem putPiece {a : Nat} {bs : List Byte} {half : Option Bool} : s.Writes [{ a, n := bs.length }] (s.putPiece a bs half) := by
  unfold State.putPiece
  refine write _ _ (List.mem_singleton.2 ?_)
  rw [List.length_append, List.length_map, ← List.length_append, List.take_append_drop]

theorem movePiece (hp : p ∈ ps) (hn : 0 < p.n) : s.Writes (writtenBy false ps) (s.movePiece ins p) := by
  have hspan (h : (placeOf p.dst).region ≠ .underlay) : Covers (writtenBy false ps) [p.span] :=
    .of_subset (List.cons_subset.2 ⟨span_mem_writtenBy hp h, List.nil_subset _⟩)
  unfold State.movePiece
  extract_lets out
  split
  · refine ite (fun _ => of_changes Changes.uwSend) fun h => (write (l := [p.span]) _ _ ?_).within (hspan h)
    rw [List.length_replicate]
    exact List.mem_singleton.2 rfl
  · refine ite (fun _ => refl) fun h => (write (l := [{ a := p.dst, n := 1 }]) _ _ (List.mem_singleton.2 rfl)).within ((hspan h).trans ?_)
    exact .of_mem (List.mem_singleton.2 rfl) (Nat.le_refl _) (Nat.add_le_add_left hn _)
  · refine ite (fun _ => of_changes Changes.uwSend) fun _ => ?_
    extract_lets bs bad k bs'
    refine ite (fun _ => of_changes Changes.uwSend) fun h => trans (putPiece.within ((hspan h).trans ?_))
      (of_changes (Changes.each fun _ _ => Changes.each fun _ _ => Changes.mark))
    have hlen : bs.length = p.n := Sparse.getList_length _ _ _ _
    rw [hlen]
    exact .refl _

theorem moveAll {reads narrow writes : List Span} {pieces : List Piece} :
    s.Writes (writtenBy false ((s.tr ins.d).stash.parts pieces)) (s.moveAll ins reads narrow writes pieces) := by
  unfold State.moveAll
  extract_lets t dr dn dw
  split
  rename_i s1 trap hx
  split
  rename_i ps out hps
  have hsub : ps ⊆ (s.tr ins.d).stash.parts pieces := by
    rw [List.partition_eq_filter_filter] at hps
    cases hps
    exact List.filter_sublist.subset
  extract_lets s2
  have h1 : s.Writes (writtenBy false ps) s1 := trans (of_changes Changes.want) (of_changes (Changes.fst Changes.consume hx))
  have h2 : s1.Writes (writtenBy false ps) s2 := trans (of_changes Changes.touchTier) (of_changes Changes.setTrap)
  have h3 : s2.Writes (writtenBy false ps) ((s2.cleanWhole ps).each ps fun s p => s.movePiece ins p) :=
    trans (of_changes Changes.cleanWhole) (each fun u p hp => movePiece hp (Stash.parts_pos (hsub hp)))
  refine (trans h1 (trans h2 (trans h3 (trans (smear _ _ _) (of_changes Changes.moveDone))))).within (.of_subset fun y hy => ?_)
  obtain ⟨p, hp, hy⟩ := List.mem_filterMap.1 hy
  exact List.mem_filterMap.2 ⟨p, hsub hp, hy⟩

end State.Writes

/-! ### Pieces of a view (R144 to R147) -/

variable {src dst : Desc}

/-- A run of bytes within a slate row of a block. -/
theorem Desc.covers_slateRow {r bc off n : Nat} (h : off + n ≤ 4 * fmtBits dst.fmt) :
    Covers (dst.blockPair (r / 32) bc) [{ a := dst.block (r / 32) bc + r % 32 * (4 * fmtBits dst.fmt) + off, n }] := by
  obtain ⟨d, hd, hda, hdn⟩ := dst.mem_blockPair (r / 32) bc
  refine .of_mem hd (by dsimp only; omega) ?_
  dsimp only
  rw [hda, hdn]
  rcases fmtBits_cases dst.fmt with ⟨hb, -⟩ | ⟨-, hb | hb | hb | hb | hb⟩ <;> rw [hb] at h ⊢ <;> omega

theorem padPiece_within {r bc : Nat} {nibble : Bool} : ∀ p ∈ padPiece dst r bc nibble, Covers (dst.blockPair (r / 32) bc) [p.span] := by
  intro p hp
  unfold padPiece at hp
  extract_lets b a k at hp
  split at hp
  · rename_i hk
    have hb := fmtBits_cases dst.fmt
    have hkb : (k * b + 7) / 8 ≤ 4 * b := by
      unfold b
      rcases hb with ⟨hb, -⟩ | ⟨-, hb | hb | hb | hb | hb⟩ <;> rw [hb] <;> omega
    rcases List.mem_append.1 hp with hp | hp
    · split at hp
      · rename_i hn
        rw [List.mem_singleton.1 hp]
        refine dst.covers_slateRow ?_
        simp only [Bool.and_eq_true, decide_eq_true_eq] at hn
        obtain ⟨⟨-, hb4⟩, -⟩ := hn
        have hb4 : fmtBits dst.fmt = 4 := hb4
        show k / 2 + 1 ≤ 4 * fmtBits dst.fmt
        omega
      · exact absurd hp List.not_mem_nil
    · rw [List.mem_singleton.1 hp]
      refine dst.covers_slateRow ?_
      show (k * b + 7) / 8 + (4 * b - (k * b + 7) / 8) ≤ 4 * b
      omega
  · exact absurd hp List.not_mem_nil

theorem rowPiece_within {sr : Option Nat} {r c bc : Nat} : ∀ p ∈ rowPiece src sr dst r c bc, Covers (dst.blockPair (r / 32) bc) [p.span] := by
  intro p hp
  unfold rowPiece at hp
  extract_lets b w a scaleAt nc half at hp
  have hscale {ps : PieceSrc} (hp : p ∈ (if isMx dst.fmt then [{ src := ps, dst := scaleAt, n := 1 }] else [] : List Piece)) :
      Covers (dst.blockPair (r / 32) bc) [p.span] := by
    split at hp
    · rename_i hmx
      rw [List.mem_singleton.1 hp]
      exact dst.covers_scale hmx rfl rfl
    · exact absurd hp List.not_mem_nil
  split at hp
  · rcases List.mem_cons.1 hp with rfl | hp
    · exact dst.covers_slateRow (off := 0) (Nat.le_of_eq (Nat.zero_add _))
    · exact hscale hp
  · rcases List.mem_append.1 hp with hp | hp
    · rcases List.mem_cons.1 hp with rfl | hp
      · refine dst.covers_slateRow (off := 0) ?_
        have hnc : nc ≤ 32 := Nat.min_le_left ..
        show 0 + (nc * fmtBits dst.fmt + 7) / 8 ≤ 4 * fmtBits dst.fmt
        rcases fmtBits_cases dst.fmt with ⟨hb, -⟩ | ⟨-, hb | hb | hb | hb | hb⟩ <;> rw [hb] <;> omega
      · exact padPiece_within p hp
    · exact hscale hp

/-- The padding of the blocks that rows and columns reach lies in those blocks. -/
theorem padRows_within {rows c : Nat} : ∀ p ∈ padRows dst rows c, Covers (dst.blockSpans 0 rows 0 c) [p.span] := by
  intro p hp
  obtain ⟨k, hk, hp⟩ := List.mem_flatMap.1 hp
  obtain ⟨bc, hbc, hp⟩ := List.mem_flatMap.1 hp
  have hk := List.mem_range.1 hk
  have hbc := List.mem_range.1 hbc
  refine (dst.covers_block (br := (rows + k) / 32) (bc := bc) (by omega) (by omega) (by omega) (by omega) (by omega) (by omega)).trans ?_
  split at hp
  · exact padPiece_within p hp
  · exact rowPiece_within p hp

theorem movePieces_within : ∀ p ∈ movePieces src dst, Covers (dst.blockSpans 0 (min src.rows dst.rows) 0 (min src.cols dst.cols)) [p.span] := by
  intro p hp
  rcases List.mem_append.1 hp with hp | hp
  · obtain ⟨r, hr, hp⟩ := List.mem_flatMap.1 hp
    obtain ⟨bc, hbc, hp⟩ := List.mem_flatMap.1 hp
    have hr := List.mem_range.1 hr
    have hbc := List.mem_range.1 hbc
    exact (dst.covers_block (br := r / 32) (bc := bc) (by omega) (by omega) (by omega) (by omega) (by omega) (by omega)).trans (rowPiece_within p hp)
  · exact padRows_within p hp

end Sys2Proof.Machine

end

section

/-! Obligation on the moves of the tier engine: TX.STASH, TX.FETCH and TX.GATHER move their pieces and store only where the stash map puts
their destination (R245 to R247, R292, R317 to R321). -/

namespace Sys2Proof.Machine
open Machine

variable {s : State} {d : TrussId} {e : QEntry}

/-! ### What an issue leaves for the tier engine -/

theorem State.issue_stash (s : State) (d q : Nat) (e : QEntry) (x : Nat) : ((s.issue d q e).tr x).stash = (s.tr x).stash := by
  have h : s.TrussKeeps Truss.stash (s.issue d q e) := State.TrussKeeps.modTr fun t => (congrArg Truss.stash (t.takeWaits_keeps e.wa e.wb) :)
  exact h x

theorem State.issue_tierSpan (s : State) (d q : Nat) (e : QEntry) (no : Option Nat) : (s.issue d q e).tierSpan no = s.tierSpan no := by
  funext x
  have h : (s.issue d q e).inStash no x = s.inStash no x := by simp only [State.inStash, State.issue_stash]
  unfold State.tierSpan
  rw [h]
  rfl

/-! ### TX.STASH and TX.FETCH (R246, R318 to R320) -/

/-- What a move reads and writes. -/
def moveReads (src dst : Desc) : List Span := src.spans 0 (min src.rows dst.rows) 0 (min src.cols dst.cols)
def moveWrites (src dst : Desc) : List Span := dst.blockSpans 0 (min src.rows dst.rows) 0 (min src.cols dst.cols)

/-- Do spans touch an EMPTY page? -/
def Stash.meetsEmpty (m : Stash) (l : List Span) : Bool := (m.pages l).any fun p => m.look p = .empty

/-- The places that a move of the tier engine writes, where the map puts them. -/
theorem State.moveAll_keepsRouted {ins : InsRef} {reads : List Span} {t : State} {src dst : Desc} {writes : List Span}
    (hst : s.Writes [] t) (hm : Memory.wf s.mem = true) (hrange : (t.tr ins.d).stash.range % pageBytes = 0) :
    s.KeepsOutsideRouted (t.moveAll ins reads [] writes (movePieces src dst)) (t.tr ins.d).stash (moveWrites src dst) :=
  State.Writes.keepsRouted ((hst.within .nil).trans .moveAll) hm (Stash.reaches_parts hrange movePieces_within)

theorem Stash.reaches_nil {m : Stash} {l : List Span} : m.Reaches l [] := fun _ hy => absurd hy List.not_mem_nil

/-- A TX.STASH that finds its pages moves; one that does not moves nothing. -/
theorem State.stashTry_keepsRouted (s : State) (x : StashStall) (hm : Memory.wf s.mem = true) (hrange : (s.tr x.ins.d).stash.range % pageBytes = 0) :
    s.KeepsOutsideRouted (s.stashTry x) ((s.stashTry x).tr x.ins.d).stash (moveWrites (Desc.ofWords x.src) (Desc.ofWords x.dst)) := by
  unfold State.stashTry
  extract_lets src dst rows c writes
  split
  rename_i u ok hx
  have hsu : s.Writes [] u := .of_changes (Changes.fst Changes.allocPages hx)
  have hurange : (u.tr x.ins.d).stash.range = (s.tr x.ins.d).stash.range := by
    have h : s.TrussKeeps (fun t => t.stash.range) (s.allocPages x.ins.d ((s.tr x.ins.d).stash.pages writes)).1 :=
      State.TrussKeeps.allocPages fun _ _ => rfl
    rw [hx] at h
    exact h x.ins.d
  split
  · generalize hv : (u.modTr x.ins.d fun t => { t with stash := { t.stash with stalled := t.stash.stalled.filter (·.ins ≠ x.ins) } }) = v
    have huv : u.Writes [] v := hv ▸ .of_changes Changes.modTr
    have hvrange : (v.tr x.ins.d).stash.range = (u.tr x.ins.d).stash.range := by
      have h : u.TrussKeeps (fun t => t.stash.range) v := hv ▸ .modTr fun _ => rfl
      exact h x.ins.d
    have hstash : v.TrussKeeps Truss.stash (v.moveAll x.ins (src.spans 0 rows 0 c) [] writes (movePieces src dst)) := .moveAll fun _ _ => rfl
    rw [hstash]
    exact State.moveAll_keepsRouted (hsu.trans huv) hm (by rw [hvrange, hurange, hrange])
  · split
    · exact hsu.keepsRouted hm Stash.reaches_nil
    · exact (hsu.trans (.of_changes Changes.modTr)).keepsRouted hm Stash.reaches_nil

/-- With no TX.STASH stalled the end of a TX.FETCH writes nothing. -/
theorem State.Writes.freePages_idle {ins : InsRef} {l : List Span} (h : (s.tr ins.d).stash.stalled = []) : s.Writes l (s.freePages ins) := by
  unfold State.freePages
  extract_lets t
  split
  · exact refl
  · split
    · exact refl
    · rw [State.stashResume_idle]
      · exact of_changes Changes.modTr
      · rw [State.tr_modTr_same]
        exact h

/-- A TX.FETCH that has issued, and the pages that it will free. -/
def State.fetchBegun (s : State) (d : TrussId) (e : QEntry) (freed : List (InsRef × List Nat)) : State :=
  (s.issue d 6 e).modTr d fun t => { t with stash := { t.stash with freeing := t.stash.freeing ++ freed } }

theorem tierMove_run {fetch : Bool} (h : s.AtHead d 6 (if fetch then 0x39 else 0x38) e) (htraps : tierTraps (s.desc d e.da) (s.desc d e.db) = none)
    (hspans : (moveReads (s.desc d e.da) (s.desc d e.db) ++ moveWrites (s.desc d e.da) (s.desc d e.db)).all (s.tierSpan (some d.val)) = true)
    (hreads : (s.tr d).stash.meetsEmpty (moveReads (s.desc d e.da) (s.desc d e.db)) = false)
    (hwrites : (fetch && (s.tr d).stash.meetsEmpty (moveWrites (s.desc d e.da) (s.desc d e.db))) = false) :
    tierMove d fetch s = if fetch then
      .next (((s.fetchBegun d e
          [(⟨d, e.seq⟩, (s.tr d).stash.pages ((s.desc d e.da).blockSpans 0 (s.desc d e.da).rows 0 (s.desc d e.da).cols))]).moveAll ⟨d, e.seq⟩
        (moveReads (s.desc d e.da) (s.desc d e.db)) [] (moveWrites (s.desc d e.da) (s.desc d e.db))
        (movePieces (s.desc d e.da) (s.desc d e.db))).freePages ⟨d, e.seq⟩)
      else .next ((s.issue d 6 e).stashTry { ins := ⟨d, e.seq⟩, src := (s.tr d).descWords e.da, dst := (s.tr d).descWords e.db }) := by
  have hready : s.ready d 6 (if fetch then 0x39 else 0x38) = some e := h
  simp only [tierMove]
  rw [hready]
  simp only [State.issue_desc, State.issue_descWords, State.issue_stash, State.issue_tierSpan]
  rw [htraps]
  refine if_neg ?_
  change ¬(!(moveReads (s.desc d e.da) (s.desc d e.db) ++ moveWrites (s.desc d e.da) (s.desc d e.db)).all (s.tierSpan (some d.val)) ||
    (s.tr d).stash.meetsEmpty (moveReads (s.desc d e.da) (s.desc d e.db)) ||
    (fetch && (s.tr d).stash.meetsEmpty (moveWrites (s.desc d e.da) (s.desc d e.db)))) = true
  rw [hspans, hreads, hwrites]
  decide

/-! ### TX.GATHER (R247, R292) -/

theorem State.askIndex_link (s : State) (d : Nat) (run : Span) (data : LineData) : (s.askIndex d run data).mcl.link = s.mcl.link := by
  have hnote (t : State) (p : Bool) : (t.notePoison p).mcl.link = t.mcl.link :=
    (congrArg Mcl.link (Changes.notePoison.kept .mcl (by decide)) :)
  unfold State.askIndex
  rw [hnote, State.askHost]
  split
  · rfl
  · refine State.each_keeps (fun s => s.mcl.link) (fun _ _ => ?_) _ _
    rfl

/-- The pieces that a gather moves lie in the blocks of its destination. -/
theorem State.Writes.gather {data : LineData} : ∃ pieces : List Piece,
    s.Writes (writtenBy false ((s.tr d).stash.parts pieces)) (s.gather d e data) ∧
    ∀ p ∈ pieces, Covers ((s.desc d (descIdx (e.db + 1))).blockSpans 0 (min (s.desc d e.db).rows (s.desc d (descIdx (e.db + 1))).rows) 0
      (s.desc d (descIdx (e.db + 1))).cols) [p.span] := by
  unfold State.gather
  extract_lets tab idx dst run rows c far item js hit reads rowReads reach blocks pieces writes u v
  have hu : Changes [.reports] s u := .mono (.andThen (.each fun _ _ => Changes.narrow) Changes.occ)
  have hv : Changes [.reports, .regs] s (v.corrected data (reads ++ rowReads)) :=
    .mono (.andThen hu (.andThen (.ite Changes.cross .refl) Changes.corrected))
  have hstash : ((v.corrected data (reads ++ rowReads)).tr d).stash = (s.tr d).stash :=
    State.TrussKeeps.of_changes (v := Truss.stash) hv (by decide) d
  refine ⟨pieces, ?_, fun p hp => ?_⟩
  · have hmove := State.Writes.moveAll (s := v.corrected data (reads ++ rowReads)) (ins := e.ref d) (reads := reads) (narrow := rowReads)
      (writes := writes) (pieces := pieces)
    rw [show (e.ref d).d = d from rfl, hstash] at hmove
    exact trans (of_changes hv) hmove
  · have hc : c ≤ dst.cols := Nat.min_le_right ..
    have hreach (br : Nat) : reach br ≤ dst.cols := by
      unfold reach
      split
      · exact Nat.le_refl _
      · exact hc
    have hblock {r bc : Nat} {k : Nat} (hr : r < rows) (hk : k ≤ dst.cols) (hbc : bc < (k + 31) / 32) :
        Covers (dst.blockSpans 0 rows 0 dst.cols) (dst.blockPair (r / 32) bc) :=
      dst.covers_block (by omega) (by omega) (by omega) (by omega) (by omega) (by omega)
    rcases List.mem_append.1 hp with hp | hp
    · obtain ⟨j, hj, hp⟩ := List.mem_flatMap.1 hp
      have hj := List.mem_range.1 hj
      split at hp
      · rcases List.mem_append.1 hp with hp | hp
        · obtain ⟨bc, hbc, hp⟩ := List.mem_flatMap.1 hp
          exact (hblock hj hc (List.mem_range.1 hbc)).trans (rowPiece_within p hp)
        · obtain ⟨bc, hbc, hp⟩ := List.mem_flatMap.1 hp
          exact (hblock hj (hreach _) (List.mem_range.1 (List.mem_of_mem_drop hbc))).trans (padPiece_within p hp)
      · obtain ⟨bc, hbc, hp⟩ := List.mem_flatMap.1 hp
        exact (hblock hj (Nat.le_refl _) (List.mem_range.1 hbc)).trans (rowPiece_within p hp)
    · exact (Desc.blockSpans_mono (Nat.le_refl _) (Nat.le_refl _) (Nat.le_refl _) (hreach _)).trans (padRows_within p hp)

theorem txGather_complete {data : LineData} (h : s.AtHead d 6 0x3A e)
    (htraps : gatherTraps (s.desc d e.da) (s.desc d e.db) (s.desc d (descIdx (e.db + 1))) = none)
    (hspans : ((s.desc d e.db).runSpan :: (s.desc d (descIdx (e.db + 1))).blockSpans 0 (min (s.desc d e.db).rows (s.desc d (descIdx (e.db + 1))).rows) 0
      (s.desc d (descIdx (e.db + 1))).cols).all (s.tierSpan none) = true)
    (htable : tableOk (s.desc d e.da).all = true) (hrange : ∀ x ∈ (s.desc d e.da).all, s.rangeOk x.a x.n = true)
    (hindex : indexAtHand ((placeOf (s.desc d e.db).base).region = .underlay) (4 * min (s.desc d e.db).rows (s.desc d (descIdx (e.db + 1))).rows)
      data = true) (hlink : (placeOf (s.desc d e.db).base).region = .underlay → s.mcl.link = 2) :
    Completes (.txGather d data) s ((if (placeOf (s.desc d e.db).base).region = .underlay then
      (s.issue d 6 e).askIndex d (s.desc d e.db).runSpan data else s.issue d 6 e).gather d e data) := by
  have hready : s.ready d 6 0x3A = some e := h
  refine Completes.of_waitRecall (congrArg (waitRecall s) ?_)
  simp only [txGather]
  rw [hready]
  simp only [State.issue_desc, State.issue_tierSpan]
  rw [htraps]
  have hall : ((s.desc d e.da).all.all fun x => s.rangeOk x.a x.n) = true := List.all_eq_true.2 hrange
  refine (if_neg ?_).trans (if_neg ?_)
  · change ¬(!((s.desc d e.db).runSpan :: (s.desc d (descIdx (e.db + 1))).blockSpans 0
      (min (s.desc d e.db).rows (s.desc d (descIdx (e.db + 1))).rows) 0 (s.desc d (descIdx (e.db + 1))).cols).all (s.tierSpan none) ||
      !tableOk (s.desc d e.da).all || !(s.desc d e.da).all.all fun x => s.rangeOk x.a x.n) = true
    rw [hspans, htable, hall]
    decide
  · rw [hindex]
    by_cases hfar : (placeOf (s.desc d e.db).base).region = .underlay
    · have h : (s.issue d 6 e).mcl.link = 2 := hlink hfar
      simpa [hfar, State.askIndex_link] using h
    · simp [hfar]

/-! ### The three moves -/

theorem txStash_keeps (hm : Memory.wf s.mem = true) (hrange : (s.tr d).stash.range % pageBytes = 0) {x : StashStall} (hx : x.ins.d = d) :
    s.KeepsOutsideRouted ((s.issue d 6 e).stashTry x) (((s.issue d 6 e).stashTry x).tr d).stash (moveWrites (Desc.ofWords x.src) (Desc.ofWords x.dst)) := by
  have h := (s.issue d 6 e).stashTry_keepsRouted x hm (by rw [hx, State.issue_stash, hrange])
  rw [hx] at h
  exact h

/-- A stash with further pages to be freed routes as before. -/
def Stash.freeingAlso (m : Stash) (freed : List (InsRef × List Nat)) : Stash := { m with freeing := m.freeing ++ freed }

/-- A TX.FETCH, with no TX.STASH stalled, writes where the map puts its destination. -/
theorem State.fetch_keepsRouted {u : State} {ins : InsRef} {src dst : Desc} {reads : List Span} {m : Stash} {freed : List (InsRef × List Nat)}
    (hsu : s.Writes [] u) (hstash : (u.tr ins.d).stash = m.freeingAlso freed) (hm : Memory.wf s.mem = true) (hrange : m.range % pageBytes = 0)
    (hstalled : m.stalled = []) : s.KeepsOutsideRouted
      ((u.moveAll ins reads [] (moveWrites src dst) (movePieces src dst)).freePages ins) m (moveWrites src dst) := by
  have hmoved : ((u.moveAll ins reads [] (moveWrites src dst) (movePieces src dst)).tr ins.d).stash = (u.tr ins.d).stash :=
    State.TrussKeeps.moveAll (v := Truss.stash) (fun _ _ => rfl) ins.d
  have hidle : ((u.moveAll ins reads [] (moveWrites src dst) (movePieces src dst)).tr ins.d).stash.stalled = [] := by
    rw [hmoved, hstash]
    exact hstalled
  have hreach := (Stash.reaches_parts (m := m.freeingAlso freed) hrange (movePieces_within (src := src) (dst := dst))).of_route (m := m) fun _ => rfl
  rw [← hstash] at hreach
  exact ((hsu.within .nil).trans (State.Writes.moveAll.trans (State.Writes.freePages_idle hidle))).keepsRouted hm hreach

theorem State.fetchBegun_stash (s : State) (d : TrussId) (e : QEntry) (freed : List (InsRef × List Nat)) :
    ((s.fetchBegun d e freed).tr d).stash = (s.tr d).stash.freeingAlso freed := by
  rw [State.fetchBegun, State.tr_modTr_same, ← State.issue_stash s d 6 e d]
  rfl

theorem State.Writes.fetchBegun {freed : List (InsRef × List Nat)} {l : List Span} : s.Writes l (s.fetchBegun d e freed) :=
  trans (of_changes Changes.issue) (of_changes Changes.modTr)

/-- A gather's state: issued, and the host asked where its index list lies there. -/
def State.gatherAsked (s : State) (d : TrussId) (e : QEntry) (data : LineData) : State :=
  if (placeOf (s.desc d e.db).base).region = .underlay then (s.issue d 6 e).askIndex d (s.desc d e.db).runSpan data else s.issue d 6 e

theorem State.gatherAsked_changes {data : LineData} : Changes [.mcl, .regs, .reports, .once] (s.issue d 6 e) (s.gatherAsked d e data) :=
  .mono (.ite Changes.askIndex .refl)

theorem txGather_keeps {data : LineData} (hm : Memory.wf s.mem = true) (hrange : (s.tr d).stash.range % pageBytes = 0) :
    s.KeepsOutsideRouted ((s.gatherAsked d e data).gather d e data) (s.tr d).stash
      ((s.desc d (descIdx (e.db + 1))).blockSpans 0 (min (s.desc d e.db).rows (s.desc d (descIdx (e.db + 1))).rows) 0
        (s.desc d (descIdx (e.db + 1))).cols) := by
  have hdesc (n : Nat) : (s.gatherAsked d e data).desc d n = s.desc d n :=
    (State.desc_congr (.of_changes State.gatherAsked_changes) d n).trans (s.issue_desc ..)
  have hstash : ((s.gatherAsked d e data).tr d).stash = (s.tr d).stash :=
    (State.TrussKeeps.of_changes (v := Truss.stash) State.gatherAsked_changes (by decide) d).trans (s.issue_stash ..)
  obtain ⟨pieces, hwrites, hpieces⟩ := State.Writes.gather (s := s.gatherAsked d e data) (d := d) (e := e) (data := data)
  rw [hstash] at hwrites
  simp only [hdesc] at hpieces
  exact ((State.Writes.of_changes Changes.issue).trans (.trans (.of_changes State.gatherAsked_changes) hwrites)).keepsRouted hm
    (Stash.reaches_parts hrange hpieces)

/-- Settles O28: every part of a piece lies in one page, so that the stash map puts its bytes where it puts those of the destination. -/
theorem tierMovesStoreIntoDestinations : Obligations.TierMovesStoreIntoDestinations := by
  unfold Obligations.TierMovesStoreIntoDestinations
  intro s d e src dst rows c reads writes m empty s1
  refine ⟨fun hhead htraps hspans hreads => ?_, fun hhead htraps hspans hreads hwrites => ?_, fun data hhead => ?_⟩
  · refine ⟨Completes.of_waitRecall (congrArg (waitRecall s) (tierMove_run (fetch := false) hhead htraps hspans hreads rfl)), fun hm hrange => ?_⟩
    exact txStash_keeps hm hrange rfl
  · refine ⟨Completes.of_waitRecall (congrArg (waitRecall s) (tierMove_run (fetch := true) hhead htraps hspans hreads hwrites)), fun hm hrange hstalled => ?_⟩
    exact State.fetch_keepsRouted State.Writes.fetchBegun (s.fetchBegun_stash d e _) hm hrange hstalled
  · intro out n outs htraps hspans htable hrangeOk hindex hlink
    exact ⟨txGather_complete hhead htraps hspans htable hrangeOk hindex hlink, fun hm hrange => txGather_keeps hm hrange⟩

end Sys2Proof.Machine

end
